-- ==== Sys2Proof/Word.lean ====
section
/-! DEFINITION. The machine's word types and the small structures that name agents and encoded operands (spec 02, R8, R22, R30, R31). -/

namespace Sys2Proof

/-- A general or predicate register, a control register, an address while it is computed (R22). -/
abbrev W := BitVec 64
/-- A byte of memory. -/
abbrev Byte := BitVec 8
/-- A vector register (R22). -/
abbrev V := BitVec 512
/-- A capability (R342). -/
abbrev Cap := BitVec 128

/-- The three cores of a tile (R15). -/
inductive CoreKind where
  | flow
  | shape
  | math
deriving DecidableEq, Repr

/-- The code of a core kind: 0 flow, 1 shape, 2 math (R29). -/
def CoreKind.code : CoreKind → Nat
  | .flow => 0
  | .shape => 1
  | .math => 2

/-- The core kind of a code; code 3 names no core. -/
def CoreKind.ofCode : Nat → Option CoreKind
  | 0 => some .flow
  | 1 => some .shape
  | 2 => some .math
  | _ => none

/-- A physical tile site (R8): column x, row y. -/
structure Site where
  x : Nat
  y : Nat
deriving DecidableEq, Repr

/-- One core of one tile. -/
structure CoreId where
  site : Site
  kind : CoreKind
deriving DecidableEq, Repr

/-- The register files of R22 that an instruction field can name. -/
inductive RFile where
  | g | p | v | c | q | m | z | s
deriving DecidableEq, Repr

/-- A firmware image as a boot stage presents it (R405): the public key carried with it, its signature, and its security version. -/
structure FwStage where
  pubKey : List Byte
  signature : List Byte
  image : List Byte
  version : Nat
deriving DecidableEq, Repr

/-- The words of one instruction, as R30 and R33 lay them out: which prefixes stand before the base word with their payloads,
and the base word itself.  `page` says that PX.PAGE is present and `look` is its lookahead (the page number is the row's);
`reg` is PX.REG [7:2], `ord` PX.ORD [7:3], `pred` PX.PRED [7:4]; `imms` are the PX.IMM payloads, the first being the highest
bits (R35). -/
structure Enc where
  page : Bool
  look : BitVec 4
  pred : Option (BitVec 4)
  ord  : Option (BitVec 5)
  fn   : Option (BitVec 8)
  reg  : Option (BitVec 6)
  imms : List (BitVec 8)
  base : BitVec 16
deriving DecidableEq, Repr

/-- An instruction with no prefix word. -/
def Enc.plain (base : BitVec 16) : Enc := ⟨false, 0, none, none, none, none, [], base⟩
/-- An instruction whose only prefix is PX.PAGE with lookahead 0. -/
def Enc.paged (base : BitVec 16) : Enc := ⟨true, 0, none, none, none, none, [], base⟩

end Sys2Proof
end

