-- ==== Sys2Proof/Syntax.lean ====
section
/-! DEFINITION. The abstract syntax: one constructor for every row of spec/opcode_table.json.  The rows with an encoding carry
the words of the instruction (`Enc`); the rows without one are whole steps of the module's agents and carry what names the
step and the data that the outside world brings to it. -/

namespace Sys2Proof

/-- The steps of the module (spec/opcode_table.json). -/
inductive Instr where
  /-- ADD, R83. -/
  | add (e : Enc)
  /-- SUB, R83. -/
  | sub (e : Enc)
  /-- AND, R83. -/
  | and (e : Enc)
  /-- OR, R83. -/
  | or (e : Enc)
  /-- XOR, R83. -/
  | xor (e : Enc)
  /-- SLL, R83. -/
  | sll (e : Enc)
  /-- SRL, R83. -/
  | srl (e : Enc)
  /-- SRA, R83. -/
  | sra (e : Enc)
  /-- ADDI, R84. -/
  | addi (e : Enc)
  /-- ANDI, R84. -/
  | andi (e : Enc)
  /-- ORI, R84. -/
  | ori (e : Enc)
  /-- XORI, R84. -/
  | xori (e : Enc)
  /-- SLLI, R84. -/
  | slli (e : Enc)
  /-- SRLI, R84. -/
  | srli (e : Enc)
  /-- SRAI, R84. -/
  | srai (e : Enc)
  /-- LI, R85. -/
  | li (e : Enc)
  /-- LIH, R85. -/
  | lih (e : Enc)
  /-- MOV, R83. -/
  | mov (e : Enc)
  /-- SLT, R83. -/
  | slt (e : Enc)
  /-- SLTU, R83. -/
  | sltu (e : Enc)
  /-- SEQ, R83. -/
  | seq (e : Enc)
  /-- LD, R212. -/
  | ld (e : Enc)
  /-- LDN, R212. -/
  | ldn (e : Enc)
  /-- ST, R212. -/
  | st (e : Enc)
  /-- STN, R212. -/
  | stn (e : Enc)
  /-- BT, R95. -/
  | bt (e : Enc)
  /-- BF, R95. -/
  | bf (e : Enc)
  /-- J, R95. -/
  | j (e : Enc)
  /-- JAL, R95. -/
  | jal (e : Enc)
  /-- JR, R96. -/
  | jr (e : Enc)
  /-- JALR, R96. -/
  | jalr (e : Enc)
  /-- RET, R96. -/
  | ret (e : Enc)
  /-- DONE, R248. -/
  | done (e : Enc)
  /-- HALT, R248. -/
  | halt (e : Enc)
  /-- REQUEUE, R248. -/
  | requeue (e : Enc)
  /-- BRK, R372. -/
  | brk (e : Enc)
  /-- SEND, R222. -/
  | send (e : Enc)
  /-- SENDF, R222. -/
  | sendf (e : Enc)
  /-- PUT, R222. -/
  | put (e : Enc)
  /-- GET, R223. -/
  | get (e : Enc)
  /-- QRD, R226. -/
  | qrd (e : Enc)
  /-- QWR, R226. -/
  | qwr (e : Enc)
  /-- QTRY, R226. -/
  | qtry (e : Enc)
  /-- QBIND, R225. -/
  | qbind (e : Enc)
  /-- LEA, R86. -/
  | lea (e : Enc)
  /-- CMPEQ, R87. -/
  | cmpeq (e : Enc)
  /-- CMPNE, R87. -/
  | cmpne (e : Enc)
  /-- CMPLT, R87. -/
  | cmplt (e : Enc)
  /-- CMPLTU, R87. -/
  | cmpltu (e : Enc)
  /-- CMPIEQ, R87. -/
  | cmpieq (e : Enc)
  /-- CMPILT, R87. -/
  | cmpilt (e : Enc)
  /-- CSEL, R86. -/
  | csel (e : Enc)
  /-- SEMINC, R228. -/
  | seminc (e : Enc)
  /-- SEMWAIT, R228. -/
  | semwait (e : Enc)
  /-- SEMTRY, R228. -/
  | semtry (e : Enc)
  /-- SEMRD, R228. -/
  | semrd (e : Enc)
  /-- FENCE, R219. -/
  | fence (e : Enc)
  /-- IFENCE, R219. -/
  | ifence (e : Enc)
  /-- CBSYNC, R206. -/
  | cbsync (e : Enc)
  /-- MUL, R89. -/
  | mul (e : Enc)
  /-- MULH, R89. -/
  | mulh (e : Enc)
  /-- MULHU, R89. -/
  | mulhu (e : Enc)
  /-- DIV, R90. -/
  | div (e : Enc)
  /-- DIVU, R90. -/
  | divu (e : Enc)
  /-- REM, R90. -/
  | rem (e : Enc)
  /-- REMU, R90. -/
  | remu (e : Enc)
  /-- MIN, R91. -/
  | min (e : Enc)
  /-- MAX, R91. -/
  | max (e : Enc)
  /-- MINU, R91. -/
  | minu (e : Enc)
  /-- MAXU, R91. -/
  | maxu (e : Enc)
  /-- CLZ, R92. -/
  | clz (e : Enc)
  /-- CTZ, R92. -/
  | ctz (e : Enc)
  /-- POPC, R92. -/
  | popc (e : Enc)
  /-- BREV, R92. -/
  | brev (e : Enc)
  /-- BEXT, R93. -/
  | bext (e : Enc)
  /-- BEXTS, R93. -/
  | bexts (e : Enc)
  /-- BINS, R93. -/
  | bins (e : Enc)
  /-- SEXT, R94. -/
  | sext (e : Enc)
  /-- ZEXT, R94. -/
  | zext (e : Enc)
  /-- PAND, R88. -/
  | pand (e : Enc)
  /-- POR, R88. -/
  | por (e : Enc)
  /-- PXOR, R88. -/
  | pxor (e : Enc)
  /-- PNOT, R88. -/
  | pnot (e : Enc)
  /-- PFROMG, R88. -/
  | pfromg (e : Enc)
  /-- PTOG, R88. -/
  | ptog (e : Enc)
  /-- PCNT, R88. -/
  | pcnt (e : Enc)
  /-- PFIRST, R88. -/
  | pfirst (e : Enc)
  /-- AMO, R217. -/
  | amo (e : Enc)
  /-- AMOW, R217. -/
  | amow (e : Enc)
  /-- CAS, R217. -/
  | cas (e : Enc)
  /-- CASW, R217. -/
  | casw (e : Enc)
  /-- BOP, R217. -/
  | bop (e : Enc)
  /-- BOPW, R217. -/
  | bopw (e : Enc)
  /-- RAMO, R218. -/
  | ramo (e : Enc)
  /-- RAMOW, R218. -/
  | ramow (e : Enc)
  /-- TLRD, R231. -/
  | tlrd (e : Enc)
  /-- TLWAIT, R231. -/
  | tlwait (e : Enc)
  /-- JOINSET, R254. -/
  | joinset (e : Enc)
  /-- JOINARR, R254. -/
  | joinarr (e : Enc)
  /-- CRRD, R98. -/
  | crrd (e : Enc)
  /-- CRWR, R98. -/
  | crwr (e : Enc)
  /-- HMASK, R252. -/
  | hmask (e : Enc)
  /-- HUNMASK, R252. -/
  | hunmask (e : Enc)
  /-- HRET, R248. -/
  | hret (e : Enc)
  /-- CYC, R99. -/
  | cyc (e : Enc)
  /-- LATRD, R100. -/
  | latrd (e : Enc)
  /-- VADD, R107. -/
  | vadd (e : Enc)
  /-- VSUB, R107. -/
  | vsub (e : Enc)
  /-- VMUL, R107. -/
  | vmul (e : Enc)
  /-- VFMA, R107. -/
  | vfma (e : Enc)
  /-- VFMS, R107. -/
  | vfms (e : Enc)
  /-- VDIV, R107. -/
  | vdiv (e : Enc)
  /-- VSQRT, R107. -/
  | vsqrt (e : Enc)
  /-- VMIN, R108. -/
  | vmin (e : Enc)
  /-- VMAX, R108. -/
  | vmax (e : Enc)
  /-- VABS, R108. -/
  | vabs (e : Enc)
  /-- VNEG, R108. -/
  | vneg (e : Enc)
  /-- VAND, R109. -/
  | vand (e : Enc)
  /-- VOR, R109. -/
  | vor (e : Enc)
  /-- VXOR, R109. -/
  | vxor (e : Enc)
  /-- VNOT, R109. -/
  | vnot (e : Enc)
  /-- VSHL, R109. -/
  | vshl (e : Enc)
  /-- VSHR, R109. -/
  | vshr (e : Enc)
  /-- VSRA, R109. -/
  | vsra (e : Enc)
  /-- VCMPEQ, R110. -/
  | vcmpeq (e : Enc)
  /-- VCMPNE, R110. -/
  | vcmpne (e : Enc)
  /-- VCMPLT, R110. -/
  | vcmplt (e : Enc)
  /-- VCMPLE, R110. -/
  | vcmple (e : Enc)
  /-- VSEL, R111. -/
  | vsel (e : Enc)
  /-- VCVT, R112. -/
  | vcvt (e : Enc)
  /-- VQUANT, R114. -/
  | vquant (e : Enc)
  /-- VDEQ, R115. -/
  | vdeq (e : Enc)
  /-- VREDSUM, R116. -/
  | vredsum (e : Enc)
  /-- VREDMAX, R116. -/
  | vredmax (e : Enc)
  /-- VREDMIN, R116. -/
  | vredmin (e : Enc)
  /-- VREDSUMW, R116. -/
  | vredsumw (e : Enc)
  /-- VDOT, R117. -/
  | vdot (e : Enc)
  /-- VDOTC, R117. -/
  | vdotc (e : Enc)
  /-- VCMUL, R118. -/
  | vcmul (e : Enc)
  /-- VCMULC, R118. -/
  | vcmulc (e : Enc)
  /-- VEXP2, R107. -/
  | vexp2 (e : Enc)
  /-- VLOG2, R107. -/
  | vlog2 (e : Enc)
  /-- VRCP, R107. -/
  | vrcp (e : Enc)
  /-- VRSQ, R107. -/
  | vrsq (e : Enc)
  /-- VSINPI, R107. -/
  | vsinpi (e : Enc)
  /-- VCOSPI, R107. -/
  | vcospi (e : Enc)
  /-- VIOTA, R119. -/
  | viota (e : Enc)
  /-- VBCAST, R119. -/
  | vbcast (e : Enc)
  /-- VINS, R119. -/
  | vins (e : Enc)
  /-- VEXTR, R119. -/
  | vextr (e : Enc)
  /-- VPERM, R119. -/
  | vperm (e : Enc)
  /-- VSLUP, R119. -/
  | vslup (e : Enc)
  /-- VSLDN, R119. -/
  | vsldn (e : Enc)
  /-- VSBIND, R227. -/
  | vsbind (e : Enc)
  /-- VSUNBIND, R227. -/
  | vsunbind (e : Enc)
  /-- VMOV, R119. -/
  | vmov (e : Enc)
  /-- VLD, R214. -/
  | vld (e : Enc)
  /-- VST, R214. -/
  | vst (e : Enc)
  /-- VLDS, R214. -/
  | vlds (e : Enc)
  /-- VSTS, R214. -/
  | vsts (e : Enc)
  /-- VGATH, R214. -/
  | vgath (e : Enc)
  /-- VSCAT, R214. -/
  | vscat (e : Enc)
  /-- VLDB, R214. -/
  | vldb (e : Enc)
  /-- VBRED, R215. -/
  | vbred (e : Enc)
  /-- VSEND, R222. -/
  | vsend (e : Enc)
  /-- MCFG, R125. -/
  | mcfg (e : Enc)
  /-- MLD, R135. -/
  | mld (e : Enc)
  /-- MLDC, R135. -/
  | mldc (e : Enc)
  /-- MLDS, R135. -/
  | mlds (e : Enc)
  /-- MLDM, R135. -/
  | mldm (e : Enc)
  /-- MST, R136. -/
  | mst (e : Enc)
  /-- MSTC, R136. -/
  | mstc (e : Enc)
  /-- MMA, R141. -/
  | mma (e : Enc)
  /-- MMAX, R141. -/
  | mmax (e : Enc)
  /-- MMAS, R143. -/
  | mmas (e : Enc)
  /-- MMAC, R144. -/
  | mmac (e : Enc)
  /-- ZCLR, R137. -/
  | zclr (e : Enc)
  /-- ZLD, R137. -/
  | zld (e : Enc)
  /-- ZST, R137. -/
  | zst (e : Enc)
  /-- ZOUT, R138. -/
  | zout (e : Enc)
  /-- MCHJOIN, R146. -/
  | mchjoin (e : Enc)
  /-- MCHLEAVE, R149. -/
  | mchleave (e : Enc)
  /-- MCHMMA, R148. -/
  | mchmma (e : Enc)
  /-- MCHDIM, R150. -/
  | mchdim (e : Enc)
  /-- MDEP, R130. -/
  | mdep (e : Enc)
  /-- MWAIT, R130. -/
  | mwait (e : Enc)
  /-- MID, R130. -/
  | mid (e : Enc)
  /-- MFENCE, R130. -/
  | mfence (e : Enc)
  /-- MCLAIM, R381. -/
  | mclaim (e : Enc)
  /-- MRELEASE, R381. -/
  | mrelease (e : Enc)
  /-- MTR, R139. -/
  | mtr (e : Enc)
  /-- LLOAD, R162. -/
  | lload (e : Enc)
  /-- LUNLOAD, R164. -/
  | lunload (e : Enc)
  /-- LQUERY, R164. -/
  | lquery (e : Enc)
  /-- LSAVE, R382. -/
  | lsave (e : Enc)
  /-- LREST, R382. -/
  | lrest (e : Enc)
  /-- CX_ONE_SOURCE, R165. -/
  | cxOneSource (e : Enc)
  /-- CX_TWO_SOURCES, R165. -/
  | cxTwoSources (e : Enc)
  /-- CX_THREE_SOURCES, R165. -/
  | cxThreeSources (e : Enc)
  /-- CBEGIN, R283. -/
  | cbegin (e : Enc)
  /-- CWAIT, R284. -/
  | cwait (e : Enc)
  /-- CABORT, R284. -/
  | cabort (e : Enc)
  /-- CSTAT, R284. -/
  | cstat (e : Enc)
  /-- DPOST, R301. -/
  | dpost (e : Enc)
  /-- XNEXT, R302. -/
  | xnext (e : Enc)
  /-- XEND, R303. -/
  | xend (e : Enc)
  /-- XSTAT, R304. -/
  | xstat (e : Enc)
  /-- CPY, R233. -/
  | cpy (e : Enc)
  /-- CPY2D, R233. -/
  | cpy2d (e : Enc)
  /-- CPYCAN, R237. -/
  | cpycan (e : Enc)
  /-- BARARR, R286. -/
  | bararr (e : Enc)
  /-- BARWAIT, R286. -/
  | barwait (e : Enc)
  /-- BARSYNC, R286. -/
  | barsync (e : Enc)
  /-- BARTRY, R286. -/
  | bartry (e : Enc)
  /-- CAPMOV, R349. -/
  | capmov (e : Enc)
  /-- CAPREST, R349. -/
  | caprest (e : Enc)
  /-- CAPLD, R349. -/
  | capld (e : Enc)
  /-- CAPST, R349. -/
  | capst (e : Enc)
  /-- CAPMINT, R350. -/
  | capmint (e : Enc)
  /-- CAPINFO, R351. -/
  | capinfo (e : Enc)
  /-- CAPREVOKE, R352. -/
  | caprevoke (e : Enc)
  /-- WAKE, R354. -/
  | wake (e : Enc)
  /-- HALTC, R354. -/
  | haltc (e : Enc)
  /-- INSPECT, R355. -/
  | inspect (e : Enc)
  /-- TRAP, R372. -/
  | trap (e : Enc)
  /-- ECALL, R374. -/
  | ecall (e : Enc)
  /-- SRET_RESUME, R373. -/
  | sretResume (e : Enc)
  /-- SRET_REDELIVER, R373. -/
  | sretRedeliver (e : Enc)
  /-- SRET_DROP, R373. -/
  | sretDrop (e : Enc)
  /-- SRET_HALT, R373. -/
  | sretHalt (e : Enc)
  /-- OVLRET, R370. -/
  | ovlret (e : Enc)
  /-- CTXSAVE, R377. -/
  | ctxsave (e : Enc)
  /-- CTXLOAD, R378. -/
  | ctxload (e : Enc)
  /-- XBOUND, R379. -/
  | xbound (e : Enc)
  /-- MIGR, R386. -/
  | migr (e : Enc)
  /-- FP_MODE_WRITE, R62. -/
  | fpModeWrite (v : W)
  /-- FP_FLAGS_CLEAR, R98. -/
  | fpFlagsClear (v : W)
  /-- SROUND_SEED_WRITE, R66. -/
  | sroundSeedWrite (v : W)
  /-- CODE_WINDOW_WRITE, R175. -/
  | codeWindowWrite (upper : Bool) (v : W)
  /-- MCFG_REGISTER_WRITE, R125. -/
  | mcfgRegisterWrite (n : Nat) (v : W)
  /-- TASK_ENTRY_WRITE, R241. -/
  | taskEntryWrite (n : Nat) (v : W)
  /-- RING_ENABLE, R242. -/
  | ringEnable (n : Nat) (v : W)
  /-- RING_DISABLE, R242. -/
  | ringDisable (n : Nat) (v : W)
  /-- RING_CONS_WRITE, R242. -/
  | ringConsWrite (n : Nat) (v : W)
  /-- ENGCTX_WRITE, R230. -/
  | engctxWrite (n : Nat) (v : W)
  /-- VECTOR_QUEUE_EXECUTE, R104. -/
  | vectorQueueExecute (c : CoreId)
  /-- MATRIX_COMMAND_START, R128. -/
  | matrixCommandStart (t : Site)
  /-- MATRIX_COMMAND_RETIRE, R128. -/
  | matrixCommandRetire (t : Site) (id : Nat)
  /-- CHAIN_FORMED, R147. -/
  | chainFormed (t : Site)
  /-- OVERLAY_ENTRY, R369. -/
  | overlayEntry (addr : W)
  /-- BANK_RMW, R173. -/
  | bankRmw (t : Site) (i : Nat)
  /-- PACKET_HOP, R392. -/
  | packetHop (p waited : Nat)
  /-- PACKET_ARRIVAL, R262. -/
  | packetArrival (p : Nat)
  /-- ACK_ARRIVAL, R181. -/
  | ackArrival (p : Nat)
  /-- UNREACHABLE_RETURN, R224. -/
  | unreachableReturn (p : Nat)
  /-- REINJECTION, R262. -/
  | reinjection (p waited : Nat)
  /-- RESERVATION_LAPSE, R262. -/
  | reservationLapse (c : CoreId) (chan waited : Nat)
  /-- PUT_ARRIVAL, R222. -/
  | putArrival (p : Nat)
  /-- GET_REQUEST_ARRIVAL, R223. -/
  | getRequestArrival (p : Nat)
  /-- GET_REPLY_ARRIVAL, R223. -/
  | getReplyArrival (p : Nat)
  /-- RAMO_REQUEST_ARRIVAL, R218. -/
  | ramoRequestArrival (p : Nat)
  /-- RAMO_RESULT_ARRIVAL, R218. -/
  | ramoResultArrival (p : Nat)
  /-- CLUSTER_ACCESS, R177. -/
  | clusterAccess (p : Nat)
  /-- CLUSTER_ACCESS_REPLY, R177. -/
  | clusterAccessReply (p : Nat)
  /-- HANDLER_DISPATCH, R245. -/
  | handlerDispatch (c : CoreId)
  /-- HP_PREEMPTION, R250. -/
  | hpPreemption (c : CoreId)
  /-- WATCHDOG, R267. -/
  | watchdog (c : CoreId)
  /-- MASK_OVERRUN, R252. -/
  | maskOverrun (c : CoreId)
  /-- WAKE_REQUEST, R354. -/
  | wakeRequest (p : Nat)
  /-- HALTC_REQUEST, R354. -/
  | haltcRequest (p : Nat)
  /-- INSPECT_REQUEST, R355. -/
  | inspectRequest (p : Nat)
  /-- INSPECT_REPLY, R355. -/
  | inspectReply (p : Nat)
  /-- ENGINE_OPERATION_START, R234. -/
  | engineOperationStart (n : Nat)
  /-- ENGINE_BURST, R307. -/
  | engineBurst (n : Nat)
  /-- TRANSLATION_RESOLVED, R234. -/
  | translationResolved (n : Nat) (pasid va pa len : Nat) (r w : Bool)
  /-- ENGINE_OPERATION_COMPLETE, R235. -/
  | engineOperationComplete (n : Nat)
  /-- ENGINE_CONTEXT_BIND, R230. -/
  | engineContextBind (n pasid : Nat) (t : Site) (slot : Nat) (count : W)
  /-- OWNER_TRANSFER_START, R183. -/
  | ownerTransferStart (region : Nat) (fabric : Bool)
  /-- OWNER_TRANSFER_COMPLETE, R184. -/
  | ownerTransferComplete (region : Nat)
  /-- QDOOR_WRITE, R320. -/
  | qdoorWrite (ctx : Nat) (v : W)
  /-- QINFO_VEN_WRITE, R321. -/
  | qinfoVenWrite (ctx : Nat) (ven : Bool)
  /-- LAUNCH_PACKET_TAKE, R255. -/
  | launchPacketTake (ctx : Nat)
  /-- PLACEMENT_ADMISSION, R256. -/
  | placementAdmission (ctx : Nat)
  /-- LAUNCH_MESSAGE_DELIVERY, R258. -/
  | launchMessageDelivery (ctx : Nat) (t : Site)
  /-- LAUNCH_MESSAGE_WRITE, R258. -/
  | launchMessageWrite (c : CoreId)
  /-- CLUSTER_LEAVE, R260. -/
  | clusterLeave (place cluster : Nat)
  /-- LAUNCH_STATUS_WORD, R259. -/
  | launchStatusWord (ctx : Nat) (t : Site)
  /-- REGION_BIND, R257. -/
  | regionBind (t : Site) (vni name : Nat) (key prev : BitVec 256)
  /-- REGION_UNBIND, R257. -/
  | regionUnbind (t : Site)
  /-- TRANSIT_TABLE_WRITE, R340. -/
  | transitTableWrite (t : Site) (vni : Nat) (permit : Bool)
  /-- BINDING_MAP_WRITE, R346. -/
  | bindingMapWrite (t : Site) (name : Nat) (entry : BitVec 16)
  /-- QUIESCENCE_EVALUATION, R269. -/
  | quiescenceEvaluation (vni threshold : Nat)
  /-- TRAP_DELIVERY, R364. -/
  | trapDelivery (c : CoreId)
  /-- ISLAND_TRAP_ANSWER, R366. -/
  | islandTrapAnswer (c : CoreId) (mode : Nat) (status : W)
  /-- ASYNC_TRAP_TAKE, R367. -/
  | asyncTrapTake (c : CoreId)
  /-- PLACEMENT_TEARDOWN, R418. -/
  | placementTeardown (place : Nat)
  /-- PREEMPTION_SWAP_OUT, R383. -/
  | preemptionSwapOut (place island : Nat)
  /-- SWAP_IN, R383. -/
  | swapIn (place : Nat) (sites : List Site)
  /-- SWAPPED_TARGET_SERVICE, R345. -/
  | swappedTargetService (p : Nat)
  /-- MIGRATION, R384. -/
  | migration (t d : Site)
  /-- FORWARDING_CLOSED, R384. -/
  | forwardingClosed (t : Site)
  /-- COLLECTIVE_JOIN_REQUEST, R273. -/
  | collectiveJoinRequest (cs : List CoreId)
  /-- COLLECTIVE_JOIN_ANSWER, R283. -/
  | collectiveJoinAnswer (c : CoreId)
  /-- COLLECTIVE_RESULT, R277. -/
  | collectiveResult (vni group seq rank : Nat)
  /-- ROOT_JOIN_TIMEOUT, R279. -/
  | rootJoinTimeout (vni group seq waited : Nat)
  /-- NODE_TIMEOUT, R279. -/
  | nodeTimeout (vni group seq waited : Nat)
  /-- COLLECTIVE_ABORT_REQUEST, R279. -/
  | collectiveAbortRequest (c : CoreId)
  /-- ABORT_RECEIPT, R280. -/
  | abortReceipt (vni group seq rank : Nat)
  /-- BARRIER_ARRIVAL, R285. -/
  | barrierArrival (c : CoreId)
  /-- DEMAND_POST_RECEIPT, R301. -/
  | demandPostReceipt (c : CoreId)
  /-- DPOST_ANSWER, R301. -/
  | dpostAnswer (c : CoreId)
  /-- MAIN_END_REPORT, R302. -/
  | mainEndReport (t : Site)
  /-- LABEL_ASSIGN, R292. -/
  | labelAssign (xid vdev : Nat)
  /-- CALENDAR_ENTRY_DELIVERY, R293. -/
  | calendarEntryDelivery (xid vdev rank : Nat)
  /-- EXCHANGE_PHASE_START, R294. -/
  | exchangePhaseStart (t : Site)
  /-- READY_RECEIPT, R294. -/
  | readyReceipt (t : Site)
  /-- END_MARKER_ARRIVAL, R295. -/
  | endMarkerArrival (t : Site)
  /-- PHASE_COMPLETION_REPORT, R292. -/
  | phaseCompletionReport (t : Site)
  /-- HEARTBEAT, R298. -/
  | heartbeat (xid vdev : Nat)
  /-- TAKEOVER, R298. -/
  | takeover (xid vdev waited : Nat)
  /-- TAKEOVER_RECEIPT, R298. -/
  | takeoverReceipt (xid vdev rank : Nat)
  /-- LOST_ENTRY_WRITE, R298. -/
  | lostEntryWrite (t : Site)
  /-- FRAME_RECEIVE, R309. -/
  | frameReceive (port : Nat) (frame : List Byte) (fcs : BitVec 32)
  /-- XOFF_REPEAT, R312. -/
  | xoffRepeat (port rule waited : Nat)
  /-- CONSUME_WORD_REREAD, R315. -/
  | consumeWordReread (port rule : Nat)
  /-- INGRULE_ENABLE, R308. -/
  | ingruleEnable (port rule : Nat) (w0 : W) (cap : Cap) (w3 e0 e1 e2 : W)
  /-- PEER_PAUSE_RECEIVE, R318. -/
  | peerPauseReceive (port prio quanta : Nat)
  /-- EGRESS_TRANSMIT, R318. -/
  | egressTransmit (port prio : Nat)
  /-- LINK_TRAINING, R7. -/
  | linkTraining (link : Nat) (asksCache : Bool)
  /-- KEY_CHANGE, R352. -/
  | keyChange (vni : Nat) (k1 k2 : BitVec 256)
  /-- CAPREVOKE_ANSWER, R352. -/
  | caprevokeAnswer (c : CoreId)
  /-- ECALL_ANSWER, R374. -/
  | ecallAnswer (c : CoreId)
  /-- ECALL_VERSION, R374. -/
  | ecallVersion (c : CoreId)
  /-- ECALL_CLOCK_SET, R323. -/
  | ecallClockSet (c : CoreId)
  /-- ECALL_CLOCK_GET, R374. -/
  | ecallClockGet (c : CoreId)
  /-- ECALL_GATEWAY, R374. -/
  | ecallGateway (c : CoreId)
  /-- ECALL_STORAGE, R375. -/
  | ecallStorage (c : CoreId)
  /-- ECALL_ATTEST, R407. -/
  | ecallAttest (c : CoreId)
  /-- THERMAL_THROTTLE, R325. -/
  | thermalThrottle (field temp power : Nat)
  /-- THERMAL_RECOVERY, R325. -/
  | thermalRecovery (field temp waited : Nat)
  /-- OVERTEMP_HALT, R325. -/
  | overtempHalt (temp : Nat)
  /-- COOLANT_LIMIT_REPORT, R324. -/
  | coolantLimitReport (inlet flow : Nat)
  /-- POWER_ON, R388. -/
  | powerOn (fused failed : List Site) (fw : List FwStage) (key : BitVec 256)
  /-- SITE_FAILURE, R390. -/
  | siteFailure (t : Site)
  /-- ROUTE_BUNDLE_STAGE, R394. -/
  | routeBundleStage (t : Site) (header sect : List Byte)
  /-- ROUTE_FLIP, R395. -/
  | routeFlip (epoch : Nat) (vnis : List Nat) (routers : List Site)
  /-- SCRUB_PASS, R400. -/
  | scrubPass (t : Site) (plane addr : Nat) (double : Bool)
  /-- FLIT_RECEIVE, R401. -/
  | flitReceive (link seq : Nat) (bytes : List Byte) (crc : BitVec 32)
  /-- LINK_RETRAIN, R403. -/
  | linkRetrain (link waited : Nat) (ok : Bool)
  /-- CABORT_DECISION, R284. -/
  | cabortDecision (c : CoreId)
  /-- MIGR_REQUEST, R386. -/
  | migrRequest (c : CoreId) (policy : Bool)
  /-- MIGR_ANSWER, R386. -/
  | migrAnswer (c : CoreId)
  /-- VIRTUAL_DEVICE_BIND, R356. -/
  | virtualDeviceBind (vf x0 y0 cols rows : Nat) (vnis ctxs pasids engines quotas : List Nat) (xquota : Nat)
  /-- GRANT_REPORT, R298. -/
  | grantReport (xid vdev rank : Nat)
deriving DecidableEq, Repr

end Sys2Proof
end

