-- ==== Sys2Proof/Machine/Rows.lean ====
section
/-! DEFINITION. The encoding tables of the spec (R44, R80, R81, R103, R127, R161, R210, R248, R252, R254, R282, R300, R348, R371):
for every encoded instruction its page, op and f, its format, what each field holds, and which prefixes it accepts. -/

namespace Sys2Proof

/-- What a field of a base word holds. -/
inductive Fld where
  /-- The format has no such field (R36). -/
  | lack
  /-- "—": must be zero (R79). -/
  | zero
  /-- A register number of a file (R26). -/
  | reg (f : RFile)
  /-- A g register, or zero where PX.IMM supplies the value ("g or —", R93, R210, R254). -/
  | alt
  /-- A raw value with no register (join counters; the source type code of VCVT). -/
  | num
  /-- An engine-context slot 0 to 3 (R210). -/
  | slot
  /-- An event 0 to 2 (R282). -/
  | event
  /-- A mode 0 to 3 (R371). -/
  | mode
deriving DecidableEq, Repr

abbrev Fld.g : Fld := .reg .g
abbrev Fld.p : Fld := .reg .p
abbrev Fld.v : Fld := .reg .v
abbrev Fld.c : Fld := .reg .c
abbrev Fld.q : Fld := .reg .q
abbrev Fld.m : Fld := .reg .m
abbrev Fld.z : Fld := .reg .z
abbrev Fld.s : Fld := .reg .s

/-- The base formats (R30). -/
inductive Fmt where
  | rr | ri | i8 | j
deriving DecidableEq, Repr

/-- How a form reads PX.FN (R41): not accepted, a type and modifier, or a width or function code. -/
inductive FnUse where
  | none | type | code
deriving DecidableEq, Repr

/-- One row of the encoding tables.  `opN` and `fN` are how many ops and f values the row takes from `op` and `f` on;
`ord` lists the ordering kinds permitted, empty where PX.ORD is not accepted; `rights` is the only core that may issue it (R16). -/
structure Row where
  page : Nat
  op : Nat
  opN : Nat := 1
  f : Nat := 0
  fN : Nat := 1
  fmt : Fmt
  a : Fld
  b : Fld
  c : Fld
  imm : Bool := false
  fn : FnUse := .none
  ord : List Nat := []
  pred : Bool := true
  sv : Bool := false
  rights : Option CoreKind := none
deriving DecidableEq, Repr

/-- An RR row: one op, one f. -/
def rr (page op f : Nat) (a b c : Fld) : Row := { page, op, f, fmt := .rr, a, b, c }
/-- An RI row. -/
def ri (page op : Nat) (a b : Fld) : Row := { page, op, fmt := .ri, a, b, c := .lack }
/-- An I8 row. -/
def i8 (page op : Nat) (a : Fld) : Row := { page, op, fmt := .i8, a, b := .lack, c := .lack }
/-- A J row. -/
def jf (page op : Nat) : Row := { page, op, fmt := .j, a := .lack, b := .lack, c := .lack }

/-- The row of an encoded instruction; none for a step without an encoding. -/
def rowOf : Instr → Option Row
  | .add _ => some (rr 0 0x0 0 .g .g .g)
  | .sub _ => some (rr 0 0x0 1 .g .g .g)
  | .and _ => some (rr 0 0x0 2 .g .g .g)
  | .or _ => some (rr 0 0x0 3 .g .g .g)
  | .xor _ => some (rr 0 0x1 0 .g .g .g)
  | .sll _ => some (rr 0 0x1 1 .g .g .g)
  | .srl _ => some (rr 0 0x1 2 .g .g .g)
  | .sra _ => some (rr 0 0x1 3 .g .g .g)
  | .addi _ => some { ri 0 0x2 .g .g with imm := true }
  | .andi _ => some { ri 0 0x3 .g .g with imm := true }
  | .ori _ => some { ri 0 0x4 .g .g with imm := true }
  | .xori _ => some { ri 0 0x5 .g .g with imm := true }
  | .slli _ => some { ri 0 0x6 .g .g with imm := true }
  | .srli _ => some { ri 0 0x7 .g .g with imm := true }
  | .srai _ => some { ri 0 0x8 .g .g with imm := true }
  | .li _ => some { i8 0 0x9 .g with imm := true }
  | .lih _ => some { i8 0 0xa .g with imm := true }
  | .mov _ => some (rr 0 0xb 0 .g .g .zero)
  | .slt _ => some (rr 0 0xb 1 .g .g .g)
  | .sltu _ => some (rr 0 0xb 2 .g .g .g)
  | .seq _ => some (rr 0 0xb 3 .g .g .g)
  | .ld _ => some { ri 0 0xc .g .g with imm := true, ord := [0, 1, 3] }
  | .ldn _ => some { ri 0 0xd .g .g with imm := true, fn := .code, ord := [0, 1, 3] }
  | .st _ => some { ri 0 0xe .g .g with imm := true, ord := [0, 2, 3] }
  | .stn _ => some { ri 0 0xf .g .g with imm := true, fn := .code, ord := [0, 2, 3] }
  | .bt _ => some { i8 0 0x10 .p with imm := true }
  | .bf _ => some { i8 0 0x11 .p with imm := true }
  | .j _ => some { jf 0 0x12 with imm := true }
  | .jal _ => some { jf 0 0x13 with imm := true }
  | .jr _ => some (rr 0 0x14 0 .zero .g .zero)
  | .jalr _ => some (rr 0 0x14 1 .g .g .zero)
  | .ret _ => some (rr 0 0x14 2 .zero .zero .zero)
  | .done _ => some { rr 0 0x15 0 .zero .zero .zero with pred := false }
  | .halt _ => some { rr 0 0x15 1 .zero .g .zero with pred := false }
  | .requeue _ => some { rr 0 0x15 2 .zero .zero .zero with pred := false }
  | .brk _ => some (rr 0 0x15 3 .zero .zero .zero)
  | .send _ => some { rr 0 0x16 0 .c .g .alt with imm := true, ord := [0, 2] }
  | .sendf _ => some { rr 0 0x16 1 .c .g .g with imm := true, ord := [0, 2] }
  | .put _ => some { rr 0 0x16 2 .c .g .alt with imm := true, ord := [0, 2] }
  | .get _ => some { rr 0 0x16 3 .c .g .alt with imm := true, ord := [0, 1] }
  | .qrd _ => some (rr 0 0x17 0 .g .q .zero)
  | .qwr _ => some (rr 0 0x17 1 .q .g .zero)
  | .qtry _ => some (rr 0 0x17 2 .g .q .p)
  | .qbind _ => some { rr 0 0x17 3 .q .c .alt with imm := true }
  | .lea _ => some { rr 0 0x18 0 .g .g .g with fN := 4 }
  | .cmpeq _ => some (rr 0 0x19 0 .p .g .g)
  | .cmpne _ => some (rr 0 0x19 1 .p .g .g)
  | .cmplt _ => some (rr 0 0x19 2 .p .g .g)
  | .cmpltu _ => some (rr 0 0x19 3 .p .g .g)
  | .cmpieq _ => some { ri 0 0x1a .p .g with imm := true }
  | .cmpilt _ => some { ri 0 0x1b .p .g with imm := true }
  | .csel _ => some { rr 0 0x1c 0 .g .g .g with fN := 4 }
  | .seminc _ => some (rr 0 0x1d 0 .zero .s .g)
  | .semwait _ => some (rr 0 0x1d 1 .zero .s .g)
  | .semtry _ => some (rr 0 0x1d 2 .p .s .g)
  | .semrd _ => some (rr 0 0x1d 3 .g .s .zero)
  | .fence _ => some { rr 0 0x1e 0 .zero .zero .zero with ord := [0, 1, 2, 3] }
  | .ifence _ => some (rr 0 0x1e 1 .zero .zero .zero)
  | .cbsync _ => some (rr 0 0x1e 2 .zero .g .zero)
  | .mul _ => some (rr 1 0x0 0 .g .g .g)
  | .mulh _ => some (rr 1 0x0 1 .g .g .g)
  | .mulhu _ => some (rr 1 0x0 2 .g .g .g)
  | .div _ => some (rr 1 0x1 0 .g .g .g)
  | .divu _ => some (rr 1 0x1 1 .g .g .g)
  | .rem _ => some (rr 1 0x1 2 .g .g .g)
  | .remu _ => some (rr 1 0x1 3 .g .g .g)
  | .min _ => some (rr 1 0x2 0 .g .g .g)
  | .max _ => some (rr 1 0x2 1 .g .g .g)
  | .minu _ => some (rr 1 0x2 2 .g .g .g)
  | .maxu _ => some (rr 1 0x2 3 .g .g .g)
  | .clz _ => some (rr 1 0x3 0 .g .g .zero)
  | .ctz _ => some (rr 1 0x3 1 .g .g .zero)
  | .popc _ => some (rr 1 0x3 2 .g .g .zero)
  | .brev _ => some (rr 1 0x3 3 .g .g .zero)
  | .bext _ => some { rr 1 0x4 0 .g .g .alt with imm := true }
  | .bexts _ => some { rr 1 0x4 1 .g .g .alt with imm := true }
  | .bins _ => some { rr 1 0x4 2 .g .g .alt with imm := true }
  | .sext _ => some { rr 1 0x5 0 .g .g .zero with fN := 3 }
  | .zext _ => some { rr 1 0x6 0 .g .g .zero with fN := 3 }
  | .pand _ => some (rr 1 0x7 0 .p .p .p)
  | .por _ => some (rr 1 0x7 1 .p .p .p)
  | .pxor _ => some (rr 1 0x7 2 .p .p .p)
  | .pnot _ => some (rr 1 0x7 3 .p .p .zero)
  | .pfromg _ => some (rr 1 0x8 0 .p .g .zero)
  | .ptog _ => some (rr 1 0x8 1 .g .p .zero)
  | .pcnt _ => some (rr 1 0x8 2 .g .p .zero)
  | .pfirst _ => some (rr 1 0x8 3 .g .p .zero)
  | .amo _ => some { rr 1 0x9 0 .g .g .g with fn := .code, ord := [0, 1, 2, 3] }
  | .amow _ => some { rr 1 0x9 1 .g .g .g with fn := .code, ord := [0, 1, 2, 3] }
  | .cas _ => some { rr 1 0xa 0 .g .g .g with ord := [0, 1, 2, 3] }
  | .casw _ => some { rr 1 0xa 1 .g .g .g with ord := [0, 1, 2, 3] }
  | .bop _ => some { rr 1 0xb 0 .zero .g .g with fn := .code, ord := [0, 2] }
  | .bopw _ => some { rr 1 0xb 1 .zero .g .g with fn := .code, ord := [0, 2] }
  | .ramo _ => some { rr 1 0xc 0 .g .c .g with fn := .code, ord := [0, 1, 2, 3] }
  | .ramow _ => some { rr 1 0xc 1 .g .c .g with fn := .code, ord := [0, 1, 2, 3] }
  | .tlrd _ => some (rr 1 0xd 0 .g .slot .zero)
  | .tlwait _ => some (rr 1 0xd 1 .zero .slot .g)
  | .joinset _ => some { rr 1 0xe 0 .num .g .alt with imm := true }
  | .joinarr _ => some { rr 1 0xe 1 .num .alt .zero with imm := true }
  | .crrd _ => some { rr 1 0xf 0 .g .zero .zero with imm := true }
  | .crwr _ => some { rr 1 0xf 1 .zero .g .zero with imm := true }
  | .hmask _ => some (rr 1 0x10 0 .zero .zero .zero)
  | .hunmask _ => some (rr 1 0x10 1 .zero .zero .zero)
  | .hret _ => some { rr 1 0x10 2 .zero .zero .zero with pred := false }
  | .cyc _ => some (rr 1 0x11 0 .g .zero .zero)
  | .latrd _ => some (rr 1 0x11 1 .g .zero .zero)
  | .vadd _ => some { rr 2 0x0 0 .v .v .v with fn := .type }
  | .vsub _ => some { rr 2 0x0 1 .v .v .v with fn := .type }
  | .vmul _ => some { rr 2 0x0 2 .v .v .v with fn := .type }
  | .vfma _ => some { rr 2 0x1 0 .v .v .v with fn := .type }
  | .vfms _ => some { rr 2 0x1 1 .v .v .v with fn := .type }
  | .vdiv _ => some { rr 2 0x1 2 .v .v .v with fn := .type }
  | .vsqrt _ => some { rr 2 0x1 3 .v .v .zero with fn := .type }
  | .vmin _ => some { rr 2 0x2 0 .v .v .v with fn := .type }
  | .vmax _ => some { rr 2 0x2 1 .v .v .v with fn := .type }
  | .vabs _ => some { rr 2 0x2 2 .v .v .zero with fn := .type }
  | .vneg _ => some { rr 2 0x2 3 .v .v .zero with fn := .type }
  | .vand _ => some { rr 2 0x3 0 .v .v .v with fn := .type }
  | .vor _ => some { rr 2 0x3 1 .v .v .v with fn := .type }
  | .vxor _ => some { rr 2 0x3 2 .v .v .v with fn := .type }
  | .vnot _ => some { rr 2 0x3 3 .v .v .zero with fn := .type }
  | .vshl _ => some { rr 2 0x4 0 .v .v .v with fn := .type }
  | .vshr _ => some { rr 2 0x4 1 .v .v .v with fn := .type }
  | .vsra _ => some { rr 2 0x4 2 .v .v .v with fn := .type }
  | .vcmpeq _ => some { rr 2 0x5 0 .p .v .v with fn := .type }
  | .vcmpne _ => some { rr 2 0x5 1 .p .v .v with fn := .type }
  | .vcmplt _ => some { rr 2 0x5 2 .p .v .v with fn := .type }
  | .vcmple _ => some { rr 2 0x5 3 .p .v .v with fn := .type }
  | .vsel _ => some { rr 2 0x6 0 .v .v .v with fn := .type, fN := 4 }
  | .vcvt _ => some { rr 2 0x7 0 .v .v .num with fn := .type, fN := 4 }
  | .vquant _ => some { rr 2 0x8 0 .v .v .v with fn := .type, fN := 2 }
  | .vdeq _ => some { rr 2 0x9 0 .v .v .zero with fn := .type, fN := 2 }
  | .vredsum _ => some { rr 2 0xa 0 .v .v .zero with fn := .type }
  | .vredmax _ => some { rr 2 0xa 1 .v .v .zero with fn := .type }
  | .vredmin _ => some { rr 2 0xa 2 .v .v .zero with fn := .type }
  | .vredsumw _ => some { rr 2 0xa 3 .v .v .zero with fn := .type }
  | .vdot _ => some { rr 2 0xb 0 .v .v .v with fn := .type }
  | .vdotc _ => some { rr 2 0xb 1 .v .v .v with fn := .type }
  | .vcmul _ => some { rr 2 0xb 2 .v .v .v with fn := .type }
  | .vcmulc _ => some { rr 2 0xb 3 .v .v .v with fn := .type }
  | .vexp2 _ => some { rr 2 0xc 0 .v .v .zero with fn := .type }
  | .vlog2 _ => some { rr 2 0xc 1 .v .v .zero with fn := .type }
  | .vrcp _ => some { rr 2 0xc 2 .v .v .zero with fn := .type }
  | .vrsq _ => some { rr 2 0xc 3 .v .v .zero with fn := .type }
  | .vsinpi _ => some { rr 2 0xd 0 .v .v .zero with fn := .type }
  | .vcospi _ => some { rr 2 0xd 1 .v .v .zero with fn := .type }
  | .viota _ => some { rr 2 0xe 0 .v .g .zero with fn := .type }
  | .vbcast _ => some { rr 2 0xe 1 .v .g .zero with fn := .type }
  | .vins _ => some { rr 2 0xe 2 .v .g .g with fn := .type }
  | .vextr _ => some { rr 2 0xe 3 .g .v .g with fn := .type }
  | .vperm _ => some { rr 2 0xf 0 .v .v .v with fn := .type }
  | .vslup _ => some { rr 2 0xf 1 .v .v .g with fn := .type }
  | .vsldn _ => some { rr 2 0xf 2 .v .v .g with fn := .type }
  | .vsbind _ => some { rr 2 0x10 0 .v .alt .zero with imm := true }
  | .vsunbind _ => some { rr 2 0x10 1 .v .zero .zero with imm := true }
  | .vmov _ => some (rr 2 0x11 0 .v .v .zero)
  | .vld _ => some { ri 3 0x0 .v .g with imm := true, ord := [0, 1, 3] }
  | .vst _ => some { ri 3 0x1 .v .g with imm := true, ord := [0, 2, 3] }
  | .vlds _ => some { rr 3 0x2 0 .v .g .g with fn := .type, ord := [0, 1, 3] }
  | .vsts _ => some { rr 3 0x3 0 .v .g .g with fn := .type, ord := [0, 2, 3] }
  | .vgath _ => some { rr 3 0x4 0 .v .g .v with fn := .type, ord := [0, 1, 3] }
  | .vscat _ => some { rr 3 0x5 0 .v .g .v with fn := .type, ord := [0, 2, 3] }
  | .vldb _ => some { ri 3 0x6 .v .g with imm := true, fn := .type, ord := [0, 1, 3] }
  | .vbred _ => some { rr 3 0x7 0 .zero .g .v with fn := .type, ord := [0, 2] }
  | .vsend _ => some { rr 3 0x8 0 .c .v .zero with imm := true, ord := [0, 2] }
  | .mcfg _ => some { rr 4 0x0 0 .m .alt .zero with rights := some .math, imm := true }
  | .mld _ => some { rr 4 0x1 0 .m .g .g with rights := some .math, imm := true }
  | .mldc _ => some { rr 4 0x1 1 .m .g .g with rights := some .math, imm := true }
  | .mlds _ => some { rr 4 0x1 2 .m .g .g with rights := some .math, imm := true }
  | .mldm _ => some { rr 4 0x1 3 .m .g .g with rights := some .math, imm := true }
  | .mst _ => some { rr 4 0x2 0 .m .g .g with rights := some .math, imm := true }
  | .mstc _ => some { rr 4 0x2 1 .m .g .g with rights := some .math, imm := true }
  | .mma _ => some { rr 4 0x3 0 .z .m .m with rights := some .math }
  | .mmax _ => some { rr 4 0x3 1 .z .m .m with rights := some .math }
  | .mmas _ => some { rr 4 0x3 2 .z .m .m with rights := some .math }
  | .mmac _ => some { rr 4 0x3 3 .z .m .m with rights := some .math }
  | .zclr _ => some { rr 4 0x4 0 .z .zero .zero with rights := some .math }
  | .zld _ => some { rr 4 0x4 1 .z .g .g with rights := some .math, imm := true }
  | .zst _ => some { rr 4 0x4 2 .z .g .g with rights := some .math, imm := true }
  | .zout _ => some { rr 4 0x4 3 .z .g .g with rights := some .math, imm := true, fn := .type }
  | .mchjoin _ => some { rr 4 0x5 0 .g .g .zero with rights := some .math }
  | .mchleave _ => some { rr 4 0x5 1 .zero .zero .zero with rights := some .math }
  | .mchmma _ => some { rr 4 0x5 2 .z .m .m with rights := some .math }
  | .mchdim _ => some { rr 4 0x5 3 .g .g .zero with rights := some .math }
  | .mdep _ => some { rr 4 0x6 0 .zero .g .g with rights := some .math, imm := true }
  | .mwait _ => some { rr 4 0x6 1 .zero .g .zero with rights := some .math, imm := true }
  | .mid _ => some { rr 4 0x6 2 .g .zero .zero with rights := some .math, imm := true }
  | .mfence _ => some { rr 4 0x6 3 .zero .zero .zero with rights := some .math, imm := true }
  | .mclaim _ => some { rr 4 0x7 0 .zero .g .zero with rights := some .math, imm := true, sv := true }
  | .mrelease _ => some { rr 4 0x7 1 .zero .g .zero with rights := some .math, imm := true, sv := true }
  | .mtr _ => some { rr 4 0x8 0 .m .m .zero with rights := some .math }
  | .lload _ => some (rr 5 0x0 0 .g .g .zero)
  | .lunload _ => some (rr 5 0x0 1 .zero .g .zero)
  | .lquery _ => some (rr 5 0x0 2 .g .g .zero)
  | .lsave _ => some { rr 5 0x1 0 .g .g .zero with sv := true }
  | .lrest _ => some { rr 5 0x1 1 .g .g .zero with sv := true }
  | .cxOneSource _ => some { rr 5 0x2 0 .v .v .zero with opN := 16 }
  | .cxTwoSources _ => some { rr 5 0x2 1 .v .v .v with opN := 16 }
  | .cxThreeSources _ => some { rr 5 0x2 2 .v .v .v with opN := 16 }
  | .cbegin _ => some (rr 6 0x0 0 .g .g .zero)
  | .cwait _ => some (rr 6 0x0 1 .g .g .event)
  | .cabort _ => some (rr 6 0x0 2 .g .g .zero)
  | .cstat _ => some (rr 6 0x0 3 .g .g .zero)
  | .dpost _ => some { rr 6 0x1 0 .g .g .zero with rights := some .flow }
  | .xnext _ => some { rr 6 0x1 1 .g .zero .zero with rights := some .flow }
  | .xend _ => some { rr 6 0x1 2 .g .g .g with rights := some .flow }
  | .xstat _ => some (rr 6 0x1 3 .g .g .zero)
  | .cpy _ => some { rr 6 0x2 0 .g .slot .g with rights := some .flow }
  | .cpy2d _ => some { rr 6 0x2 1 .g .slot .g with rights := some .flow }
  | .cpycan _ => some { rr 6 0x2 2 .g .slot .zero with rights := some .flow }
  | .bararr _ => some { rr 6 0x3 0 .g .g .zero with imm := true }
  | .barwait _ => some { rr 6 0x3 1 .g .g .zero with imm := true }
  | .barsync _ => some { rr 6 0x3 2 .g .g .zero with imm := true }
  | .bartry _ => some { rr 6 0x3 3 .p .g .zero with imm := true }
  | .capmov _ => some (rr 7 0x0 0 .c .c .zero)
  | .caprest _ => some (rr 7 0x0 1 .c .c .g)
  | .capld _ => some { rr 7 0x0 2 .c .g .zero with imm := true }
  | .capst _ => some { rr 7 0x0 3 .c .g .zero with imm := true }
  | .capmint _ => some { rr 7 0x1 0 .c .g .g with sv := true }
  | .capinfo _ => some (rr 7 0x1 1 .g .c .zero)
  | .caprevoke _ => some { rr 7 0x1 2 .g .g .zero with sv := true }
  | .wake _ => some (rr 7 0x2 0 .zero .c .zero)
  | .haltc _ => some (rr 7 0x2 1 .zero .c .g)
  | .inspect _ => some (rr 7 0x2 2 .g .c .g)
  | .trap _ => some { rr 7 0x3 0 .zero .alt .zero with imm := true }
  | .ecall _ => some { rr 7 0x3 1 .g .g .zero with imm := true }
  | .sretResume _ => some { rr 7 0x3 2 .zero .g .mode with sv := true, pred := false }
  | .sretRedeliver _ => some { rr 7 0x3 2 .zero .g .mode with sv := true, pred := false }
  | .sretDrop _ => some { rr 7 0x3 2 .zero .g .mode with sv := true, pred := false }
  | .sretHalt _ => some { rr 7 0x3 2 .zero .g .mode with sv := true, pred := false }
  | .ovlret _ => some { rr 7 0x3 3 .zero .zero .zero with pred := false }
  | .ctxsave _ => some { rr 7 0x4 0 .zero .g .zero with sv := true }
  | .ctxload _ => some { rr 7 0x4 1 .zero .g .zero with sv := true, pred := false }
  | .xbound _ => some { rr 7 0x4 2 .zero .g .g with sv := true }
  | .migr _ => some { rr 7 0x4 3 .g .zero .zero with sv := true }
  | _ => none

/-- The words of an encoded instruction. -/
def encOf : Instr → Option Enc
  | .add e | .sub e | .and e | .or e | .xor e | .sll e | .srl e | .sra e | .addi e | .andi e | .ori e | .xori e | .slli e
  | .srli e | .srai e | .li e | .lih e | .mov e | .slt e | .sltu e | .seq e | .ld e | .ldn e | .st e | .stn e | .bt e | .bf e
  | .j e | .jal e | .jr e | .jalr e | .ret e | .done e | .halt e | .requeue e | .brk e | .send e | .sendf e | .put e | .get e
  | .qrd e | .qwr e | .qtry e | .qbind e | .lea e | .cmpeq e | .cmpne e | .cmplt e | .cmpltu e | .cmpieq e | .cmpilt e
  | .csel e | .seminc e | .semwait e | .semtry e | .semrd e | .fence e | .ifence e | .cbsync e | .mul e | .mulh e | .mulhu e
  | .div e | .divu e | .rem e | .remu e | .min e | .max e | .minu e | .maxu e | .clz e | .ctz e | .popc e | .brev e | .bext e
  | .bexts e | .bins e | .sext e | .zext e | .pand e | .por e | .pxor e | .pnot e | .pfromg e | .ptog e | .pcnt e | .pfirst e
  | .amo e | .amow e | .cas e | .casw e | .bop e | .bopw e | .ramo e | .ramow e | .tlrd e | .tlwait e | .joinset e
  | .joinarr e | .crrd e | .crwr e | .hmask e | .hunmask e | .hret e | .cyc e | .latrd e | .vadd e | .vsub e | .vmul e
  | .vfma e | .vfms e | .vdiv e | .vsqrt e | .vmin e | .vmax e | .vabs e | .vneg e | .vand e | .vor e | .vxor e | .vnot e
  | .vshl e | .vshr e | .vsra e | .vcmpeq e | .vcmpne e | .vcmplt e | .vcmple e | .vsel e | .vcvt e | .vquant e | .vdeq e
  | .vredsum e | .vredmax e | .vredmin e | .vredsumw e | .vdot e | .vdotc e | .vcmul e | .vcmulc e | .vexp2 e | .vlog2 e
  | .vrcp e | .vrsq e | .vsinpi e | .vcospi e | .viota e | .vbcast e | .vins e | .vextr e | .vperm e | .vslup e | .vsldn e
  | .vsbind e | .vsunbind e | .vmov e | .vld e | .vst e | .vlds e | .vsts e | .vgath e | .vscat e | .vldb e | .vbred e
  | .vsend e | .mcfg e | .mld e | .mldc e | .mlds e | .mldm e | .mst e | .mstc e | .mma e | .mmax e | .mmas e | .mmac e
  | .zclr e | .zld e | .zst e | .zout e | .mchjoin e | .mchleave e | .mchmma e | .mchdim e | .mdep e | .mwait e | .mid e
  | .mfence e | .mclaim e | .mrelease e | .mtr e | .lload e | .lunload e | .lquery e | .lsave e | .lrest e | .cxOneSource e
  | .cxTwoSources e | .cxThreeSources e | .cbegin e | .cwait e | .cabort e | .cstat e | .dpost e | .xnext e | .xend e
  | .xstat e | .cpy e | .cpy2d e | .cpycan e | .bararr e | .barwait e | .barsync e | .bartry e | .capmov e | .caprest e
  | .capld e | .capst e | .capmint e | .capinfo e | .caprevoke e | .wake e | .haltc e | .inspect e | .trap e | .ecall e
  | .sretResume e | .sretRedeliver e | .sretDrop e | .sretHalt e | .ovlret e | .ctxsave e | .ctxload e | .xbound e | .migr e => some e
  | _ => none

/-- Field a, b and c of a base word, and f (R30). -/
def Enc.fa (e : Enc) : Nat := (e.base.extractLsb' 8 3).toNat
def Enc.fb (e : Enc) : Nat := (e.base.extractLsb' 5 3).toNat
def Enc.fc (e : Enc) : Nat := (e.base.extractLsb' 2 3).toNat
def Enc.f (e : Enc) : Nat := (e.base.extractLsb' 0 2).toNat
/-- The op of a base word. -/
def Enc.op (e : Enc) : Nat := (e.base.extractLsb' 11 5).toNat

/-- The high bits of fields a, b and c that PX.REG carries; zero without PX.REG (R33). -/
def Enc.ha (e : Enc) : Nat := ((e.reg.getD 0).extractLsb' 4 2).toNat
def Enc.hb (e : Enc) : Nat := ((e.reg.getD 0).extractLsb' 2 2).toNat
def Enc.hc (e : Enc) : Nat := ((e.reg.getD 0).extractLsb' 0 2).toNat

/-- Register numbers of fields a, b and c (R26, R31). -/
def Enc.a (e : Enc) : Nat := 8 * e.ha + e.fa
def Enc.b (e : Enc) : Nat := 8 * e.hb + e.fb
def Enc.c (e : Enc) : Nat := 8 * e.hc + e.fc

/-- Scope and ordering kind of PX.ORD (R42); plain at CORE without it. -/
def Enc.scope (e : Enc) : Nat := ((e.ord.getD 0).extractLsb' 2 3).toNat
def Enc.kind (e : Enc) : Nat := ((e.ord.getD 0).extractLsb' 0 2).toNat

/-- Type and modifier of PX.FN (R41), 0 without it. -/
def Enc.fnv (e : Enc) : Nat := (e.fn.getD 0).toNat
def Enc.ty (e : Enc) : Nat := ((e.fn.getD 0).extractLsb' 0 5).toNat
def Enc.mod (e : Enc) : Nat := ((e.fn.getD 0).extractLsb' 5 3).toNat

/-- Lookahead L (R31, R38). -/
def Enc.L (e : Enc) : Nat := e.look.toNat

/-- The number of prefix words. -/
def Enc.heads (e : Enc) : Nat :=
  e.page.toNat + e.pred.isSome.toNat + e.ord.isSome.toNat + e.fn.isSome.toNat + e.reg.isSome.toNat + e.imms.length

/-- The bytes of the instruction: two for each word (R30). -/
def Enc.size (e : Enc) : Nat := 2 * (e.heads + 1)

/-- PX.IMM payloads as one number, the first word highest (R35). -/
def Enc.immHigh (e : Enc) : Nat := e.imms.foldl (fun n b => n * 256 + b.toNat) 0

/-- Bits of base immediate of a format (R30, R35). -/
def Fmt.immBits : Fmt → Nat
  | .rr => 0
  | .ri => 5
  | .i8 => 8
  | .j => 11

/-- The width of the combined immediate (R35). -/
def Enc.immWidth (e : Enc) (k : Fmt) : Nat := k.immBits + 8 * e.imms.length

/-- The combined immediate, unsigned (R35). -/
def Enc.immU (e : Enc) (k : Fmt) : Nat := e.immHigh * 2 ^ k.immBits + e.base.toNat % 2 ^ k.immBits

/-- The combined immediate as a signed number (R35). -/
def Enc.immS (e : Enc) (k : Fmt) : Int :=
  let w := e.immWidth k
  let u := e.immU k
  if w = 0 then 0 else if u < 2 ^ (w - 1) then u else (u : Int) - 2 ^ w

/-- A field names a register of some file (R34). -/
def Fld.isReg : Fld → Bool
  | .reg _ => true
  | .alt => true
  | _ => false

/-- The form has a register field, so it accepts PX.REG (R34). -/
def Row.hasReg (r : Row) : Bool := r.a.isReg || r.b.isReg || r.c.isReg

end Sys2Proof
end

