-- ==== Sys2Proof/WellFormed.lean ====
section
/-! DEFINITION. Which words an instruction of the abstract syntax may carry: one named check for each thing that R30 to R44 ask of
the words themselves (steps 2 to 4 of R43).  What a form asks of its field values (step 9) is no part of this. -/

namespace Sys2Proof

/-- R33: the payload bytes of PX.PAGE, PX.PRED, PX.ORD and PX.REG; their reserved bits are zero. -/
def Enc.pageByte (e : Enc) (page : Nat) : Byte := BitVec.ofNat 4 page ++ e.look
def predByte (p : BitVec 4) : Byte := p ++ 0#4
def ordByte (o : BitVec 5) : Byte := o ++ 0#3
def regByte (r : BitVec 6) : Byte := r ++ 0#2

/-- R34, R41: the row reads PX.FN, and a type and modifier are assigned codes (23 to 31 and modifier 7 are reserved). -/
def Row.takesFn (r : Row) (p : Byte) : Bool :=
  match r.fn with
  | .none => false
  | .code => true
  | .type => decide ((p.extractLsb' 0 5).toNat ≤ 22) && decide ((p.extractLsb' 5 3).toNat ≠ 7)

/-- R34, R42: the row reads PX.ORD, and the scope is assigned (6 and 7 are reserved). -/
def Row.takesOrd (r : Row) (p : Byte) : Bool := !r.ord.isEmpty && decide ((p.extractLsb' 5 3).toNat ≤ 5)

/-- R34, R36: the row names a register, and the bits for a field its format lacks are zero. -/
def Row.takesReg (r : Row) (p : Byte) : Bool :=
  r.hasReg && (r.a != .lack || p.extractLsb' 6 2 == 0) && (r.b != .lack || p.extractLsb' 4 2 == 0)
    && (r.c != .lack || p.extractLsb' 2 2 == 0)

/-- R34: at most four prefixes. -/
def Enc.headsOk (e : Enc) : Bool := decide (e.heads ≤ 4)
/-- R38: PX.PAGE stands before every row of pages 1 to 7, and L is 0 without it. -/
def Enc.pageOk (e : Enc) (r : Row) : Bool := e.page || (r.page == 0 && e.look == 0)
/-- R44: the base word's op is the row's. -/
def Enc.opOk (e : Enc) (r : Row) : Bool := decide (r.op ≤ e.op ∧ e.op < r.op + r.opN)
/-- R44: the base word's f is one of the row's. -/
def Enc.fOk (e : Enc) (r : Row) : Bool := r.fmt != .rr || decide (r.f ≤ e.f ∧ e.f < r.f + r.fN)
/-- R34: PX.IMM only where the row accepts it. -/
def Enc.immOk (e : Enc) (r : Row) : Bool := e.imms.isEmpty || r.imm
/-- R34, R41: PX.FN only where the row accepts it, with no reserved code. -/
def Enc.fnOk (e : Enc) (r : Row) : Bool := e.fn.all r.takesFn
/-- R34, R42: PX.ORD only where the row accepts it, with no reserved scope. -/
def Enc.ordOk (e : Enc) (r : Row) : Bool := e.ord.all fun o => r.takesOrd (ordByte o)
/-- R34, R36: PX.REG only where the row names a register. -/
def Enc.regOk (e : Enc) (r : Row) : Bool := e.reg.all fun x => r.takesReg (regByte x)
/-- R34: PX.PRED only where the row accepts it. -/
def Enc.predOk (e : Enc) (r : Row) : Bool := e.pred.isNone || r.pred

/-- Every check of an encoded instruction's words against its row. -/
def Enc.wf (e : Enc) (r : Row) : Bool :=
  e.headsOk && e.pageOk r && e.opOk r && e.fOk r && e.immOk r && e.fnOk r && e.ordOk r && e.regOk r && e.predOk r

/-- R371: field c of SRET chooses the row by its mode; modes 4 to 7, which trap (step 9 of R43), stand with RESUME (log 11). -/
def sretRow (e : Enc) : Instr :=
  match e.fc with
  | 1 => .sretRedeliver e
  | 2 => .sretDrop e
  | 3 => .sretHalt e
  | _ => .sretResume e

/-- The row of SRET is the one that its mode chooses. -/
def modeOk : Instr → Bool
  | .sretResume e => e.fc == 0 || decide (4 ≤ e.fc)
  | .sretRedeliver e => e.fc == 1
  | .sretDrop e => e.fc == 2
  | .sretHalt e => e.fc == 3
  | _ => true

/-- An encoded instruction whose words R30 to R44 allow. A step without an encoding has no words and is not well-formed as an
instruction. -/
def wellFormed (i : Instr) : Bool :=
  match rowOf i, encOf i with
  | some r, some e => e.wf r && modeOk i
  | _, _ => false

end Sys2Proof
end

