-- ==== Sys2Proof/Decode.lean ====
section
/-! DEFINITION. The decoder, total on any words and bytes (R30 to R44), and after it the encoder.  What cannot be decoded is rejected
by name: `head` for ILLEGAL_PREFIX, `opcode` for ILLEGAL_OPCODE, `short` where the words end before a base word. -/

namespace Sys2Proof

/-- Why words are no instruction. -/
inductive DecErr where
  /-- The words end before a base word and before a fifth prefix. -/
  | short
  /-- ILLEGAL_PREFIX (R34, R43 steps 2 and 4): the offending word, the first in address order (log 9). -/
  | head (w : BitVec 16)
  /-- ILLEGAL_OPCODE (R44): the base word and its page. -/
  | opcode (base : BitVec 16) (page : Nat)
deriving DecidableEq, Repr

/-- The four f values of one op. -/
abbrev Cell4 := List (Option (Enc → Instr))
def four (a b c d : Option (Enc → Instr)) : Cell4 := [a, b, c, d]
/-- An op whose f must be 0. -/
def only (a : Enc → Instr) : Cell4 := four (some a) none none none
/-- An op of one form: f is part of an immediate, or the row's parameter. -/
def one (a : Enc → Instr) : Cell4 := [some a, some a, some a, some a]

/-- Page 0 (R44), op by op. -/
def page0 : List Cell4 :=
  [four (some .add) (some .sub) (some .and) (some .or),
   four (some .xor) (some .sll) (some .srl) (some .sra),
   one .addi,
   one .andi,
   one .ori,
   one .xori,
   one .slli,
   one .srli] ++
  [one .srai,
   one .li,
   one .lih,
   four (some .mov) (some .slt) (some .sltu) (some .seq),
   one .ld,
   one .ldn,
   one .st,
   one .stn] ++
  [one .bt,
   one .bf,
   one .j,
   one .jal,
   four (some .jr) (some .jalr) (some .ret) none,
   four (some .done) (some .halt) (some .requeue) (some .brk),
   four (some .send) (some .sendf) (some .put) (some .get),
   four (some .qrd) (some .qwr) (some .qtry) (some .qbind)] ++
  [one .lea,
   four (some .cmpeq) (some .cmpne) (some .cmplt) (some .cmpltu),
   one .cmpieq,
   one .cmpilt,
   one .csel,
   four (some .seminc) (some .semwait) (some .semtry) (some .semrd),
   four (some .fence) (some .ifence) (some .cbsync) none]

/-- Page 1 (R44), op by op. -/
def page1 : List Cell4 :=
  [four (some .mul) (some .mulh) (some .mulhu) none,
   four (some .div) (some .divu) (some .rem) (some .remu),
   four (some .min) (some .max) (some .minu) (some .maxu),
   four (some .clz) (some .ctz) (some .popc) (some .brev),
   four (some .bext) (some .bexts) (some .bins) none,
   four (some .sext) (some .sext) (some .sext) none,
   four (some .zext) (some .zext) (some .zext) none,
   four (some .pand) (some .por) (some .pxor) (some .pnot)] ++
  [four (some .pfromg) (some .ptog) (some .pcnt) (some .pfirst),
   four (some .amo) (some .amow) none none,
   four (some .cas) (some .casw) none none,
   four (some .bop) (some .bopw) none none,
   four (some .ramo) (some .ramow) none none,
   four (some .tlrd) (some .tlwait) none none,
   four (some .joinset) (some .joinarr) none none,
   four (some .crrd) (some .crwr) none none] ++
  [four (some .hmask) (some .hunmask) (some .hret) none,
   four (some .cyc) (some .latrd) none none]

/-- Page 2 (R44), op by op. -/
def page2 : List Cell4 :=
  [four (some .vadd) (some .vsub) (some .vmul) none,
   four (some .vfma) (some .vfms) (some .vdiv) (some .vsqrt),
   four (some .vmin) (some .vmax) (some .vabs) (some .vneg),
   four (some .vand) (some .vor) (some .vxor) (some .vnot),
   four (some .vshl) (some .vshr) (some .vsra) none,
   four (some .vcmpeq) (some .vcmpne) (some .vcmplt) (some .vcmple),
   one .vsel,
   one .vcvt] ++
  [four (some .vquant) (some .vquant) none none,
   four (some .vdeq) (some .vdeq) none none,
   four (some .vredsum) (some .vredmax) (some .vredmin) (some .vredsumw),
   four (some .vdot) (some .vdotc) (some .vcmul) (some .vcmulc),
   four (some .vexp2) (some .vlog2) (some .vrcp) (some .vrsq),
   four (some .vsinpi) (some .vcospi) none none,
   four (some .viota) (some .vbcast) (some .vins) (some .vextr),
   four (some .vperm) (some .vslup) (some .vsldn) none] ++
  [four (some .vsbind) (some .vsunbind) none none,
   only .vmov]

/-- Page 3 (R44), op by op. -/
def page3 : List Cell4 :=
  [one .vld,
   one .vst,
   only .vlds,
   only .vsts,
   only .vgath,
   only .vscat,
   one .vldb,
   only .vbred] ++
  [only .vsend]

/-- Page 4 (R44), op by op. -/
def page4 : List Cell4 :=
  [only .mcfg,
   four (some .mld) (some .mldc) (some .mlds) (some .mldm),
   four (some .mst) (some .mstc) none none,
   four (some .mma) (some .mmax) (some .mmas) (some .mmac),
   four (some .zclr) (some .zld) (some .zst) (some .zout),
   four (some .mchjoin) (some .mchleave) (some .mchmma) (some .mchdim),
   four (some .mdep) (some .mwait) (some .mid) (some .mfence),
   four (some .mclaim) (some .mrelease) none none] ++
  [only .mtr]

/-- Page 5 (R44), op by op. -/
def page5 : List Cell4 :=
  [four (some .lload) (some .lunload) (some .lquery) none,
   four (some .lsave) (some .lrest) none none] ++
  List.replicate 16 (four (some .cxOneSource) (some .cxTwoSources) (some .cxThreeSources) none)

/-- Page 6 (R44), op by op. -/
def page6 : List Cell4 :=
  [four (some .cbegin) (some .cwait) (some .cabort) (some .cstat),
   four (some .dpost) (some .xnext) (some .xend) (some .xstat),
   four (some .cpy) (some .cpy2d) (some .cpycan) none,
   four (some .bararr) (some .barwait) (some .barsync) (some .bartry)]

/-- Page 7 (R44), op by op. -/
def page7 : List Cell4 :=
  [four (some .capmov) (some .caprest) (some .capld) (some .capst),
   four (some .capmint) (some .capinfo) (some .caprevoke) none,
   four (some .wake) (some .haltc) (some .inspect) none,
   four (some .trap) (some .ecall) (some sretRow) (some .ovlret),
   four (some .ctxsave) (some .ctxload) (some .xbound) (some .migr)]

/-- R44: the row that a page, an op and an f name. -/
def rowAt (page op f : Nat) : Option (Enc → Instr) :=
  ([page0, page1, page2, page3, page4, page5, page6, page7][page]?.bind (·[op]?) |>.bind (·[f]?)).join

/-- R30: a word whose bits [15:11] are all ones is a prefix. -/
def isHead (w : BitVec 16) : Bool := w.extractLsb' 11 5 == 0b11111#5

/-- A prefix word of a kind (R33). -/
def headWord (kind : BitVec 3) (p : Byte) : BitVec 16 := 0b11111#5 ++ kind ++ p

/-- The prefixes read so far, each payload whole, and the words in address order. -/
structure Heads where
  imms : List Byte := []
  reg : Option Byte := none
  page : Option Byte := none
  fn : Option Byte := none
  ord : Option Byte := none
  pred : Option Byte := none
  words : List (BitVec 16) := []
deriving DecidableEq, Repr

/-- Record a payload once; a second one is a fault of structure. -/
def once (old : Option Byte) (p : Byte) : Option (Option Byte) := if old.isNone then some (some p) else none

/-- R33, R34, R43 step 2: one more prefix word; none for a repeated kind, a reserved kind or a nonzero reserved payload bit. -/
def Heads.add (h : Heads) (w : BitVec 16) : Option Heads :=
  let p : Byte := w.extractLsb' 0 8
  let h' := { h with words := h.words ++ [w] }
  match (w.extractLsb' 8 3).toNat with
  | 0 => some { h' with imms := h.imms ++ [p] }
  | 1 => if p.extractLsb' 0 2 == 0 then (once h.reg p).map fun x => { h' with reg := x } else none
  | 2 => (once h.page p).map fun x => { h' with page := x }
  | 3 => (once h.fn p).map fun x => { h' with fn := x }
  | 4 => if p.extractLsb' 0 3 == 0 then (once h.ord p).map fun x => { h' with ord := x } else none
  | 5 => if p.extractLsb' 0 4 == 0 then (once h.pred p).map fun x => { h' with pred := x } else none
  | _ => none

/-- R34: the prefixes before a base word, that word and the words after it; a fifth prefix is a fault. -/
def scan : List (BitVec 16) → Heads → Except DecErr (Heads × BitVec 16 × List (BitVec 16))
  | [], _ => .error .short
  | w :: ws, h =>
    if isHead w then
      if 4 ≤ h.words.length then .error (.head w)
      else match h.add w with
        | none => .error (.head w)
        | some h' => scan ws h'
    else .ok (h, w, ws)

/-- R43 step 4: the row accepts a prefix word of this kind and payload. -/
def Row.takes (r : Row) (w : BitVec 16) : Bool :=
  let p : Byte := w.extractLsb' 0 8
  match (w.extractLsb' 8 3).toNat with
  | 0 => r.imm
  | 1 => r.takesReg p
  | 2 => true
  | 3 => r.takesFn p
  | 4 => r.takesOrd p
  | _ => r.pred

/-- The instruction's words, from the prefixes and the base word. -/
def Heads.enc (h : Heads) (base : BitVec 16) : Enc :=
  { page := h.page.isSome
    look := (h.page.getD 0).extractLsb' 0 4
    pred := h.pred.map fun p => p.extractLsb' 4 4
    ord := h.ord.map fun p => p.extractLsb' 3 5
    fn := h.fn
    reg := h.reg.map fun p => p.extractLsb' 2 6
    imms := h.imms
    base := base }

/-- R43 steps 2 to 4 on a list of words: the instruction and the words after it. -/
def decodeWords (ws : List (BitVec 16)) : Except DecErr (Instr × List (BitVec 16)) :=
  match scan ws {} with
  | .error x => .error x
  | .ok (h, base, rest) =>
    let page := ((h.page.getD 0).extractLsb' 4 4).toNat
    let e := h.enc base
    match rowAt page e.op e.f with
    | none => .error (.opcode base page)
    | some mk =>
      match rowOf (mk e) with
      | none => .error (.opcode base page)
      | some r =>
        match h.words.find? fun w => !r.takes w with
        | some w => .error (.head w)
        | none => .ok (mk e, rest)

/-- Little-endian 16-bit words of a list of bytes (R3); a last odd byte is dropped. -/
def wordsOf : List Byte → List (BitVec 16)
  | lo :: hi :: bs => (hi ++ lo) :: wordsOf bs
  | _ => []

/-- Little-endian bytes of words (R3). -/
def bytesOf (ws : List (BitVec 16)) : List Byte := ws.flatMap fun w => [w.extractLsb' 0 8, w.extractLsb' 8 8]

/-- The decoder on bytes: the instruction that stands at the head of the list. -/
def decode (bs : List Byte) : Except DecErr Instr := (decodeWords (wordsOf bs)).map Prod.fst

/-- R33, R49: the words of an instruction in the order PX.PAGE, PX.PRED, PX.ORD, PX.FN, PX.REG, PX.IMM, base word. -/
def Enc.words (e : Enc) (page : Nat) : List (BitVec 16) :=
  (if e.page then [headWord 2 (e.pageByte page)] else []) ++
  (e.pred.map fun p => headWord 5 (predByte p)).toList ++
  (e.ord.map fun o => headWord 4 (ordByte o)).toList ++
  (e.fn.map fun p => headWord 3 p).toList ++
  (e.reg.map fun x => headWord 1 (regByte x)).toList ++
  e.imms.map (headWord 0) ++ [e.base]

/-- The encoder: the words of an instruction; none for a step without an encoding. -/
def encode (i : Instr) : List (BitVec 16) :=
  match rowOf i, encOf i with
  | some r, some e => e.words r.page
  | _, _ => []

/-- The words of an instruction of the opcode table, in memory order: the table numbers the base word below PX.PAGE, which
stands first in memory (log 10). -/
def tableWords (nbits w : Nat) : List (BitVec 16) :=
  let lo := BitVec.ofNat 16 w
  let hi := BitVec.ofNat 16 (w / 65536)
  if nbits ≤ 16 then [lo] else if isHead lo then [lo, hi] else [hi, lo]

/-- The instruction the decoder reads from a row of the opcode table. -/
def decodeTableWord (nbits w : Nat) : Option Instr := (decode (bytesOf (tableWords nbits w))).toOption

end Sys2Proof
end

