-- ==== Sys2Proof/Config.lean ====
section
/-! DEFINITION. What an implementation fixes and the values the spec leaves free.  An `opaque` constant has no body here: nothing can
be proved of its value, so a statement about it holds for every value (log entries 5 and 7). -/

namespace Sys2Proof

/-- A free bit, for each number: the fate of a matrix command issued after a faulting one (R132). -/
opaque Config.freeBit : Nat → Bool
/-- A free HOPS and STALL field pair of a copy or ingest record (R236, R310), for each number. -/
opaque Config.freeTransit : Nat → BitVec 32
/-- The free head of a packet in a bounce area (R174, R262), for each number; the spec gives its payload's place in the packet only. -/
opaque Config.freeHead : Nat → BitVec 128
/-- A free rank in the result of a barrier that was not aborted (R286), for each number. -/
opaque Config.freeRank : Nat → BitVec 16
/-- A free choice among the writes whose value a fetch may return (R204), for each number. -/
opaque Config.freePick : Nat → Nat
/-- How many cycles of a turn a throttled field withholds matrix issue in (R325), for each number. -/
opaque Config.freeStall : Nat → Nat
/-- The firmware service level that ECALL VERSION returns (R374); the spec gives no number. -/
opaque Config.firmwareLevel : W
/-- The route-signing public key (R393). -/
opaque Config.routeKey : List Byte
/-- The seed of the module's identity key pair, which the root island derives from its fused device secret (R407). -/
opaque Config.identitySeed : BitVec 256
/-- The random bytes of a signature (FIPS 204), for each number. -/
opaque Config.freeRandom : Nat → BitVec 256
/-- The values that measured boot extends registers 0 to 3 with (R406), from the register's number and what is measured; the spec gives neither
the boot ROM's identity nor how a value is formed. -/
opaque Config.bootDigest : Nat → List (List Byte) → BitVec 512

/-- The digests of a defect map and of a clock plan with its list (R406); the spec does not give what is hashed. -/
opaque Config.mapDigest : List (Nat × Nat) → BitVec 512
opaque Config.planDigest : List Nat → List (Nat × Nat) → BitVec 512
/-- The fused SHA3-512 digest of the firmware-signing public key, and the fuse counter of security versions (R405). -/
opaque Config.fusedDigest : List Byte
opaque Config.fuseCounter : Nat
/-- CORE, CLO and CHI, and RIGHTS and MASK, of the gateway capability that ECALL GATEWAY writes (R374); the spec gives none. -/
opaque Config.gatewayRange : Nat → BitVec 14
opaque Config.gatewayRights : Nat → BitVec 8

/-- Whether the translation units set A and D in a page-table entry themselves; where they do not, an entry with A, or for a write D, clear
gives a page fault (R6, R182: the edition named allows both). -/
opaque Config.setsAD : Bool
/-- How many frames an egress queue of an Ethernet port holds (R318); the spec gives no number. -/
opaque Config.egressDepth : Nat

/-- Logical columns and rows of the wafer (R9). -/
def Config.logicalCols : Nat := 126
def Config.logicalRows : Nat := 117
/-- The shipped floor (R10). -/
def Config.floorTiles : Nat := 13440

end Sys2Proof
end

