-- ==== Sys2Proof/Machine/State.lean ====
section
/-! DEFINITION. The state of the module as plain data (INVENTORY.md lists each field with its rule), the reasons a step can stop,
and the state after reset. -/

namespace Sys2Proof.Machine

/-- Why a step stops. -/
inductive Fault where
  /-- A step of the schedule names a core instruction instead of an agent's step, so no agent of the module performs it.
  Raised by `step` only; safe (the module never does this). -/
  | notAnAgentStep
deriving DecidableEq, Repr

/-- Why an instruction has no meaning. -/
inductive Refusal where
  /-- The instruction has no meaning in this model yet; raised by a refused arm of `exec`; safe. -/
  | notModelled (mnemonic : String)
deriving DecidableEq, Repr

/-- What one step answers. -/
abbrev Out (σ : Type) := Host.Outcome σ Fault Refusal

/-- Sparse bytes in canonical form: addresses strictly rising, no listed byte equal to the 0 that an unlisted address reads as
(R257 for tile memory, planes and slots; log 3 for edge memory). -/
abbrev Mem := List Host.Cell

/-- A result held back by an open lookahead window (R38): it becomes visible to instructions of its stretch of code numbered above
`expiry`. `hiAct` is the priority of the activation that made it, `depth` how many traps deep it ran (R39), `hi` the bank of a
banked register. -/
structure Pend where
  file : RFile
  hi : Bool
  num : Nat
  val : V
  poison : List (Nat × W)
  expiry : Nat
  hiAct : Bool
  depth : Nat
deriving DecidableEq, Repr

/-- A register result that a later step of another unit delivers (RAMO R218, VEXTR and VCMP R104). `far` is the name of the tile that
a RAMO's result comes from (R268), none for a result of the core's vector queue. -/
structure Outst where
  id : Nat
  file : RFile
  hi : Bool
  num : Nat
  expiry : Nat
  hiAct : Bool
  depth : Nat
  far : Option Nat
deriving DecidableEq, Repr

/-- A poisoned register (R398, R399): 64-bit word `lane` of it, and the DETAIL that its consumer's trap carries. -/
structure RegPoison where
  file : RFile
  hi : Bool
  num : Nat
  lane : Nat
  detail : W
deriving DecidableEq, Repr

/-- A buffered send or join arrival (R221, R247, R254). `poison` lists the poisoned payload words. -/
inductive Send where
  | message (cap : Cap) (chan : Nat) (flags : Nat) (payload : List Byte) (poison : List Nat)
  | put (cap : Cap) (remote : Nat) (payload : List Byte) (poison : List Nat)
  | join (j : Nat) (amount : Nat)
deriving DecidableEq, Repr

/-- A send-buffer entry with its place in the order of the core's sends, and the place up to which earlier sends are performed before
it (R193, R198, R219), for the reaches TILE, CLUSTER, REGION and SYSTEM. -/
structure Buf where
  send : Send
  no : Nat
  before : List Nat
deriving DecidableEq, Repr

/-- A handler activation, running or suspended (R245, R246). `pos` numbers its next instruction, innermost stretch first: the code
of the handler itself, then that of each trap handler it is in (R38, R39). `record` is the granule index of its message record and
`recLen` how many granules are freed with it; `cycles` is the watchdog count (R267) and `saved` that of the code a tile supervisor
handler interrupted and `sends0` the buffered sends that are not its own (R364); `noMsg` marks trap code with no activation (R367). -/
structure Act where
  pc : W
  pos : List Nat
  chan : Nat
  desc : W
  record : Nat
  recLen : Nat
  sup : Bool
  resumable : Bool
  cycles : Nat
  saved : Nat
  sends0 : Nat
  noMsg : Bool
deriving DecidableEq, Repr

/-- A message record of a ring as the machine keeps its boundaries (R180, R243): granule index, granules, pad mark, payload bytes, the
stream entries already popped of a message whose stream register was unbound (R227), and whether an ingest engine wrote it (R312). -/
structure Rec where
  chan : Nat
  at_ : Nat
  gran : Nat
  pad : Bool
  len : Nat
  popped : Nat
  eng : Bool
deriving DecidableEq, Repr

/-- The arrival of a BARSYNC that has not completed: the instruction's address and number, its barrier ID, and its generation. -/
structure BarHeld where
  pc : W
  pos : List Nat
  id : Nat
  gen : BitVec 16
deriving DecidableEq, Repr

/-- One register bank of a core with the activation that owns it (R23). `spill` marks an early commit under way
(R247); `barHeld` lists the arrivals of BARSYNCs that were abandoned in their
wait (R287). -/
structure Bank where
  g : Vector W 32
  p : Vector W 8
  lat : W
  ovlAddr : W
  resume : W
  sends : List Buf
  partialMark : Bool
  spill : Bool
  barHeld : List BarHeld
  act : Option Act
deriving DecidableEq, Repr

/-- A port binding (R225): `word` is the port word, `read` the bytes already read of the current message (R376). -/
structure Port where
  bound : Bool
  word : BitVec 8
  cap : Cap
  read : Nat
deriving DecidableEq, Repr

/-- A stream binding of v12 to v15 (R227). -/
structure Stream where
  chan : Option Nat
  popped : Nat
deriving DecidableEq, Repr

/-- The control registers that hold plain values (R27). -/
structure Ctl where
  fpMode : W
  fpFlags : W
  seed : W
  codeBase : W
  xbound : W
  rowinLo : W
  rowinHi : W
  trapCause : W
  trapPc : W
  trapInfo : W
  trapMsgid : W
  trapVec : W
  trapDeleg : W
  ovlVec : W
  loaderVec : W
  trapScratch : W
  wdogBudget : W
  hpLimit : W
  varbWeight : W
  maskLimit : W
  engctx : Vector W 4
  task : Vector W 64
  ring : Vector W 64
deriving DecidableEq, Repr

/-- An entry of a core's vector queue with the operands read at issue (R104): `p` the predicate lanes, `x` and `y` the g operands
b and c, `sel` the predicate of VSEL, `fpMode` the mode in force, `out` the number of the g or p result it delivers. -/
structure VEntry where
  i : Instr
  pc : W
  pos : List Nat
  p : W
  x : W
  y : W
  sel : W
  fpMode : W
  out : Option Nat
  slice : Nat
deriving DecidableEq, Repr

/-- A trap waiting for a boundary (R106, R132) of the activation of level `hi` whose instruction it is; `cmd` is the matrix command
that met it, 0 for none. -/
structure PTrap where
  cause : Nat
  detail : W
  pc : W
  cmd : Nat
  hi : Bool
deriving DecidableEq, Repr

/-- A pending Async cause (R367). -/
structure AsyncEv where
  cause : Nat
  detail : W
  overflow : Bool
deriving DecidableEq, Repr

/-- An instruction that has issued and waits for an answer; `tag` names the packet it waits for and `more` further ones, `done` says that
its requests have arrived and the access is being or has been performed, `sites` gives cluster members' names with the sites where its
packets have found them (R177, R178). -/
structure Wait where
  i : Instr
  tag : Nat
  done : Bool
  sites : List (Nat × Site)
  more : List Nat
deriving DecidableEq, Repr

/-- What a core has asked an island, the root or the arbiter for (R263: one pending request per core). -/
inductive Req where
  | ecall (svc : Nat) (arg : W)
  | caprevoke (mode : Nat)
  | migr
  /-- A join request with the address of its descriptor; `keep` says that the tile is to cache it (R205, R206). -/
  | join (desc : List W) (members : List (BitVec 32)) (addr : Nat) (keep : Bool)
  | abort (seq : Nat)
  | dpost (words : List W)
deriving DecidableEq, Repr

/-- The blocked-on record (R268). -/
structure Blocked where
  kind : Nat
  obj : Nat
  peer : Nat
  waited : Nat
deriving DecidableEq, Repr

/-- A join counter (R254). -/
structure Join where
  armed : Bool
  count : BitVec 32
  word : W
deriving DecidableEq, Repr

/-- A slot-table entry (R158): `slice` names the residency while `resident`. -/
structure Slot where
  bound : Bool
  addr : Nat
  resident : Bool
  slice : Nat
deriving DecidableEq, Repr

/-- The current channel and credit of one priority level (R245). -/
structure Select where
  chan : Nat
  credit : Nat
deriving DecidableEq, Repr

/-- A core's current collective instance, or, not `usable`, the last one (R275, R276, R284); `shown` says that COLLQ_STATUS reads its SEQ, STATE
and NORERUN (R283). Word counts: `inWords` and `outWords` in all, `pushed`, `consumed`,
`delivered` to the extraction queue, `popped`. -/
structure Coll where
  vni : Nat
  group : Nat
  seq : Nat
  rank : Nat
  state : Nat
  norerun : Bool
  usable : Bool
  shown : Bool
  inWords : Nat
  outWords : Nat
  pushed : Nat
  consumed : Nat
  delivered : Nat
  popped : Nat
  abrt : Bool
  cause : Nat
  causeRank : Nat
  descAddr : Nat
deriving DecidableEq, Repr

/-- Completion record and arrival counter of one barrier ID (R285); `gens` are the outstanding generations. -/
structure Bar where
  id : Nat
  ag : BitVec 16
  last : BitVec 16
  status : Nat
  rank : Nat
  gens : List (BitVec 16)
deriving DecidableEq, Repr

/-- A barrier arrival on its way to the tree (R285, R286). -/
structure BarArr where
  id : Nat
  gen : BitVec 16
  desc : List W
  members : List (BitVec 32)
deriving DecidableEq, Repr

/-- An LREST in progress (R382): the residencies still to place (address, image, slots), and the slices it has placed. -/
structure Restore where
  left : List (Nat × List W × List Nat)
  placed : List Nat
deriving DecidableEq, Repr

/-- One core of a tile. `resv` lists its bounce reservations: the packet and the 64-byte blocks of the bounce area that it holds (R181).
`checked` is the level and the place of an instruction that waits after it has passed its injection checks (R344).
`seen` counts the writes to its tile's memory that every later fetch of the core follows (R203, R204); `deficit` is that of
the arbitration for lane groups and slices, in unit cycles (R265). -/
structure Core where
  lo : Bank
  hi : Bank
  v : Vector V 16
  c : Vector Cap 16
  q : Vector Port 4
  streams : Vector Stream 4
  ctl : Ctl
  pend : List Pend
  outst : List Outst
  regPoison : List RegPoison
  vq : List VEntry
  ptrap : Option PTrap
  async : List AsyncEv
  wait : Option Wait
  req : Option Req
  ans : Option W
  blocked : Blocked
  mask : Option Nat
  halted : Bool
  haltReq : Bool
  hstatus : BitVec 32
  held : Option Nat
  trapCount : Nat
  msgid : BitVec 16
  hpCount : Nat
  lowSel : Select
  hiSel : Select
  lowSusp : Bool
  seqTop : Nat
  recs : List Rec
  joins : Vector Join 8
  slots : Vector Slot 16
  pin : Option Nat
  restore : Option Restore
  resv : List (Nat × List Nat)
  launch : Option Nat
  heldLaunch : List (Nat × W × List Byte)
  inj : List W
  ext : List W
  coll : Option Coll
  bars : List Bar
  barOut : List BarArr
  nextOut : Nat
  sendNo : Nat
  fenced : List Nat
  seen : Nat
  deficit : Int
  checked : Option (Bool × List Nat)
deriving DecidableEq, Repr

/-- A word of tile memory as it stood before a write that changed it (R204): its even address, its old value, and whether a write of
single bytes changed it. -/
structure OldWord where
  addr : Nat
  val : BitVec 16
  torn : Bool
deriving DecidableEq, Repr

/-- A blocked SEMWAIT (R229), with the address after it. -/
structure SemWaiter where
  kind : CoreKind
  sem : Nat
  t : Nat
  npc : W
deriving DecidableEq, Repr

/-- An open command of the matrix sequencer (R128) with what it latched at issue: configurations of its m fields, base and stride,
mode and, where it draws, the LFSR state (R133). `deps` are its explicit predecessors (R130), `dead` the destinations (plane,
register) in which a later writer's value stands (R129), `step` the step of an MCHMMA (R147). `asks` are its requests to other members
of the cluster that have no reply yet, `sites` where they have found them (R177). -/
structure MCmd where
  id : Nat
  i : Instr
  pc : W
  pos : List Nat
  cfgA : W
  cfgB : W
  cfgC : W
  base : W
  stride : W
  fpMode : W
  seed : W
  deps : List Nat
  started : Bool
  dead : List (Nat × Nat)
  step : Nat
  asks : List Nat
  sites : List (Nat × Site)
deriving DecidableEq, Repr

/-- A matrix result that some command still to come must not see (R38, R129): the command that made it, its plane (0 data, 1 scale,
2 metadata, 3 slots) and register, the bytes by their place in the plane, the poisoned ones with the DETAIL of their consumer's trap,
and the window that holds it. -/
structure MPend where
  id : Nat
  plane : Nat
  num : Nat
  bytes : List (Nat × Byte)
  poison : List (Nat × W)
  depth : Nat
  expiry : Nat
deriving DecidableEq, Repr

/-- An operand of one step that has arrived at a chain member (R148): its configuration, its data plane and the poisoned bytes. -/
structure Latched where
  step : Nat
  isA : Bool
  cfg : W
  data : Mem
  poison : List (Nat × W)
deriving DecidableEq, Repr

/-- CHAIN_STATE and what the chain needs (R145 to R149). `dropped` lists, at each member of a chain that has FORMED, the sites whose links
carry its operands past them: where a member lists a site its tile's BYPASS is 1 (R147). `gone` is the fewest steps after which a
member has left. -/
structure Chain where
  state : Nat
  dropped : List Site
  cpos : Nat
  rpos : Nat
  ceff : Nat
  reff : Nat
  chainId : Nat
  desc : W
  steps : Nat
  gone : Option Nat
  latched : List Latched
deriving DecidableEq, Repr

/-- A graph loaded in a Lupin slice (R152, R159): the image as latched, the time of the latest CX issue, and whether a CBSYNC of its
address has been performed since. Its open CXs are those that the vector queues hold for its slice. -/
structure Resid where
  addr : Nat
  image : List W
  lastCx : Option Nat
  synced : Bool
deriving DecidableEq, Repr

/-- A cached collective descriptor (R205). -/
structure CbCache where
  addr : Nat
  words : List W
  members : List (BitVec 32)
deriving DecidableEq, Repr

/-- A bank operation on its way (R173, R217, R215): `fn` is the operation of R216, `pc` and `hi` the instruction and the level of its
activation. -/
structure BankOp where
  src : CoreId
  addr : Nat
  width : Nat
  fn : Nat
  x : W
  pc : W
  hi : Bool
deriving DecidableEq, Repr

/-- A ring's bounce list and reservation (R262): pairs are (sender core, channel of its packet, length). -/
structure BounceList where
  kind : CoreKind
  chan : Nat
  pairs : List (CoreId × Nat)
  reserved : Option (CoreId × Nat)
deriving DecidableEq, Repr

/-- A calendar entry (R293). -/
structure CalEntry where
  w0 : W
  w1 : W
deriving DecidableEq, Repr

/-- A stream of an exchange rank (R290, R296): `granted` counts the bytes of the grants started, `last` that its last grant has
started. -/
structure XStream where
  dest : Nat
  resid : Bool
  bytes : Nat
  src : Nat
  actual : Nat
  granted : Nat
  sent : Nat
  last : Bool
deriving DecidableEq, Repr

/-- A stream's data with its end marker, on its way to the receiver (R294); `bad` lists its poisoned 8-byte words (R398), `written` those
that are written. -/
structure Marker where
  phase : Nat
  src : Nat
  resid : Bool
  data : List Byte
  bad : List Nat
  total : Nat
  final : Bool
  written : List Nat
deriving DecidableEq, Repr

/-- The exchange interface of a tile (R289 to R304): `ring` holds the entries delivered and not popped, `queue` those handed over and
not complete, `closing` a MAIN_END or END popped by an XNEXT that waits for them, `top` one above the highest phase started, `paused` that its
flow core has been pre-empted and has not issued XNEXT since (R299), `head` the header words of its main post, `mainOver` that MAIN_END has
been popped (R297). -/
structure XIf where
  isOpen : Bool
  xid : Nat
  xseq : Nat
  rank : Nat
  nrank : Nat
  calBase : Nat
  calLog : Nat
  rxBase : Nat
  rxLen : Nat
  rxTab : Nat
  written : Nat
  popped : Nat
  ring : List CalEntry
  queue : List CalEntry
  started : Bool
  sendDone : Bool
  recvDone : Bool
  readies : List (Nat × Nat)
  markers : List Marker
  streams : List XStream
  rxOff : List (Nat × Nat)
  rxGot : List (Nat × Nat)
  phaseDone : List Nat
  ends : List Nat
  state : Nat
  pP : Nat
  pP0 : Nat
  linkx : Nat
  residPhases : Nat
  waste : Nat
  refused : Nat
  abandoned : Nat
  failover : Bool
  serving : Nat
  closing : Option (CalEntry × W)
  top : Nat
  paused : Bool
  head : List W
  mainOver : Bool
deriving DecidableEq, Repr

/-- A router (R340, R391): transit bits set, two banks, the VNIs that select bank 1, the VNIs and the routers that the
header of the bundle staged last lists (R395), staging failures in a row. `clock` is the time of
its latest turn; `turns` keeps for each output, 0 the tile's interface, the virtual channel and the input port served last (R264). -/
structure Router where
  transit : List Nat
  epoch0 : Nat
  bank0 : List W
  epoch1 : Nat
  bank1 : List W
  sel : List Nat
  staged : Bool
  vnis : List Nat
  routers : List Site
  fails : Nat
  dead : Bool
  clock : Nat
  turns : List (Nat × Nat × Nat)
deriving DecidableEq, Repr

/-- One tile. `stopped`: the island has stopped dispatch (R383, R418); `torn`: its placement is being torn down (R418); `moving`: its name is MOVING (R384); `hold`: it returns packets with
the hold flag; `fwd`: the new site to which it forwards; `viaOnly`: it takes only what that old site forwards. `past` lists what
writes to the memory have replaced, oldest first (R204). -/
structure Tile where
  flow : Core
  shape : Core
  math : Core
  mem : Mem
  past : List OldWord
  poison : List Nat
  sems : Vector (BitVec 32) 32
  semq : List SemWaiter
  cycle : W
  mcfg : Vector W 8
  mdata : Mem
  mscale : Mem
  mmeta : Mem
  z : Mem
  mpoison : List (Nat × Nat × W)
  lastId : Nat
  mdep : List Nat
  mwin : List MCmd
  mpend : List MPend
  claimed : Bool
  chain : Chain
  slices : Vector (Option Resid) 4
  cbCache : List CbCache
  bound : Bool
  vni : Nat
  logX : Nat
  logY : Nat
  name : Nat
  cluster : List (Nat × Nat)
  left : List Nat
  bankq : List BankOp
  gate : List (Nat × Nat)
  activity : Bool
  blist : List BounceList
  stopped : Bool
  torn : Bool
  hold : Bool
  moving : Bool
  fwd : Option Site
  viaOnly : Option Site
  xif : Option XIf
  eccCount : Nat
  router : Router
deriving DecidableEq, Repr

/-- What a packet carries (R185, R261). -/
inductive Body where
  /-- SEND, SENDF, VSEND, QWR, join posts, REQUEUE re-injections: descriptor, payload, poisoned payload words. -/
  | message (desc : W) (payload : List Byte) (poison : List Nat)
  | put (addr : Nat) (payload : List Byte) (poison : List Nat)
  | getReq (addr len local_ : Nat)
  | getReply (local_ : Nat) (payload : List Byte) (poison : List Nat)
  | ramoReq (addr width fn : Nat) (x pc : W) (hi : Bool) (out : Nat)
  | ramoReply (out : Nat) (old : W) (bad : Option (W × W × Bool))
  | cluster
  /-- The request of a matrix command, by its ID, through a cluster window, and the reply (R177). -/
  | clusterCmd (id : Nat)
  | clusterCmdReply (id : Nat)
  /-- The answer to an access through a cluster window, with the trap that it met. -/
  | clusterReply (trap : Option (Nat × W))
  | wake
  | haltc (status : BitVec 32)
  | inspect (item : Nat)
  | inspectReply (val : W)
deriving DecidableEq, Repr

/-- Who takes a packet: a tile's interface, an Ethernet port behind a gateway name (R318), or the island that holds a swapped tile's
image (R345). -/
inductive PktTo where
  | tile
  | port (n : Nat)
  | island (n : Nat)
deriving DecidableEq, Repr

/-- A packet of the packet plane. `state`: 0 in flight, 1 bounced into its sender's bounce area, 2 returned UNREACHABLE to its sender,
3 accepted or quarantined with its ACK on the way. `arr` is the arrival kind at the router (0 injected, 1 east, 2 north, 3 west,
4 south; R391); `kind` and `chan` are the core and channel it is for, `src` and `name` the sender and the destination's name;
`since` is the time at its router when it came there, `landed` that the router has handed it to the interface of its tile (R264);
`no` and `before` are those of its send-buffer entry (R198), 0 and none where it has none. -/
structure Pkt where
  id : Nat
  vni : Nat
  vc : Nat
  src : CoreId
  name : Nat
  to_ : PktTo
  dst : Site
  at_ : Site
  arr : Nat
  kind : CoreKind
  chan : Nat
  hops : Nat
  stall : Nat
  reinj : Nat
  backoff : Nat
  fwd : Bool
  state : Nat
  since : Nat
  landed : Bool
  no : Nat
  before : List Nat
  body : Body
deriving DecidableEq, Repr

/-- A packet's header as a quarantine report holds it (R341); `desc` is the descriptor of a message. -/
structure PktHead where
  vni : Nat
  vc : Nat
  src : CoreId
  name : Nat
  dst : Site
  kind : CoreKind
  chan : Nat
  desc : Option W
deriving DecidableEq, Repr

/-- The page tables of a PASID (R182): Sv48, or Sv57 where `sv57`, from the page `root`. -/
structure PageRoot where
  pasid : Nat
  sv57 : Bool
  root : Nat
deriving DecidableEq, Repr

/-- The three owner states of a 2 MiB region (R183); `transit toFabric` names the new owner. -/
inductive Owner where
  | island
  | fabric
  | transit (toFabric : Bool)
deriving DecidableEq, Repr

/-- Whose access waits for a region (R184): an engine context, an ingest rule, the taking of a launch packet, a completion record, a
storage transfer, an access to a saved image (`user` is 4 times the number of an engine context, of a packet plus 1, of a site plus 2,
of a placement plus 3), a host function's and an island's own program's to an address, or an access that nothing more is known of. -/
inductive Accessor where
  | engine (n : Nat)
  | rule (port idx : Nat)
  | take (ctx : Nat)
  | record (ctx : Nat)
  | storage (c : CoreId)
  | image (vni name user : Nat)
  | host (link fn at_ : Nat)
  | island (n at_ : Nat)
  | other
deriving DecidableEq, Repr

/-- One 2 MiB region's owner with the accesses that wait for it or hold it, each with its side (true: FABRIC). -/
structure OwnRegion where
  num : Nat
  owner : Owner
  waiting : List (Bool × Accessor)
deriving DecidableEq, Repr

/-- An operation of an engine context (R232 to R237). `status` is set once decided; `phase` 0 not started, 1 moving, 2 ended. `part` and
`partBad` are the bytes and poisoned words gathered for the KIND 3 record under way, whose length is `goal` (R236, R307). -/
structure EOp where
  ticket : Nat
  words : List W
  twoD : Bool
  cap : Cap
  phase : Nat
  status : Nat
  moved : Nat
  poisoned : Bool
  goal : Nat
  part : List Byte
  partBad : List Nat
deriving DecidableEq, Repr

/-- An edge copy engine context (R230). `fault` is the edge address of the translation fault that pauses it; `away` the region and
name of its tile while that is swapped out (R238). -/
structure Engine where
  num : Nat
  pasid : Nat
  site : Site
  away : Option (Nat × Nat)
  slot : Nat
  counter : Nat
  issued : Nat
  ops : List EOp
  fault : Option Nat
deriving DecidableEq, Repr

/-- A region (R339). `quiet` counts the evaluations in a row that found nothing moving, `raised` that REGION_STALL has been raised since
something last moved (R269). While its keys change, `late` lists the sites whose interfaces still hold the pair `oldKeys` (R352).
`seqctrs` are the sequence counters bound to it (R316, R359). -/
structure Region where
  vni : Nat
  names : List (Nat × Site)
  keyCur : BitVec 256
  keyPrev : BitVec 256
  revoking : Option CoreId
  quota : Nat
  quiet : Nat
  raised : Bool
  stalled : Bool
  oldKeys : BitVec 256 × BitVec 256
  late : List Site
  seqctrs : List Nat
deriving DecidableEq, Repr

/-- A virtual device (R356); `quotas` are the collective slot quotas of its VNIs, in their order. -/
structure VDev where
  num : Nat
  x0 : Nat
  y0 : Nat
  cols : Nat
  rows : Nat
  vnis : List Nat
  ctxs : List Nat
  pasids : List Nat
  engines : List Nat
  quotas : List Nat
  xquota : Nat
deriving DecidableEq, Repr

/-- A function of a host link (R319, R321): 0 the physical one, else a virtual one. `vectors` counts its MSI-X vectors; `table` holds the
vector table entries written (vector, low and high word) and `pending` the pending bits; `windows` are the edge memory ranges of its
CXL.mem window. -/
structure HostFn where
  link : Nat
  fn : Nat
  vectors : Nat
  table : List (Nat × W × W)
  pending : List Nat
  windows : List (Nat × Nat)
deriving DecidableEq, Repr

/-- A queue context (R255, R320, R321): ring of 2^k slots at `base` under `pasid`, of a function of a host link, taken by an island. -/
structure QCtx where
  num : Nat
  vdev : Nat
  link : Nat
  fn : Nat
  island : Nat
  pasid : Nat
  k : Nat
  base : Nat
  tail : BitVec 16
  head : BitVec 16
  err : Bool
  vec : Nat
  ven : Bool
deriving DecidableEq, Repr

/-- A tile image (R51, R52, R257): bytes, and per core kind the task entries, rings (base, size), bounds and capabilities. -/
structure Image where
  bytes : List (Nat × Byte)
  text : Nat × Nat
  tasks : List (CoreKind × Nat × W)
  rings : List (CoreKind × Nat × Nat × Nat)
  bounds : List (CoreKind × Nat × Nat)
  caps : List (CoreKind × Nat × Cap)
deriving DecidableEq, Repr

/-- A placement (R256): clusters as lists of (name, member index); images by name; the launch it is admitted for; the edge memory
address of the area in which its tiles are saved while it is swapped out (R383). -/
structure Place where
  num : Nat
  vdev : Nat
  vni : Nat
  clusters : List (List (Nat × Nat))
  images : List (Nat × Image)
  admitted : Option Nat
  swapped : Bool
  area : Nat
deriving DecidableEq, Repr

/-- A launch taken from its queue context and not completed (R255, R259). `ends` lists the cores whose part has ended; `tiles`
the tiles that have sent their status word; `doomed` says that a tile of it has failed, so that it is torn down (R390). -/
structure Launch where
  ctx : Nat
  place : Nat
  ch : List (CoreKind × Nat)
  args : List Byte
  seq : W
  doneaddr : W
  admitted : Bool
  sent : List Site
  ends : List CoreId
  tiles : List Site
  count : Nat
  err : Nat
  doomed : Bool
deriving DecidableEq, Repr

/-- NEXTSEQ of a collective group (R273). -/
structure Group where
  vni : Nat
  group : Nat
  next : BitVec 16
deriving DecidableEq, Repr

/-- A collective instance at the root (R273, R274, R277). Per member, in rank order: joined, answered, abort received, result words
delivered and popped (`given` counts those delivered); `contrib` its consumed input words; `results` the result words the root has produced. -/
structure Inst where
  vni : Nat
  group : Nat
  seq : BitVec 16
  desc : List W
  list : List (BitVec 32)
  members : List CoreId
  joined : List Nat
  answered : List Nat
  aborted : List Nat
  state : Nat
  slot : Bool
  contrib : List (List W)
  results : List W
  given : List (Nat × Nat)
  finished : List Nat
  cause : Nat
  causeRank : Nat
deriving DecidableEq, Repr

/-- A barrier generation (R285). `status` is none while it is outstanding. -/
structure BarGen where
  vni : Nat
  id : Nat
  gen : BitVec 16
  desc : List W
  list : List (BitVec 32)
  members : List CoreId
  arrived : List CoreId
  status : Option Nat
  rank : Nat
deriving DecidableEq, Repr

/-- One grant of a phase (R291, R292); `via` numbers the routers of its circuit. -/
structure Grant where
  phase : Nat
  s : Nat
  d : Nat
  bytes : Nat
  resid : Bool
  label : Option Nat
  via : List Nat
  done : Bool
deriving DecidableEq, Repr

/-- A post of one rank (R290): its tile and its pairs (destination, bytes, source address). -/
structure Post where
  rank : Nat
  site : Site
  pairs : List (Nat × Nat × Nat)
  residual : List (Nat × Nat × Nat)
  rxLen : Nat
  calLog : Nat
deriving DecidableEq, Repr

/-- An exchange at its arbiters (R289 to R299). -/
structure Exch where
  xid : Nat
  xseq : Nat
  vdev : Nat
  nrank : Nat
  qlog : Nat
  primary : Nat
  standby : Nat
  serving : Nat
  hasStandby : Bool
  posts : List Post
  planned : Bool
  residPlanned : Bool
  grants : List Grant
  queue : List (Nat × CalEntry)
  pP : Nat
  pP0 : Nat
  linkx : Nat
  residPhases : Nat
  mainEnds : List Nat
  ends : List Nat
  lost : Bool
  reports : List Nat
  taking : Bool
  beat : Nat
deriving DecidableEq, Repr

/-- An ingest rule with its counters and pause state (R308, R313, R315). -/
structure Rule where
  idx : Nat
  w0 : W
  cap : Cap
  w3 : W
  e0 : W
  e1 : W
  e2 : W
  matched : W
  nofit : W
  overrun : W
  oversize : W
  unreach : W
  err : W
  prod : Nat
  cons : Nat
  paused : Bool
deriving DecidableEq, Repr

/-- An Ethernet port (R308 to R318). `rules` lists the rules that differ from their reset value; `sentPause` lists the PFC frames sent
(priority, quanta); `tickets` the frames whose last beat has reached a merge point and whose record is still to come, with their rule
and sequence value (R316, R317). -/
structure EthPort where
  num : Nat
  rules : List Rule
  fcsErrors : Nat
  osQueue : List (List Byte)
  egress : List (Nat × List Byte)
  pausedPrio : List Nat
  sent : List (List Byte)
  sentPause : List (Nat × Nat)
  tickets : List (List Byte × Nat × Nat)
  vdev : Nat
deriving DecidableEq, Repr

/-- One direction of a link (R401): the receiver's next sequence number, the replays of the current flit, and the flits delivered. -/
structure LinkDir where
  next : Nat
  replays : Nat
  delivered : List (List Byte)
deriving DecidableEq, Repr

/-- A link (R401 to R404), by number: the direction from its lower end (`fore`) and the other (`back`), whether it is down, the attempts to
train it since (R403), whether it was returned within the last second, and whether it stays out of service (R404). -/
structure LinkSt where
  num : Nat
  fore : LinkDir
  back : LinkDir
  down : Bool
  tries : Nat
  returned : Bool
  barred : Bool
deriving DecidableEq, Repr

/-- A storage object behind ECALL STORAGE (R375): its bytes, the words of them that came poisoned (R400), and whether its device fails a
transfer (R374, IOERR). -/
structure Storage where
  num : Nat
  size : Nat
  bytes : Mem
  bad : List Nat
  fails : Bool
deriving DecidableEq, Repr

/-- A saved tile of a swapped placement (R383); `regs` are the 2 MiB regions of edge memory that its image lies in (R183). -/
structure Saved where
  place : Nat
  vni : Nat
  name : Nat
  island : Nat
  regs : List Nat
  tile : Tile
deriving DecidableEq, Repr

/-- What islands report to system software (R255, R269, R341, R366, R400, R324). -/
inductive Report where
  | trap (c : CoreId) (cause : Nat)
  | quarantine (at_ : Site) (head : PktHead) (check : Nat)
  | mapDiffers (at_ : Site)
  | regionStall (vni : Nat) (records : List Blocked)
  | launchNotRecorded (ctx : Nat) (seq : W)
  | poison (at_ : Site) (addr : Nat)
  | edgePoison (addr : Nat)
  | linkDown (link : Nat)
  | linkUp (link : Nat)
  | stageFailed (at_ : Site) (reason : Nat)
  | coolant (inlet flow : Nat)
  | overTemp (temp : Nat)
  | bootStopped (stage : Nat)
  | msix (ctx vec : Nat)
  /-- An island atomic without W permission (R182). -/
  | atomicFault (island pasid va : Nat)
deriving DecidableEq, Repr

/-- What happens beside the steps of the table: what hosts, system software on the islands and management do (R13, R182, R255, R256, R319 to
R321, R325, R356), and the parts of a step that another agent may see (R316, R338). -/
inductive Outside where
  /-- A host reads or writes through the CXL.mem window of a function. -/
  | cxlRead (link fn addr len : Nat)
  | cxlWrite (link fn addr : Nat) (bytes : List Byte)
  /-- A host reads or writes BAR 0 of a function. -/
  | barRead (link fn off len : Nat)
  | barWrite (link fn off : Nat) (bytes : List Byte)
  /-- A host reads the MSI-X capability of a function. -/
  | msixCap (link fn : Nat)
  /-- An island's program reads or writes edge memory, or performs an atomic under a PASID: the operation of R216, or a compare and swap. -/
  | islandRead (island addr len : Nat)
  | islandWrite (island addr : Nat) (bytes : List Byte)
  | islandAtomic (island pasid va fn width : Nat) (x : W) (expected : Option W)
  /-- The island operating system sets a PASID's page tables, and writes entries of them. -/
  | setPasid (pasid : Nat) (sv57 : Bool) (root : Nat)
  | writeTables (entries : List (Nat × W))
  /-- The islands bind a host function's vectors and window, a queue context, an Ethernet port, a placement, a storage object. -/
  | bindFunction (link fn vectors : Nat) (windows : List (Nat × Nat))
  | bindQueue (ctx vdev link fn island pasid k base vec : Nat)
  | bindPort (port vdev : Nat)
  | setPlacement (num vdev vni area : Nat) (clusters : List (List (Nat × Nat))) (images : List (Nat × Image))
  | bindStorage (num size : Nat)
  /-- Management sets the power cap, in W. -/
  | setPowerCap (watts : Nat)
  /-- An island's exchange arbiter fails (R298). -/
  | arbiterFails (island : Nat)
  /-- An exchange interface writes some words of a stream whose marker has not arrived (R186, R338). -/
  | phaseWords (t : Site) (words : List Nat)
  /-- The last beat of a frame that a rule takes reaches the merge point of its sequence counter. -/
  | lastBeat (port : Nat) (frame : List Byte)
  /-- A read of a word of tile memory (plane 0) or of a matrix plane meets a bit error, other than the scrubber's (R397). -/
  | readError (t : Site) (plane addr : Nat) (double : Bool)
  /-- A bit error in a register of a core (R399), and an uncorrectable one in a word of edge memory (R400). -/
  | registerError (c : CoreId) (file : RFile) (hi : Bool) (num : Nat) (double : Bool)
  | edgeError (addr : Nat)
  /-- The device of a storage object begins or ceases to fail transfers (R374). -/
  | storageFails (num : Nat) (fails : Bool)
  /-- The interface of a site takes the new keys of its region (R352). -/
  | keysTaken (vni : Nat) (t : Site)
  /-- A node takes its traffic back to the first of its two upward tree links (R403). -/
  | treeReturns (island : Nat)
  /-- The island operating system extends one of measurement registers 6 to 15 (R406). -/
  | measure (reg : Nat) (value : BitVec 512)
deriving DecidableEq, Repr

/-- What moves next: a core's turn, a step of another agent, or what comes from outside; `dt` further field cycles of the tile pass with
a core's turn. -/
inductive Turn where
  | core (c : CoreId)
  | agent (i : Instr)
  | outside (x : Outside)
deriving DecidableEq, Repr

structure Move where
  turn : Turn
  dt : Nat
deriving DecidableEq, Repr

/-- The whole module. `treeAlt` lists the islands whose node sends its traffic over the second of its two upward tree links (R402). -/
structure State where
  moves : List Move
  cur : CoreId
  fresh : Nat
  nextPkt : Nat
  tiles : List (Nat × Tile)
  dead : List Site
  holes : List Site
  booted : Bool
  floorFail : Bool
  fwVersion : Nat
  serviceKey : BitVec 256
  pkts : List Pkt
  edge : Mem
  hostMem : Mem
  edgePoison : List Nat
  pasids : List PageRoot
  tables : List (Nat × W)
  owners : List OwnRegion
  engines : List Engine
  engTurn : List (Nat × Nat)
  regions : List Region
  vdevs : List VDev
  funcs : List HostFn
  hostOut : List (Nat × Nat × List Byte)
  qctxs : List QCtx
  places : List Place
  saved : List Saved
  launches : List Launch
  groups : List Group
  insts : List Inst
  barGens : List BarGen
  exchs : List Exch
  arbitersDown : List Nat
  ports : List EthPort
  seqctrs : List (Nat × Nat)
  links : List LinkSt
  treeAlt : List Nat
  hostLinks : List (Nat × Bool)
  plan : List Nat
  bands : List (Nat × Nat)
  throttled : List (Nat × Nat)
  duty : List Nat
  powerCap : Nat
  meas : Vector (BitVec 512) 16
  storage : List Storage
  reports : List Report
deriving DecidableEq, Repr

/-- R257, R100, R363: a bank after tile reset (registers the spec gives no value: log 2). -/
def Bank.reset : Bank :=
  { g := Vector.replicate 32 0, p := Vector.replicate 8 0, lat := 0, ovlAddr := 0, resume := 0, sends := [],
    partialMark := false, spill := false, barHeld := [], act := none }

/-- R62, R67, R66, R176, R363, R253, R230, R241, R242: the control registers after reset. -/
def Ctl.reset : Ctl :=
  { fpMode := 0, fpFlags := 0, seed := 0x13579BDF, codeBase := 0, xbound := 0, rowinLo := 0, rowinHi := 0, trapCause := 0,
    trapPc := 0, trapInfo := 0, trapMsgid := 0, trapVec := 0, trapDeleg := 0, ovlVec := 0, loaderVec := 0, trapScratch := 0,
    wdogBudget := 0x01000000, hpLimit := 8, varbWeight := 5, maskLimit := 256, engctx := Vector.replicate 4 0,
    task := Vector.replicate 64 0, ring := Vector.replicate 64 0 }

/-- R308, R313, R315: an ingest rule after reset. -/
def Rule.reset (idx : Nat) : Rule :=
  { idx := idx, w0 := 0, cap := 0, w3 := 0, e0 := 0, e1 := 0, e2 := 0, matched := 0, nofit := 0, overrun := 0, oversize := 0, unreach := 0,
    err := 0, prod := 0, cons := 0, paused := false }
/-- An Ethernet port after reset; it belongs to no virtual device. -/
def EthPort.reset (n : Nat) : EthPort :=
  { num := n, rules := [], fcsErrors := 0, osQueue := [], egress := [], pausedPrio := [], sent := [], sentPause := [], tickets := [],
    vdev := 1024 }

/-- R268: an idle core's record. -/
def Blocked.idle : Blocked := { kind := 1, obj := 0, peer := 0xFFFF, waited := 0 }

/-- R257: a core after tile reset. -/
def Core.reset : Core :=
  { lo := Bank.reset, hi := Bank.reset, v := Vector.replicate 16 0, c := Vector.replicate 16 0,
    q := Vector.replicate 4 ⟨false, 0, 0, 0⟩, streams := Vector.replicate 4 ⟨none, 0⟩, ctl := Ctl.reset, pend := [], outst := [],
    regPoison := [], vq := [], ptrap := none, async := [], wait := none, req := none, ans := none, blocked := Blocked.idle,
    mask := none, halted := false, haltReq := false, hstatus := 0, held := none, trapCount := 0, msgid := 0, hpCount := 0,
    lowSel := ⟨63, 0⟩, hiSel := ⟨63, 0⟩, lowSusp := false, seqTop := 0, recs := [], joins := Vector.replicate 8 ⟨false, 0, 0⟩,
    slots := Vector.replicate 16 ⟨false, 0, false, 0⟩, pin := none, restore := none, resv := [], launch := none, heldLaunch := [], inj := [],
    ext := [], coll := none, bars := [], barOut := [], nextOut := 0, sendNo := 0,
    fenced := [0, 0, 0, 0], seen := 0, deficit := 0, checked := none }

/-- R147: no chain. -/
def Chain.reset : Chain := { state := 0, dropped := [], cpos := 0xFF, rpos := 0xFF, ceff := 0, reff := 0, chainId := 0, desc := 0, steps := 0, gone := none, latched := [] }

/-- R340, R391: a router whose transit table permits VNI 0 only and whose banks are empty (log 2). -/
def Router.reset : Router :=
  { transit := [0], epoch0 := 0, bank0 := [], epoch1 := 0, bank1 := [], sel := [], staged := false, vnis := [], routers := [], fails := 0, dead := false, clock := 0, turns := [] }

/-- R257: a tile after reset. -/
def Tile.reset : Tile :=
  { flow := Core.reset, shape := Core.reset, math := Core.reset, mem := [], past := [], poison := [], sems := Vector.replicate 32 0, semq := [],
    cycle := 0, mcfg := Vector.replicate 8 0, mdata := [], mscale := [], mmeta := [], z := [], mpoison := [], lastId := 0, mdep := [],
    mwin := [], mpend := [], claimed := false, chain := Chain.reset, slices := Vector.replicate 4 none, cbCache := [], bound := false,
    vni := 0, logX := 0, logY := 0, name := 0, cluster := [], left := [], bankq := [], gate := [], activity := false, blist := [],
    stopped := false, torn := false, hold := false, moving := false, fwd := none, viaOnly := none, xif := none, eccCount := 0, router := Router.reset }

/-- The module right after reset: no tile differs from `Tile.reset` and no port from `EthPort.reset`, nothing is bound, in flight or mapped. -/
def State.reset : State :=
  { moves := [], cur := ⟨⟨0, 0⟩, .flow⟩, fresh := 0, nextPkt := 1, tiles := [], dead := [], holes := [], booted := false,
    floorFail := false, fwVersion := 0, serviceKey := 0, pkts := [], edge := [], hostMem := [], edgePoison := [], pasids := [], tables := [],
    owners := [], engines := [], engTurn := [], regions := [], vdevs := [], funcs := [], hostOut := [], qctxs := [], places := [], saved := [], launches := [], groups := [],
    insts := [], barGens := [], exchs := [], arbitersDown := [], ports := [], seqctrs := [], links := [], treeAlt := [], hostLinks := [],
    plan := List.replicate 83 1800, bands := [], throttled := [], duty := [], powerCap := 24000, meas := Vector.replicate 16 0,
    storage := [], reports := [] }

end Sys2Proof.Machine
end

