-- ==== Sys2Proof/Machine/Ops.lean ====
section
/-! DEFINITION. Named operations over memory, registers, tiles and cores: everything else is written with these. -/

namespace Sys2Proof.Machine

/-! ### Numbers, bytes and fixed tables -/

/-- Entry `n` (modulo the size) of a table. -/
def vget {α : Type} {k : Nat} (v : Vector α (k + 1)) (n : Nat) : α := v[n % (k + 1)]'(Nat.mod_lt _ (Nat.succ_pos k))
/-- The table with entry `n` (modulo the size) replaced. -/
def vset {α : Type} {k : Nat} (v : Vector α (k + 1)) (n : Nat) (x : α) : Vector α (k + 1) :=
  v.set (n % (k + 1)) x (Nat.mod_lt _ (Nat.succ_pos k))

/-- The number that little-endian bytes hold (R3). -/
def leNat : List Byte → Nat
  | [] => 0
  | b :: r => b.toNat + 256 * leNat r
/-- The `n` little-endian bytes of a number (R3). -/
def leBytes : Nat → Nat → List Byte
  | 0, _ => []
  | n + 1, x => BitVec.ofNat 8 x :: leBytes n (x / 256)

/-- Bits [lo+len-1:lo] of a number. -/
def bits (x lo len : Nat) : Nat := x / 2 ^ lo % 2 ^ len
/-- The same for a 64-bit word. -/
def W.bits (x : W) (lo len : Nat) : Nat := x.toNat / 2 ^ lo % 2 ^ len
/-- A number as a word. -/
def w (n : Nat) : W := BitVec.ofNat 64 n
/-- 1 or 0. -/
def b01 (b : Bool) : Nat := if b then 1 else 0
/-- x rounded up to a multiple of k. -/
def roundUp (x k : Nat) : Nat := (x + k - 1) / k * k
/-- x divided by k, rounded up. -/
def ceilDiv (x k : Nat) : Nat := (x + k - 1) / k

/-- The value listed for a key. -/
def lookup {α : Type} (l : List (Nat × α)) (k : Nat) : Option α :=
  match l with
  | [] => none
  | (j, x) :: r => if j = k then some x else lookup r k
/-- The list, in rising order of its keys, with the value for one key replaced or added. -/
def insert {α : Type} (l : List (Nat × α)) (k : Nat) (x : α) : List (Nat × α) :=
  match l with
  | [] => [(k, x)]
  | (j, y) :: r => if k < j then (k, x) :: (j, y) :: r else if k = j then (k, x) :: r else (j, y) :: insert r k x
/-- Replace every element that meets a test. -/
def mapIf {α : Type} (l : List α) (p : α → Bool) (f : α → α) : List α := l.map fun x => if p x then f x else x

/-! ### Sparse memory -/

/-- The byte at an address: 0 where none is listed (R257, log 3). -/
def Mem.byteAt (m : Mem) (a : Nat) : Byte :=
  match m with
  | [] => 0
  | (k, b) :: r => if k = a then b else Mem.byteAt r a
/-- Write one byte, keeping the canonical form. -/
def Mem.put (m : Mem) (a : Nat) (b : Byte) : Mem :=
  match m with
  | [] => if b = 0 then [] else [(a, b)]
  | (k, x) :: r =>
    if a < k then (if b = 0 then (k, x) :: r else (a, b) :: (k, x) :: r)
    else if a = k then (if b = 0 then r else (a, b) :: r)
    else (k, x) :: Mem.put r a b
/-- The canonical form: every listed byte nonzero, addresses strictly rising from above `lo`. -/
def Mem.wfFrom (lo : Nat) (m : Mem) : Bool :=
  match m with
  | [] => true
  | (k, b) :: r => decide (lo ≤ k) && b != 0 && Mem.wfFrom (k + 1) r
/-- The canonical form of a memory. -/
def Mem.wf (m : Mem) : Bool := Mem.wfFrom 0 m
/-- `n` bytes from an address on. -/
def Mem.bytes (m : Mem) (a n : Nat) : List Byte := (List.range n).map fun i => Mem.byteAt m (a + i)
/-- Store bytes from an address on, lowest first. -/
def Mem.store (m : Mem) (a : Nat) (bs : List Byte) : Mem :=
  match bs with
  | [] => m
  | b :: r => Mem.store (Mem.put m a b) (a + 1) r
/-- The little-endian number in `n` bytes. -/
def Mem.load (m : Mem) (a n : Nat) : Nat := leNat (Mem.bytes m a n)
/-- A 64-bit word. -/
def Mem.word (m : Mem) (a : Nat) : W := w (Mem.load m a 8)
/-- Store a 64-bit word. -/
def Mem.setWord (m : Mem) (a : Nat) (x : W) : Mem := Mem.store m a (leBytes 8 x.toNat)

/-! ### Tiles and cores -/

/-- The number of a site in State.tiles. -/
def Site.num (t : Site) : Nat := 126 * t.y + t.x
/-- The site of a number. -/
def siteOf (n : Nat) : Site := ⟨n % 126, n / 126⟩
/-- A tile; a site not listed is as reset leaves it. -/
def State.tile (s : State) (t : Site) : Tile := (lookup s.tiles (Site.num t)).getD Tile.reset
/-- Replace a tile. -/
def State.setTile (s : State) (t : Site) (x : Tile) : State := { s with tiles := insert s.tiles (Site.num t) x }
/-- Change a tile. -/
def State.modTile (s : State) (t : Site) (f : Tile → Tile) : State := s.setTile t (f (s.tile t))

/-- A core of a tile. -/
def Tile.core (t : Tile) : CoreKind → Core
  | .flow => t.flow
  | .shape => t.shape
  | .math => t.math
/-- Replace a core of a tile. -/
def Tile.setCore (t : Tile) (k : CoreKind) (c : Core) : Tile :=
  match k with
  | .flow => { t with flow := c }
  | .shape => { t with shape := c }
  | .math => { t with math := c }
/-- The three cores in order of kind. -/
def kinds : List CoreKind := [.flow, .shape, .math]
/-- Change all three cores. -/
def Tile.mapCores (t : Tile) (f : Core → Core) : Tile := { t with flow := f t.flow, shape := f t.shape, math := f t.math }

/-- A core of the module. -/
def State.core (s : State) (c : CoreId) : Core := (s.tile c.site).core c.kind
/-- Replace a core. -/
def State.setCore (s : State) (c : CoreId) (x : Core) : State := s.modTile c.site fun t => t.setCore c.kind x
/-- Change a core. -/
def State.modCore (s : State) (c : CoreId) (f : Core → Core) : State := s.setCore c (f (s.core c))

/-! ### Tiles that may be swapped out (R383) -/

/-- Where an access to a name is performed. -/
inductive Tgt where
  | tile (t : Site)
  | image (vni name : Nat)
  | wait
  | none
deriving DecidableEq, Repr

/-- The saved image of a name (R383). -/
def State.image (s : State) (vni name : Nat) : Option Saved := s.saved.find? fun x => x.vni == vni && x.name == name
/-- Change the tile of a saved image. -/
def State.modImage (s : State) (vni name : Nat) (f : Tile → Tile) : State :=
  { s with saved := mapIf s.saved (fun y => y.vni == vni && y.name == name) fun y => { y with tile := f y.tile } }
/-- The tile record of a target. -/
def State.getTgt (s : State) (x : Tgt) : Tile :=
  match x with
  | .tile t => s.tile t
  | .image v n => ((s.image v n).map (·.tile)).getD Tile.reset
  | _ => Tile.reset
/-- The site that stands for a name whose image is saved and whose tile has gone to another use: none of the wafer's. -/
def parked (vni name : Nat) : Site := siteOf (126 * 126 + 16384 * vni + name)
/-- Where the record of a tile is kept while it may be swapped out: its saved image, or the site. -/
def State.live (s : State) (t : Site) : Tgt :=
  let x := s.tile t
  if 125 < t.y then .image ((Site.num t - 126 * 126) / 16384) ((Site.num t - 126 * 126) % 16384)
  else if x.hold && (s.image x.vni x.name).isSome then .image x.vni x.name else .tile t
/-- The record of a tile that may be swapped out, and a change of it. -/
def State.liveTile (s : State) (t : Site) : Tile := s.getTgt (s.live t)
def State.modLive (s : State) (t : Site) (f : Tile → Tile) : State :=
  match s.live t with
  | .image v n => s.modImage v n f
  | _ => s.modTile t f
/-- The record of a core that may be swapped out, and a change of it. -/
def State.liveCore (s : State) (c : CoreId) : Core := (s.liveTile c.site).core c.kind
def State.modLiveCore (s : State) (c : CoreId) (f : Core → Core) : State :=
  s.modLive c.site fun t => t.setCore c.kind (f (t.core c.kind))

/-- The core whose turn it is, and its tile. -/
def State.me (s : State) : Core := s.core s.cur
def State.here (s : State) : Tile := s.tile s.cur.site
def State.modMe (s : State) (f : Core → Core) : State := s.modCore s.cur f
def State.modHere (s : State) (f : Tile → Tile) : State := s.modTile s.cur.site f

/-- Any activity of a tile sets its ACTIVITY bit (R269). -/
def State.active (s : State) (t : Site) : State := s.modTile t fun x => { x with activity := true }

/-! ### Banks, activations and register files (R22, R23) -/

/-- The bank of a priority level: shadow for high. -/
def Core.bank (c : Core) (hi : Bool) : Bank := if hi then c.hi else c.lo
/-- Replace a bank. -/
def Core.setBank (c : Core) (hi : Bool) (b : Bank) : Core := if hi then { c with hi := b } else { c with lo := b }
/-- Change a bank. -/
def Core.modBank (c : Core) (hi : Bool) (f : Bank → Bank) : Core := c.setBank hi (f (c.bank hi))
/-- The level of the activation that runs: a high-priority one is never suspended (R250). -/
def Core.running (c : Core) : Option Bool :=
  if c.hi.act.isSome then some true else if c.lo.act.isSome && !c.lowSusp then some false else none
/-- The level that runs, low where none does. -/
def Core.lev (c : Core) : Bool := c.hi.act.isSome
/-- The bank that the running code reads and writes. -/
def Core.cbank (c : Core) : Bank := c.bank c.lev
/-- The running activation. -/
def Core.act (c : Core) : Option Act := if c.hi.act.isSome then c.hi.act else if c.lowSusp then none else c.lo.act
/-- Change the running activation. -/
def Core.modAct (c : Core) (f : Act → Act) : Core :=
  c.modBank c.lev fun b => { b with act := b.act.map f }
/-- PRIV.LEVEL (R29). -/
def Core.sup (c : Core) : Bool := (c.act.map (·.sup)).getD false
/-- PC of the running activation. -/
def Core.pc (c : Core) : W := (c.act.map (·.pc)).getD 0
/-- Position of the running activation in its lookahead windows (R38). -/
def Core.pos (c : Core) : List Nat := (c.act.map (·.pos)).getD []
/-- The number of the running instruction in its stretch of code. -/
def Core.idx (c : Core) : Nat := c.pos.headD 0

/-- A g register; g0 reads zero (R22). -/
def Core.g (c : Core) (n : Nat) : W := if n % 32 = 0 then 0 else vget c.cbank.g n
/-- A p register; p0 reads all ones (R22). -/
def Core.p (c : Core) (n : Nat) : W := if n % 8 = 0 then BitVec.allOnes 64 else vget c.cbank.p n
/-- Bank fields by number. -/
def Bank.setG (b : Bank) (n : Nat) (x : W) : Bank := if n % 32 = 0 then b else { b with g := vset b.g n x }
def Bank.setP (b : Bank) (n : Nat) (x : W) : Bank := if n % 8 = 0 then b else { b with p := vset b.p n x }

/-- The files with two banks (R22). -/
def isBanked : RFile → Bool
  | .g | .p => true
  | _ => false

/-- The poison marks of a register after it takes the marks listed. -/
def Core.setPoison (c : Core) (f : RFile) (hi : Bool) (n : Nat) (ls : List (Nat × W)) : Core :=
  { c with regPoison := c.regPoison.filter (fun r => !(r.file == f && r.hi == hi && r.num == n)) ++
      ls.map fun l => ⟨f, hi, n, l.1, l.2⟩ }

/-- Write a register file entry at once. g0 and p0 discard the value (R22). -/
def Core.putReg (c : Core) (f : RFile) (hi : Bool) (n : Nat) (x : V) (poison : List (Nat × W)) : Core :=
  let h := isBanked f && hi
  if (f == .g && n % 32 == 0) || (f == .p && n % 8 == 0) then c else
  (match f with
   | .g => c.modBank h fun b => b.setG n (x.setWidth 64)
   | .p => c.modBank h fun b => b.setP n (x.setWidth 64)
   | .v => { c with v := vset c.v n x }
   | .c => { c with c := vset c.c n (x.setWidth 128) }
   | _ => c).setPoison f h n poison

/-! ### Lookahead windows (R38, R39) -/

/-- A window that stretch `depth` of an activation opened and that counts up to instruction `expiry` is open while that stretch
has not passed `expiry`, and closed once the stretch or the activation has ended. -/
def winOpen (pos : Option (List Nat)) (depth expiry : Nat) : Bool :=
  match pos with
  | none => false
  | some l => depth ≤ l.length && decide (l.getD (l.length - depth) 0 ≤ expiry)

/-- The position of the activation of a level. -/
def Core.posOf (c : Core) (hi : Bool) : Option (List Nat) := (c.bank hi).act.map (·.pos)

/-- A held result is still held. -/
def Core.isOpen (c : Core) (p : Pend) : Bool := winOpen (c.posOf p.hiAct) p.depth p.expiry

/-- Write every held result that meets a test, oldest first, and hold the rest. -/
def Core.release (c : Core) (p : Pend → Bool) : Core :=
  (c.pend.filter p).foldl (fun c x => c.putReg x.file x.hi x.num x.val x.poison) { c with pend := c.pend.filter fun x => !p x }

/-- The g, p and c results whose windows have closed become readable. -/
def Core.settle (c : Core) : Core := c.release fun x => x.file != .v && !c.isOpen x
/-- As `settle`, for the v registers, seen from the position of one vector instruction (R104). -/
def Core.settleV (c : Core) (pos : Option (List Nat)) : Core :=
  c.release fun x => x.file == .v && !winOpen pos x.depth x.expiry

/-- The end of an activation of a level closes its windows: its g, p and c results that have come are written (R38). -/
def Core.settleEnd (c : Core) (hi : Bool) : Core := c.release fun x => x.file != .v && x.hiAct == hi
/-- A trap that aborts an activation of a level discards its results that are pending: those whose windows it has passed are written
first (R39). -/
def Core.settleAbort (c : Core) (hi : Bool) : Core :=
  let c := c.release fun x => x.hiAct == hi && !c.isOpen x
  { c with pend := c.pend.filter fun x => x.hiAct != hi, outst := c.outst.filter fun x => x.hiAct != hi }

/-- A write to a register discards every earlier result that is still to come to it (R38). -/
def Core.cancel (c : Core) (f : RFile) (hi : Bool) (n : Nat) : Core :=
  let h := isBanked f && hi
  { c with
    pend := c.pend.filter fun x => !(x.file == f && x.hi == h && x.num == n)
    outst := c.outst.filter fun x => !(x.file == f && x.hi == h && x.num == n) }

/-- Write a register as the instruction at position `pos` of level `hi` with lookahead `L` does (R38). -/
def Core.writeAt (c : Core) (hi : Bool) (pos : List Nat) (L : Nat) (f : RFile) (n : Nat) (x : V) (poison : List (Nat × W)) : Core :=
  let c := c.cancel f hi n
  if L = 0 then c.putReg f hi n x poison
  else { c with pend := c.pend ++ [⟨f, isBanked f && hi, n, x, poison, pos.headD 0 + L, hi, pos.length⟩] }

/-- Write a register for the running instruction. -/
def Core.write (c : Core) (L : Nat) (f : RFile) (n : Nat) (x : V) (poison : List (Nat × W) := []) : Core :=
  c.writeAt c.lev c.pos L f n x poison
/-- The same for one 64-bit value. -/
def Core.writeW (c : Core) (L : Nat) (f : RFile) (n : Nat) (x : W) (poison : List (Nat × W) := []) : Core :=
  c.write L f n (x.setWidth 512) poison

/-- Name a register that a later step will deliver, of a RAMO at the tile `far`; answers the number of the result. -/
def Core.promise (c : Core) (L : Nat) (f : RFile) (n : Nat) (far : Option Nat := none) : Nat × Core :=
  let c := c.cancel f c.lev n
  (c.nextOut, { c with
    nextOut := c.nextOut + 1
    outst := c.outst ++ [⟨c.nextOut, f, isBanked f && c.lev, n, c.idx + L, c.lev, c.pos.length, far⟩] })

/-- Deliver a promised result: held while its window is open, dropped where a later write has cancelled it. -/
def Core.deliver (c : Core) (id : Nat) (x : V) (poison : List (Nat × W)) : Core :=
  match c.outst.find? (·.id == id) with
  | none => c
  | some o =>
    let c := { c with outst := c.outst.filter (·.id != id) }
    if winOpen (c.posOf o.hiAct) o.depth o.expiry then
      { c with pend := c.pend ++ [⟨o.file, o.hi, o.num, x, poison, o.expiry, o.hiAct, o.depth⟩] }
    else c.putReg o.file o.hi o.num x poison

/-- The result still to come that a read of a register outside its window waits for (R38). -/
def Core.awaited (c : Core) (f : RFile) (n : Nat) : Option Outst :=
  c.outst.find? fun o => o.file == f && o.num == n && o.hi == (isBanked f && c.lev) && !winOpen (c.posOf o.hiAct) o.depth o.expiry
/-- A read of a register outside the window of a result still to come waits (R38). -/
def Core.mustWait (c : Core) (f : RFile) (n : Nat) : Bool := (c.awaited f n).isSome
/-- The result of an issued RAMO has not arrived (R211, R218). -/
def Core.farOut (c : Core) : Bool := c.outst.any (·.far.isSome)

/-- DETAIL of a poisoned register that a read consumes (R398, R399). -/
def Core.poisonOf (c : Core) (f : RFile) (n : Nat) : Option W :=
  (c.regPoison.find? fun r => r.file == f && r.num == n && r.hi == (isBanked f && c.lev)).map (·.detail)

/-! ### Control registers by their fields -/

/-- TRAP_CAUSE.ACTIVE (R363). -/
def Core.active (c : Core) : Bool := c.ctl.trapCause.getLsbD 8
/-- PRIV.RESUMABLE (R29). -/
def Core.resumable (c : Core) : Bool := (c.act.map (·.resumable)).getD false
/-- The code window [CODE_BASE, XBOUND) (R175). -/
def Core.inCode (c : Core) (a : Nat) : Bool := decide (c.ctl.codeBase.toNat ≤ a ∧ a < c.ctl.xbound.toNat)
/-- The read-only window [ROWIN_LO, ROWIN_HI) (R176). -/
def Core.inRowin (c : Core) (a : Nat) : Bool := decide (c.ctl.rowinLo.toNat ≤ a ∧ a < c.ctl.rowinHi.toNat)

/-- Fields of TASKn (R241). -/
def taskEntry (t : W) : W := w (t.toNat % 2 ^ 22 / 2 * 2)
def taskEn (t : W) : Bool := t.getLsbD 32
def taskHi (t : W) : Bool := t.getLsbD 33
def taskWeight (t : W) : Nat := W.bits t 34 2 + 1
def taskSup (t : W) : Bool := t.getLsbD 36

/-- Fields of RINGn (R242). -/
def ringBase (r : W) : Nat := W.bits r 0 16 * 64
def ringGran (r : W) : Nat := 2 ^ (W.bits r 16 4 + 3)
def ringEn (r : W) : Bool := r.getLsbD 20
def ringCons (r : W) : Nat := W.bits r 24 16
def ringProd (r : W) : Nat := W.bits r 40 16
def setBits (r : W) (lo len x : Nat) : W :=
  w (r.toNat - W.bits r lo len * 2 ^ lo + x % 2 ^ len * 2 ^ lo)
def ringSetCons (r : W) (x : Nat) : W := setBits r 24 16 x
def ringSetProd (r : W) (x : Nat) : W := setBits r 40 16 x
/-- Granules in use: PROD minus CONS, modulo 2^16. -/
def ringUsed (r : W) : Nat := (ringProd r + 65536 - ringCons r) % 65536
/-- Granules free (R243). -/
def ringFree (r : W) : Nat := ringGran r - ringUsed r
/-- The address of a granule index. -/
def ringAddr (r : W) (i : Nat) : Nat := ringBase r + i % ringGran r * 64

/-! ### Semaphores and waits -/

/-- Set the blocked-on record; WAITED counts on while the kind stays (R268). -/
def Core.block (c : Core) (kind obj peer : Nat) : Core :=
  if c.blocked.kind = kind ∧ c.blocked.obj = obj ∧ c.blocked.peer = peer then c
  else { c with blocked := ⟨kind, obj, peer, if c.blocked.kind = kind then c.blocked.waited else 0⟩ }
/-- The core runs. -/
def Core.unblock (c : Core) : Core := c.block 0 0 0xFFFF

/-! ### Effects of one instruction -/

/-- How the body of an instruction ends. -/
inductive Eff where
  /-- The instruction is complete; the next one follows it. -/
  | ok (s : State)
  /-- The instruction is complete; the next one is at a target (R32). -/
  | jump (target : W) (s : State)
  /-- The instruction traps (R362) and leaves this state. -/
  | trap (cause : Nat) (detail : W) (s : State)
  /-- A resumable trap whose resume address is NPC (R372). -/
  | trapNext (cause : Nat) (detail : W) (s : State)
  /-- The instruction waits, as blocked-on `kind` and `obj`, and runs again on the core's next turn. -/
  | wait (kind obj : Nat) (s : State)
  /-- The instruction has issued and waits for an event of another agent, which completes it. -/
  | hold (s : State)
  /-- The instruction waits for the result or the RMW of an earlier RAMO of the core at a tile (R38, R191), and runs again on the core's
  next turn. -/
  | remote (peer : Nat) (s : State)
  /-- The activation is over, or the state says itself where the core goes on. -/
  | over (s : State)
deriving DecidableEq, Repr

end Sys2Proof.Machine
end

