-- ==== Sys2Proof/Machine/Float.lean ====
section
/-! DEFINITION. Number formats and rounding (R41, R55 to R71, R77, R78): exact values, RoundTo, the special functions and conversions.  Log 14 says how
the special functions are evaluated. -/

namespace Sys2Proof.Machine

/-! ### Types (R41, R55, R61) -/

/-- A float type: exponent and mantissa field widths, bias, the code of the largest finite value, whether it has infinities, and its
canonical NaN. -/
structure FFmt where
  ew : Nat
  mb : Nat
  bias : Nat
  top : Nat
  inf : Bool
  nan : Option Nat
deriving DecidableEq, Repr

/-- R55, R56, R57: the float types by their code. -/
def ffmt (t : Nat) : FFmt :=
  match t with
  | 8 => ⟨8, 23, 127, 0x7F7FFFFF, true, some 0x7FC00000⟩
  | 9 => ⟨8, 7, 127, 0x7F7F, true, some 0x7FC0⟩
  | 10 => ⟨5, 10, 15, 0x7BFF, true, some 0x7E00⟩
  | 11 => ⟨4, 3, 7, 0x7E, false, some 0x7F⟩
  | 12 => ⟨5, 2, 15, 0x7B, true, some 0x7E⟩
  | 13 => ⟨3, 2, 3, 0x1F, false, none⟩
  | 14 => ⟨2, 3, 1, 0x1F, false, none⟩
  | _ => ⟨2, 1, 1, 0x7, false, none⟩

/-- A float type. -/
def isFloat (t : Nat) : Bool := decide (8 ≤ t ∧ t ≤ 15)
/-- An integer type. -/
def isInt (t : Nat) : Bool := decide (t ≤ 7) || t == 16 || t == 17
/-- A complex type. -/
def isCplx (t : Nat) : Bool := decide (18 ≤ t ∧ t ≤ 21)
/-- A signed integer or complex type. -/
def isSigned (t : Nat) : Bool := decide (t ≤ 3) || t == 16 || isCplx t
/-- The classes F, I and B of R102. -/
def clsF (t : Nat) : Bool := decide (8 ≤ t ∧ t ≤ 10)
def clsI (t : Nat) : Bool := decide (t ≤ 7)
def clsB (t : Nat) : Bool := decide (t ≤ 12) || decide (18 ≤ t ∧ t ≤ 22)
/-- Bits of an element (R41). -/
def tyBits (t : Nat) : Nat :=
  match t with
  | 0 | 4 => 8
  | 1 | 5 => 16
  | 2 | 6 => 32
  | 3 | 7 => 64
  | 8 => 32
  | 9 | 10 => 16
  | 13 | 14 => 6
  | 15 | 16 | 17 => 4
  | 19 => 16
  | 20 => 32
  | 21 => 64
  | _ => 8
/-- Storage width of a lane of a type, a pair of 4-bit elements counting as one (R101). -/
def laneBits (t : Nat) : Nat := Nat.max 8 (tyBits t)
/-- Bits of the components of a complex type, or of the element. -/
def compBits (t : Nat) : Nat := if isCplx t then tyBits t / 2 else tyBits t

/-- The integer that `n` bits hold (R61). -/
def intOf (signed : Bool) (n x : Nat) : Int :=
  let y := x % 2 ^ n
  if signed && decide (2 ^ (n - 1) ≤ y) then (y : Int) - 2 ^ n else y
/-- The `n` low bits of an integer. -/
def wrapTo (n : Nat) (v : Int) : Nat := (v % (2 ^ n : Int)).toNat
/-- Smallest and largest value of an integer type of `n` bits. -/
def intMin (signed : Bool) (n : Nat) : Int := if signed then -(2 ^ (n - 1) : Int) else 0
def intMax (signed : Bool) (n : Nat) : Int := if signed then 2 ^ (n - 1) - 1 else 2 ^ n - 1
/-- Sat (R54). -/
def clampTo (signed : Bool) (n : Nat) (v : Int) : Int := max (intMin signed n) (min (intMax signed n) v)
/-- An integer result: wrapped, or clamped under saturation (R61). -/
def intRes (signed sat : Bool) (n : Nat) (v : Int) : Nat := wrapTo n (if sat then clampTo signed n v else v)

/-! ### Exact values -/

/-- A real number with a NaN and infinities: sign, integer magnitude and exponent, and whether a positive amount less than one unit
of the magnitude is left out. -/
inductive FVal where
  | nan
  | inf (neg : Bool)
  | fin (neg : Bool) (m : Nat) (e : Int) (more : Bool)
deriving DecidableEq, Repr

/-- R55: the value of an encoding. -/
def fval (t x : Nat) : FVal :=
  let f := ffmt t
  let neg := x / 2 ^ (f.ew + f.mb) % 2 == 1
  let mag := x % 2 ^ (f.ew + f.mb)
  let e := mag / 2 ^ f.mb
  let m := mag % 2 ^ f.mb
  if f.inf && e == 2 ^ f.ew - 1 then (if m = 0 then .inf neg else .nan)
  else if !f.inf && f.nan == some mag then .nan
  else if e = 0 then .fin neg m (1 - (f.bias : Int) - f.mb) false
  else .fin neg (m + 2 ^ f.mb) ((e : Int) - f.bias - f.mb) false

/-- The value of an sc8 encoding (R55). -/
def scVal (x : Nat) : FVal := if x % 256 = 255 then .nan else .fin false 1 ((x % 256 : Int) - 127) false
/-- The value of an integer. -/
def ival (v : Int) : FVal := .fin (decide (v < 0)) v.natAbs 0 false

/-- The signed magnitude of a finite value counted in units of 2^u. -/
def atUnit (neg : Bool) (m : Nat) (e u : Int) : Int :=
  let v : Int := m * 2 ^ (e - u).toNat
  if neg then -v else v

/-- NV, DZ, OF, UF and NX (R67). -/
def NV : Nat := 1
def DZ : Nat := 2
def OF : Nat := 4
def UF : Nat := 8
def NX : Nat := 16

/-- Exact sum with the sign of a zero (R56); the flag is NV for ∞ − ∞. `down` is RDN. -/
def fadd (down : Bool) (x y : FVal) : FVal × Nat :=
  match x, y with
  | .nan, _ => (.nan, 0)
  | _, .nan => (.nan, 0)
  | .inf a, .inf b => if a = b then (.inf a, 0) else (.nan, NV)
  | .inf a, _ => (.inf a, 0)
  | _, .inf b => (.inf b, 0)
  | .fin a m e _, .fin b n k _ =>
    if m = 0 ∧ n = 0 then (.fin (if a = b then a else down) 0 0 false, 0)
    else
      let u := min e k
      let v := atUnit a m e u + atUnit b n k u
      (.fin (if v = 0 then down else decide (v < 0)) v.natAbs u false, 0)
/-- The negative of a value. -/
def fneg (x : FVal) : FVal :=
  match x with
  | .nan => .nan
  | .inf a => .inf (!a)
  | .fin a m e s => .fin (!a) m e s
/-- R56, R141: the exact sum of terms, in any order; the flag is NV for infinities of both signs, a NaN beside them or not (log 77). -/
def fsum (down : Bool) (l : List FVal) : FVal × Nat :=
  match l with
  | [] => (.fin false 0 0 false, 0)
  | x :: r =>
    if l.contains (.inf false) && l.contains (.inf true) then (.nan, NV)
    else (r.foldl (fun z y => (fadd down z y).1) x, 0)
/-- Exact product; the flag is NV for 0 × ∞. -/
def fmul (x y : FVal) : FVal × Nat :=
  match x, y with
  | .nan, _ => (.nan, 0)
  | _, .nan => (.nan, 0)
  | .inf a, .inf b => (.inf (a != b), 0)
  | .inf a, .fin b n _ _ => if n = 0 then (.nan, NV) else (.inf (a != b), 0)
  | .fin a m _ _, .inf b => if m = 0 then (.nan, NV) else (.inf (a != b), 0)
  | .fin a m e _, .fin b n k _ => (.fin (a != b) (m * n) (e + k) false, 0)
/-- A product that is 0 × ∞ (R68). -/
def zeroInf (x y : FVal) : Bool :=
  match x, y with
  | .inf _, .fin _ n _ _ => n == 0
  | .fin _ m _ _, .inf _ => m == 0
  | _, _ => false
/-- Multiply by a power of two. -/
def fscale (x : FVal) (k : Int) : FVal :=
  match x with
  | .fin a m e s => .fin a m (e + k) s
  | y => y

/-- Quotient of two positive integers to 256 bits beyond the first, with what is left out. -/
def ratio (neg : Bool) (m : Nat) (e : Int) (n : Nat) (k : Int) : FVal :=
  let sh := 256 + n.log2
  .fin neg (m * 2 ^ sh / n) (e - k - sh) (m * 2 ^ sh % n != 0)
/-- VDIV (R67, R68). -/
def fdiv (x y : FVal) : FVal × Nat :=
  match x, y with
  | .nan, _ => (.nan, 0)
  | _, .nan => (.nan, 0)
  | .inf _, .inf _ => (.nan, NV)
  | .inf a, .fin b _ _ _ => (.inf (a != b), 0)
  | .fin a _ _ _, .inf b => (.fin (a != b) 0 0 false, 0)
  | .fin a m e _, .fin b n k _ =>
    if n = 0 then (if m = 0 then (.nan, NV) else (.inf (a != b), DZ))
    else if m = 0 then (.fin (a != b) 0 0 false, 0)
    else (ratio (a != b) m e n k, 0)

/-- The integer square root below 2^i. -/
def isqrt (i n r : Nat) : Nat :=
  match i with
  | 0 => r
  | j + 1 =>
    let r' := r + 2 ^ j
    isqrt j n (if r' * r' ≤ n then r' else r)
/-- Square root of a positive integer at an even exponent, with what is left out. -/
def rootOf (m : Nat) (e : Int) : FVal :=
  let odd := (e % 2).toNat
  let n := m * 2 ^ (odd + 256)
  let r := isqrt (n.log2 / 2 + 1) n 0
  .fin false r ((e - odd - 256) / 2) (r * r != n)
/-- VSQRT (R68). -/
def fsqrt (x : FVal) : FVal × Nat :=
  match x with
  | .nan => (.nan, 0)
  | .inf a => if a then (.nan, NV) else (.inf false, 0)
  | .fin a m e _ => if m = 0 then (.fin a 0 0 false, 0) else if a then (.nan, NV) else (rootOf m e, 0)
/-- VRCP (R68). -/
def frcp (x : FVal) : FVal × Nat :=
  match x with
  | .nan => (.nan, 0)
  | .inf a => (.fin a 0 0 false, 0)
  | .fin a m e _ => if m = 0 then (.inf a, DZ) else (ratio a 1 0 m e, 0)
/-- VRSQ (R68). -/
def frsq (x : FVal) : FVal × Nat :=
  match x with
  | .nan => (.nan, 0)
  | .inf a => if a then (.nan, NV) else (.fin false 0 0 false, 0)
  | .fin a m e _ =>
    if m = 0 then (.inf a, DZ)
    else if a then (.nan, NV)
    else
      let odd := (e % 2).toNat
      let n := m * 2 ^ odd
      let k := 256 + n.log2
      let r := isqrt (k + 1) (2 ^ (2 * k) / n) 0
      (.fin false r (-((e - odd) / 2) - k) (r * r * n != 2 ^ (2 * k)), 0)

/-! ### Special functions in fixed point with 576 fraction bits (log 14) -/

/-- One, ln 2 and π. -/
def fxOne : Nat := 2 ^ 576
def fxLn2 : Nat := 0xb17217f7d1cf79abc9e3b39803f2f6af40f343267298b62d8a0d175b8baafa2be7b876206debac98559552fb4afa1b10ed2eae35c138214427573b291169b8253e96ca16224ae8c5
def fxPi : Nat := 0x3243f6a8885a308d313198a2e03707344a4093822299f31d0082efa98ec4e6c89452821e638d01377be5466cf34e90c6cc0ac29b7c97c50dd3f84d5b5b54709179216d5d98979fb1b

/-- The terms of the exponential series from term k on. -/
def expSeries (fuel k x term : Nat) : Nat :=
  match fuel with
  | 0 => 0
  | n + 1 => term + expSeries n (k + 1) x (term * x / fxOne / k)
/-- The terms z^k / k of the inverse hyperbolic tangent, k odd. -/
def atanhSeries (fuel k z2 term : Nat) : Nat :=
  match fuel with
  | 0 => 0
  | n + 1 => term / k + atanhSeries n (k + 2) z2 (term * z2 / fxOne)
/-- The terms of the sine series, alternating. -/
def sinSeries (fuel k x2 term : Nat) : Int :=
  match fuel with
  | 0 => 0
  | n + 1 => (term : Int) - sinSeries n (k + 2) x2 (term * x2 / fxOne / (k * (k + 1)))

/-- Numerator of |m · 2^e| over 2^576, for e ≥ −576. -/
def fxOf (m : Nat) (e : Int) : Nat := m * 2 ^ (e + 576).toNat

/-- VEXP2 (R68). -/
def fexp2 (x : FVal) : FVal × Nat :=
  match x with
  | .nan => (.nan, 0)
  | .inf a => if a then (.fin false 0 0 false, 0) else (.inf false, 0)
  | .fin a m e _ =>
    if m = 0 then (.fin false 1 0 false, 0)
    else if e + m.log2 ≥ 12 then (.fin false 1 (if a then -4096 else 4096) false, 0)
    else
      let v : Int := if a then -(fxOf m e : Int) else fxOf m e
      let n := v / (fxOne : Int)
      let f := (v % (fxOne : Int)).toNat
      if f = 0 then (.fin false 1 n false, 0)
      else (.fin false (expSeries 120 1 (f * fxLn2 / fxOne) fxOne) (n - 576) true, 0)
/-- VLOG2 (R68). -/
def flog2 (x : FVal) : FVal × Nat :=
  match x with
  | .nan => (.nan, 0)
  | .inf a => if a then (.nan, NV) else (.inf false, 0)
  | .fin a m e _ =>
    if m = 0 then (.inf true, DZ)
    else if a then (.nan, NV)
    else
      let k := m.log2
      let n : Int := e + k
      if m = 2 ^ k then (ival n, 0)
      else
        let z := (m - 2 ^ k) * fxOne / (m + 2 ^ k)
        let l := 2 * atanhSeries 200 1 (z * z / fxOne) z * fxOne / fxLn2
        let v : Int := n * fxOne + l
        (.fin (decide (v < 0)) v.natAbs (-576) true, 0)
/-- sin(π r) for 0 < r < 1/2, r over 2^576. -/
def sinPi (r : Nat) : Nat :=
  let x := r * fxPi / fxOne
  (sinSeries 70 2 (x * x / fxOne) x).toNat
/-- VSINPI (R68). -/
def fsinpi (x : FVal) : FVal × Nat :=
  match x with
  | .nan => (.nan, 0)
  | .inf _ => (.nan, NV)
  | .fin a m e _ =>
    if m = 0 ∨ 0 ≤ e then (.fin a 0 0 false, 0)
    else
      let t := fxOf m e % (2 * fxOne)
      let neg := a != decide (fxOne ≤ t)
      let r := t % fxOne
      if r = 0 then (.fin a 0 0 false, 0)
      else if 2 * r = fxOne then (.fin neg 1 0 false, 0)
      else (.fin neg (sinPi (if fxOne < 2 * r then fxOne - r else r)) (-576) true, 0)
/-- VCOSPI (R68). -/
def fcospi (x : FVal) : FVal × Nat :=
  match x with
  | .nan => (.nan, 0)
  | .inf _ => (.nan, NV)
  | .fin _ m e _ =>
    let t := if 1 ≤ e then 0 else fxOf m e % (2 * fxOne)
    let t := if fxOne < t then 2 * fxOne - t else t
    if t = 0 then (.fin false 1 0 false, 0)
    else if t = fxOne then (.fin true 1 0 false, 0)
    else if 2 * t = fxOne then (.fin false 0 0 false, 0)
    else
      let neg := decide (fxOne < 2 * t)
      let t := if neg then fxOne - t else t
      (.fin neg (sinPi (fxOne / 2 - t)) (-576) true, 0)

/-! ### Rounding -/

/-- What a sequence of roundings works with: the mode of R62, saturation, the LFSR state and the flags raised. -/
structure Fp where
  mode : Nat
  sat : Bool
  seed : Nat
  flags : Nat
deriving DecidableEq, Repr

/-- R62: mode and saturation from a modifier and FP_MODE. -/
def Fp.of (mod : Nat) (fpMode seed : W) : Fp :=
  { mode := if mod = 0 then W.bits fpMode 0 3 else if mod = 1 then 0 else mod
    sat := mod == 1 || fpMode.getLsbD 3
    seed := W.bits seed 0 32
    flags := 0 }
/-- Round to nearest even, no saturation: the roundings that read no modifier. -/
def Fp.rne : Fp := ⟨0, false, 0, 0⟩
/-- Raise flags. -/
def Fp.raise (s : Fp) (f : Nat) : Fp := { s with flags := s.flags ||| f }
/-- RDN (R56). -/
def Fp.down (s : Fp) : Bool := s.mode == 3

/-- R66: one step of the LFSR. -/
def lfsrStep (s : Nat) : Nat := (2 * s) % 2 ^ 32 + (s / 2 ^ 31 + s / 2 ^ 21 + s / 2 + s) % 2
/-- R66: a draw: 32 steps. -/
def lfsrDraw (s : Nat) : Nat := (List.range 32).foldl (fun s _ => lfsrStep s) s
/-- Draw where the mode is SR: the value and the state after. -/
def Fp.draw (s : Fp) : Nat × Fp :=
  if s.mode = 5 then let d := lfsrDraw s.seed; (d, { s with seed := d }) else (0, s)

/-- Whether the magnitude q + r / 2^k (and a little more) rounds up (R62, R65). -/
def roundsUp (mode draw : Nat) (neg : Bool) (q r k : Nat) (more : Bool) : Bool :=
  match mode with
  | 0 => decide (2 ^ k < 2 * r) || (decide (2 * r = 2 ^ k) && (more || q % 2 == 1))
  | 6 => decide (2 ^ k ≤ 2 * r)
  | 3 => neg && (r != 0 || more)
  | 4 => !neg && (r != 0 || more)
  | 5 => decide (2 ^ (k + 32) ≤ r * 2 ^ 32 + draw * 2 ^ k)
  | _ => false

/-- A magnitude m · 2^e rounded to a multiple of 2^u: the multiple, and whether the value changed. -/
def roundMag (mode draw : Nat) (neg : Bool) (m : Nat) (e : Int) (more : Bool) (u : Int) : Nat × Bool :=
  if u ≤ e then (m * 2 ^ (e - u).toNat, more)
  else
    let k := (u - e).toNat
    let q := m / 2 ^ k
    let r := m % 2 ^ k
    (q + b01 (roundsUp mode draw neg q r k more), r != 0 || more)

/-- The code of ±largest finite. -/
def FFmt.code (f : FFmt) (neg : Bool) (mag : Nat) : Nat := mag + b01 neg * 2 ^ (f.ew + f.mb)
/-- R63 step 6: an infinite result in a type. -/
def infRes (f : FFmt) (s : Fp) (neg exact : Bool) : Nat × Fp :=
  if f.inf then (f.code neg ((2 ^ f.ew - 1) * 2 ^ f.mb), s)
  else
    let s := if exact then s.raise NV else s
    match f.nan with
    | some n => if s.sat then (f.code neg f.top, s) else (n, s)
    | none => (f.code neg f.top, s)

/-- R63, R71: RoundTo for a float type. -/
def roundF (t : Nat) (s : Fp) (x : FVal) : Nat × Fp :=
  let f := ffmt t
  let (d, s) := s.draw
  match x with
  | .nan => match f.nan with
    | some n => (n, s)
    | none => (0, s.raise NV)
  | .inf a => infRes f s a true
  | .fin a m e more =>
    if m = 0 then (f.code a 0, s)
    else
      let low : Int := 1 - (f.bias : Int) - f.mb
      let u := max low (e + m.log2 - f.mb)
      let (q, nx) := roundMag s.mode d a m e more u
      -- the code of q · 2^u: the exponent field counts units above the subnormal one
      let code := q + (u - low).toNat * 2 ^ f.mb
      if f.top < code then
        let s := s.raise (OF ||| NX)
        if s.sat || s.mode == 2 || (s.mode == 3 && !a) || (s.mode == 4 && a) then (f.code a f.top, s) else infRes f s a false
      else
        let s := if nx then s.raise (NX ||| (if code < 2 ^ f.mb then UF else 0)) else s
        (f.code a code, s)

/-- R64: RoundTo for an integer type of `n` bits. -/
def roundI (signed : Bool) (n : Nat) (s : Fp) (x : FVal) : Nat × Fp :=
  let (d, s) := s.draw
  match x with
  | .nan => (0, s.raise NV)
  | .inf a => (wrapTo n (if a then intMin signed n else intMax signed n), s.raise NV)
  | .fin a m e more =>
    let (q, nx) := roundMag s.mode d a m e more 0
    let v : Int := if a then -(q : Int) else q
    let s := if nx then s.raise NX else s
    let s := if v < intMin signed n ∨ intMax signed n < v then s.raise NV else s
    (intRes signed s.sat n v, s)

/-- R70: conversion to sc8. -/
def toSc (s : Fp) (x : FVal) : Nat × Fp :=
  match x with
  | .nan => (0xFF, s.raise NV)
  | .inf _ => (0xFF, s.raise NV)
  | .fin _ m e _ =>
    if m = 0 then (0, s.raise (UF ||| NX))
    else
      let k : Int := e + m.log2
      if k < -127 then (0, s.raise (UF ||| NX))
      else if 127 < k then (0xFE, s.raise (OF ||| NX))
      else ((k + 127).toNat, if m = 2 ^ m.log2 then s else s.raise NX)

/-- R69: float pairs whose conversion is exact. -/
def exactPair (s d : Nat) : Bool :=
  s == d || (match s, d with
    | 15, _ => true
    | 13, 11 => true
    | 13, 12 => true
    | 14, 11 => true
    | 13, _ => decide (d ≤ 10)
    | 14, _ => decide (d ≤ 10)
    | 11, _ => decide (d ≤ 10)
    | 12, _ => decide (d ≤ 10)
    | 9, 8 => true
    | 10, 8 => true
    | _, _ => false)

/-- The value of an element of a float, integer or sc8 type. -/
def elemVal (t x : Nat) : FVal :=
  if isFloat t then fval t x else if t = 22 then scVal x else ival (intOf (isSigned t) (tyBits t) x)

/-- R69: integer to integer, for one component of `n` source and `k` destination bits. -/
def intToInt (s : Fp) (sSigned : Bool) (n : Nat) (dSigned : Bool) (k x : Nat) : Nat × Fp :=
  let v := intOf sSigned n x
  let s' := if v < intMin dSigned k ∨ intMax dSigned k < v then s.raise NV else s
  (intRes dSigned s.sat k v, s')

/-- R69, R70: the conversion of one element of type `a` to type `b`. A pair that cannot round draws nothing (R66); a float to sc8 is no
such pair. -/
def convert (a b : Nat) (s : Fp) (x : Nat) : Nat × Fp :=
  if isCplx a then
    let n := compBits a
    let k := compBits b
    let (re, s) := intToInt s true n true k x
    let (im, s) := intToInt s true n true k (x / 2 ^ n)
    (re + im * 2 ^ k, s)
  else if a = 22 && b = 22 then (x, s)
  else if isInt a && isInt b then intToInt s (isSigned a) (tyBits a) (isSigned b) (tyBits b) x
  else if b = 22 then toSc s.draw.2 (elemVal a x)
  else if isInt b then roundI (isSigned b) (tyBits b) s (elemVal a x)
  else if (isFloat a && exactPair a b) || (a == 22 && (b == 8 || b == 9)) then
    let r := roundF b { Fp.rne with sat := false } (elemVal a x)
    (r.1, s)
  else roundF b s (elemVal a x)

/-! ### Sums that round to nearest even in f32 and comparisons -/

/-- One addition rounded RNE in a float type, with no flag (R72, R77, R78). -/
def addRne (t x y : Nat) : Nat := (roundF t Fp.rne (fadd false (fval t x) (fval t y)).1).1
/-- A NaN encoding. -/
def isNaN (t x : Nat) : Bool := fval t x == .nan
/-- The canonical NaN. -/
def nanOf (t : Nat) : Nat := (ffmt t).nan.getD 0
/-- The order of encodings of a float type in which −0 stands below +0. -/
def fkey (t x : Nat) : Int :=
  let f := ffmt t
  let mag := x % 2 ^ (f.ew + f.mb)
  if x / 2 ^ (f.ew + f.mb) % 2 = 1 then -(mag : Int) - 1 else mag
/-- Minimum or maximum; the canonical NaN where an operand is NaN (R72, R77). -/
def fpick (t : Nat) (larger : Bool) (x y : Nat) : Nat :=
  if isNaN t x || isNaN t y then nanOf t
  else if (decide (fkey t x < fkey t y)) == larger then y else x

end Sys2Proof.Machine
end

