-- ==== Sys2Proof/Machine/Keccak.lean ====
section
/-! DEFINITION. The functions of FIPS 202 and SP 800-185 that the spec names: SHA3-512 (R393, R406) and KMAC128 (R343), written from
those standards (log 8). -/

namespace Sys2Proof.Machine

/-- Lane x + 5y of a Keccak state. -/
def klane (l : List W) (i : Nat) : W := l.getD i 0

/-- Rotation offsets of step rho, by lane. -/
def krot : List Nat := [0, 1, 62, 28, 27, 36, 44, 6, 55, 20, 3, 10, 43, 25, 39, 41, 45, 15, 21, 8, 18, 2, 61, 56, 14]

/-- Round constants of step iota. -/
def kround : List W :=
  [0x0000000000000001, 0x0000000000008082, 0x800000000000808A, 0x8000000080008000, 0x000000000000808B, 0x0000000080000001,
   0x8000000080008081, 0x8000000000008009, 0x000000000000008A, 0x0000000000000088, 0x0000000080008009, 0x000000008000000A] ++
  [0x000000008000808B, 0x800000000000008B, 0x8000000000008089, 0x8000000000008003, 0x8000000000008002, 0x8000000000000080,
   0x000000000000800A, 0x800000008000000A, 0x8000000080008081, 0x8000000000008080, 0x0000000080000001, 0x8000000080008008]

/-- One round: theta, rho and pi, chi, iota. -/
def kstep (a : List W) (rc : W) : List W :=
  let c := (List.range 5).map fun x => klane a x ^^^ klane a (x + 5) ^^^ klane a (x + 10) ^^^ klane a (x + 15) ^^^ klane a (x + 20)
  let d := (List.range 5).map fun x => klane c ((x + 4) % 5) ^^^ (klane c ((x + 1) % 5)).rotateLeft 1
  let e := (List.range 25).map fun i => (klane a i ^^^ klane d (i % 5)).rotateLeft (krot.getD i 0)
  -- lane (x, y) of step pi comes from lane (x + 3y, x)
  let b := (List.range 25).map fun i => klane e ((i % 5 + 3 * (i / 5)) % 5 + 5 * (i % 5))
  let r := (List.range 25).map fun i =>
    klane b i ^^^ (~~~ klane b (i / 5 * 5 + (i % 5 + 1) % 5) &&& klane b (i / 5 * 5 + (i % 5 + 2) % 5))
  match r with
  | x :: t => (x ^^^ rc) :: t
  | [] => []

/-- Keccak-f[1600]. -/
def keccakF (a : List W) : List W := kround.foldl kstep a

/-- The 64-bit words of a list of bytes. -/
def wordsLE : List Byte → List W
  | a :: b :: c :: d :: e :: f :: g :: h :: r => w (leNat [a, b, c, d, e, f, g, h]) :: wordsLE r
  | _ => []

/-- Blocks of `n` bytes; `fuel` bounds their number. -/
def blocks (fuel n : Nat) (bs : List Byte) : List (List Byte) :=
  match fuel with
  | 0 => []
  | k + 1 => if bs.isEmpty then [] else bs.take n :: blocks k n (bs.drop n)

/-- Padding: the domain byte, zeros, and the last bit of the block. -/
def kpad (rate : Nat) (dom : Byte) (m : List Byte) : List Byte :=
  let z := rate - 1 - m.length % rate
  if z = 0 then m ++ [dom ||| 0x80] else m ++ dom :: List.replicate (z - 1) 0 ++ [0x80]

/-- The state of a sponge that has absorbed the padded message. -/
def absorb (rate : Nat) (dom : Byte) (m : List Byte) : List W :=
  let p := kpad rate dom m
  (blocks (p.length + 1) rate p).foldl (fun a b =>
    let ws := wordsLE b
    keccakF ((List.range 25).map fun i => klane a i ^^^ klane ws i)) (List.replicate 25 0)
/-- The sponge with an output of at most one block. -/
def sponge (rate : Nat) (dom : Byte) (m : List Byte) (out : Nat) : List Byte :=
  ((absorb rate dom m).flatMap fun x => leBytes 8 x.toNat).take out

/-- SHA3-512. -/
def sha3_512 (m : List Byte) : List Byte := sponge 72 0x06 m 64

/-- left_encode of SP 800-185 for numbers below 65,536. -/
def leftEncode (n : Nat) : List Byte :=
  if n < 256 then [1, BitVec.ofNat 8 n] else [2, BitVec.ofNat 8 (n / 256), BitVec.ofNat 8 n]
/-- right_encode for numbers below 256. -/
def rightEncode (n : Nat) : List Byte := [BitVec.ofNat 8 n, 1]
/-- encode_string. -/
def encodeString (b : List Byte) : List Byte := leftEncode (8 * b.length) ++ b
/-- bytepad. -/
def bytepad (b : List Byte) (n : Nat) : List Byte :=
  let x := leftEncode n ++ b
  x ++ List.replicate ((n - x.length % n) % n) 0

/-- KMAC128 with an output of `out` bytes, at most one block. -/
def kmac128 (key x : List Byte) (out : Nat) (custom : List Byte) : List Byte :=
  sponge 168 0x04
    (bytepad (encodeString [0x4B, 0x4D, 0x41, 0x43] ++ encodeString custom) 168 ++ bytepad (encodeString key) 168 ++ x ++
      rightEncode (8 * out)) out

end Sys2Proof.Machine
end

