-- ==== Sys2Proof/Machine/Caps.lean ====
section
/-! DEFINITION. Capabilities: their fields, the seal, the injection checks and name resolution (R342 to R346). -/

namespace Sys2Proof.Machine

/-- Fields of a capability (R342). -/
def cvni (c : Cap) : Nat := bits c.toNat 52 12
def cname (c : Cap) : Nat := bits c.toNat 24 16
def ccore (c : Cap) : Nat := bits c.toNat 22 2
def cclo (c : Cap) : Nat := bits c.toNat 16 6
def cchi (c : Cap) : Nat := bits c.toNat 10 6
def crights (c : Cap) : Nat := bits c.toNat 64 4
def cmask (c : Cap) : Nat := bits c.toNat 68 4
def cseal (c : Cap) : Nat := bits c.toNat 72 56
/-- Effective right r. -/
def cright (c : Cap) (r : Nat) : Bool := c.getLsbD (64 + r) && c.getLsbD (68 + r)

/-- R342: reserved fields zero, CORE not 3, CLO ≤ CHI, and a service capability names a gateway. -/
def formed (c : Cap) : Bool :=
  bits c.toNat 40 12 == 0 && bits c.toNat 0 10 == 0 && ccore c != 3 && decide (cclo c ≤ cchi c)
    && (cvni c != 0 || decide (0xFF00 ≤ cname c ∧ cname c ≤ 0xFF1F))

/-- R343: the 56-bit seal of bits [67:0] under a key. -/
def sealOf (key : BitVec 256) (low : Nat) : Nat :=
  leNat (kmac128 (leBytes 32 key.toNat) (leBytes 9 (low % 2 ^ 68)) 7 [0x4D, 0x57, 0x39, 0x43, 0x41, 0x50])

/-- The region of a VNI (R339). -/
def State.region (s : State) (vni : Nat) : Option Region := s.regions.find? (·.vni == vni)
/-- Change the region of a VNI. -/
def State.modRegion (s : State) (vni : Nat) (f : Region → Region) : State :=
  { s with regions := mapIf s.regions (·.vni == vni) f }

/-- Current and previous key of a VNI; the service key for VNI 0 (R343). The interface of a site that has not taken the new keys of its region
holds the old pair (R352). -/
def State.keysOf (s : State) (vni : Nat) (at_ : Option Site) : BitVec 256 × BitVec 256 :=
  if vni = 0 then (s.serviceKey, s.serviceKey)
  else match s.region vni with
    | some r => if at_.any r.late.contains then r.oldKeys else (r.keyCur, r.keyPrev)
    | none => (0, 0)

/-- R344 steps 1 and 2 in a region, at the interface of a site: none for CAP_SEAL, else whether only the previous key matched. -/
def sealCheckIn (s : State) (vni : Nat) (c : Cap) (at_ : Option Site) : Option Bool :=
  if !formed c || !(cvni c == vni || cvni c == 0) then none
  else
    let k := s.keysOf (cvni c) at_
    if cseal c = sealOf k.1 c.toNat then some false
    else if cseal c = sealOf k.2 c.toNat then some true
    else none
/-- The same at a tile. -/
def sealCheck (s : State) (t : Site) (c : Cap) : Option Bool := sealCheckIn s (s.tile t).vni c (some t)

/-- R344: the injection checks in a region, at the interface of a site; the cause of the first that fails. -/
def capCheckIn (s : State) (vni : Nat) (c : Cap) (right : Nat) (chan : Option Nat) (at_ : Option Site) : Option Nat :=
  match sealCheckIn s vni c at_ with
  | none => some 0x0D
  | some _ =>
    if !cright c right then some 0x0E
    else match chan with
      | none => none
      | some n => if cclo c ≤ n ∧ n ≤ cchi c then none else some 0x0E
/-- The same at a tile. -/
def capCheck (s : State) (t : Site) (c : Cap) (right : Nat) (chan : Option Nat) : Option Nat :=
  capCheckIn s (s.tile t).vni c right chan (some t)

/-- DETAIL of CAP_SEAL and CAP_RIGHTS (R362). -/
def capDetail (reg : Nat) (chan : Option Nat) : W := w (reg % 16 + chan.getD 0 % 64 * 16)

/-- What a name resolves to (R345). -/
inductive Entry where
  | unbound
  | bound (t : Site)
  | moving (t : Site)
  | swapped (island : Nat)
  | forwarded (t : Site)
  | gateway (port : Nat)
deriving DecidableEq, Repr

/-- R345: a binding map entry. -/
def entryOf (v : Nat) : Entry :=
  if v = 0xFFFF then .unbound
  else
    let x := bits v 0 7
    let y := bits v 7 7
    match bits v 14 2 with
    | 2 => .swapped (bits v 0 6)
    | 0 => if x > 125 then .unbound else .bound ⟨x, y⟩
    | 1 => if x > 125 then .unbound else .moving ⟨x, y⟩
    | _ => if x > 125 then .unbound else .forwarded ⟨x, y⟩

/-- The address of a name's entry in the binding map. -/
def mapAddr (name : Nat) : Nat := 0x002C0000 + 2 * name

/-- R345: a name in the map of a tile; gateway names go through the gateway table. -/
def resolve (t : Tile) (name : Nat) : Entry :=
  if name < 0x4000 then entryOf (Mem.load t.mem (mapAddr name) 2)
  else if 0xFF00 ≤ name ∧ name ≤ 0xFF1F then
    match lookup t.gate (name - 0xFF00) with
    | some p => .gateway p
    | none => .unbound
  else .unbound

/-- STATE of CAPINFO (R351). -/
def Entry.code : Entry → Nat
  | .unbound => 0
  | .bound _ => 1
  | .moving _ => 2
  | .swapped _ => 3
  | .forwarded _ => 4
  | .gateway _ => 0

end Sys2Proof.Machine
end

