-- ==== Sys2Proof/Machine/Rings.lean ====
section
/-! DEFINITION. Tile memory with its poison, arrival rings and their records, bindings, and message descriptors (R180, R225 to R227,
R240 to R244, R397). -/

namespace Sys2Proof.Machine

/-! ### Tile memory with poison (R172, R397) -/

/-- The poison marks of words that a write of `n` bytes at `a` does not wholly replace. -/
def keepPoison (l : List Nat) (a n : Nat) : List Nat := l.filter fun x => !(decide (a ≤ x) && decide (x + 8 ≤ a + n))
/-- R204: the 16-bit words that a write of `n` bytes at `a` touches, as they stand before it. -/
def oldWords (m : Mem) (a n : Nat) : List OldWord :=
  (List.range ((a + n + 1) / 2 - a / 2)).map fun i => ⟨2 * (a / 2 + i), BitVec.ofNat 16 (Mem.load m (2 * (a / 2 + i)) 2), n == 1⟩
/-- Tile memory after a write of `n` bytes at `a`; fetches that no IFENCE orders after it may still find what it replaces (R204). -/
def Tile.setMem (t : Tile) (a n : Nat) (m : Mem) : Tile :=
  { t with mem := m, past := t.past ++ oldWords t.mem a n, poison := keepPoison t.poison a n }
/-- Store bytes in tile memory. -/
def Tile.store (t : Tile) (a : Nat) (bs : List Byte) : Tile := t.setMem a bs.length (Mem.store t.mem a bs)
/-- Mark words of tile memory as poisoned. -/
def Tile.poisonAt (t : Tile) (l : List Nat) : Tile := { t with poison := l.filter (fun x => !t.poison.contains x) ++ t.poison }
/-- The word at an address is poisoned. -/
def Tile.bad (t : Tile) (a : Nat) : Bool := t.poison.contains (a / 8 * 8)
/-- The poisoned words among `n` bytes from `a`, as word numbers counted from `a`. -/
def Tile.badWords (t : Tile) (a n : Nat) : List Nat := (List.range (ceilDiv n 8)).filter fun i => t.bad (a + 8 * i)
/-- Store a payload with the poison it carries (R398). -/
def Tile.storePoison (t : Tile) (a : Nat) (bs : List Byte) (l : List Nat) : Tile :=
  (t.store a bs).poisonAt (l.map fun i => a / 8 * 8 + 8 * i)
/-- A 64-bit word of tile memory. -/
def Tile.word (t : Tile) (a : Nat) : W := Mem.word t.mem a
/-- Store a 64-bit word. -/
def Tile.setWord (t : Tile) (a : Nat) (x : W) : Tile := t.store a (leBytes 8 x.toNat)

/-! ### Message descriptors (R244) -/

/-- A message descriptor from its fields. -/
def descOf (len score : Nat) (launch join : Bool) (sender msgid flags tag : Nat) : W :=
  w (len % 4096 + score * 2 ^ 12 + b01 launch * 2 ^ 14 + b01 join * 2 ^ 15 + sender % 65536 * 2 ^ 16 + msgid % 65536 * 2 ^ 32
    + flags % 256 * 2 ^ 48 + tag % 256 * 2 ^ 56)
def dLen (d : W) : Nat := W.bits d 0 12
def dSender (d : W) : Nat := W.bits d 16 16
def dLaunch (d : W) : Bool := d.getLsbD 14
/-- The route tag of a core's channel (R240). -/
def routeTag (k : CoreKind) (chan : Nat) : Nat := k.code * 64 + chan

/-- LAT_LAST of a delivered packet (R100). -/
def latOf (hops stall reinj chan : Nat) (fwd : Bool) : W :=
  w (Nat.min hops 255 + Nat.min stall 0xFFFFFF * 2 ^ 8 + Nat.min reinj 255 * 2 ^ 32 + chan % 64 * 2 ^ 40 + b01 fwd * 2 ^ 46 + 2 ^ 47)

/-! ### Channels (R240) -/

/-- RINGn and TASKn of a core. -/
def Core.ring (c : Core) (n : Nat) : W := vget c.ctl.ring n
def Core.task (c : Core) (n : Nat) : W := vget c.ctl.task n
def Core.setRing (c : Core) (n : Nat) (x : W) : Core := { c with ctl := { c.ctl with ring := vset c.ctl.ring n x } }
def Core.setTask (c : Core) (n : Nat) (x : W) : Core := { c with ctl := { c.ctl with task := vset c.ctl.task n x } }

/-- The binding of a port word: its channel, and whether it is outbound (R225). -/
def Port.chan (p : Port) : Nat := (p.word.toNat % 64)
def Port.outbound (p : Port) : Bool := p.word.getLsbD 6

/-- A channel bound to an inbound port (R225). -/
def Core.portOf (c : Core) (n : Nat) : Bool := c.q.toList.any fun (p : Port) => p.bound && !p.outbound && p.chan == n
/-- A channel bound to a stream register (R227). -/
def Core.streamOf (c : Core) (n : Nat) : Bool := c.streams.toList.any fun (x : Stream) => x.chan == some n
/-- A channel with a binding. -/
def Core.isBound (c : Core) (n : Nat) : Bool := c.portOf n || c.streamOf n
/-- A handler channel (R240). -/
def Core.isHandler (c : Core) (n : Nat) : Bool := ringEn (c.ring n) && taskEn (c.task n) && !c.isBound n
/-- A polled channel (R240). -/
def Core.isPolled (c : Core) (n : Nat) : Bool := ringEn (c.ring n) && !taskEn (c.task n) && !c.isBound n

/-- The records of a channel, oldest first. -/
def Core.recsOf (c : Core) (n : Nat) : List Rec := c.recs.filter (·.chan == n)
/-- The oldest record of a channel that is no pad. -/
def Core.headRec (c : Core) (n : Nat) : Option Rec := (c.recsOf n).find? (!·.pad)

/-- Remove the oldest records of a channel while they are pads. -/
def dropPads (n : Nat) (l : List Rec) : List Rec × Nat :=
  match l with
  | [] => ([], 0)
  | r :: rs =>
    if r.chan = n then
      if r.pad then
        let (l', k) := dropPads n rs
        (l', k + r.gran)
      else (r :: rs, 0)
    else
      let (l', k) := dropPads n rs
      (r :: l', k)
/-- Remove the oldest record of a channel. -/
def dropHead (n : Nat) (l : List Rec) : List Rec × Nat :=
  match l with
  | [] => ([], 0)
  | r :: rs => if r.chan = n then (rs, r.gran) else
      let (l', k) := dropHead n rs
      (r :: l', k)

/-- The record that an activation on a channel holds is no longer in the ring. -/
def Bank.loseRecord (b : Bank) (n : Nat) : Bank :=
  { b with act := b.act.map fun a => if a.chan == n then { a with recLen := 0 } else a }
def Core.loseRecord (c : Core) (n : Nat) : Core := { c with lo := c.lo.loseRecord n, hi := c.hi.loseRecord n }
/-- An activation holds the record at the head of a channel's ring. -/
def Act.holds (a : Act) (n : Nat) : Bool := !a.noMsg && a.chan == n && a.recLen != 0
def Core.holdsHead (c : Core) (n : Nat) : Bool := c.lo.act.any (·.holds n) || c.hi.act.any (·.holds n)

/-- A handler channel of a level has a pending message: one at the head of its ring that no activation holds. -/
def Core.pending (c : Core) (hi : Bool) (n : Nat) : Bool :=
  c.isHandler n && taskHi (c.task n) == hi && (c.headRec n).isSome
    && !c.holdsHead n
/-- Some channel of a level has a pending message. -/
def Core.anyPending (c : Core) (hi : Bool) : Bool := (List.range 64).any fun n => c.pending hi n

/-- R251: HPCOUNT is 0 whenever no low-priority activation is suspended and no low-priority message is pending: at each dispatch point,
when an activation has started, and before what may make a message pending. -/
def Core.fixHp (c : Core) : Core := if c.lo.act.isNone && !c.anyPending false then { c with hpCount := 0 } else c

/-- R226, R227: the message that a port or a stream register reads has gone: the next one starts at its first word, or entry. -/
def Core.restartReads (c : Core) (n : Nat) : Core :=
  { c with q := c.q.map fun p => if p.bound && !p.outbound && p.chan == n then { p with read := 0 } else p
           streams := c.streams.map fun x => if x.chan == some n then { x with popped := 0 } else x }
/-- A change of a core's records has freed some. -/
def freesHead (k k' : Core) : Bool := k'.recs.length != k.recs.length
/-- Free the oldest record of a channel with the pads around it (R243). -/
def Core.freeHead (c : Core) (n : Nat) : Core :=
  let (l1, k1) := dropPads n c.recs
  let (l2, k2) := dropHead n l1
  let (l3, k3) := dropPads n l2
  let r := c.ring n
  (({ c with recs := l3 }.setRing n (ringSetCons r (ringCons r + k1 + k2 + k3))).restartReads n).loseRecord n

/-- R242: move CONS of a polled ring on by `d` granules: records passed are gone, and what is left of one passed in part is no
message any more (log 13). -/
def passGranules (n : Nat) (d : Nat) (l : List Rec) : List Rec :=
  match l with
  | [] => []
  | r :: rs =>
    if r.chan != n then r :: passGranules n d rs
    else if r.gran ≤ d then passGranules n (d - r.gran) rs
    else if d = 0 then r :: rs
    else { r with at_ := r.at_ + d, gran := r.gran - d, pad := true, len := 0 } :: rs

/-- R226, R227: free the empty messages at the head of a channel. -/
def freeEmpty (fuel : Nat) (c : Core) (n : Nat) : Core :=
  match fuel with
  | 0 => c
  | k + 1 =>
    match c.headRec n with
    | some r => if r.len = 0 then freeEmpty k (c.freeHead n) n else c
    | none => c
/-- R226, R227: an empty message of a channel that a binding reads is freed as soon as it is the oldest. -/
def Core.clearHead (c : Core) (n : Nat) : Core := if c.isBound n then freeEmpty (c.recs.length + 1) c n else c

/-- What becomes of a record that arrives at a ring (R240, R243). -/
inductive RingAns where
  | closed
  | tooBig
  | full
  | ok (t : Tile)
deriving DecidableEq, Repr

/-- R243: the granules a record of `len` payload bytes needs at PROD: its pad, and itself. -/
def ringNeed (r : W) (len : Nat) : Nat × Nat :=
  let n := ceilDiv (16 + len) 64
  let pos := ringProd r % ringGran r
  (if pos + n > ringGran r then ringGran r - pos else 0, n)

/-- R243: write a record (descriptor, LAT_LAST value, payload with its poisoned words) at PROD of a ring if it fits; `eng` for an
ingest engine's. -/
def ringPut (t : Tile) (k : CoreKind) (chan : Nat) (desc lat : W) (payload : List Byte) (bad : List Nat)
    (eng : Bool := false) : RingAns :=
  let c := t.core k
  let r := c.ring chan
  if !ringEn r then .closed else
  let (pad, n) := ringNeed r payload.length
  if n > ringGran r then .tooBig else
  if pad + n > ringFree r then .full else
  let p := ringProd r
  let t := if pad = 0 then t else t.setWord (ringAddr r p) 0xFFF
  let a := ringAddr r (p + pad)
  let t := (t.store a (leBytes 8 desc.toNat ++ leBytes 8 lat.toNat)).storePoison (a + 16) payload bad
  let pads : List Rec := if pad = 0 then [] else [⟨chan, p % 65536, pad, true, 0, 0, eng⟩]
  let c := c.fixHp
  let c' := { c with recs := c.recs ++ pads ++ [(⟨chan, (p + pad) % 65536, n, false, payload.length, 0, eng⟩ : Rec)] }
  .ok (t.setCore k ((c'.setRing chan (ringSetProd r (p + pad + n))).clearHead chan))

/-- R180: the granules of an enabled ring of a core of the tile that a window [lo, hi) would cover. -/
def ringsOverlap (t : Tile) (lo hi : Nat) : Bool :=
  kinds.any fun k => (List.range 64).any fun n =>
    let r := (t.core k).ring n
    ringEn r && decide (lo < hi ∧ ringBase r < hi ∧ lo < ringBase r + ringGran r * 64)
/-- R180: a ring value that may be enabled: wholly in user tile memory and outside every code window of the tile. -/
def ringPlaced (t : Tile) (r : W) : Bool :=
  let lo := ringBase r
  let hi := ringBase r + ringGran r * 64
  decide (hi ≤ 0x002C0000) && kinds.all fun k =>
    let c := (t.core k).ctl
    decide (c.xbound.toNat ≤ c.codeBase.toNat ∨ hi ≤ c.codeBase.toNat ∨ c.xbound.toNat ≤ lo)

/-! ### Reading through a binding (R225 to R227) -/

/-- R226: the next word of an inbound port: the word, the address it stands at, and the core after the read. -/
def portNext (t : Tile) (c : Core) (q : Nat) : Option (W × Nat × Core) :=
  let p := vget c.q q
  match c.headRec p.chan with
  | none => none
  | some r =>
    let a := ringAddr (c.ring p.chan) r.at_ + 16 + p.read
    let x := w (Mem.load t.mem a (Nat.min 8 (r.len - p.read)))
    let c' := if p.read + 8 ≥ r.len then (c.freeHead p.chan).clearHead p.chan
      else { c with q := vset c.q q { p with read := p.read + 8 } }
    some (x, a, c')

/-- R25, R227: the next 64-byte entry of stream register v(12+i): the entry, its address, and the core after the pop. -/
def streamNext (t : Tile) (c : Core) (i : Nat) : Option (V × Nat × Nat × Core) :=
  let b := vget c.streams i
  match b.chan with
  | none => none
  | some n =>
    match c.headRec n with
    | none => none
    | some r =>
      let off := 64 * b.popped
      let a := ringAddr (c.ring n) r.at_ + 16 + off
      let len := Nat.min 64 (r.len - off)
      let x : V := BitVec.ofNat 512 (Mem.load t.mem a len)
      let c' := if off + 64 ≥ r.len then (c.freeHead n).clearHead n
        else { c with streams := vset c.streams i { b with popped := b.popped + 1 } }
      some (x, a, len, c')

end Sys2Proof.Machine
end

