-- ==== Sys2Proof/Machine/Net.lean ====
section
/-! DEFINITION. Packets: injection with its bounce reservation, the send buffer and its commit, acceptance in a ring, bounces and
returns (R181, R185, R220 to R224, R240, R247, R254, R261, R262). -/

namespace Sys2Proof.Machine

/-- Record an Async cause against a core; a second event of a pending cause sets OVERFLOW (R367). -/
def Core.recordAsync (c : Core) (cause : Nat) (detail : W) : Core :=
  if c.async.any (·.cause == cause) then
    { c with async := mapIf c.async (·.cause == cause) fun a => { a with overflow := true } }
  else { c with async := c.async ++ [⟨cause, detail, false⟩] }

/-- A packet by number. -/
def State.pkt (s : State) (p : Nat) : Option Pkt := s.pkts.find? (·.id == p)
/-- Change a packet. -/
def State.modPkt (s : State) (p : Nat) (f : Pkt → Pkt) : State := { s with pkts := mapIf s.pkts (·.id == p) f }
/-- Remove a packet. -/
def State.dropPkt (s : State) (p : Nat) : State := { s with pkts := s.pkts.filter (·.id != p) }

/-- Two packets of one flow: sender core, destination channel and virtual channel (R261). -/
def sameFlow (p q : Pkt) : Bool :=
  p.src == q.src && p.name == q.name && p.kind == q.kind && p.chan == q.chan && p.vc == q.vc

/-- The body of a reply (R261). -/
def isReply (b : Body) : Bool :=
  match b with
  | .getReply _ _ _ | .ramoReply _ _ _ | .clusterReply _ | .clusterCmdReply _ | .inspectReply _ => true
  | _ => false
/-- Every packet that can bounce holds a bounce reservation: its 16-byte head and its payload, rounded up to 64 bytes; a reply does not
bounce (R181, R263, log 12). -/
def reserveSize (b : Body) : Nat :=
  match b with
  | .message _ pl _ => roundUp (16 + pl.length) 64
  | .put _ pl _ => roundUp (16 + pl.length) 64
  | .getReply _ _ _ => 0
  | .ramoReply _ _ _ => 0
  | .clusterReply _ => 0
  | .clusterCmdReply _ => 0
  | .inspectReply _ => 0
  | _ => 64

/-- Bytes reserved in a core's bounce area (R181). -/
def Core.reserved (c : Core) : Nat := (c.resv.map fun x => 64 * x.2.length).sum
/-- The first `n` blocks from `b` on that are not used. -/
def takeFree (fuel b n : Nat) (used : List Nat) : List Nat :=
  match fuel, n with
  | 0, _ => []
  | _, 0 => []
  | k + 1, m + 1 => if used.contains b then takeFree k (b + 1) (m + 1) used else b :: takeFree k (b + 1) m used
/-- R181: a packet's reservation in its sender's bounce area: its first free blocks (log 12). -/
def Core.reserve (c : Core) (id size : Nat) : Core :=
  if size = 0 then c else { c with resv := c.resv ++ [(id, takeFree 1024 0 (size / 64) (c.resv.flatMap Prod.snd))] }

/-- R344: the site of a binding map entry is no tile: beyond the wafer, or one that does not work (R388, R390). -/
def noTile (s : State) (t : Site) : Bool := decide (125 < t.y) || s.dead.contains t || s.holes.contains t

/-- R345: inject a packet to a name; none while it must stall: for the bounce reservation, for an outstanding bounced packet of its
flow (R262), for a MOVING name (R345), or for a route change of the region (R360). -/
def inject (s : State) (c : CoreId) (vc name : Nat) (kind : CoreKind) (chan : Nat) (body : Body) : Option State :=
  let t := s.tile c.site
  let me := s.core c
  let size := reserveSize body
  let e := resolve t name
  let vni := if name ≥ 0xFF00 then 0 else t.vni
  let p : Pkt := { id := s.nextPkt, vni := vni, vc := vc, src := c, name := name, to_ := .tile, dst := c.site, at_ := c.site, arr := 0,
                   kind := kind, chan := chan, hops := 0, stall := 0, reinj := 0, backoff := 64, fwd := false, state := 0, since := t.router.clock, landed := false, no := 0, before := [], body := body }
  let go : Pkt → State := fun p =>
    let s := { s with nextPkt := s.nextPkt + 1, pkts := s.pkts ++ [p] }
    (s.modCore c fun k => k.reserve p.id size).active c.site
  if size ≠ 0 ∧ me.reserved + size > 65536 then none
  else if s.pkts.any fun q => sameFlow p q && (q.state == 1 || q.reinj != 0) then none
  else if (s.region t.vni).any (·.stalled) then none
  else match e with
    | .moving _ => none
    | .unbound => some (go { p with state := 2 })
    | .bound d => some (go (if noTile s d then { p with state := 2 } else { p with dst := d }))
    | .forwarded d => some (go (if noTile s d then { p with state := 2 } else { p with dst := d }))
    | .swapped i => some (go { p with to_ := .island i })
    | .gateway g => some (go (match body with
      | .message _ _ _ => { p with to_ := .port g }
      | _ => { p with state := 2 }))

/-- The next MSGID of a core (R247). -/
def nextMsgid (s : State) (c : CoreId) : Nat × State :=
  ((s.core c).msgid.toNat, s.modCore c fun k => { k with msgid := k.msgid + 1 })

/-- Inject a message from a core with the next MSGID (R244, R247); `hi` selects VC5 (R261). -/
def injectMsg (s : State) (c : CoreId) (hi : Bool) (name : Nat) (kind : CoreKind) (chan flags : Nat) (join : Bool)
    (payload : List Byte) (bad : List Nat) : Option State :=
  let (m, s') := nextMsgid s c
  let d := descOf payload.length c.kind.code false join (s.tile c.site).name m flags (routeTag kind chan)
  inject s' c (if hi then 5 else 0) name kind chan (.message d payload bad)

/-- The core kind that a capability's CORE names. -/
def capKind (c : Cap) : CoreKind := (CoreKind.ofCode (ccore c)).getD .flow

/-- R191, R218: a RAMO of the core to one of `n` bytes at `o` of the tile of a name, not performed yet. -/
def ramoHits (s : State) (c : CoreId) (name o n : Nat) : Bool :=
  s.pkts.any fun p => p.src == c && decide (p.state < 2) && p.name == name && (match p.body with
    | .ramoReq a k _ _ _ _ _ => decide (a < o + n ∧ o < a + k)
    | _ => false)

/-- R247, R222, R254: perform one entry of a send buffer; none while it must stall. -/
def commitOne (s : State) (c : CoreId) (hi : Bool) (x : Send) : Option State :=
  match x with
  | .message cap chan flags payload bad => injectMsg s c hi (cname cap) (capKind cap) chan flags false payload bad
  | .put cap remote payload bad =>
    if payload.isEmpty then some s
    else if ramoHits s c (cname cap) remote payload.length then none
    else inject s c 1 (cname cap) (capKind cap) 0 (.put remote payload bad)
  | .join j amount =>
    let me := s.core c
    let x := vget me.joins j
    if x.armed && amount != 0 then
      let n := x.count.toNat - Nat.min amount x.count.toNat
      let upd := fun (s : State) (armed : Bool) =>
        s.modCore c fun k => { k with joins := vset k.joins j { x with armed := armed, count := BitVec.ofNat 32 n } }
      if n = 0 then
        (injectMsg s c hi (s.tile c.site).name c.kind (W.bits x.word 0 6) (W.bits x.word 8 8) true
          (leBytes 8 (W.bits x.word 16 48 + j % 8 * 2 ^ 48)) []).map fun s => upd s false
      else some (upd s true)
    else some s

/-- R247: commit a send buffer in program order; what must stall stays in the buffer. -/
def commitList (s : State) (c : CoreId) (hi : Bool) (l : List Buf) : State :=
  match l with
  | [] => s.modCore c fun k => k.modBank hi fun b => { b with sends := [] }
  | x :: r =>
    match commitOne s c hi x.send with
    | some s' => commitList (s'.modPkt s.nextPkt fun p => { p with no := x.no, before := x.before }) c hi r
    | none => s.modCore c fun k => k.modBank hi fun b => { b with sends := x :: r }

/-- R247: commit a bank's send buffer as far as the bounce reservations allow. -/
def commit (s : State) (c : CoreId) (hi : Bool) : State := commitList s c hi ((s.core c).bank hi).sends

/-- The reaches that an ordering at a scope covers: TILE, CLUSTER, REGION, SYSTEM (R194). -/
def reachOf (scope : Nat) : Option Nat :=
  match scope with
  | 0 => none
  | 1 => some 0
  | 2 => some 1
  | 5 => some 3
  | _ => some 2
/-- R198: the places up to which a release at a scope, none for a plain send, orders the next send of a core; earlier FENCEs count. -/
def Core.orderAt (c : Core) (rel : Option Nat) : List Nat :=
  match rel.bind reachOf with
  | some i => c.fenced.set i c.sendNo
  | none => c.fenced

/-- R247: buffer a send, a release at scope `rel` where it is annotated; with 32 entries held, those are committed first and the activation is marked partially committed; none
while that commit stalls. -/
def bufferSend (s : State) (c : CoreId) (rel : Option Nat) (x : Send) : State ⊕ State :=
  let hi := (s.core c).lev
  let add := fun (s : State) => s.modCore c fun k => { k.modBank hi fun b =>
    { b with sends := b.sends ++ [⟨x, k.sendNo + 1, k.orderAt rel⟩] } with sendNo := k.sendNo + 1 }
  let b := (s.core c).bank hi
  if b.sends.length < 32 && !b.spill then .inl (add s)
  else
    let s' := commit s c hi
    let left := ((s'.core c).bank hi).sends.length
    let s' := s'.modCore c fun k => k.modBank hi fun b' =>
      { b' with partialMark := true, spill := left != 0,
                act := b'.act.map fun a => { a with sends0 := a.sends0 - (b.sends.length - left) } }
    if left = 0 then .inl (add s') else .inr s'

/-! ### Operations still to be performed (R191, R193) -/

/-- Bank operations of a core that a tile's banks have still to perform. -/
def Tile.owes (t : Tile) (c : CoreId) : Bool := t.bankq.any (·.src == c)
/-- R194: a name in the reach of level i of a tile: itself, its cluster, its region, everything. -/
def nameReach (t : Tile) (i name : Nat) : Bool :=
  match i with
  | 0 => name == t.name
  | 1 => name == t.name || t.cluster.any (·.2 == name)
  | 2 => decide (name < 0xFF00)
  | _ => true
/-- A packet of a core, of the kinds chosen, injected and not performed, within reach of level i. -/
def packetOut (s : State) (c : CoreId) (i : Nat) (kind : Body → Bool) : Bool :=
  s.pkts.any fun p => p.src == c && decide (p.state < 2) && nameReach (s.tile c.site) i p.name && kind p.body
/-- A RAMO's request. -/
def isRamo (b : Body) : Bool :=
  match b with
  | .ramoReq _ _ _ _ _ _ _ => true
  | _ => false
/-- What performs an event of the core that issued it after the core has moved on: a message, a PUT, a RAMO (R197, R218). -/
def isLate (b : Body) : Bool :=
  match b with
  | .message _ _ _ => true
  | .put _ _ _ => true
  | b => isRamo b
/-- A RAMO of a core whose operation, within reach of level i, has not been performed. -/
def ramoOut (s : State) (c : CoreId) (i : Nat) : Bool := packetOut s c i isRamo
/-- The same for any send or RAMO. -/
def sendOut (s : State) (c : CoreId) (i : Nat) : Bool := packetOut s c i isLate
/-- Some bank has still to perform an operation of a core. -/
def State.owes (s : State) (c : CoreId) : Bool := s.tiles.any fun t => t.2.owes c
/-- A bank operation or a RAMO of a core has still to be performed in its own tile. -/
def rmwOut (s : State) (c : CoreId) : Bool := (s.tile c.site).owes c || ramoOut s c 0

/-! ### Bounce areas (R174, R181, R262) -/

/-- The bounce area of a core (R174). -/
def bounceBase (k : CoreKind) : Nat := 0x002C8000 + 0x10000 * k.code
/-- What of a packet lies in a bounce area beside its head: the payload and its poisoned words. -/
def Body.data (b : Body) : List Byte × List Nat :=
  match b with
  | .message _ pl bad => (pl, bad)
  | .put _ pl bad => (pl, bad)
  | _ => ([], [])
/-- A packet whose payload is read back from the bounce area. -/
def Body.withData (b : Body) (pl : List Byte) (bad : List Nat) : Body :=
  match b with
  | .message d _ _ => .message d pl bad
  | .put a _ _ => .put a pl bad
  | b => b
/-- The bounce-area blocks of a packet with the address of each. -/
def Core.blocks (c : Core) (k : CoreKind) (id : Nat) : List Nat :=
  ((c.resv.find? (·.1 == id)).map Prod.snd).getD [] |>.map fun b => bounceBase k + 64 * b
/-- R262: a packet's head and payload written into the blocks that its sender reserved for it. -/
def Tile.fileBounce (t : Tile) (k : CoreKind) (p : Pkt) (head : BitVec 128) : Tile :=
  let bytes := leBytes 16 head.toNat ++ p.body.data.1
  let bad := p.body.data.2.map (· + 2)
  let l := (t.core k).blocks k p.id
  ((List.range l.length).zip l).foldl (fun t (i, a) =>
    t.storePoison a ((bytes.drop (64 * i)).take 64) ((bad.filter fun j => j / 8 == i).map (· % 8))) t
/-- R262: the payload and poisoned words as they now stand in the blocks of a bounced packet. -/
def Tile.readBounce (t : Tile) (k : CoreKind) (p : Pkt) : List Byte × List Nat :=
  let l := (t.core k).blocks k p.id
  let n := p.body.data.1.length
  (((l.flatMap fun a => Mem.bytes t.mem a 64).drop 16).take n,
    ((List.range l.length).zip l).flatMap fun (i, a) => (t.badWords a 64).filterMap fun j =>
      if 2 ≤ 8 * i + j ∧ 8 * i + j < 2 + ceilDiv n 8 then some (8 * i + j - 2) else none)
/-- R262, R402: a packet is returned whole into its sender's bounce area. -/
def bounce (s : State) (p : Pkt) : State :=
  ({ s with fresh := s.fresh + 1 }.modPkt p.id fun q => { q with state := 1 }).modTile p.src.site fun t =>
    t.fileBounce p.src.kind p (Config.freeHead s.fresh)

/-! ### Acceptance (R240, R262) -/

/-- The bounce list of a ring. -/
def Tile.blOf (t : Tile) (k : CoreKind) (chan : Nat) : BounceList :=
  (t.blist.find? fun b => b.kind == k && b.chan == chan).getD ⟨k, chan, [], none⟩
/-- Replace the bounce list of a ring; an empty one is not listed. -/
def Tile.setBl (t : Tile) (b : BounceList) : Tile :=
  let l := t.blist.filter fun x => !(x.kind == b.kind && x.chan == b.chan)
  { t with blist := if b.pairs.isEmpty && b.reserved.isNone then l else l ++ [b] }

/-- R243: a record of `len` payload bytes fits a ring now. -/
def fits (r : W) (len : Nat) : Bool := decide ((ringNeed r len).1 + (ringNeed r len).2 ≤ ringFree r)

/-- R262: space has freed in a ring; the interface reserves it for the oldest listed pair whose packet fits. -/
def Tile.freed (t : Tile) (k : CoreKind) (chan : Nat) : Tile :=
  let b := t.blOf k chan
  if b.reserved.isSome then t
  else match b.pairs.find? fun p => fits ((t.core k).ring chan) p.2 with
    | some p => t.setBl { b with reserved := some p }
    | none => t

/-- R262: list a pair at the back unless it is listed or sixteen are. -/
def BounceList.add (b : BounceList) (c : CoreId) (len : Nat) : BounceList :=
  if b.pairs.any (·.1 == c) || b.pairs.length ≥ 16 then b else { b with pairs := b.pairs ++ [(c, len)] }
/-- R262: a pair leaves the list. -/
def BounceList.leave (b : BounceList) (c : CoreId) : BounceList :=
  { b with pairs := b.pairs.filter (·.1 != c), reserved := if (b.reserved.map Prod.fst) == some c then none else b.reserved }

/-- What the interface answers to a message (R262). -/
inductive Answer where
  | accept
  | bounce
  | unreachable
deriving DecidableEq, Repr

/-- R240, R243, R262: a message packet at the interface of its destination tile. -/
def takeMessage (t : Tile) (p : Pkt) (desc : W) (payload : List Byte) (bad : List Nat) (older : Bool) : Answer × Tile :=
  let b := t.blOf p.kind p.chan
  let len := payload.length
  let bounce : Answer × Tile := (.bounce, t.setBl (b.add p.src len))
  let ring := (t.core p.kind).ring p.chan
  if !ringEn ring || decide (ringGran ring < (ringNeed ring len).2) then (.unreachable, t.setBl (b.leave p.src))
  else if older || b.reserved.any fun x => x.1 != p.src then bounce
  else
    match ringPut t p.kind p.chan desc (latOf p.hops p.stall p.reinj p.chan p.fwd) payload bad with
    | .closed => (.unreachable, t.setBl (b.leave p.src))
    | .tooBig => (.unreachable, t.setBl (b.leave p.src))
    | .full => bounce
    | .ok t' =>
      let t' := t'.setBl (b.leave p.src)
      (.accept, if len = 0 && (t'.core p.kind).isBound p.chan then t'.freed p.kind p.chan else t')

/-- DETAIL of SEND_UNREACHABLE (R362). -/
def unreachDetail (name : Nat) (k : CoreKind) (chan : Nat) : W :=
  w ((if name ≥ 0xFF00 then 0xFFFF else name) + k.code * 2 ^ 16 + chan % 64 * 2 ^ 18)

end Sys2Proof.Machine
end

