-- ==== Sys2Proof/Machine/Trap.lean ====
section
/-! DEFINITION. Taking a trap and returning from one, as the spec describes them (R105, R106, R132, R166, R362 to R370, R373), the end of
an activation (R246 to R248), and the choice of what a core runs next (R245, R250, R251). -/

namespace Sys2Proof.Machine

/-! ### Freeing ring space (R262, R311, R312) -/

/-- Fields of an ingest rule (R308). -/
def Rule.en (r : Rule) : Bool := r.w0.getLsbD 0
def Rule.fcen (r : Rule) : Bool := r.w0.getLsbD 5
def Rule.prio (r : Rule) : Nat := W.bits r.w0 6 3
def Rule.edge (r : Rule) : Bool := r.w0.getLsbD 60
def Rule.chan (r : Rule) : Nat := W.bits r.w3 0 6
def Rule.hiwat (r : Rule) : Nat := W.bits r.w3 8 15
def Rule.lowat (r : Rule) : Nat := W.bits r.w3 23 15

/-- The tile that a region's name stands for (R339). -/
def State.siteOfName (s : State) (vni name : Nat) : Option Site := (s.region vni).bind fun r => lookup r.names name
/-- The core that a rule's capability names. -/
def Rule.dest (s : State) (r : Rule) : Option CoreId :=
  (s.siteOfName (cvni r.cap) (cname r.cap)).map fun t => ⟨t, capKind r.cap⟩

/-! ### Ports and rules (R308) -/

/-- One of the 32 ports. -/
def State.port (s : State) (n : Nat) : Option EthPort :=
  if n < 32 then some ((s.ports.find? (·.num == n)).getD (EthPort.reset n)) else none
def State.modPort (s : State) (n : Nat) (f : EthPort → EthPort) : State :=
  if s.ports.any (·.num == n) then { s with ports := mapIf s.ports (·.num == n) f }
  else if n < 32 then { s with ports := s.ports ++ [f (EthPort.reset n)] }
  else s
/-- A rule inserted by its index. -/
def putRule (l : List Rule) (r : Rule) : List Rule :=
  match l with
  | [] => [r]
  | x :: t => if r.idx < x.idx then r :: x :: t else if r.idx = x.idx then r :: t else x :: putRule t r
/-- One of a port's 256 rules. -/
def EthPort.rule (p : EthPort) (idx : Nat) : Option Rule :=
  if idx < 256 then some ((p.rules.find? (·.idx == idx)).getD (Rule.reset idx)) else none
def State.modRule (s : State) (n idx : Nat) (f : Rule → Rule) : State :=
  s.modPort n fun p => match p.rule idx with
    | some r => { p with rules := putRule p.rules (f r) }
    | none => p

/-- R312: granules of a ring that an ingest engine has taken and that have not been freed. -/
def occupancy (c : Core) (chan : Nat) : Nat := ((c.recsOf chan).filter (·.eng)).foldl (fun n r => n + r.gran) 0

/-- R312: end the pause of a rule whose occupancy has fallen below LOWAT; XON when no rule of the port still pauses the priority. -/
def xonRule (p : EthPort) (r : Rule) (occ : Nat) : EthPort :=
  if r.paused && decide (occ < r.lowat) then
    let p := { p with rules := mapIf p.rules (·.idx == r.idx) fun x => { x with paused := false } }
    if p.rules.any fun x => x.paused && x.prio == r.prio then p else { p with sentPause := p.sentPause ++ [(r.prio, 0)] }
  else p

/-- Space has freed in a ring: the bounce list is served (R262) and pauses may end (R312). -/
def ringFreed (s : State) (c : CoreId) (chan : Nat) : State :=
  let s := s.modTile c.site fun t => t.freed c.kind chan
  if s.ports.isEmpty then s else
  let occ := occupancy (s.liveCore c) chan
  { s with ports := s.ports.map fun p => p.rules.foldl (fun p r =>
      if r.en && !r.edge && r.chan == chan && Rule.dest s r == some c then xonRule p r occ else p) p }

/-- R312: rings have been dropped or reset: pauses that no occupancy calls for any more end. -/
def xonSweep (s : State) : State :=
  { s with ports := s.ports.map fun p => p.rules.foldl (fun p r =>
      if r.en && !r.edge then xonRule p r (((Rule.dest s r).map fun c => occupancy (s.liveCore c) r.chan).getD 0) else p) p }

/-! ### Stream bindings (R227) -/

/-- Unbind stream register v(12+i): what it has popped of the current message stays with that message. -/
def unbindStream (c : Core) (i : Nat) : Core :=
  let b := vget c.streams i
  match b.chan with
  | none => c
  | some n =>
    let mark := fun (l : List Rec) => match (c.recsOf n).find? (!·.pad) with
      | some r => mapIf l (fun x => x.chan == n && x.at_ == r.at_ && !x.pad) fun x => { x with popped := b.popped }
      | none => l
    { c with streams := vset c.streams i ⟨none, 0⟩, recs := mark c.recs }
/-- Bind stream register v(12+i) to a channel, first unbinding it. -/
def bindStream (c : Core) (i n : Nat) : Core :=
  let c := unbindStream c i
  let k := ((c.headRec n).map (·.popped)).getD 0
  { c with streams := vset c.streams i ⟨some n, k⟩ }

/-- A channel has been bound to a port or a stream register: the empty messages at its head are freed. -/
def settleRing (s : State) (c : CoreId) (n : Nat) : State :=
  let k := s.core c
  let k' := k.clearHead n
  if k'.recs.length = k.recs.length then s else ringFreed (s.setCore c k') c n

/-- Pop the stream that v register n names, if it is bound and has an entry. -/
def popStream (s : State) (c : CoreId) (n : Nat) : State :=
  if n < 12 then s else
  let me := s.core c
  match streamNext (s.tile c.site) me (n - 12) with
  | some (_, _, _, me') =>
    match (vget me.streams (n - 12)).chan with
    | some ch => ringFreed (s.setCore c me') c ch
    | none => s
  | none => s

/-- The v registers that a queued instruction reads and that may be bound, in the order of R25: those of fields b and c, and of a for a CX of
three sources, whose bound v[a] is popped where no lane is active (R165). -/
def queuedSources (i : Instr) : List Nat :=
  match rowOf i, encOf i with
  | some r, some e =>
    (if r.b == Fld.v then [e.b] else []) ++ (if r.c == Fld.v then [e.c] else []) ++ (match i with
      | .cxThreeSources _ => [e.a]
      | _ => [])
  | _, _ => []

/-- Some queued vector instruction has still to pop a stream. -/
def popsOut (k : Core) : Bool := k.vq.any fun v => (queuedSources v.i).any fun n => decide (12 ≤ n)

/-- R105, R106, R227: an abort drops what the vector queue holds; bindings still take effect and streams still pop, one that has no entry yet
excepted, and what is dropped makes no SR draw (log 101). -/
def dropQueue (s : State) (c : CoreId) : State :=
  let s := (s.core c).vq.foldl (fun s v =>
    match v.i with
    | .vsbind e => if v.p.getLsbD 0 then settleRing (s.modCore c fun k => bindStream k (e.a - 12) v.x.toNat) c v.x.toNat else s
    | .vsunbind e => if v.p.getLsbD 0 then s.modCore c fun k => unbindStream k (e.a - 12) else s
    | i => (queuedSources i).foldl (fun s n => popStream s c n) s) s
  s.modCore c fun k => { k with vq := [] }

/-! ### The end of an activation -/

/-- R130: the dependence queue of the matrix unit belongs to the low-priority activation of the math core, whose end or trap empties it. -/
def Tile.dropDeps (t : Tile) (k : CoreKind) (hi : Bool) : Tile := if k = .math ∧ hi = false then { t with mdep := [] } else t
/-- A core's SEMWAIT gives up its place (R229). -/
def Tile.dropWait (t : Tile) (k : CoreKind) : Tile := { t with semq := t.semq.filter fun x => x.kind != k }

/-- What R365 discards when an activation of a level is aborted. The results of matrix commands already performed stay (log 107). -/
def abortAct (s : State) (c : CoreId) (hi : Bool) : State :=
  let s := if hi then s else dropQueue s c
  let s := s.modTile c.site fun t => (t.dropDeps c.kind hi).dropWait c.kind
  s.modCore c fun k =>
    let k : Core := { k.settleAbort hi with
      mask := if hi then k.mask else none
      pin := if hi then k.pin else none
      wait := none, req := none, ans := none, restore := none }
    k.modBank hi fun b =>
      { b with sends := [], spill := false, barHeld := [], act := b.act.map fun (a : Act) => { a with resumable := false } }

/-- The activation of a level is over: the core reaches a dispatch point (R245). HPCOUNT goes to 0 with a low one (R251). -/
def endAct (s : State) (c : CoreId) (hi : Bool) : State :=
  let s := s.modTile c.site fun t => t.dropDeps c.kind hi
  s.modCore c fun k =>
    let k := { k.settleEnd hi with
      hpCount := if hi then k.hpCount else 0
      mask := if hi then k.mask else none
      pin := if hi then k.pin else none
      lowSusp := k.lowSusp && hi }
    (k.modBank hi fun b => { b with act := none, partialMark := false, spill := false }).block 1 0 0xFFFF

/-- Free the message record of an activation, a release at TILE (R185, R243). -/
def freeRecord (s : State) (c : CoreId) (hi : Bool) : State :=
  match ((s.core c).bank hi).act with
  | some a => if a.noMsg || a.recLen == 0 then s else ringFreed (s.modCore c fun k => k.freeHead a.chan) c a.chan
  | none => s

/-- R259: the part of a launch that a core, as its record stands, owes ends with a status. -/
def haltPart (s : State) (k : Core) (c : CoreId) (status : Nat) : State :=
  match k.launch with
  | some l => { s with launches := mapIf s.launches (fun x => x.ctx == l && !x.ends.contains c) fun x =>
      { x with ends := x.ends ++ [c], count := Nat.min 0xFFFFFF (x.count + bits status 0 24), err := x.err ||| bits status 24 8 } }
  | none => s
/-- R249: the core is halted. -/
def Core.nowHalted (k : Core) : Core := { k with halted := true, launch := none }.block 2 0 0xFFFF
/-- A core becomes halted (R249) with a status; the part of a launch it owes ends (R259). -/
def haltCore (s : State) (c : CoreId) (status : Nat) : State :=
  (haltPart s (s.core c) c status).modCore c Core.nowHalted

/-! ### Delivery (R362 to R368) -/

/-- The Abort class of R362; FETCH_BOUND and CUSTOM_UNLOADED are aborts where no handler of R166 or R369 takes them. -/
def abortCause (cause : Nat) (async : Bool) : Bool :=
  !async && !(cause == 0x16 || cause == 0x1A || cause == 0x1B || cause == 0x1C || cause == 0x1D)

/-- Positions a new stretch of code starts from: no window of earlier code reaches it. -/
def Core.freshPos (c : Core) : Nat := c.seqTop + 16

/-- Enter a new stretch of code in the running activation: a trap handler (R39). -/
def Core.enter (c : Core) (pc : W) (f : Act → Act) : Core :=
  let n := c.freshPos
  { c.modAct (fun a => { f a with pc := pc, pos := n :: a.pos }) with seqTop := n, restore := none, checked := none }

/-- Leave a stretch of code for the one it interrupted. -/
def Act.leave (a : Act) (pc : W) : Act :=
  { a with pc := pc, pos := match a.pos with
      | _ :: x :: r => x :: r
      | l => l }

/-- R364 and R366: write the trap registers and the record, and enter the tile supervisor handler or hold the core for its home
island. `tpc` goes to TRAP_PC; `aborts` performs R365 first. -/
def deliver (s : State) (c : CoreId) (cause : Nat) (detail tpc : W) (async overflow aborts : Bool) : State :=
  let k := s.core c
  let hi := k.lev
  let nested := k.active && !async
  let here := k.ctl.trapDeleg.getLsbD cause && k.ctl.trapVec.toNat % 2 ^ 22 / 2 * 2 != 0 && !k.active
  let noMsg := k.act.isNone || (k.act.any (·.noMsg))
  let partial' := (k.bank hi).partialMark && k.act.isSome
  let level := k.sup
  let blocked := k.blocked
  let s := s.modTile c.site fun t => (t.dropDeps c.kind hi).dropWait c.kind
  let s := if aborts then abortAct s c hi else s
  let desc := if noMsg then 0 else (k.act.map (·.desc)).getD 0
  let tc := w (cause + b01 async * 2 ^ 6 + b01 (!aborts) * 2 ^ 7 + b01 (here || k.active) * 2 ^ 8 + b01 nested * 2 ^ 9
    + b01 hi * 2 ^ 10 + b01 level * 2 ^ 11)
  let tp := w (tpc.toNat % 2 ^ 22 / 2 * 2)
  let ti := w (b01 partial' + b01 overflow * 2 + b01 noMsg * 4 + detail.toNat % 2 ^ 56 * 2 ^ 8)
  let bw := w (blocked.kind + blocked.obj % 64 * 2 ^ 4 + blocked.peer % 65536 * 2 ^ 16 + Nat.min blocked.waited 0xFFFFFFFF * 2 ^ 32)
  let n := k.trapCount
  let a := 0x002FE000 + 0x800 * c.kind.code + 64 * (n % 32)
  let rec1 := [tc, tp, ti, desc, w (n % 2 ^ 32), bw, 0, 0].flatMap fun x => leBytes 8 x.toNat
  let s := s.modTile c.site fun t => t.store a rec1
  s.modCore c fun k =>
    let k := { k with
      ctl := { k.ctl with trapCause := tc, trapPc := tp, trapInfo := ti, trapMsgid := desc }
      trapCount := n + 1
      mask := none
      wait := none
      checked := none }
    if here then
      let k := if k.act.isSome then k else
        { (k.modBank false fun b => { b with act := some ⟨0, [], 0, 0, 0, 0, false, false, 0, 0, 0, true⟩ }) with lowSusp := false }
      (k.enter (w (k.ctl.trapVec.toNat % 2 ^ 22 / 2 * 2)) fun a =>
        { a with sup := true, saved := a.cycles, cycles := 0, sends0 := k.cbank.sends.length }).unblock
    else { k with held := some cause }.block 2 cause 0xFFFF

/-- R369: FETCH_BOUND goes to the overlay handler. -/
def Core.overlayTakes (c : Core) : Bool :=
  !c.sup && c.ctl.ovlVec.toNat % 2 ^ 22 / 2 * 2 != 0 && !c.resumable && !c.active && c.act.isSome
/-- R166: CUSTOM_UNLOADED goes to the user loader. -/
def Core.loaderTakes (c : Core) : Bool :=
  !c.sup && c.ctl.loaderVec.toNat % 2 ^ 22 / 2 * 2 != 0 && !c.resumable && c.act.isSome

/-- R166, R369: entry to the overlay or loader handler in the same activation and bank; a trap, it empties PENDING (R130). -/
def enterOverlay (s : State) (c : CoreId) (vec addr tpc : W) : State :=
  (s.modTile c.site fun t => t.dropDeps c.kind (s.core c).lev).modCore c fun k =>
    let k := k.modBank k.lev fun b => { b with ovlAddr := addr, resume := tpc }
    (k.enter (w (vec.toNat % 2 ^ 22 / 2 * 2)) fun a => { a with resumable := true }).unblock

/-- R166: what OVL_ADDR receives at loader entry for slot n. -/
def slotAddr (k : Core) (n : Nat) : W :=
  let e := vget k.slots n
  if e.bound then w e.addr else w (0xFFFFFFFFFFFFFFF0 + n % 16)

/-- A trap waits for a boundary of its activation; one that already waits is the earlier one. -/
def Core.pendTrap (c : Core) (p : PTrap) : Core := if c.ptrap.isSome then c else { c with ptrap := some p }
/-- A trap that waited is due once its activation runs: one of the low-priority activation waits while a high-priority handler runs and
until the core resumes (R106, R132). -/
def Core.trapDue (c : Core) : Bool := c.ptrap.any fun p => (p.hi || c.hi.act.isNone) && !(c.act.isNone && c.lo.act.isSome)

/-- R132: a trap of the math core that aborts waits until the sequencer's window is empty; one that makes stream pops waits for what the
freeing of their messages follows (R193, R199). -/
def mustDrain (s : State) (c : CoreId) : Bool :=
  c.kind == .math && !(s.tile c.site).mwin.isEmpty || popsOut (s.core c) && rmwOut s c

/-- Take a synchronous trap of the running activation of a core: the overlay or loader handler, or delivery under R364. `tpc` is
the PC of the instruction, or the resume address of a resumable cause. -/
def takeTrap (s : State) (c : CoreId) (cause : Nat) (detail tpc : W) : State :=
  let k := s.core c
  if cause = 0x07 && k.overlayTakes then enterOverlay s c k.ctl.ovlVec detail tpc
  else if cause = 0x13 && k.loaderTakes then enterOverlay s c k.ctl.loaderVec (slotAddr k detail.toNat) tpc
  else
    let aborts := abortCause cause false && !(cause == 0x13 && k.sup && !k.active)
    if aborts && mustDrain s c then s.modCore c fun k => k.pendTrap ⟨cause, detail, tpc, 0, k.lev⟩
    else deliver s c cause detail tpc false false aborts

/-- Deliver a trap that waited for a boundary: of the vector unit, of a matrix command, or of an abort that waited for the
sequencer's window (R106, R132). At a tile whose placement is being torn down there is no record and no handler (R418). -/
def deliverPending (s : State) (c : CoreId) : State :=
  match (s.core c).ptrap with
  | none => s
  | some p =>
    if (s.tile c.site).torn then s.modCore c fun k => { k with ptrap := none }
    else if mustDrain s c || (s.core c).held.isSome || !(s.core c).trapDue then s
    else deliver (s.modCore c fun k => { k with ptrap := none }) c p.cause p.detail p.pc false false (abortCause p.cause false)

/-- R367: take the oldest pending Async cause; a suspended activation resumes before it is taken, and a tear-down ends (R418). -/
def takeAsync (s : State) (c : CoreId) : State :=
  let k := s.core c
  if (k.act.isNone && k.lo.act.isSome) || (s.tile c.site).torn then s else
  match k.async with
  | [] => s
  | a :: r => deliver (s.modCore c fun k => { k with async := r }) c a.cause a.detail (s.core c).pc true a.overflow false

/-! ### Dispatch (R245, R246, R250, R251, R354) -/

/-- R251: high-priority messages are held while HPCOUNT equals HP_LIMIT. -/
def Core.hpHeld (c : Core) : Bool := decide (c.ctl.hpLimit.toNat % 256 ≤ c.hpCount)

/-- The first pending channel after `n` in ascending order, wrapping. -/
def Core.nextChan (c : Core) (hi : Bool) (n : Nat) : Option Nat :=
  ((List.range 64).map fun i => (n + 1 + i) % 64).find? fun m => c.pending hi m

/-- R245: the channel that a level chooses, with the current channel and credit after the choice. -/
def Core.choose (c : Core) (hi : Bool) : Option (Nat × Select) :=
  let sel := if hi then c.hiSel else c.lowSel
  if c.pending hi sel.chan && sel.credit != 0 then some (sel.chan, ⟨sel.chan, sel.credit - 1⟩)
  else (c.nextChan hi sel.chan).map fun n => (n, ⟨n, taskWeight (c.task n) - 1⟩)

/-- R100: the LAT_LAST of an activation, from bytes 8 to 15 of its record: VALID reads 1 and the reserved bits 0, whatever software has stored
there. -/
def latKept (x : W) : W := w (W.bits x 0 47 + 2 ^ 47)
/-- R246: start an activation on a channel; g1 carries the poison of its descriptor's word (R398). -/
def startAct (s : State) (c : CoreId) (hi : Bool) (n : Nat) (sel : Select) : State :=
  let t := s.tile c.site
  let k := s.core c
  match k.headRec n with
  | none => s
  | some r =>
    let ring := k.ring n
    let a := ringAddr ring r.at_
    let d := t.word a
    let tk := k.task n
    let pos := k.freshPos
    let act : Act := { pc := taskEntry tk, pos := [pos], chan := n, desc := d, record := r.at_, recLen := r.gran, sup := taskSup tk,
                       resumable := false, cycles := 0, saved := 0, sends0 := 0, noMsg := false }
    let s := s.modCore c fun k =>
      let k := if hi then { k with hiSel := sel, hpCount := k.hpCount + 1, lowSusp := k.lo.act.isSome } else { k with lowSel := sel }
      let k := { k with seqTop := pos, checked := none }
      let bad := if t.bad a then [(0, w a)] else []
      let k := ((k.cancel .g hi 1).putReg .g hi 1 (d.setWidth 512) bad).cancel .g hi 2
      let k := k.putReg .g hi 2 ((w (a + 16)).setWidth 512) []
      (k.modBank hi fun b =>
        { b with lat := latKept (t.word (a + 8)), sends := [], partialMark := false, spill := false, act := some act }).unblock.fixHp
    s.active c.site

/-- A core may reach a dispatch point: no activation runs, and it is neither halted nor held. While an island has stopped its tile's
dispatch it may only resume (R383). -/
def canDispatch (s : State) (c : CoreId) : Bool :=
  let k := s.core c
  k.running.isNone && !k.halted && k.held.isNone && (!(s.tile c.site).stopped || k.lo.act.isSome)

/-- R245, R251, R354: what a core does at a dispatch point. A pending halt request is taken first where no low-priority
activation is suspended; no activation starts before the result of an issued RAMO is written (R218). -/
def dispatch (s : State) (c : CoreId) : State :=
  if !canDispatch s c then s else
  let s := s.modCore c Core.fixHp
  let k := s.core c
  if k.haltReq && k.lo.act.isNone then
    haltCore (s.modCore c fun k => { k with haltReq := false }) c k.hstatus.toNat
  else if !(s.tile c.site).stopped && !k.hpHeld && k.mask.isNone && !k.active && k.anyPending true then
    if k.farOut then s else
    match k.choose true with
    | some (n, sel) => startAct s c true n sel
    | none => s
  else if k.lo.act.isSome then s.modCore c fun k => { k with lowSusp := false }.unblock
  else if k.farOut then s
  else match k.choose false with
    | some (n, sel) => startAct s c false n sel
    | none => s

/-- R211, R250: a core stands at an instruction boundary unless an instruction has issued and waits for an answer, a RAMO whose
result has not arrived included, or commits. One that only its wait for a barrier holds, after its accesses to other members' windows,
is abandoned there (R287). -/
def Core.atBoundary (c : Core) : Bool :=
  (c.wait.all fun x => x.done && c.blocked.kind == 7) && c.req.isNone && c.blocked.kind != 10 && c.blocked.kind != 11 && !c.farOut

/-- R250: a pending high-priority message may suspend the running low-priority activation. -/
def hpReady (s : State) (c : CoreId) : Bool :=
  let k := s.core c
  k.running == some false && k.atBoundary && !(s.tile c.site).stopped && k.mask.isNone && !k.active && !k.hpHeld
    && k.held.isNone && k.anyPending true

/-- R299: a flow core's calendar starts no new entry after a pre-emption until the core issues XNEXT again. -/
def Tile.pauseXif (t : Tile) (k : CoreKind) : Tile :=
  if k = .flow then { t with xif := t.xif.map fun (i : XIf) => { i with paused := true } } else t
/-- R250: suspend the running low-priority activation and start the high-priority handler on the shadow bank. A SEMWAIT that is
abandoned loses its place (R229). -/
def preempt (s : State) (c : CoreId) : State :=
  if !hpReady s c then s else
  match (s.core c).choose true with
  | none => s
  | some (n, sel) =>
    let s := s.modTile c.site fun t => (t.dropWait c.kind).pauseXif c.kind
    startAct (s.modCore c fun k => { k with lowSusp := true, restore := none, wait := none }) c true n sel

end Sys2Proof.Machine
end

