-- ==== Sys2Proof/Machine/Operands.lean ====
section
/-! DEFINITION. From a decoded instruction to its effect: the checks of R43 steps 5 to 9, the registers it reads, its predicate (R37),
and how it completes.  Every encoded instruction's meaning is `issue` of its row and its own body. -/

namespace Sys2Proof.Machine

/-- A field value that step 9 of R43 refuses from the encoding alone (R26, R36, R79, R210, R282, R371): the register number beyond
its file, a nonzero field that must be zero, PX.REG bits for a field that holds no register. -/
def fieldBad (f : Fld) (high field : Nat) (imm : Bool) : Bool :=
  match f with
  | .lack => false
  | .zero => high != 0 || field != 0
  | .alt => imm && (high != 0 || field != 0)
  | .num => high != 0
  | .slot => high != 0 || decide (4 ≤ field)
  | .event => high != 0 || decide (3 ≤ field)
  | .mode => high != 0 || decide (4 ≤ field)
  | .reg .g => false
  | .reg .z => false
  | .reg .s => false
  | .reg .v => decide (2 ≤ high)
  | .reg .c => decide (2 ≤ high)
  | .reg .p => high != 0
  | .reg .m => high != 0
  | .reg .q => high != 0 || decide (4 ≤ field)

/-- R43 step 9, the part every form shares: its three fields and its ordering kind (R42). -/
def rowBad (r : Row) (e : Enc) : Bool :=
  let imm := !e.imms.isEmpty
  fieldBad r.a e.ha e.fa imm || fieldBad r.b e.hb e.fb imm || fieldBad r.c e.hc e.fc imm
    || (e.ord.isSome && !r.ord.contains e.kind)

/-- Forms that read the register of field a. -/
def readsA : Instr → Bool
  | .st _ | .stn _ | .send _ | .sendf _ | .put _ | .get _ | .bt _ | .bf _ | .lih _ | .bins _ | .amo _ | .amow _ | .cas _ | .casw _
  | .ramo _ | .ramow _ | .qwr _ | .vsend _ | .capst _ => true
  | _ => false

/-- Registers read without a field of their own: the predicates of CSEL and VSEL, lr of RET (R86, R96, R111). -/
def extraReads : Instr → List (RFile × Nat)
  | .csel e | .vsel e => [(.p, e.f)]
  | .ret _ => [(.g, 31)]
  | _ => []

/-- The register a field names, if the core reads it at issue: g, p, c and q. -/
def fieldReg (f : Fld) (n : Nat) (imm : Bool) : List (RFile × Nat) :=
  match f with
  | .reg .g => [(.g, n)]
  | .reg .p => [(.p, n)]
  | .reg .c => [(.c, n)]
  | .reg .q => [(.q, n)]
  | .alt => if imm then [] else [(.g, n)]
  | _ => []

/-- The predicate register of an instruction (R37). -/
def readsP (e : Enc) : List (RFile × Nat) := (e.pred.map fun x => (RFile.p, x.toNat / 2)).toList
/-- The g, p, c and q registers that an instruction reads as its sources when it executes. QTRY's field c is a destination, and QBIND
reads c[b] for an outbound port only (R225, R226). -/
def sources (i : Instr) (r : Row) (e : Enc) : List (RFile × Nat) :=
  let imm := !e.imms.isEmpty
  let b : List (RFile × Nat) := match i with
    | .qbind _ => []
    | _ => fieldReg r.b e.b imm
  let c : List (RFile × Nat) := match i with
    | .qtry _ => []
    | _ => fieldReg r.c e.c imm
  (if readsA i then fieldReg r.a e.a imm else []) ++ b ++ c ++ extraReads i
/-- All of them, the predicate included. -/
def reads (i : Instr) (r : Row) (e : Enc) : List (RFile × Nat) := readsP e ++ sources i r e

/-- R37: P, inverted where PX.PRED says so; all ones without PX.PRED. -/
def Core.pred (c : Core) (e : Enc) : W :=
  match e.pred with
  | none => BitVec.allOnes 64
  | some x => if x.getLsbD 0 then ~~~ c.p (x.toNat / 2) else c.p (x.toNat / 2)

/-- R37: forms that apply P lane by lane. -/
def byLane (i : Instr) (r : Row) : Bool :=
  match i with
  | .vsbind _ | .vsunbind _ => false
  | .cxOneSource _ | .cxTwoSources _ | .cxThreeSources _ => true
  | _ => r.page == 2 || r.page == 3

/-- Some lane of `n` is active. -/
def anyActive (p : W) (n : Nat) : Bool := (List.range n).any fun i => p.getLsbD i
/-- The lanes of a form that applies P lane by lane and reads scalar sources. -/
def laneCount (i : Instr) (e : Enc) : Nat :=
  match i with
  | .vld _ | .vst _ | .vsend _ => 64
  | _ => 512 / laneBits e.ty
/-- R37: the instruction executes: bit 0 of P is 1, or the form applies P lane by lane. -/
def executes (i : Instr) (r : Row) (e : Enc) (c : Core) : Bool := byLane i r || (c.pred e).getLsbD 0
/-- VEXTR, whose index decides whatever the predicate (R119). -/
def isExtr : Instr → Bool
  | .vextr _ => true
  | _ => false
/-- R37, R43: no lane of the form is active: it consumes no source. -/
def idle (i : Instr) (r : Row) (e : Enc) (c : Core) : Bool := byLane i r && !isExtr i && !anyActive (c.pred e) (laneCount i e)

/-- Checks of one form beyond those its row states: a PRIVILEGE or UNIT_RIGHTS fault that its index gives (R27), and an
ILLEGAL_OPERAND found from the encoding alone with its info. -/
structure Ck where
  priv : Bool := false
  rights : Bool := false
  bad : Bool := false
  info : W := 0
deriving DecidableEq, Repr

/-- DETAIL of PRIVILEGE, UNIT_RIGHTS and PRIORITY_CLASS (R362). -/
def opDetail (r : Row) (e : Enc) : W := w (e.base.toNat + r.page * 2 ^ 16)

/-- MCLAIM may be issued while the matrix unit is not claimed (R380). -/
def isClaim : Instr → Bool
  | .mclaim _ => true
  | _ => false

/-- R43 steps 5 to 9, in their order: the first cause that the instruction meets before it executes. -/
def issueFault (i : Instr) (r : Row) (e : Enc) (ck : Ck) (s : State) : Option (Nat × W) :=
  let c := s.me
  if (r.sv && !c.sup) || ck.priv then some (0x04, opDetail r e)
  else if (r.rights.any fun k => k != s.cur.kind) || ck.rights then some (0x05, opDetail r e)
  else if c.lev && decide (2 ≤ r.page ∧ r.page ≤ 5) then some (0x06, opDetail r e)
  else if r.page == 4 && (if c.sup then !s.here.claimed && !isClaim i else s.here.claimed) then some (0x12, w e.base.toNat)
  else if rowBad r e || ck.bad then some (0x03, ck.info)
  else none

/-- Advance a core past its instruction: the next one stands at `pc` (R38, R252). `open0` says that a masked window was open before. -/
def advance (s : State) (c : CoreId) (open0 : Bool) (pc : W) : State :=
  s.modCore c fun k =>
    let k := k.modAct fun a => { a with pc := pc, pos := match a.pos with
      | x :: r => (x + 1) :: r
      | [] => [] }
    { k with seqTop := Nat.max k.seqTop k.idx, mask := if open0 then k.mask.map (· + 1) else k.mask, wait := none,
             restore := none }.unblock

/-- NPC: the address after the instruction's words (R31). -/
def npc (pc : W) (e : Enc) : W := pc + w e.size

/-- What the end of an instruction's body makes of the state. -/
def finish (s0 : State) (e : Enc) (x : Eff) : State :=
  let c := s0.cur
  let pc := s0.me.pc
  let open0 := s0.me.mask.isSome
  match x with
  | .ok s => advance s c open0 (npc pc e)
  | .jump t s => if t.getLsbD 0 then takeTrap s0 c 0x09 t pc else advance s c open0 t
  | .trap cause d s => takeTrap s c cause d pc
  | .trapNext cause d s => takeTrap (advance s c open0 (npc pc e)) c cause d (npc pc e)
  | .wait kind obj s => s.modCore c fun k => k.block kind obj 0xFFFF
  | .remote peer s => s.modCore c fun k => k.block 11 0 peer
  | .hold s => s
  | .over s => s

/-- Read registers: one whose result is still to come makes the instruction wait (R38), a poisoned one traps (R40). -/
def reading (l : List (RFile × Nat)) (body : State → Eff) (s : State) : Eff :=
  match l with
  | [] => body s
  | x :: r =>
    match s.me.awaited x.1 x.2 with
    | some o => (match o.far with
      | some peer => .remote peer s
      | none => .wait 0 0 s)
    | none =>
      match s.me.poisonOf x.1 x.2 with
      | some d => .trap 0x19 d s
      | none => reading r body s

/-- The instruction's own part of `issue`, after steps 1 to 9 of R43: results whose windows have closed become readable (R38), the
predicate is read, and where the instruction executes its sources are (R37, R40). -/
def execute (i : Instr) (r : Row) (e : Enc) (body : State → Eff) (s : State) : State :=
  let s := s.modMe Core.settle
  finish s e (reading (readsP e) (fun s =>
    if !executes i r e s.me then .ok s
    else if idle i r e s.me then body s
    else reading (sources i r e) body s) s)

/-- Issue an instruction on the core whose turn it is: the checks of R43 from step 5 on, then its effect. Without a running
activation nothing issues. -/
def issue (i : Instr) (ck : Ck) (body : Row → Enc → State → Eff) (s : State) : Out State :=
  match rowOf i, encOf i with
  | some r, some e =>
    if s.me.act.isNone then .next s
    else match issueFault i r e ck s with
      | some (cause, d) => .next (takeTrap s s.cur cause d s.me.pc)
      | none => .next (execute i r e (body r e) s)
  | _, _ => .next s

/-- Complete the instruction that a core has issued and that waited for an answer. -/
def complete (s : State) (c : CoreId) : State :=
  match (s.core c).wait with
  | some x =>
    match encOf x.i with
    | some e => advance s c (s.core c).mask.isSome (npc (s.core c).pc e)
    | none => s
  | none => s

end Sys2Proof.Machine
end

