-- ==== Sys2Proof/Machine/Access.lean ====
section
/-! DEFINITION. What a data address of a core means and which checks it meets (R170, R171, R175 to R179), accesses through cluster
windows, and the collective queues (R179, R275, R280). -/

namespace Sys2Proof.Machine

/-- Where an access that passes the checks of R171 is performed. -/
inductive Loc where
  /-- Byte `o` of the issuing tile. -/
  | here (o : Nat)
  /-- Byte `o` of the tile that a name of the cluster stands for (R177). -/
  | member (name o : Nat)
  /-- The injection queue (R179). -/
  | inj
  /-- The extraction queue (R179). -/
  | ext
deriving DecidableEq, Repr

/-- What a form asks of an address: a write, and whether it is a form and width that the table of R170 lets reach a queue (never
under PX.PRED, R171). -/
structure Acc where
  write : Bool
  queue : Bool
deriving DecidableEq, Repr

/-- R171 steps 2 to 6 for one address. -/
def place (s : State) (c : CoreId) (k : Acc) (a : W) : Except Nat Loc :=
  let core := s.core c
  let t := s.tile c.site
  let n := a.toNat
  if n < 0x00300000 then
    if 0x002C0000 ≤ n ∧ !core.sup then .error 0x0B
    else if core.inCode n then .error 0x08
    else if k.write && core.inRowin n then .error 0x0B
    else .ok (.here n)
  else if n = 0x00300000 then (if k.queue && k.write then .ok .inj else .error 0x0A)
  else if n = 0x00300800 then (if k.queue && !k.write then .ok .ext else .error 0x0A)
  else if 0x10000000 ≤ n ∧ n < 0x14000000 then
    let m := (n - 0x10000000) / 0x00400000
    let o := n % 0x00400000
    if 0x002C0000 ≤ o then .error 0x0A
    else match lookup t.cluster m with
      | none => .error 0x0A
      | some name =>
        if t.left.contains m then .error 0x0C
        else if name = t.name then .ok (.here o)
        else .ok (.member name o)
  else .error 0x0A

/-- R171 for several addresses, each with its alignment, lowest first: the places in the order given, or the first fault with its
address. -/
def places (s : State) (c : CoreId) (k : Acc) (l : List (W × Nat)) : Except (Nat × W) (List Loc) :=
  match l with
  | [] => .ok []
  | (a, al) :: r =>
    if a.toNat % al ≠ 0 then .error (0x09, a)
    else match place s c k a with
      | .error x => .error (x, a)
      | .ok p =>
        match places s c k r with
        | .error x => .error x
        | .ok ps => .ok (p :: ps)

/-- The addresses of `n` consecutive 8-byte words. -/
def wordAddrs (a : W) (n : Nat) : List (W × Nat) := (List.range n).map fun i => (a + w (8 * i), 8)

/-- R178: the tile of a name of the region still stands where a request has found it. -/
def memberAt (s : State) (vni name : Nat) (t : Site) : Bool :=
  let x := s.tile t
  x.bound && x.vni == vni && x.name == name && !x.hold && x.fwd.isNone
/-- R177, R178: the site of another member of the cluster, where the core's request has found it; none where none has, or the member has
moved since. -/
def memberSite (s : State) (c : CoreId) (name : Nat) : Option Site :=
  ((s.core c).wait.bind fun x => lookup x.sites name).filter (memberAt s (s.tile c.site).vni name)
/-- The tile and byte of a place in some tile's memory. -/
def whereIs (s : State) (c : CoreId) (p : Loc) : Option (Site × Nat) :=
  match p with
  | .here o => some (c.site, o)
  | .member name o => (memberSite s c name).map fun t => (t, o)
  | _ => none

/-- The name of the tile at which an access of `n` bytes at a place follows such a RAMO. -/
def afterRamo (s : State) (c : CoreId) (n : Nat) (p : Loc) : Option Nat :=
  match p with
  | .here o => if ramoHits s c (s.tile c.site).name o n then some (s.tile c.site).name else none
  | .member name o => if ramoHits s c name o n then some name else none
  | _ => none

/-- Read `n` bytes at a place: the number, and whether a poisoned word was touched. -/
def readPlace (s : State) (c : CoreId) (p : Loc) (n : Nat) : Nat × Bool :=
  match whereIs s c p with
  | some (t, o) => (Mem.load (s.tile t).mem o n, ((s.tile t).badWords (o / 8 * 8) (o % 8 + n)) != [])
  | none => (0, false)
/-- Write bytes at a place. -/
def writePlace (s : State) (c : CoreId) (p : Loc) (bs : List Byte) : State :=
  match whereIs s c p with
  | some (t, o) => s.modTile t fun x => x.store o bs
  | none => s

/-- The other cluster members that places lie at, each once. -/
def membersIn (l : List Loc) : List Nat :=
  l.foldl (fun r p => match p with
    | .member name _ => if r.contains name then r else r ++ [name]
    | _ => r) []
/-- R177: one request packet to each of some members; none while one of them must stall. -/
def askMembers (s : State) (c : CoreId) (body : Body) (l : List Nat) : Option (State × List Nat) :=
  l.foldl (fun r name => r.bind fun x => (inject x.1 c 1 name c.kind 0 body).map fun s' => (s', x.2 ++ [x.1.nextPkt])) (some (s, []))

/-- R177, R191, R211: perform accesses of `n` bytes at the places listed, after the RMW of an earlier RAMO to the same bytes. Where
places are other members', a request first travels to each of them: the core holds until the access has been performed and answered; a
MOVING member's window waits, and one that has moved since is asked again (R178). -/
def atPlaces (i : Instr) (n : Nat) (l : List Loc) (s : State) (body : State → Eff) : Eff :=
  match l.findSome? (afterRamo s s.cur n) with
  | some name => .remote name s
  | none =>
    let names := membersIn l
    if !names.isEmpty && s.me.wait.any fun (x : Wait) => !x.done then .hold s
    else match names.filter fun name => (memberSite s s.cur name).isNone with
      | [] => body s
      | todo =>
        match askMembers s s.cur .cluster todo with
        | none => .wait 10 0 s
        | some (s', ids) =>
          let kept := ((s.me.wait.map fun (x : Wait) => x.sites).getD []).filter fun x => !todo.contains x.1
          .hold (s'.modMe fun k => { k with wait := some ⟨i, ids.headD 0, false, kept, ids.drop 1⟩ }.block 11 0 (todo.headD 0))

/-! ### The collective queues -/

/-- A core's current instance is one at the root. -/
def instOf (c : Coll) (x : Inst) : Bool := x.vni == c.vni && x.group == c.group && x.seq.toNat == c.seq

/-- Every member of an instance that has it as its current instance takes a new STATE (R276). -/
def setMembers (s : State) (x : Inst) (f : Coll → Coll) : State :=
  x.members.foldl (fun s c => s.modLiveCore c fun k =>
    { k with coll := k.coll.map fun y => if instOf y x then f y else y }) s

/-- R274: a member has popped every result word; when all have, the instance is DONE and its slot is free. -/
def memberPopped (s : State) (y : Coll) : State :=
  match s.insts.find? (instOf y) with
  | none => s
  | some x =>
    let x' := { x with finished := if x.finished.contains y.rank then x.finished else x.finished ++ [y.rank] }
    if x'.finished.length = x.members.length ∧ x.state ≠ 5 ∧ x.state ≠ 6 then
      let x'' := { x' with state := 4, slot := false }
      setMembers { s with insts := mapIf s.insts (instOf y) fun _ => x'' } x fun z => { z with state := 4 }
    else { s with insts := mapIf s.insts (instOf y) fun _ => x' }

/-- Why a push or pop of `n` words traps (R275, R280). -/
def collFault (c : Core) (push : Bool) (n : Nat) : Option (Nat × W) :=
  match c.coll with
  | none => some (0x03, 0)
  | some y =>
    if !y.usable then some (0x03, 0)
    else if y.state = 5 then some (0x15, w y.seq)
    else if y.state = 6 then some (0x03, 0)
    else if push && decide (y.inWords < y.pushed + n) then some (0x03, 0)
    else if !push && decide (y.outWords < y.popped + n) then some (0x03, 0)
    else none

/-- R179: push words into the injection queue of the running core; blocked-on kind 6, object 0 while it is full. -/
def collPush (s : State) (ws : List W) : Eff :=
  let c := s.me
  match collFault c true ws.length with
  | some (cause, d) => .trap cause d s
  | none =>
    if c.inj.length + ws.length > 64 then .wait 6 0 s
    else .ok (s.modMe fun k => { k with
      inj := k.inj ++ ws, coll := k.coll.map fun y => { y with pushed := y.pushed + ws.length } })

/-- R179: pop `n` words of the extraction queue of the running core; blocked-on kind 6, object 1 while it holds too few. -/
def collPop (s : State) (n : Nat) (body : List W → State → State) : Eff :=
  let c := s.me
  match collFault c false n with
  | some (cause, d) => .trap cause d s
  | none =>
    if c.ext.length < n then .wait 6 1 s
    else
      let s' := s.modMe fun k => { k with
        ext := k.ext.drop n, coll := k.coll.map fun y => { y with popped := y.popped + n } }
      let s' := match s'.me.coll with
        | some y => if y.popped = y.outWords then memberPopped s' y else s'
        | none => s'
      .ok (body (c.ext.take n) s')

end Sys2Proof.Machine
end

