-- ==== Sys2Proof/Machine/Grid.lean ====
section
/-! DEFINITION. The logical grid (R9, R357): which site a logical tile stands at, holes, virtual devices, rectangles of tiles, and home islands (R11, R12). -/

namespace Sys2Proof.Machine

/-- R9: the row of a field column that the logical rows skip: its first dead site, or the spare. -/
def skipRow (dead : List Site) (x fy : Nat) : Nat :=
  ((List.range 14).find? fun r => dead.contains ⟨x, 14 * fy + r⟩).getD 13
/-- R9: the site of a logical tile. -/
def phyOf (dead : List Site) (x y : Nat) : Site :=
  let j := y % 13
  ⟨x, 14 * (y / 13) + (if j < skipRow dead x (y / 13) then j else j + 1)⟩
/-- R9: the logical tile of a site; none for the site that its field column skips. -/
def logOf (dead : List Site) (t : Site) : Option (Nat × Nat) :=
  let r := t.y % 14
  let k := skipRow dead t.x (t.y / 14)
  if r = k then none else some (t.x, 13 * (t.y / 14) + (if r < k then r else r - 1))

/-- A site that is dead or a hole in service (R388, R390). -/
def State.gone (s : State) (t : Site) : Bool := s.dead.contains t || s.holes.contains t
/-- A logical tile is a hole (R9, R390). -/
def State.hole (s : State) (x y : Nat) : Bool := s.gone (phyOf s.dead x y)

/-- R389: the logical tiles that work. -/
def State.working (s : State) : Nat :=
  ((List.range Config.logicalRows).map fun y => (List.range Config.logicalCols).countP fun x => !s.hole x y).sum

/-- The virtual device that a region belongs to (R356). -/
def State.vdevOf (s : State) (vni : Nat) : Option VDev := s.vdevs.find? (·.vnis.contains vni)
/-- R356, R357: origin and size of the grid that a region's logical coordinates count in. -/
def State.grid (s : State) (vni : Nat) : Nat × Nat × Nat × Nat :=
  match s.vdevOf vni with
  | some d => (d.x0, d.y0, d.cols, d.rows)
  | none => (0, 0, Config.logicalCols, Config.logicalRows)
/-- The logical coordinates that a tile at a site has in a region (R29, R357). -/
def State.coords (s : State) (vni : Nat) (t : Site) : Nat × Nat :=
  let g := s.grid vni
  match logOf s.dead t with
  | some (x, y) => (x - g.1, y - g.2.1)
  | none => (0, 0)
/-- The site of a region's logical coordinates. -/
def State.siteAt (s : State) (vni x y : Nat) : Site :=
  let g := s.grid vni
  phyOf s.dead (g.1 + x) (g.2.1 + y)
/-- The logical coordinates are those of a hole. -/
def State.holeAt (s : State) (vni x y : Nat) : Bool := s.gone (s.siteAt vni x y)
/-- A tile of a region stands at a site. -/
def State.inRegion (s : State) (vni : Nat) (t : Site) : Bool := (s.tile t).bound && (s.tile t).vni == vni && !s.gone t

/-- R384, R145: the tile at a site does not read the coordinates that R9 gives its site; a site that only forwards has no tile. -/
def State.moved (s : State) (t : Site) : Bool :=
  let x := s.tile t
  x.bound && x.fwd.isNone && ((x.logX, x.logY) != s.coords x.vni t)

/-- R147: the descriptor of the chain that a site's links carry past it, as the chain's members list it; none where BYPASS is 0. -/
def State.bypass (s : State) (t : Site) : Option W :=
  (s.tiles.find? fun z => z.2.chain.dropped.contains t).map (·.2.chain.desc)

/-- R12: the home island of a site. -/
def homeAxis (f o : Nat) : Nat := if f = 0 then 0 else if f = 8 then 7 else if o < 7 then f - 1 else f
def homeOf (t : Site) : Nat × Nat := (homeAxis (t.x / 14) (t.x % 14), homeAxis (t.y / 14) (t.y % 14))
/-- R345: an island by number, 8i + j. -/
def homeNum (t : Site) : Nat := 8 * (homeOf t).1 + (homeOf t).2
/-- R11: island (3,3) is the root island: it holds the root of the Aster tree, and the root of trust for firmware and identity. -/
def rootIsland : Nat := 8 * 3 + 3

/-- R375: the number of the field of a site, 9·fy + fx. -/
def fieldNo (t : Site) : Nat := 9 * (t.y / 14) + t.x / 14

end Sys2Proof.Machine
end

