-- ==== Sys2Proof/Machine/Lanes.lean ====
section
/-! DEFINITION. Lanes of vector registers, the poison they carry, vector sources with their stream pops (R25, R101, R227, R398), which earlier
events a release waits for (R191, R193, R195), and the operations of a bank ALU (R173, R216). -/

namespace Sys2Proof.Machine

/-! ### Lanes -/

/-- Lane i of a register in lanes of `wd` bits. -/
def lane (x : V) (wd i : Nat) : Nat := bits x.toNat (wd * i) wd
/-- A register whose lanes are a function of their number. -/
def vbuild (wd : Nat) (f : Nat → Nat) : V :=
  BitVec.ofNat 512 ((List.range (512 / wd)).foldr (fun i acc => f i % 2 ^ wd + 2 ^ wd * acc) 0)
/-- A register with its active lanes replaced. -/
def vmerge (old : V) (wd : Nat) (p : W) (f : Nat → Nat) : V :=
  vbuild wd fun i => if p.getLsbD i then f i else lane old wd i

/-- The 64-bit word that lane i of `wd` bits lies in. -/
def laneWord (wd i : Nat) : Nat := wd * i / 64

/-- The poison marks of v register n: 64-bit word and DETAIL. -/
def Core.vmarks (c : Core) (n : Nat) : List (Nat × W) :=
  (c.regPoison.filter fun r => r.file == .v && r.num == n).map fun r => (r.lane, r.detail)
/-- The first poisoned word among the active lanes of a source. -/
def poisonUsed (marks : List (Nat × W)) (wd : Nat) (p : W) : Option W :=
  (List.range (512 / wd)).findSome? fun i => if p.getLsbD i then lookup marks (laneWord wd i) else none
/-- The marks of a destination after its active lanes are written, each with the poison it brings: a word keeps its old mark unless
every lane of it is written. -/
def mixMarks (old : List (Nat × W)) (wd : Nat) (p : W) (new : Nat → Option W) : List (Nat × W) :=
  let n := 512 / wd
  (List.range 8).filterMap fun j =>
    let lanes := (List.range n).filter fun i => laneWord wd i == j
    match lanes.findSome? fun i => if p.getLsbD i then new i else none with
    | some d => some (j, d)
    | none => if lanes.all fun i => p.getLsbD i then none else (lookup old j).map fun d => (j, d)

/-- The channels that v12 to v15 are bound to once every queued VSBIND and VSUNBIND has taken effect (R227). -/
def Core.streamsAfter (c : Core) : List (Option Nat) :=
  c.vq.foldl (fun l v => match v.i with
    | .vsbind e => if v.p.getLsbD 0 then l.set (e.a - 12) (some v.x.toNat) else l
    | .vsunbind e => if v.p.getLsbD 0 then l.set (e.a - 12) none else l
    | _ => l) (c.streams.toList.map (·.chan))
/-- Stream register n is bound, in program order. -/
def Core.streamBound (c : Core) (n : Nat) : Bool := decide (12 ≤ n) && (c.streamsAfter.getD (n - 12) none).isSome

/-- What reading a v register as a source gives (R25): its value with its poison and the state after the pop; nothing to pop yet; or
a stream whose ring is disabled (R227). -/
inductive VSrc where
  | ok (x : V) (marks : List (Nat × W)) (s : State)
  | empty
  | gone (chan : Nat)
deriving DecidableEq, Repr

/-- Read v register n of a core as a source. A pop that frees its message, a release at TILE, waits for the core's bank operations and RAMOs in
its tile (R193, R199). -/
def takeV (s : State) (c : CoreId) (n : Nat) : VSrc :=
  let k := s.core c
  let b := vget k.streams (n - 12)
  match (if n < 12 then none else b.chan) with
  | none => .ok (vget k.v n) (k.vmarks n) s
  | some ch =>
    if !ringEn (k.ring ch) then .gone ch
    else
      let t := s.tile c.site
      match streamNext t k (n - 12) with
      | none => .empty
      | some (x, a, len, k') =>
        if freesHead k k' && rmwOut s c then .empty
        else .ok x ((t.badWords a len).map fun i => (i, w (a + 8 * i))) (ringFreed (s.setCore c k') c ch)

/-- R104: enter an instruction in the core's vector queue with the operands it read at issue; a full queue makes it wait. -/
def vpush (i : Instr) (e : Enc) (x y sel : W) (out : Option Nat) (slice : Nat) (s : State) : Eff :=
  let k := s.me
  if 16 ≤ k.vq.length then .wait 0 0 s
  else .ok (s.modMe fun k => { k with
    vq := k.vq ++ [{ i := i, pc := k.pc, pos := k.pos, p := k.pred e, x := x, y := y, sel := sel, fpMode := k.ctl.fpMode, out := out,
                     slice := slice }] })

/-! ### Earlier events -/

/-- R193, R195: every earlier event of a core within reach of a scope has been performed. What the core itself performs is performed
at issue; a BOP or VBRED at its bank (R217), a RAMO at its tile (R218), a stream pop in the vector queue and a committed send (R197) come later. -/
def earlierDone (s : State) (c : CoreId) (scope : Nat) : Bool :=
  scope == 0 ||
    (!popsOut (s.core c) && !(s.tile c.site).owes c && (decide (scope < 2) || !s.owes c)
      && (reachOf scope).all fun i => !sendOut s c i)
/-- R131, R295: every earlier access of a core to a tile's memory has been performed, whatever its reach. -/
def accessesDone (s : State) (c : CoreId) : Bool := !popsOut (s.core c) && !s.owes c && !ramoOut s c 3
/-- R193, R199: what the freeing of a message, a release at TILE, waits for: the core's bank operations, RAMOs and stream pops in its
own tile. -/
def freeReady (s : State) (c : CoreId) : Bool := !popsOut (s.core c) && !(s.tile c.site).owes c && !ramoOut s c 0
/-- The ordering kind of an access is release or sc (R42). -/
def releases (e : Enc) : Bool := decide (2 ≤ e.kind)
/-- An annotated release waits for what precedes it (R193). -/
def mayRelease (e : Enc) (s : State) : Bool := !releases e || earlierDone s s.cur e.scope

/-! ### Bank ALU (R173, R215, R216) -/

/-- OPER(fn, old, x) on words of `n` bits (R216). -/
def oper (fn n old x : Nat) : Nat :=
  let so := intOf true n old
  let sx := intOf true n x
  match fn with
  | 0 => (old + x) % 2 ^ n
  | 1 => x
  | 2 => old &&& x
  | 3 => old ||| x
  | 4 => old ^^^ x
  | 5 => if so < sx then old else x
  | 6 => if so < sx then x else old
  | 7 => Nat.min old x
  | 8 => Nat.max old x
  | _ => addRne 8 old x

/-- One indivisible read and write of `wd` bytes at an address of a tile; none where the word is poisoned: nothing is written (R398). -/
def bankRmw (t : Tile) (a wd fn x : Nat) : Option (Nat × Tile) :=
  if t.bad a then none
  else
    let old := Mem.load t.mem a wd
    some (old, t.store a (leBytes wd (oper fn (8 * wd) old (x % 2 ^ (8 * wd)))))

/-- A word of the low n bytes, sign-extended. -/
def sextBytes (n x : Nat) : W := BitVec.ofInt 64 (intOf true (8 * n) x)

/-! ### Sorting the addresses of a form -/

/-- Insert an address in rising order. -/
def insAddr (x : W × Nat) (l : List (W × Nat)) : List (W × Nat) :=
  match l with
  | [] => [x]
  | y :: r => if x.1.toNat ≤ y.1.toNat then x :: y :: r else y :: insAddr x r
/-- Addresses in rising order (R171). -/
def sortAddrs (l : List (W × Nat)) : List (W × Nat) := l.foldr insAddr []

end Sys2Proof.Machine
end

