-- ==== Sys2Proof/Machine/Ctl.lean ====
section
/-! DEFINITION. The control registers (R27 to R29, R62, R66, R67, R98, R123, R125, R147, R176, R230, R241, R242, R253, R276, R363): the read and the
write of each by its index, CRRD and CRWR, and the steps that a write of one register is. -/

namespace Sys2Proof.Machine

/-! ### Maps -/


/-- R29: CORE_ID, TILE_LOG, TILE_PHY and PRIV. -/
def coreIdWord (k : CoreKind) : W := w (k.code + 0x100)
def tileLogWord (t : Tile) : W := w (t.logX % 256 + t.logY % 256 * 2 ^ 16 + t.name % 65536 * 2 ^ 32)
def tilePhyWord (t : Site) : W :=
  w (t.x + t.y * 2 ^ 16 + t.x / 14 * 2 ^ 32 + t.y / 14 * 2 ^ 36 + (homeOf t).1 * 2 ^ 40 + (homeOf t).2 * 2 ^ 44
    + b01 (t.y % 14 == 13) * 2 ^ 48)
def privWord (c : Core) : W := w (b01 c.sup + b01 c.lev * 2 + b01 c.mask.isSome * 4 + b01 c.resumable * 8)

/-- R147: CHAIN_STATE, with its BYPASS. -/
def chainWord (c : Chain) (bypass : Bool) : W :=
  w (c.state + b01 bypass * 4 + c.cpos % 256 * 2 ^ 8 + c.rpos % 256 * 2 ^ 16 + c.ceff % 256 * 2 ^ 24 + c.reff % 256 * 2 ^ 32
    + c.chainId % 65536 * 2 ^ 48)

/-- R276: COLLQ_STATUS. -/
def collWord (c : Core) : W :=
  let q := c.inj.length + c.ext.length * 2 ^ 8
  match c.coll.filter (·.shown) with
  | none => w q
  | some y => w (q + y.seq % 65536 * 2 ^ 16 + y.state % 8 * 2 ^ 32 + b01 (y.usable && y.consumed == y.inWords) * 2 ^ 35
      + b01 (y.usable && y.delivered == y.outWords) * 2 ^ 36 + b01 y.abrt * 2 ^ 37 + b01 y.norerun * 2 ^ 38)

/-- A word with only bits [hi:lo] kept. -/
def keep (x : W) (lo len : Nat) : W := w (W.bits x lo len * 2 ^ lo)

/-- The control register at an index, as CRRD reads it; none for an index that R27 does not list. -/
def crGet (s : State) (id : CoreId) (n : Nat) : Option W :=
  let t := s.tile id.site
  let c := t.core id.kind
  let x := c.ctl
  match n with
  | 0x000 => some (coreIdWord id.kind)
  | 0x001 => some (tileLogWord t)
  | 0x002 => some (tilePhyWord id.site)
  | 0x003 => some (w (t.vni % 4096))
  | 0x004 => some (privWord c)
  | 0x010 => some x.fpMode
  | 0x011 => some x.fpFlags
  | 0x012 => some x.seed
  | 0x020 => some x.codeBase
  | 0x021 => some x.xbound
  | 0x022 => some x.rowinLo
  | 0x023 => some x.rowinHi
  | 0x030 => some x.trapCause
  | 0x031 => some x.trapPc
  | 0x032 => some x.trapInfo
  | 0x033 => some x.trapMsgid
  | 0x034 => some x.trapVec
  | 0x035 => some x.trapDeleg
  | 0x036 => some x.ovlVec
  | 0x037 => some c.cbank.ovlAddr
  | 0x038 => some x.loaderVec
  | 0x039 => some x.trapScratch
  | 0x040 => some x.wdogBudget
  | 0x041 => some x.hpLimit
  | 0x042 => some x.varbWeight
  | 0x043 => some x.maskLimit
  | 0x050 => some c.cbank.lat
  | 0x070 => some (chainWord t.chain (s.bypass id.site).isSome)
  | 0x090 => some (collWord c)
  | _ =>
    if 0x060 ≤ n ∧ n < 0x068 then some (vget t.mcfg (n - 0x060))
    else if 0x080 ≤ n ∧ n < 0x084 then some (if id.kind = .flow then vget x.engctx (n - 0x080) else 0)
    else if 0x100 ≤ n ∧ n < 0x140 then some (c.task (n - 0x100))
    else if 0x140 ≤ n ∧ n < 0x180 then some (c.ring (n - 0x140))
    else none

/-- R27: registers of supervisor access only. -/
def crSv (n : Nat) : Bool :=
  n == 0x002 || decide (0x020 ≤ n ∧ n < 0x024) || decide (0x030 ≤ n ∧ n < 0x036) || n == 0x039 || decide (0x040 ≤ n ∧ n < 0x044)
    || decide (0x080 ≤ n ∧ n < 0x084) || decide (0x100 ≤ n ∧ n < 0x140)
/-- R27: MCFG0 to MCFG7. -/
def crMath (n : Nat) : Bool := decide (0x060 ≤ n ∧ n < 0x068)

/-! ### Writes -/

/-- Change the control registers of a core. -/
def State.modCtl (s : State) (c : CoreId) (f : Ctl → Ctl) : State := s.modCore c fun k => { k with ctl := f k.ctl }

/-- The m registers that a command names. -/
def MCmd.names (x : MCmd) (n : Nat) : Bool :=
  match rowOf x.i, encOf x.i with
  | some r, some e => (r.a == .m && e.fa == n) || (r.b == .m && e.fb == n) || (r.c == .m && e.fc == n)
  | _, _ => false
/-- R125: some open command names a tile register. -/
def Tile.namesM (t : Tile) (n : Nat) : Bool := t.mwin.any (·.names n)

/-- R62: a write of FP_MODE. -/
def writeFpMode (s : State) (c : CoreId) (x : W) : Eff :=
  if W.bits x 0 3 = 1 ∨ W.bits x 0 3 = 7 then .trap 0x03 0 s else .ok (s.modCtl c fun r => { r with fpMode := keep x 0 4 })

/-- R28, R66, R67, R98: every earlier instruction that draws or raises flags has done so. -/
def drawsDone (s : State) (c : CoreId) : Bool := (s.core c).vq.isEmpty
def flagsDone (s : State) (c : CoreId) : Bool :=
  (s.core c).vq.isEmpty && (c.kind != .math || (s.tile c.site).mwin.isEmpty)

/-- R67, R98: a write of FP_FLAGS clears the flags written as one, those of earlier instructions in flight included. -/
def writeFpFlags (s : State) (c : CoreId) (x : W) : Eff :=
  if !flagsDone s c then .wait 0 0 s else .ok (s.modCtl c fun r => { r with fpFlags := r.fpFlags &&& ~~~x })

/-- R66: a write of SROUND_SEED. -/
def writeSeed (s : State) (c : CoreId) (x : W) : Eff :=
  if !drawsDone s c then .wait 0 0 s
  else .ok (s.modCtl c fun r => { r with seed := if W.bits x 0 32 = 0 then 1 else keep x 0 32 })

/-- R176: the bound that a written window register stores. -/
def boundOf (x : W) : W := w (Nat.min (W.bits x 6 16 * 64) 0x002C0000)

/-- R175: a write of CODE_BASE (or XBOUND, `upper`). -/
def writeWindow (s : State) (c : CoreId) (upper : Bool) (x : W) : Eff :=
  let r := (s.core c).ctl
  let lo := if upper then r.codeBase else boundOf x
  let hi := if upper then boundOf x else r.xbound
  if ringsOverlap (s.tile c.site) lo.toNat hi.toNat then .trap 0x03 0 s
  else .ok (s.modCtl c fun r => { r with codeBase := lo, xbound := hi })

/-- R125: a write of MCFGn waits for the open commands that name m[n]. -/
def writeMcfg (s : State) (t : Site) (n : Nat) (x : W) : Eff :=
  if (s.tile t).namesM n then .wait 0 0 s else .ok (s.modTile t fun t => { t with mcfg := vset t.mcfg n (keep x 0 23) })

/-- R241: a write of TASKn. -/
def taskValue (x : W) : W := w (W.bits x 1 21 * 2 + W.bits x 32 5 * 2 ^ 32)
def writeTask (s : State) (c : CoreId) (n : Nat) (x : W) : Eff := .ok (s.modCore c fun k => k.fixHp.setTask n (taskValue x))

/-- R242: a write of CONS takes effect on a polled ring, and only within what has been produced. -/
def consTakes (k : Core) (n x : Nat) : Bool :=
  k.isPolled n && decide ((x + 65536 - ringCons (k.ring n)) % 65536 ≤ ringUsed (k.ring n))
/-- R242: the core after a CONS write. -/
def consWrite (s : State) (c : CoreId) (n x : Nat) : State :=
  let k := s.core c
  if consTakes k n x then
    let d := (x + 65536 - ringCons (k.ring n)) % 65536
    let k' := ({ k with recs := passGranules n d k.recs }.setRing n (ringSetCons (k.ring n) x))
    let k' := if d = 0 then k' else k'.loseRecord n
    ringFreed (s.setCore c k') c n
  else s

/-- R242: the value of RINGn with BASE, SIZELOG and EN as written and the indices given. -/
def ringValue (base size : Nat) (en : Bool) (cons prod : Nat) : W :=
  w (base + size * 2 ^ 16 + b01 en * 2 ^ 20 + cons % 65536 * 2 ^ 24 + prod % 65536 * 2 ^ 40)

/-- R180, R242: a supervisor's write of RINGn. -/
def writeRing (s : State) (c : CoreId) (n : Nat) (x : W) : Eff :=
  let k := s.core c
  let old := k.ring n
  let base := W.bits x 0 16
  let size := Nat.min (W.bits x 16 4) 11
  let en := x.getLsbD 20
  if ringEn old && (base != W.bits old 0 16 || size != W.bits old 16 4) then .trap 0x03 0 s
  else if ringEn old then
    if en then
      if ringPlaced (s.tile c.site) old then .ok (consWrite s c n (ringCons x)) else .trap 0x03 0 s
    else
      let k' := ({ k with recs := k.recs.filter (·.chan != n) }.setRing n (ringValue base size false (ringCons old) (ringProd old)))
      .ok (ringFreed (s.setCore c ((k'.restartReads n).loseRecord n)) c n)
  else
    let new := if en then ringValue base size true 0 0 else ringValue base size false (ringCons old) (ringProd old)
    if en && !ringPlaced (s.tile c.site) new then .trap 0x03 0 s
    else .ok (s.setCore c (k.setRing n new))

/-- R242: the fields of RINGn in a word; its reserved bits hold nothing. -/
def ringFields (x : W) : W := ringValue (W.bits x 0 16) (Nat.min (W.bits x 16 4) 11) (x.getLsbD 20) (ringCons x) (ringProd x)
/-- R230: ENGCTXn with the fields that software writes and those that the island does. -/
def engctxValue (x : W) (ctx valid : Nat) : W :=
  w (Nat.min (W.bits x 0 4) 12 + W.bits x 6 16 * 2 ^ 6 + ctx * 2 ^ 22 + valid * 2 ^ 63)
/-- R230: a write of ENGCTXn; those of the shape and math cores ignore it. -/
def writeEngctx (s : State) (c : CoreId) (n : Nat) (x : W) : Eff :=
  if c.kind != .flow then .ok s
  else .ok (s.modCtl c fun r =>
    let old := vget r.engctx n
    { r with engctx := vset r.engctx n (engctxValue x (W.bits old 22 12) (W.bits old 63 1)) })

/-- R4, R98: a write of the control register at an index; read-only registers and fields ignore it. -/
def crPut (s : State) (c : CoreId) (sup : Bool) (n : Nat) (x : W) : Eff :=
  let plain := fun f => Eff.ok (s.modCtl c f)
  match n with
  | 0x010 => writeFpMode s c x
  | 0x011 => writeFpFlags s c x
  | 0x012 => writeSeed s c x
  | 0x020 => writeWindow s c false x
  | 0x021 => writeWindow s c true x
  | 0x022 => plain fun r => { r with rowinLo := boundOf x }
  | 0x023 => plain fun r => { r with rowinHi := boundOf x }
  | 0x030 => plain fun r => { r with trapCause := setBits r.trapCause 0 6 (W.bits x 0 6) }
  | 0x031 => plain fun r => { r with trapPc := keep x 1 21 }
  | 0x034 => plain fun r => { r with trapVec := keep x 1 21 }
  | 0x035 => plain fun r => { r with trapDeleg := keep x 1 29 }
  | 0x036 => plain fun r => { r with ovlVec := keep x 1 21 }
  | 0x038 => plain fun r => { r with loaderVec := keep x 1 21 }
  | 0x039 => plain fun r => { r with trapScratch := x }
  | 0x040 => plain fun r => { r with wdogBudget := keep x 0 32 }
  | 0x041 => plain fun r => { r with hpLimit := if W.bits x 0 8 = 0 then 1 else keep x 0 8 }
  | 0x042 => plain fun r => { r with varbWeight := if W.bits x 0 4 = 0 then 1 else keep x 0 4 }
  | 0x043 => plain fun r => { r with maskLimit := if W.bits x 0 16 = 0 then 1 else keep x 0 16 }
  | _ =>
    if 0x060 ≤ n ∧ n < 0x068 then writeMcfg s c.site (n - 0x060) x
    else if 0x080 ≤ n ∧ n < 0x084 then writeEngctx s c (n - 0x080) x
    else if 0x100 ≤ n ∧ n < 0x140 then writeTask s c (n - 0x100) x
    else if 0x140 ≤ n ∧ n < 0x180 then
      (if sup then writeRing s c (n - 0x140) x else .ok (consWrite s c (n - 0x140) (ringCons x)))
    else .ok s

/-! ### CRRD and CRWR -/

/-- R27: what an index makes of an access. -/
def crCk (e : Enc) (s : State) : Ck :=
  let n := e.immHigh
  { priv := crSv n && !s.me.sup
    rights := crMath n && s.cur.kind != .math
    bad := (crGet s s.cur n).isNone }

/-- CRRD, R98: FP_FLAGS and SROUND_SEED are read after every earlier instruction's flags and draws (R28, R66). -/
def execCrrd (e : Enc) (s : State) : Out State :=
  issue (.crrd e) (crCk e s) (fun _ e s =>
    let n := e.immHigh
    if n == 0x011 && !flagsDone s s.cur then .wait 0 0 s
    else if n == 0x012 && !drawsDone s s.cur then .wait 0 0 s
    else .ok (s.modMe fun k => k.writeW e.L .g e.a ((crGet s s.cur n).getD 0))) s

/-- CRWR, R98; a write of TASKn or RINGn is a release at TILE (R193). -/
def execCrwr (e : Enc) (s : State) : Out State :=
  issue (.crwr e) (crCk e s) (fun _ e s =>
    if 0x100 ≤ e.immHigh ∧ !earlierDone s s.cur 1 then .wait 0 0 s else crPut s s.cur s.me.sup e.immHigh (s.me.g e.b)) s

/-! ### The steps that a write of one register is: the current core performs it -/

/-- The state that a write leaves, its trap taken; a write that must wait has not yet happened. -/
def settleWrite (s : State) (x : Eff) : State :=
  match x with
  | .ok s' => s'
  | .trap cause d s' => if s.me.act.isSome then takeTrap s' s.cur cause d s.me.pc else s
  | _ => s

/-- FP_MODE_WRITE, R62. -/
def execFpModeWrite (v : W) (s : State) : Out State := .next (settleWrite s (writeFpMode s s.cur v))
/-- FP_FLAGS_CLEAR, R98. -/
def execFpFlagsClear (v : W) (s : State) : Out State := .next (settleWrite s (writeFpFlags s s.cur v))
/-- SROUND_SEED_WRITE, R66. -/
def execSroundSeedWrite (v : W) (s : State) : Out State := .next (settleWrite s (writeSeed s s.cur v))
/-- CODE_WINDOW_WRITE, R175. -/
def execCodeWindowWrite (upper : Bool) (v : W) (s : State) : Out State := .next (settleWrite s (writeWindow s s.cur upper v))
/-- MCFG_REGISTER_WRITE, R125: the math core's. -/
def execMcfgRegisterWrite (n : Nat) (v : W) (s : State) : Out State :=
  .next (if s.cur.kind = .math then settleWrite s (writeMcfg s s.cur.site n v) else s)
/-- TASK_ENTRY_WRITE, R241. -/
def execTaskEntryWrite (n : Nat) (v : W) (s : State) : Out State := .next (settleWrite s (writeTask s s.cur n v))
/-- RING_ENABLE, R242: a write that sets EN of a ring that is not enabled. -/
def execRingEnable (n : Nat) (v : W) (s : State) : Out State :=
  .next (if v.getLsbD 20 && !ringEn (s.me.ring n) then settleWrite s (writeRing s s.cur n v) else s)
/-- RING_DISABLE, R242: a write that clears EN of an enabled ring. -/
def execRingDisable (n : Nat) (v : W) (s : State) : Out State :=
  .next (if !v.getLsbD 20 && ringEn (s.me.ring n) then settleWrite s (writeRing s s.cur n v) else s)
/-- RING_CONS_WRITE, R242. -/
def execRingConsWrite (n : Nat) (v : W) (s : State) : Out State := .next (consWrite s s.cur n (ringCons v))
/-- ENGCTX_WRITE, R230. -/
def execEngctxWrite (n : Nat) (v : W) (s : State) : Out State := .next (settleWrite s (writeEngctx s s.cur n v))

end Sys2Proof.Machine
end

