-- ==== Sys2Proof/Machine/Memory.lean ====
section
/-! DEFINITION. Scalar and vector loads and stores, atomics and fences (R212 to R219). -/

namespace Sys2Proof.Machine

/-- The address of the aligned 8-byte word that holds an address. -/
def wordAt (a : W) : W := w (a.toNat / 8 * 8)

/-! ### Scalar loads and stores (R212) -/

/-- R212: address of a scalar form. -/
def scalarAddr (e : Enc) (scale : Nat) (k : Core) : W := k.g e.b + BitVec.ofInt 64 (e.immS .ri * scale)
/-- R212: width and sign of LDN. -/
def ldnWidth (fn : Nat) : Nat := if fn ≤ 1 then 4 else if fn ≤ 3 then 2 else 1
def ldnValue (fn x : Nat) : W := if fn % 2 = 0 then sextBytes (ldnWidth fn) x else w x
/-- R212: width of STN. -/
def stnWidth (fn : Nat) : Nat := if fn = 0 then 4 else if fn = 1 then 2 else 1

/-- A load of `n` bytes into g[a]; `queue` for the form that may pop the extraction queue. -/
def loadBody (i : Instr) (e : Enc) (addr : W) (n : Nat) (f : Nat → W) (queue : Bool) (s : State) : Eff :=
  match places s s.cur ⟨false, queue && e.pred.isNone⟩ [(addr, n)] with
  | .error (c, d) => .trap c d s
  | .ok [.ext] => collPop s 1 fun ws s => s.modMe fun k => k.writeW e.L .g e.a (ws.headD 0)
  | .ok ps =>
    atPlaces i n ps s fun s =>
      let (x, bad) := readPlace s s.cur (ps.headD .inj) n
      .ok (s.modMe fun k => k.writeW e.L .g e.a (f x) (if bad then [(0, wordAt addr)] else []))

/-- A store of the low `n` bytes of g[a]; `queue` for the form that may push the injection queue. -/
def storeBody (i : Instr) (e : Enc) (addr : W) (n : Nat) (queue : Bool) (s : State) : Eff :=
  match places s s.cur ⟨true, queue && e.pred.isNone⟩ [(addr, n)] with
  | .error (c, d) => .trap c d s
  | .ok [.inj] => collPush s [s.me.g e.a]
  | .ok ps =>
    if !mayRelease e s then .wait 0 0 s
    else atPlaces i n ps s fun s => .ok (writePlace s s.cur (ps.headD .inj) (leBytes n (s.me.g e.a).toNat))

def bodyLd (e : Enc) (s : State) : Eff := loadBody (.ld e) e (scalarAddr e 8 s.me) 8 w true s
def bodyLdn (e : Enc) (s : State) : Eff :=
  let n := ldnWidth e.fnv
  loadBody (.ldn e) e (scalarAddr e n s.me) n (ldnValue e.fnv) false s
def bodySt (e : Enc) (s : State) : Eff := storeBody (.st e) e (scalarAddr e 8 s.me) 8 true s
def bodyStn (e : Enc) (s : State) : Eff :=
  let n := stnWidth e.fnv
  storeBody (.stn e) e (scalarAddr e n s.me) n false s

/-- LD, R212. -/
def execLd (e : Enc) (s : State) : Out State := issue (.ld e) {} (fun _ e s => bodyLd e s) s
/-- LDN, R212. -/
def execLdn (e : Enc) (s : State) : Out State := issue (.ldn e) { bad := decide (5 < e.fnv) } (fun _ e s => bodyLdn e s) s
/-- ST, R212. -/
def execSt (e : Enc) (s : State) : Out State := issue (.st e) {} (fun _ e s => bodySt e s) s
/-- STN, R212. -/
def execStn (e : Enc) (s : State) : Out State := issue (.stn e) { bad := decide (2 < e.fnv) } (fun _ e s => bodyStn e s) s

/-! ### Vector loads and stores (R213, R214) -/

/-- A page-3 form runs once the core's vector queue is empty: its registers are then read and written in program order (log 15). -/
def afterQueue (s : State) (body : State → Eff) : Eff :=
  if !s.me.vq.isEmpty then .wait 0 0 s else body (s.modMe fun k => k.settleV (some k.pos))

/-- The place of a lane whose address has passed its checks. -/
def lanePlace (s : State) (k : Acc) (a : W) : Loc :=
  match place s s.cur k a with
  | .ok p => p
  | .error _ => .inj

/-- The active lanes of `wd` bits. -/
def activeLanes (p : W) (wd : Nat) : List Nat := (List.range (512 / wd)).filter fun i => p.getLsbD i

/-- The addresses of the active lanes, in rising order, each with its alignment. -/
def laneAddrs (p : W) (wd : Nat) (addr : Nat → W) : List (W × Nat) :=
  sortAddrs ((activeLanes p wd).map fun i => (addr i, wd / 8))

/-- R25: a vector load, whose destination no stream may be bound to. -/
def toVreg (e : Enc) (s : State) (body : State → Eff) : Eff :=
  afterQueue s fun s => if s.me.streamBound e.a then .trap 0x03 0 s else body s

/-- R213: the aligned words that VLD or VST touches. -/
def byteWords (p a : W) : List (W × Nat) :=
  (List.range 8).filterMap fun j =>
    if (List.range 8).any fun i => p.getLsbD (8 * j + i) then some (a + w (8 * j), 8) else none

/-- A vector load of lanes of `wd` bits from their addresses, after the checks listed, of `n` bytes each; `s1` is the state once its register
sources have been read. With no active lane nothing is written (R37). -/
def vload (i : Instr) (e : Enc) (wd n : Nat) (checks : List (W × Nat)) (addr : Nat → W) (s s1 : State) : Eff :=
  let p := s.me.pred e
  let acc : Acc := ⟨false, false⟩
  if !anyActive p (512 / wd) then .ok s1
  else match places s s.cur acc checks with
  | .error (c, d) => .trap c d s
  | .ok ps =>
    atPlaces i n ps s fun _ =>
      let s := s1
      let rd := fun j => readPlace s s.cur (lanePlace s acc (addr j)) (wd / 8)
      let bad := fun j => if (rd j).2 then some (wordAt (addr j)) else none
      .ok (s.modMe fun k =>
        k.write e.L .v e.a (vmerge (vget k.v e.a) wd p fun j => (rd j).1) (mixMarks (k.vmarks e.a) wd p bad))

/-- R214: the writes of a store, lowest lane first. -/
def storeLanes (s : State) (acc : Acc) (wd : Nat) (x : V) (addr : Nat → W) (l : List Nat) : State :=
  l.foldl (fun s j => writePlace s s.cur (lanePlace s acc (addr j)) (leBytes (wd / 8) (lane x wd j))) s

/-- A vector store of the lanes of a source; `s1` is the state once its register sources have been read. -/
def vstore (i : Instr) (e : Enc) (wd : Nat) (x : V) (checks : List (W × Nat)) (addr : Nat → W) (s s1 : State) : Eff :=
  let p := s.me.pred e
  let acc : Acc := ⟨true, false⟩
  match places s s.cur acc checks with
  | .error (c, d) => .trap c d s
  | .ok ps =>
    if !mayRelease e s then .wait 0 0 s
    else atPlaces i (wd / 8) ps s fun _ => .ok (storeLanes s1 acc wd x addr (activeLanes p wd))

/-- Read a v register as a source for a page-3 form: a stream with nothing to pop makes it wait, a poisoned active lane traps. -/
def withV (s : State) (n wd : Nat) (p : W) (body : V → State → Eff) : Eff :=
  match takeV s s.cur n with
  | .empty => .wait 0 0 s
  | .gone ch => .trap 0x10 (w ch) s
  | .ok x marks s1 =>
    match poisonUsed marks wd p with
    | some d => .trap 0x19 d s
    | none => body x s1

/-- R213: address of VLD, VST. -/
def vldAddr (e : Enc) (k : Core) : W := k.g e.b + BitVec.ofInt 64 (e.immS .ri * 64)

def bodyVld (e : Enc) (s : State) : Eff :=
  toVreg e s fun s =>
    let p := s.me.pred e
    let a := vldAddr e s.me
    if !anyActive p 64 then .ok s
    else if a.toNat % 64 ≠ 0 then .trap 0x09 a s
    else if a = 0x00300800 ∧ e.pred.isNone then
      collPop s 8 fun ws s =>
        s.modMe fun k => k.write e.L .v e.a (BitVec.ofNat 512 (leNat (ws.flatMap fun x => leBytes 8 x.toNat)))
    else vload (.vld e) e 8 8 (byteWords p a) (fun i => a + w i) s s

/-- R214: VST writes each aligned word whole where all of its lanes are active. -/
def storeBytes (s : State) (p a : W) (x : V) : State :=
  let acc : Acc := ⟨true, false⟩
  (List.range 8).foldl (fun s j =>
    if (List.range 8).all fun i => p.getLsbD (8 * j + i) then
      writePlace s s.cur (lanePlace s acc (a + w (8 * j))) (leBytes 8 (lane x 64 j))
    else storeLanes s acc 8 x (fun i => a + w i) (((List.range 8).map fun i => 8 * j + i).filter fun i => p.getLsbD i)) s

def bodyVst (e : Enc) (s : State) : Eff :=
  afterQueue s fun s =>
    let p := s.me.pred e
    let a := vldAddr e s.me
    withV s e.a 8 p fun x s1 =>
      if !anyActive p 64 then .ok s1
      else if a.toNat % 64 ≠ 0 then .trap 0x09 a s
      else if a = 0x00300000 ∧ e.pred.isNone then
        match collPush s1 ((List.range 8).map fun j => w (lane x 64 j)) with
        | .trap c d _ => .trap c d s
        | .wait k o _ => .wait k o s
        | r => r
      else match places s s.cur ⟨true, false⟩ (byteWords p a) with
        | .error (c, d) => .trap c d s
        | .ok ps =>
          if !mayRelease e s then .wait 0 0 s
          else atPlaces (.vst e) 8 ps s fun _ => .ok (storeBytes s1 p a x)

/-- R213: the lane width that PX.FN gives. -/
def fnLane (e : Enc) : Nat := laneBits e.ty
/-- R213: the address of lane i of VLDS, VSTS. -/
def strideAddr (e : Enc) (k : Core) (i : Nat) : W := k.g e.b + w i * k.g e.c
/-- R213: the address of lane i of VGATH, VSCAT. -/
def gatherAddr (e : Enc) (k : Core) (off : V) (i : Nat) : W := k.g e.b + w (lane off (fnLane e) i)

def bodyVlds (e : Enc) (s : State) : Eff :=
  toVreg e s fun s =>
    let addr := strideAddr e s.me
    vload (.vlds e) e (fnLane e) (fnLane e / 8) (laneAddrs (s.me.pred e) (fnLane e) addr) addr s s
def bodyVsts (e : Enc) (s : State) : Eff :=
  afterQueue s fun s =>
    let addr := strideAddr e s.me
    withV s e.a (fnLane e) (s.me.pred e) fun x s1 =>
      vstore (.vsts e) e (fnLane e) x (laneAddrs (s.me.pred e) (fnLane e) addr) addr s s1
def bodyVgath (e : Enc) (s : State) : Eff :=
  toVreg e s fun s =>
    withV s e.c (fnLane e) (s.me.pred e) fun off s1 =>
      let addr := gatherAddr e s.me off
      vload (.vgath e) e (fnLane e) (fnLane e / 8) (laneAddrs (s.me.pred e) (fnLane e) addr) addr s s1
def bodyVscat (e : Enc) (s : State) : Eff :=
  afterQueue s fun s =>
    withV s e.c (fnLane e) (s.me.pred e) fun off s1 =>
      withV s1 e.a (fnLane e) (s.me.pred e) fun x s2 =>
        let addr := gatherAddr e s.me off
        vstore (.vscat e) e (fnLane e) x (laneAddrs (s.me.pred e) (fnLane e) addr) addr s s2
/-- R213: address of VLDB. -/
def vldbAddr (e : Enc) (k : Core) : W := k.g e.b + BitVec.ofInt 64 (e.immS .ri * (fnLane e / 8 : Nat))
def bodyVldb (e : Enc) (s : State) : Eff :=
  toVreg e s fun s =>
    let a := vldbAddr e s.me
    vload (.vldb e) e (fnLane e) (fnLane e / 8) [(a, fnLane e / 8)] (fun _ => a) s s

/-- R215: hand the active lanes to the banks of their words, lowest first. -/
def bankLanes (s : State) (wd fn : Nat) (x : V) (addr : Nat → W) (l : List Nat) : State :=
  l.foldl (fun s j =>
    match whereIs s s.cur (lanePlace s ⟨true, false⟩ (addr j)) with
    | some (t, o) => s.modTile t fun y => { y with bankq := y.bankq ++ [⟨s.cur, o, wd / 8, fn, w (lane x wd j), s.me.pc, s.me.lev⟩] }
    | none => s) s
def bodyVbred (e : Enc) (s : State) : Eff :=
  afterQueue s fun s =>
    let wd := fnLane e
    let p := s.me.pred e
    let a := s.me.g e.b
    let addr := fun i => a + w (i * (wd / 8))
    withV s e.c wd p fun x s1 =>
      if !anyActive p (512 / wd) then .ok s1
      else if a.toNat % 64 ≠ 0 then .trap 0x09 a s
      else match places s s.cur ⟨true, false⟩ (laneAddrs p wd addr) with
        | .error (c, d) => .trap c d s
        | .ok ps =>
          if !mayRelease e s then .wait 0 0 s
          else atPlaces (.vbred e) (wd / 8) ps s fun _ => .ok (bankLanes s1 wd (if e.ty = 8 then 9 else 0) x addr (activeLanes p wd))

/-- R213: the types and modifier that a page-3 form refuses from the encoding alone. -/
def badType (e : Enc) : Ck := { bad := !clsB e.ty || e.mod != 0 }
def badWide (e : Enc) : Ck := { bad := !(clsB e.ty && decide (32 ≤ laneBits e.ty)) || e.mod != 0 }
def badBred (e : Enc) : Ck := { bad := !(e.ty == 2 || e.ty == 3 || e.ty == 6 || e.ty == 7 || e.ty == 8) || e.mod != 0 }

/-- VLD, R214. -/
def execVld (e : Enc) (s : State) : Out State := issue (.vld e) {} (fun _ e s => bodyVld e s) s
/-- VST, R214. -/
def execVst (e : Enc) (s : State) : Out State := issue (.vst e) {} (fun _ e s => bodyVst e s) s
/-- VLDS, R214. -/
def execVlds (e : Enc) (s : State) : Out State := issue (.vlds e) (badType e) (fun _ e s => bodyVlds e s) s
/-- VSTS, R214. -/
def execVsts (e : Enc) (s : State) : Out State := issue (.vsts e) (badType e) (fun _ e s => bodyVsts e s) s
/-- VGATH, R214. -/
def execVgath (e : Enc) (s : State) : Out State := issue (.vgath e) (badWide e) (fun _ e s => bodyVgath e s) s
/-- VSCAT, R214. -/
def execVscat (e : Enc) (s : State) : Out State := issue (.vscat e) (badWide e) (fun _ e s => bodyVscat e s) s
/-- VLDB, R214. -/
def execVldb (e : Enc) (s : State) : Out State := issue (.vldb e) (badType e) (fun _ e s => bodyVldb e s) s
/-- VBRED, R215. -/
def execVbred (e : Enc) (s : State) : Out State := issue (.vbred e) (badBred e) (fun _ e s => bodyVbred e s) s

/-! ### Atomics (R216, R217, R218) -/

/-- R216: an operation that a width refuses. -/
def badOper (e : Enc) (wide : Bool) : Ck := { bad := decide (9 < e.fnv) || (wide && e.fnv == 9) }

/-- R217: a read and write of one word at its bank (log 105: it does not wait for the core's own queued bank operations): `step` gives the bytes to write, if any, from the old value. -/
def atomicBody (i : Instr) (e : Enc) (n : Nat) (step : Nat → Option Nat) (s : State) : Eff :=
  let a := s.me.g e.b
  match places s s.cur ⟨true, false⟩ [(a, n)] with
  | .error (c, d) => .trap c d s
  | .ok ps =>
    if !mayRelease e s then .wait 0 0 s
    else atPlaces i n ps s fun s =>
      match whereIs s s.cur (ps.headD .inj) with
      | none => .wait 10 0 s
      | some (t, o) =>
        if (s.tile t).bad o then .trap 0x19 (wordAt a) s
        else
          let old := Mem.load (s.tile t).mem o n
          let s' := match step old with
            | some x => s.modTile t fun y => y.store o (leBytes n x)
            | none => s
          .ok (s'.modMe fun k => k.writeW e.L .g e.a (sextBytes n old))

def bodyAmo (e : Enc) (s : State) : Eff :=
  atomicBody (.amo e) e 8 (fun old => some (oper e.fnv 64 old (s.me.g e.c).toNat)) s
def bodyAmow (e : Enc) (s : State) : Eff :=
  atomicBody (.amow e) e 4 (fun old => some (oper e.fnv 32 old (W.bits (s.me.g e.c) 0 32))) s
def bodyCas (e : Enc) (s : State) : Eff :=
  atomicBody (.cas e) e 8 (fun old => if old = (s.me.g e.a).toNat then some (s.me.g e.c).toNat else none) s
def bodyCasw (e : Enc) (s : State) : Eff :=
  atomicBody (.casw e) e 4 (fun old => if old = W.bits (s.me.g e.a) 0 32 then some (W.bits (s.me.g e.c) 0 32) else none) s

/-- AMO, R217. -/
def execAmo (e : Enc) (s : State) : Out State := issue (.amo e) (badOper e true) (fun _ e s => bodyAmo e s) s
/-- AMOW, R217. -/
def execAmow (e : Enc) (s : State) : Out State := issue (.amow e) (badOper e false) (fun _ e s => bodyAmow e s) s
/-- CAS, R217. -/
def execCas (e : Enc) (s : State) : Out State := issue (.cas e) {} (fun _ e s => bodyCas e s) s
/-- CASW, R217. -/
def execCasw (e : Enc) (s : State) : Out State := issue (.casw e) {} (fun _ e s => bodyCasw e s) s

/-- R217: BOP hands its operation to the bank and goes on. -/
def bopBody (i : Instr) (e : Enc) (n : Nat) (s : State) : Eff :=
  let a := s.me.g e.b
  match places s s.cur ⟨true, false⟩ [(a, n)] with
  | .error (c, d) => .trap c d s
  | .ok ps =>
    if !mayRelease e s then .wait 0 0 s
    else atPlaces i n ps s fun s =>
      match whereIs s s.cur (ps.headD .inj) with
      | none => .wait 10 0 s
      | some (t, o) => .ok (s.modTile t fun y => { y with bankq := y.bankq ++ [⟨s.cur, o, n, e.fnv, s.me.g e.c, s.me.pc, s.me.lev⟩] })
/-- BOP, R217. -/
def execBop (e : Enc) (s : State) : Out State := issue (.bop e) (badOper e true) (fun _ e s => bopBody (.bop e) e 8 s) s
/-- BOPW, R217. -/
def execBopw (e : Enc) (s : State) : Out State := issue (.bopw e) (badOper e false) (fun _ e s => bopBody (.bopw e) e 4 s) s

/-- R344: the running instruction has passed its checks: they are not made again where it then waits. -/
def Core.passed (c : Core) : Core := { c with checked := some (c.lev, c.pos) }
/-- What a form records for an injection check that fails (R344, R362); an instruction that has passed its checks and waits is not
checked again. -/
def capTrap (s : State) (reg : Nat) (c : Cap) (right : Nat) (chan : Option Nat) : Option (Nat × W) :=
  if s.me.checked = some (s.me.lev, s.me.pos) then none
  else (capCheck s s.cur.site c right chan).map fun x => (x, capDetail reg chan)

/-- A capability register of the running core. -/
def Core.capReg (c : Core) (n : Nat) : Cap := vget c.c n

/-- R218: RAMO is injected at issue, after the RMW of an earlier one to the same bytes (R191); an acquire waits for its answer (R193). -/
def ramoBody (i : Instr) (e : Enc) (n : Nat) (s : State) : Eff :=
  let k := s.me
  let cap := k.capReg e.b
  let a := k.g e.a
  match capTrap s e.b cap 0 none with
  | some (c, d) => .trap c d s
  | none =>
    if a.toNat % n ≠ 0 then .trap 0x09 a s
    else if 0x002C0000 < a.toNat + n then .trap 0x03 0 s
    else
    let s := s.modMe Core.passed
    if !mayRelease e s then .wait 0 0 s
    else if ramoHits s s.cur (cname cap) a.toNat n then .remote (cname cap) s
    else
      let (out, k') := s.me.promise e.L .g e.a (some (cname cap))
      let s1 := s.setCore s.cur k'
      match inject s1 s.cur 1 (cname cap) (capKind cap) 0 (.ramoReq a.toNat n e.fnv (k.g e.c) k.pc k.lev out) with
      | none => .wait 10 0 s
      | some s2 =>
        if e.kind = 1 ∨ e.kind = 3 then
          .hold (s2.modMe fun k => { k with wait := some ⟨i, s.nextPkt, true, [], []⟩ }.block 11 0 (cname cap))
        else .ok s2
/-- RAMO, R218. -/
def execRamo (e : Enc) (s : State) : Out State :=
  issue (.ramo e) (badOper e true) (fun _ e s => ramoBody (.ramo e) e 8 s) s
/-- RAMOW, R218. -/
def execRamow (e : Enc) (s : State) : Out State :=
  issue (.ramow e) (badOper e false) (fun _ e s => ramoBody (.ramow e) e 4 s) s

/-! ### Fences (R219) -/

/-- R195, R219: what a FENCE waits for: at CORE scope the core's register results, vector queue and open CXs, above it every earlier
event within reach. -/
def fenceDone (e : Enc) (s : State) : Bool :=
  let scope := if e.ord.isSome then e.scope else 1
  if scope = 0 then s.me.vq.isEmpty && s.me.outst.isEmpty else earlierDone s s.cur scope
/-- R193, R209, R219: the sends after a FENCE that orders writes follow those before it, by their places in the program. -/
def fenceSends (e : Enc) (c : Core) : Core :=
  let scope := if e.ord.isSome then e.scope else 1
  if e.ord.isSome && e.kind == 1 && scope != 5 then c else { c with fenced := c.orderAt (some scope) }
/-- FENCE, R219. -/
def execFence (e : Enc) (s : State) : Out State :=
  issue (.fence e) {} (fun _ e s => if fenceDone e s then .ok (s.modMe (fenceSends e)) else .wait 0 0 s) s
/-- R203: later fetches of the core follow every earlier event of it, and every word it has fetched is discarded; none of what its
tile's memory held before can be fetched any more (R204). -/
def fetchFresh (s : State) (body : State → Eff) : Eff :=
  if !earlierDone s s.cur 5 then .wait 0 0 s else body (s.modMe fun k => { k with seen := s.here.past.length })
/-- IFENCE, R219. -/
def execIfence (e : Enc) (s : State) : Out State := issue (.ifence e) {} (fun _ _ s => fetchFresh s .ok) s

/-! ### Bank operations of a tile (R173, R215, R217) -/

/-- Remove element i of a list. -/
def dropAt {α : Type} (l : List α) (i : Nat) : List α := l.take i ++ l.drop (i + 1)

/-- A bank operation may be performed: no earlier one of the same core touches the same word. -/
def bankReady (l : List BankOp) (i : Nat) (x : BankOp) : Bool :=
  !((l.take i).any fun y => y.addr / 8 == x.addr / 8 && y.src == x.src)

/-- BANK_RMW, R173: a bank performs one operation that has reached it; a poisoned word is left and its issuer traps (R398). -/
def execBankRmw (t : Site) (i : Nat) (s : State) : Out State :=
  .next (match (s.tile t).bankq[i]? with
    | none => s
    | some x =>
      if !bankReady (s.tile t).bankq i x then s
      else
        let s1 := s.modTile t fun y => { y with bankq := dropAt y.bankq i }
        match bankRmw (s1.tile t) x.addr x.width x.fn x.x.toNat with
        | some (_, t') => s1.setTile t t'
        | none => s1.modCore x.src fun k =>
            k.pendTrap ⟨0x19, w (x.addr / 8 * 8), x.pc, 0, x.hi⟩)

end Sys2Proof.Machine
end

