-- ==== Sys2Proof/Machine/Messages.lean ====
section
/-! DEFINITION. Messages, ports, stream bindings and semaphores (R220 to R229). -/

namespace Sys2Proof.Machine

/-! ### The send word (R220) -/

/-- LEN, CHAN, FLAGS and REMOTE of a send word. -/
def swLen (x : Nat) : Nat := bits x 0 12
def swChan (x : Nat) : Nat := bits x 16 6
def swFlags (x : Nat) : Nat := bits x 24 8
def swRemote (x : Nat) : Nat := bits x 32 22
/-- R220: a send word that SEND refuses. -/
def badSend (x : Nat) : Bool :=
  bits x 12 4 != 0 || bits x 22 2 != 0 || bits x 32 32 != 0 || swLen x % 8 != 0 || decide (2048 < swLen x)
/-- R220: a send word that SENDF and VSEND refuse. -/
def badFast (x : Nat) : Bool := badSend x || swLen x != 0
/-- R220: a send word that PUT and GET refuse. -/
def badPut (x : Nat) : Bool :=
  bits x 12 20 != 0 || bits x 54 10 != 0 || swLen x % 8 != 0 || decide (2048 < swLen x) || swRemote x % 8 != 0
    || decide (0x002C0000 < swRemote x + swLen x)

/-- The word of a form: the immediate where PX.IMM stands, else g[c]. -/
def wordOr (e : Enc) (k : Core) : Nat := if e.imms.isEmpty then (k.g e.c).toNat else e.immHigh
/-- The check of an immediate word, made from the encoding alone. -/
def wordCk (bad : Nat → Bool) (e : Enc) : Ck := { bad := !e.imms.isEmpty && bad e.immHigh }

/-- The bytes and the poisoned words of a footprint of `n` words at an address whose checks have passed. -/
def readFoot (s : State) (a : W) (n : Nat) : List Byte × List Nat :=
  let rd := (List.range n).map fun j => readPlace s s.cur (lanePlace s ⟨false, false⟩ (a + w (8 * j))) 8
  (rd.flatMap fun r => leBytes 8 r.1, (List.range n).filter fun j => (rd.getD j (0, false)).2)

/-- R198: the scope of a send annotated release. -/
def relScope (e : Enc) : Option Nat := if releases e then some e.scope else none
/-- R221, R247: take a send-buffer entry, committing the buffer first where it is full. -/
def pushSend (e : Enc) (x : Send) (s : State) : Eff :=
  match bufferSend s s.cur (relScope e) x with
  | .inl s' => .ok s'
  | .inr s' => .wait 10 0 s'

/-- R221: the checks of a form that reads `len` bytes at g[b], in their order, and then its footprint. -/
def sendChecks (i : Instr) (e : Enc) (bad : Nat → Bool) (chan : Option Nat) (x : Nat) (acc : Acc) (s : State)
    (body : Cap → State → Eff) : Eff :=
  let k := s.me
  let cap := k.capReg e.a
  match capTrap s e.a cap 0 chan with
  | some (c, d) => .trap c d s
  | none =>
    if bad x then .trap 0x03 0 s
    else if (k.g e.b).toNat % 8 ≠ 0 then .trap 0x09 (k.g e.b) s
    else match places s s.cur acc (wordAddrs (k.g e.b) (swLen x / 8)) with
      | .error (c, d) => .trap c d s
      | .ok ps =>
        let s := s.modMe Core.passed
        if !mayRelease e s then .wait 0 0 s else atPlaces i 8 ps s (body cap)

def bodySend (e : Enc) (s : State) : Eff :=
  let x := wordOr e s.me
  sendChecks (.send e) e badSend (some (swChan x)) x ⟨false, false⟩ s fun cap s =>
    let (pl, bad) := readFoot s (s.me.g e.b) (swLen x / 8)
    pushSend e (.message cap (swChan x) (swFlags x) pl bad) s
def bodyPut (e : Enc) (s : State) : Eff :=
  let x := wordOr e s.me
  sendChecks (.put e) e badPut none x ⟨false, false⟩ s fun cap s =>
    let (pl, bad) := readFoot s (s.me.g e.b) (swLen x / 8)
    pushSend e (.put cap (swRemote x) pl bad) s

/-- R221, R222: SENDF and VSEND, which read registers only; `s1` is the state once they have been read. One that waits has passed its
checks (R344). -/
def fastSend (e : Enc) (payload : List Byte) (s s1 : State) : Eff :=
  let x := e.immHigh
  let cap := s.me.capReg e.a
  let m := Send.message cap (swChan x) (swFlags x) payload []
  match capTrap s e.a cap 0 (some (swChan x)) with
  | some (c, d) => .trap c d s
  | none =>
    let s := s.modMe Core.passed
    if !mayRelease e s then .wait 0 0 s
    else match bufferSend s s.cur (relScope e) m with
      | .inl _ => pushSend e m s1
      | .inr s' => .wait 10 0 s'

/-- R223: GET is injected at issue and the core waits for its data; a request first finds the members that its words go to (R177). -/
def bodyGet (e : Enc) (s : State) : Eff :=
  let k := s.me
  let x := wordOr e k
  let cap := k.capReg e.a
  match capTrap s e.a cap 0 none with
  | some (c, d) => .trap c d s
  | none =>
    if badPut x then .trap 0x03 0 s
    else if (k.g e.b).toNat % 8 ≠ 0 then .trap 0x09 (k.g e.b) s
    else match places s s.cur ⟨true, false⟩ (wordAddrs (k.g e.b) (swLen x / 8)) with
      | .error (c, d) => .trap c d s
      | .ok ps =>
        let n := swLen x / 8
        let s := s.modMe Core.passed
        if n = 0 then .ok s
        else if ramoHits s s.cur (cname cap) (swRemote x) (8 * n) then .remote (cname cap) s
        else atPlaces (.get e) 8 ps s fun s =>
          match inject s s.cur 1 (cname cap) (capKind cap) 0 (.getReq (swRemote x) (swLen x) (s.me.g e.b).toNat) with
          | none => .wait 10 0 s
          | some s' => .hold (s'.modMe fun k =>
              { k with wait := some ⟨.get e, s.nextPkt, true, (k.wait.map fun (x : Wait) => x.sites).getD [], []⟩ }.block 11 0 (cname cap))

/-- SEND, R221, R222. -/
def execSend (e : Enc) (s : State) : Out State := issue (.send e) (wordCk badSend e) (fun _ e s => bodySend e s) s
/-- SENDF, R222: 16 bytes, g[b] and g[c]. -/
def execSendf (e : Enc) (s : State) : Out State :=
  issue (.sendf e) (wordCk badFast e) (fun _ e s =>
    fastSend e (leBytes 8 (s.me.g e.b).toNat ++ leBytes 8 (s.me.g e.c).toNat) s s) s
/-- VSEND, R222: the 64 bytes of v[b], inactive lanes zero; nothing with no active lane. -/
def execVsend (e : Enc) (s : State) : Out State :=
  issue (.vsend e) (wordCk badFast e) (fun _ e s =>
    afterQueue s fun s =>
      let p := s.me.pred e
      withV s e.b 8 p fun x s1 =>
        if !anyActive p 64 then .ok s1
        else fastSend e ((List.range 64).map fun i => if p.getLsbD i then BitVec.ofNat 8 (lane x 8 i) else 0) s s1) s
/-- PUT, R222. -/
def execPut (e : Enc) (s : State) : Out State := issue (.put e) (wordCk badPut e) (fun _ e s => bodyPut e s) s
/-- GET, R223. -/
def execGet (e : Enc) (s : State) : Out State := issue (.get e) (wordCk badPut e) (fun _ e s => bodyGet e s) s

/-! ### Ports (R225, R226) -/

/-- R225: a port word that traps. -/
def badPort (x : Nat) : Bool := decide (256 ≤ x) || (bits x 7 1 == 1 && x != 128)
/-- R225: a channel of the core is bound to a port other than q, or to a stream register. -/
def chanTaken (k : Core) (q chan : Nat) : Bool :=
  ((List.range 4).any fun i => i != q && (vget k.q i).bound && !(vget k.q i).outbound && (vget k.q i).chan == chan)
    || k.streamsAfter.any (· == some chan)

/-- QBIND, R225. -/
def execQbind (e : Enc) (s : State) : Out State :=
  issue (.qbind e) (wordCk badPort e) (fun _ e s =>
    let k := s.me
    let x := wordOr e k
    let q := e.a
    let put := fun (p : Port) => Eff.ok (s.modMe fun k => { k with q := vset k.q q p })
    if badPort x then .trap 0x03 0 s
    else if x = 128 then put ⟨false, 0, 0, 0⟩
    else if bits x 6 1 = 1 then
      reading [(.c, e.b)] (fun s => match capTrap s e.b (k.capReg e.b) 0 (some (bits x 0 6)) with
        | some (c, d) => .trap c d s
        | none => put ⟨true, BitVec.ofNat 8 x, k.capReg e.b, 0⟩) s
    else if chanTaken k q (bits x 0 6) then .trap 0x03 0 s
    else
      let s := s.modMe fun k => { k with q := vset k.q q ⟨true, BitVec.ofNat 8 x, 0, 0⟩ }
      .ok (settleRing s s.cur (bits x 0 6))) s

/-- Read the next word of an inbound port into g[a]. -/
def portRead (e : Enc) (q : Nat) (s : State) : Option State :=
  let k := s.me
  let n := (vget k.q q).chan
  match portNext s.here k q with
  | none => none
  | some (x, a, k') =>
    let s' := s.setCore s.cur k'
    let s' := if k'.recs.length = k.recs.length then s' else ringFreed s' s.cur n
    some (s'.modMe fun k => k.writeW e.L .g e.a x (if s.here.bad a then [(0, w (a / 8 * 8))] else []))
/-- R193, R199, R226: a read that frees the message, a release at TILE, waits for the core's earlier events in its tile. -/
def portDone (s s' : State) : Eff := if freesHead s.me s'.me && !freeReady s s.cur then .wait 0 0 s else .ok s'
/-- A port is bound inbound. -/
def inbound (k : Core) (q : Nat) : Bool := (vget k.q q).bound && !(vget k.q q).outbound

/-- QRD, R226. -/
def execQrd (e : Enc) (s : State) : Out State :=
  issue (.qrd e) {} (fun _ e s =>
    if !inbound s.me e.b then .trap 0x0F (w e.b) s
    else match portRead e e.b s with
      | some s' => portDone s s'
      | none => .wait 3 e.b s) s
/-- QTRY, R226. -/
def execQtry (e : Enc) (s : State) : Out State :=
  issue (.qtry e) {} (fun _ e s =>
    if !inbound s.me e.b then .trap 0x0F (w e.b) s
    else match portRead e e.b s with
      | some s' => portDone s (s'.modMe fun k => k.writeW e.L .p e.c (BitVec.allOnes 64))
      | none => .ok (s.modMe fun k => k.writeW e.L .p e.c 0)) s
/-- QWR, R226: an 8-byte message injected at once. -/
def execQwr (e : Enc) (s : State) : Out State :=
  issue (.qwr e) {} (fun _ e s =>
    let k := s.me
    let p := vget k.q e.a
    if !(p.bound && p.outbound) then .trap 0x0F (w e.a) s
    else match capTrap s 0 p.cap 0 (some p.chan) with
      | some (c, d) => .trap c d s
      | none =>
        match injectMsg s s.cur k.lev (cname p.cap) (capKind p.cap) p.chan 0 false (leBytes 8 (k.g e.b).toNat) [] with
        | some s' => .ok ((s'.modPkt s.nextPkt fun p => { p with no := k.sendNo + 1, before := k.fenced }).modMe fun k =>
            { k with sendNo := k.sendNo + 1 })
        | none => .wait 10 0 (s.modMe Core.passed)) s

/-! ### Stream registers (R227) -/

/-- R227: the channel that VSBIND names. -/
def bindChan (e : Enc) (k : Core) : Nat := if e.imms.isEmpty then (k.g e.b).toNat else e.immHigh
/-- VSBIND, R227: it takes effect in the vector queue's order. -/
def execVsbind (e : Enc) (s : State) : Out State :=
  issue (.vsbind e) { bad := decide (e.a < 12) || (!e.imms.isEmpty && decide (63 < e.immHigh)) } (fun _ e s =>
    let k := s.me
    let n := bindChan e k
    if 63 < n then .trap 0x03 0 s
    else if k.portOf n || ((List.range 4).any fun i => i != e.a - 12 && k.streamsAfter.getD i none == some n) then .trap 0x03 0 s
    else if !ringEn (k.ring n) then .trap 0x10 (w n) s
    else vpush (.vsbind e) e (w n) 0 0 none 0 s) s
/-- VSUNBIND, R227. -/
def execVsunbind (e : Enc) (s : State) : Out State :=
  issue (.vsunbind e) { bad := decide (e.a < 12) } (fun _ e s => vpush (.vsunbind e) e 0 0 0 none 0 s) s

/-! ### Semaphores (R228, R229, R202) -/

/-- The value of a semaphore. -/
def Tile.sem (t : Tile) (n : Nat) : Nat := (vget t.sems n).toNat
def Tile.setSem (t : Tile) (n x : Nat) : Tile := { t with sems := vset t.sems n (BitVec.ofNat 32 x) }

/-- R229: serve the waiters of a semaphore, longest first, until none is met; a served SEMWAIT is complete. -/
def semServe (fuel : Nat) (s : State) (t : Site) (n : Nat) : State :=
  match fuel with
  | 0 => s
  | k + 1 =>
    let x := s.tile t
    match x.semq.find? fun y => y.sem == n && decide (y.t ≤ x.sem n) with
    | none => s
    | some y =>
      let s := s.modTile t fun x => { x.setSem n (x.sem n - y.t) with semq := x.semq.filter fun z => z.kind != y.kind }
      let c : CoreId := ⟨t, y.kind⟩
      semServe k (advance s c (s.core c).mask.isSome y.npc) t n

/-- R202, R228: add to a semaphore with saturation, and serve its waiters. -/
def semAdd (s : State) (t : Site) (n x : Nat) : State :=
  semServe 4 ((s.modTile t fun y => y.setSem n (Nat.min (y.sem n + x) (2 ^ 32 - 1))).active t) t n

/-- SEMINC, R228: a release at TILE. -/
def execSeminc (e : Enc) (s : State) : Out State :=
  issue (.seminc e) {} (fun _ e s =>
    if !earlierDone s s.cur 1 then .wait 0 0 s else .ok (semAdd s s.cur.site e.b (W.bits (s.me.g e.c) 0 32))) s

/-- SEMWAIT, R228, R229: it waits in the tile's queue until it is served. -/
def execSemwait (e : Enc) (s : State) : Out State :=
  issue (.semwait e) {} (fun _ e s =>
    let t := W.bits (s.me.g e.c) 0 32
    if t = 0 then .ok s
    else if s.here.semq.any fun y => y.kind == s.cur.kind then .wait 4 e.b s
    else if t ≤ s.here.sem e.b then .ok ((s.modHere fun x => x.setSem e.b (x.sem e.b - t)).active s.cur.site)
    else .wait 4 e.b (s.modHere fun x => { x with semq := x.semq ++ [⟨s.cur.kind, e.b, t, npc s.me.pc e⟩] })) s

/-- SEMTRY, R228, R229. -/
def execSemtry (e : Enc) (s : State) : Out State :=
  issue (.semtry e) {} (fun _ e s =>
    let t := W.bits (s.me.g e.c) 0 32
    let v := s.here.sem e.b
    if t ≤ v ∧ !(s.here.semq.any fun y => y.sem == e.b && decide (y.t ≤ v)) then
      .ok (((s.modHere fun x => x.setSem e.b (v - t)).active s.cur.site).modMe fun k => k.writeW e.L .p e.a (BitVec.allOnes 64))
    else .ok (s.modMe fun k => k.writeW e.L .p e.a 0)) s

/-- SEMRD, R228. -/
def execSemrd (e : Enc) (s : State) : Out State :=
  issue (.semrd e) {} (fun _ e s => .ok (s.modMe fun k => k.writeW e.L .g e.a (w (s.here.sem e.b)))) s

end Sys2Proof.Machine
end

