-- ==== Sys2Proof/Machine/Capability.lean ====
section
/-! DEFINITION. Capability forms and the requests of one core to another (R348 to R355). -/

namespace Sys2Proof.Machine

/-- CAPMOV, R349. -/
def execCapmov (e : Enc) (s : State) : Out State :=
  issue (.capmov e) {} (fun _ e s => .ok (s.modMe fun k => k.write e.L .c e.a ((k.capReg e.b).setWidth 512))) s

/-- R349: a capability with the mask bits that `m` lacks cleared. -/
def restrict (c : Cap) (m : Nat) : Cap := c &&& ~~~(BitVec.ofNat 128 ((15 - m % 16) * 2 ^ 68))
/-- CAPREST, R349. -/
def execCaprest (e : Enc) (s : State) : Out State :=
  issue (.caprest e) {} (fun _ e s =>
    let m := s.me.g e.c
    if 16 ≤ m.toNat then .trap 0x03 m s
    else .ok (s.modMe fun k => k.write e.L .c e.a ((restrict (k.capReg e.b) m.toNat).setWidth 512))) s

/-- R349: the address of CAPLD and CAPST. -/
def capAddr (e : Enc) (k : Core) : W := k.g e.b + BitVec.ofInt 64 (e.immS .rr * 16)
/-- R349: the two words at a multiple of 16, checked before either is accessed. -/
def capWords (a : W) : List (W × Nat) := [(a, 16), (a + 8, 8)]
/-- CAPLD, R349. -/
def bodyCapld (e : Enc) (s : State) : Eff :=
  let a := capAddr e s.me
  match places s s.cur ⟨false, false⟩ (capWords a) with
  | .error (c, d) => .trap c d s
  | .ok ps =>
    atPlaces (.capld e) 8 ps s fun s =>
      let lo := readPlace s s.cur (ps.headD .inj) 8
      let hi := readPlace s s.cur (ps.getD 1 .inj) 8
      let marks := (if lo.2 then [(0, a)] else []) ++ (if hi.2 then [(1, a + 8)] else [])
      .ok (s.modMe fun k => k.write e.L .c e.a (BitVec.ofNat 512 (lo.1 + hi.1 * 2 ^ 64)) marks)
def execCapld (e : Enc) (s : State) : Out State := issue (.capld e) {} (fun _ e s => bodyCapld e s) s
/-- CAPST, R349. -/
def bodyCapst (e : Enc) (s : State) : Eff :=
  let a := capAddr e s.me
  match places s s.cur ⟨true, false⟩ (capWords a) with
  | .error (c, d) => .trap c d s
  | .ok ps =>
    atPlaces (.capst e) 8 ps s fun s =>
      let x := (s.me.capReg e.a).toNat
      .ok (writePlace (writePlace s s.cur (ps.headD .inj) (leBytes 8 x)) s.cur (ps.getD 1 .inj) (leBytes 8 (x / 2 ^ 64)))
def execCapst (e : Enc) (s : State) : Out State := issue (.capst e) {} (fun _ e s => bodyCapst e s) s

/-- R350: what CAPMINT seals, before its checks. -/
def mintWord (x : W) (vni : Nat) : Nat := x.toNat % 2 ^ 52 + vni % 4096 * 2 ^ 52
/-- R350: a word that CAPMINT refuses. -/
def mintBad (x : Nat) : Bool :=
  bits x 40 12 != 0 || bits x 0 10 != 0 || bits x 22 2 == 3 || decide (bits x 10 6 < bits x 16 6) || decide (0x3FFF < bits x 24 16)
/-- R350: a capability with its seal under a key. -/
def sealed (key : BitVec 256) (x rights : Nat) : Cap :=
  let r := rights % 16
  BitVec.ofNat 128 (x % 2 ^ 64 + (r + r * 16 + sealOf key (x % 2 ^ 64 + r * 2 ^ 64) * 2 ^ 8) * 2 ^ 64)
/-- CAPMINT, R350. -/
def execCapmint (e : Enc) (s : State) : Out State :=
  issue (.capmint e) {} (fun _ e s =>
    let r := s.me.g e.c
    let x := mintWord (s.me.g e.b) s.here.vni
    if 16 ≤ r.toNat then .trap 0x03 r s
    else if mintBad x then .trap 0x03 (w x) s
    else .ok (s.modMe fun k => k.write e.L .c e.a ((sealed (s.keysOf s.here.vni (some s.cur.site)).1 x r.toNat).setWidth 512))) s

/-- R351: what CAPINFO writes. -/
def capInfo (s : State) (t : Site) (c : Cap) : W :=
  let ok := sealCheck s t c
  let svc := cvni c == 0
  let eff := bits c.toNat 64 4 &&& bits c.toNat 68 4
  let st := if ok.isSome && !svc && decide (cname c ≤ 0x3FFF) then (resolve (s.tile t) (cname c)).code else 0
  w (b01 (formed c) + b01 ok.isSome * 2 + b01 (ok == some true) * 4 + b01 svc * 8 + (if ok.isSome then eff else 0) * 16 + st * 256)
/-- CAPINFO, R351. -/
def execCapinfo (e : Enc) (s : State) : Out State :=
  issue (.capinfo e) {} (fun _ e s => .ok (s.modMe fun k => k.writeW e.L .g e.a (capInfo s s.cur.site (s.me.capReg e.b)))) s

/-- The core sends a request to an island, the root or an arbiter and waits for the answer without abandoning the wait. -/
def ask (i : Instr) (r : Req) (kind : Nat) (s : State) : Eff :=
  .hold (s.modMe fun k => { k with req := some r, ans := none, wait := some ⟨i, 0, true, [], []⟩ }.block kind 0 0xFFFF)
/-- The answer to a core's request reaches it: its g[a] is written and its instruction is complete. -/
def answered (s : State) (c : CoreId) (x : W) : State :=
  match (s.core c).wait with
  | some y =>
    match encOf y.i with
    | some e => complete (s.modCore c fun k => { k with req := none, ans := none }.writeW e.L .g e.a x) c
    | none => s
  | none => s

/-- CAPREVOKE, R352. -/
def execCaprevoke (e : Enc) (s : State) : Out State :=
  issue (.caprevoke e) {} (fun _ e s =>
    let m := (s.me.g e.b).toNat
    if 1 < m then .trap 0x03 0 s else ask (.caprevoke e) (.caprevoke m) 11 s) s

/-- R353: check and inject one request at issue. -/
def request (s : State) (reg right : Nat) (body : Body) (k : State → Eff) : Eff :=
  let cap := s.me.capReg reg
  match capTrap s reg cap right none with
  | some (c, d) => .trap c d s
  | none =>
    match inject s s.cur 4 (cname cap) (capKind cap) 0 body with
    | none => .wait 10 0 (s.modMe Core.passed)
    | some s' => k s'
/-- WAKE, R353. -/
def execWake (e : Enc) (s : State) : Out State := issue (.wake e) {} (fun _ e s => request s e.b 1 .wake .ok) s
/-- HALTC, R353, R354. -/
def execHaltc (e : Enc) (s : State) : Out State :=
  issue (.haltc e) {} (fun _ e s =>
    request s e.b 2 (.haltc (BitVec.ofNat 32 (W.bits (s.me.g e.c) 0 32 ||| 0x80000000))) .ok) s
/-- INSPECT, R355: the sender waits for the reply. -/
def execInspect (e : Enc) (s : State) : Out State :=
  issue (.inspect e) {} (fun _ e s =>
    let n := (s.me.g e.c).toNat
    let name := cname (s.me.capReg e.b)
    if (capTrap s e.b (s.me.capReg e.b) 3 none).isNone && decide (3 < n) then .trap 0x03 0 s
    else request s e.b 3 (.inspect n) fun s' =>
      .hold (s'.modMe fun k => { k with wait := some ⟨.inspect e, s.nextPkt, true, [], []⟩ }.block 11 0 name)) s

end Sys2Proof.Machine
end

