-- ==== Sys2Proof/Machine/VecOps.lean ====
section
/-! DEFINITION. What each vector instruction computes from its operands (R107 to R120): pure functions of register values, the predicate and the
rounding state. -/

namespace Sys2Proof.Machine

/-- Lanes in ascending order: each active one is computed, the rounding state passing from lane to lane (R66). -/
def runLanes (wd : Nat) (p : W) (old : V) (fp : Fp) (g : Nat → Fp → Nat × Fp) : V × Fp :=
  let r := (List.range (512 / wd)).foldl (fun (acc : List Nat × Fp) i =>
    if p.getLsbD i then
      let (x, fp) := g i acc.2
      (x :: acc.1, fp)
    else (lane old wd i :: acc.1, acc.2)) ([], fp)
  (BitVec.ofNat 512 (r.1.foldl (fun n x => n * 2 ^ wd + x % 2 ^ wd) 0), r.2)

/-- The same where no lane touches the rounding state. -/
def mapLanes (wd : Nat) (p : W) (old : V) (g : Nat → Nat) : V := vmerge old wd p g

/-! ### Element arithmetic (R107, R108) -/

/-- The two components of a complex element of `n` bits each. -/
def cparts (n x : Nat) : Int × Int := (intOf true n x, intOf true n (x / 2 ^ n))
/-- A complex element from its components, wrapped or saturated (R61). -/
def cmake (sat : Bool) (n : Nat) (re im : Int) : Nat := intRes true sat n re + intRes true sat n im * 2 ^ n

/-- An operation on two elements of a float, integer or complex type: the float operation, and the integer one that each component
takes. -/
def elem2 (ty : Nat) (f : Fp → FVal → FVal → FVal × Nat) (g : Int → Int → Int) (x y : Nat) (fp : Fp) : Nat × Fp :=
  if isFloat ty then
    let (e, fl) := f fp (fval ty x) (fval ty y)
    roundF ty (fp.raise fl) e
  else if isCplx ty then
    let n := compBits ty
    let (a, b) := cparts n x
    let (c, d) := cparts n y
    (cmake fp.sat n (g a c) (g b d), fp)
  else
    let n := tyBits ty
    let s := isSigned ty
    (intRes s fp.sat n (g (intOf s n x) (intOf s n y)), fp)

/-- Integer forms saturate under modifier 001 only (R61). -/
def intSat (ty mod : Nat) (fp : Fp) : Fp := if isFloat ty then fp else { fp with sat := mod == 1 }

/-- x · y + z and z − x · y, rounded once (R68). -/
def fma (ty : Nat) (minus : Bool) (x y z : Nat) (fp : Fp) : Nat × Fp :=
  let (p, f1) := fmul (fval ty x) (fval ty y)
  let (e, f2) := fadd fp.down (if minus then fneg p else p) (fval ty z)
  roundF ty (fp.raise (f1 ||| f2)) e

/-- A float operation on one element. -/
def elem1 (ty : Nat) (f : FVal → FVal × Nat) (x : Nat) (fp : Fp) : Nat × Fp :=
  let (e, fl) := f (fval ty x)
  roundF ty (fp.raise fl) e

/-- VMIN and VMAX (R108). -/
def pick (ty : Nat) (larger : Bool) (x y : Nat) : Nat :=
  if isFloat ty then fpick ty larger x y
  else
    let lt := decide (intOf (isSigned ty) (tyBits ty) x < intOf (isSigned ty) (tyBits ty) y)
    if lt == larger then y else x

/-- VABS and VNEG of a float element: the sign bit cleared or inverted; a NaN gives the canonical NaN (R108). -/
def fsign (ty : Nat) (negate : Bool) (x : Nat) : Nat :=
  let n := tyBits ty - 1
  if isNaN ty x then nanOf ty else if negate then (x + 2 ^ n) % 2 ^ (n + 1) else x % 2 ^ n
/-- VABS (R108). -/
def vabs (ty : Nat) (sat : Bool) (x : Nat) : Nat :=
  if isFloat ty then fsign ty false x
  else if isSigned ty then intRes true sat (tyBits ty) (intOf true (tyBits ty) x).natAbs
  else x
/-- VNEG (R108). -/
def vneg (ty : Nat) (sat : Bool) (x : Nat) : Nat :=
  if isFloat ty then fsign ty true x
  else if isCplx ty then
    let (a, b) := cparts (compBits ty) x
    cmake sat (compBits ty) (-a) (-b)
  else intRes (isSigned ty) sat (tyBits ty) (-intOf (isSigned ty) (tyBits ty) x)

/-- VSHL, VSHR and VSRA: a shift by the low log2(w) bits (R109). -/
def vshift (kind wd x y : Nat) : Nat :=
  let k := y % wd
  if kind = 0 then x * 2 ^ k % 2 ^ wd
  else if kind = 1 then x / 2 ^ k
  else wrapTo wd (intOf true wd x / (2 ^ k : Int))

/-! ### Compares (R110) -/

/-- The order of two finite or infinite values. -/
def fless (x y : FVal) : Bool :=
  match x, y with
  | .nan, _ => false
  | _, .nan => false
  | .inf a, .inf b => a && !b
  | .inf a, _ => a
  | _, .inf b => !b
  | .fin a m e _, .fin b n k _ => decide (atUnit a m e (min e k) < atUnit b n k (min e k))
/-- Equality of values: −0 equals +0, a NaN equals nothing. -/
def feq (x y : FVal) : Bool :=
  match x, y with
  | .nan, _ => false
  | _, .nan => false
  | .inf a, .inf b => a == b
  | .fin a m e _, .fin b n k _ => atUnit a m e (min e k) == atUnit b n k (min e k)
  | _, _ => false
/-- VCMP: condition 0 EQ, 1 NE, 2 LT, 3 LE. -/
def vcompare (cond ty x y : Nat) : Bool :=
  if isFloat ty then
    let a := fval ty x
    let b := fval ty y
    match cond with
    | 0 => feq a b
    | 1 => !feq a b
    | 2 => fless a b
    | _ => fless a b || feq a b
  else if isCplx ty then (if cond = 0 then x == y else x != y)
  else
    let a := intOf (isSigned ty) (tyBits ty) x
    let b := intOf (isSigned ty) (tyBits ty) y
    match cond with
    | 0 => a == b
    | 1 => a != b
    | 2 => decide (a < b)
    | _ => decide (a ≤ b)
/-- R110: the predicate that VCMP writes. -/
def vcmpMask (cond ty : Nat) (p old : W) (x y : V) : W :=
  let wd := laneBits ty
  w ((List.range (512 / wd)).foldr (fun i acc =>
    2 * acc + b01 (if p.getLsbD i then vcompare cond ty (lane x wd i) (lane y wd i) else old.getLsbD i)) 0)

/-! ### Elements narrower than a lane (R60, R112) -/

/-- The storage width of one element: 4 bits for a 4-bit type, 8 for a 6-bit one. -/
def storeBits (t : Nat) : Nat := if tyBits t = 6 then 8 else tyBits t
/-- Element i of a register. -/
def elemAt (t : Nat) (x : V) (i : Nat) : Nat := bits x.toNat (storeBits t * i) (tyBits t)

/-- R112: VCVT. `whole` says that no predicate was given, so that elements 64 to 127 of a 4-bit pair are active (log 16). -/
def vcvt (src dst : Nat) (p : W) (whole : Bool) (x old : V) (fp : Fp) : V × Fp :=
  let wd := storeBits dst
  let n := 512 / Nat.max (storeBits src) wd
  let r := (List.range n).foldl (fun (acc : List Nat × Fp) i =>
    if whole || p.getLsbD i then
      let (y, fp) := convert src dst acc.2 (elemAt src x i)
      (y :: acc.1, fp)
    else (bits old.toNat (wd * i) wd :: acc.1, acc.2)) ([], fp)
  (BitVec.ofNat 512 (r.1.foldl (fun n x => n * 2 ^ wd + x % 2 ^ wd) 0), r.2)

/-! ### Blocks (R113 to R115) -/

/-- EMAX (R114). -/
def emax (t : Nat) (mx : Bool) : Int :=
  match t with
  | 11 => 8
  | 12 => 15
  | 13 => 4
  | 14 => 2
  | 15 => 2
  | 0 => if mx then 0 else 6
  | 4 => 7
  | 16 => 2
  | _ => 3
/-- The types a quantised group may hold (R113). -/
def quantType (t : Nat) (mx : Bool) : Bool :=
  decide (11 ≤ t ∧ t ≤ 15) || t == 0 || (!mx && (t == 4 || t == 16 || t == 17))
/-- floor(log2 |x|) of a finite nonzero value. -/
def flog (x : FVal) : Int :=
  match x with
  | .fin _ m e _ => e + m.log2
  | _ => 0
def isFin (x : FVal) : Bool :=
  match x with
  | .fin _ _ _ _ => true
  | _ => false
def isZero (x : FVal) : Bool :=
  match x with
  | .fin _ m _ _ => m == 0
  | _ => false
def negOf (x : FVal) : Bool :=
  match x with
  | .fin a _ _ _ => a
  | .inf a => a
  | .nan => false

/-- R114: one element at a scale. -/
def quantElem (t : Nat) (mx : Bool) (s : Nat) (x : FVal) (fp : Fp) : Nat × Fp :=
  let y := fscale x (127 - (s : Int) + (if mx && t == 0 then 6 else 0))
  let f := { fp with sat := true }
  let (r, f) := if isFloat t then roundF t f y else roundI (isSigned t) (tyBits t) f y
  (r, { f with sat := fp.sat })

/-- R114: one block: its elements (value and old code, with activity) to their codes, and its scale. A block that is all zero, or that
holds a NaN or an infinity, rounds nothing and draws nothing (log 77). -/
def quantBlock (t : Nat) (mx : Bool) (els : List (Bool × FVal × Nat)) (oldScale : Nat) (fp : Fp) : List Nat × Nat × Fp :=
  let act := els.filter (·.1)
  if act.isEmpty then (els.map fun e => e.2.2, oldScale, fp)
  else if act.any fun e => !isFin e.2.1 then
    (els.map fun e => if e.1 then 0 else e.2.2, 0xFF, fp.raise NV)
  else if act.all fun e => isZero e.2.1 then
    (els.map fun e => if e.1 then (if isFloat t && negOf e.2.1 then 2 ^ (tyBits t - 1) else 0) else e.2.2, 0x7F, fp)
  else
    let top := (act.filter fun e => !isZero e.2.1).foldl (fun k e => max k (flog e.2.1)) (-2000)
    let s := (max 0 (min 254 (top - emax t mx + 127))).toNat
    let r := els.foldl (fun (acc : List Nat × Fp) e =>
      if e.1 then
        let (y, fp) := quantElem t mx s e.2.1 acc.2
        (y :: acc.1, fp)
      else (e.2.2 :: acc.1, acc.2)) ([], fp)
    (r.1.reverse, s, r.2)

/-- R114: blocks of `n` elements, in order. -/
def quantBlocks (fuel t : Nat) (mx : Bool) (n : Nat) (els : List (Bool × FVal × Nat)) (scales : List Nat) (fp : Fp) :
    List Nat × List Nat × Fp :=
  match fuel with
  | 0 => ([], [], fp)
  | k + 1 =>
    let (a, s, fp) := quantBlock t mx (els.take n) (scales.headD 0) fp
    let (r, rs, fp) := quantBlocks k t mx n (els.drop n) (scales.drop 1) fp
    (a ++ r, s :: rs, fp)

/-- R113: a group from its element codes and scales. -/
def groupOf (t : Nat) (codes scales : List Nat) : V :=
  let wd := storeBits t
  let el := codes.foldr (fun x n => x % 2 ^ wd + n * 2 ^ wd) 0
  let sc := scales.foldr (fun x n => x % 256 + n * 256) 0
  BitVec.ofNat 512 (el + sc * 2 ^ 256)

/-- R114: VQUANT. -/
def vquant (t : Nat) (mx : Bool) (p : W) (xb xc old : V) (fp : Fp) : V × Fp :=
  let els := (List.range 32).map fun i =>
    (p.getLsbD i, fval 8 (if i < 16 then lane xb 32 i else lane xc 32 (i - 16)), lane old (storeBits t) i)
  let n := if mx then 1 else 4
  let scales := (List.range n).map fun j => lane old 8 (32 + j)
  let (codes, sc, fp) := quantBlocks n t mx (if mx then 32 else 8) els scales fp
  (groupOf t codes sc, fp)

/-- R58, R59: the value of element i of a group. -/
def groupVal (t : Nat) (mx : Bool) (x : V) (i : Nat) : FVal :=
  let s := lane x 8 (32 + (if mx then 0 else i / 8))
  if s = 255 then .nan else fscale (elemVal t (elemAt t x i)) ((s : Int) - 127 - (if mx && t == 0 then 6 else 0))
/-- R115: VDEQ: the two result registers. -/
def vdeq (t : Nat) (mx : Bool) (p : W) (x old0 old1 : V) (fp : Fp) : V × V × Fp :=
  let (a, fp) := runLanes 32 (p &&& 0xFFFF) old0 fp fun i fp => roundF 8 fp (groupVal t mx x i)
  let (b, fp) := runLanes 32 ((p >>> 16) &&& 0xFFFF) old1 fp fun i fp => roundF 8 fp (groupVal t mx x (i + 16))
  (a, b, fp)

/-! ### Reductions and dot products (R72, R116, R117, R118) -/

/-- One level of the tree of R72. -/
def foldLevel {α : Type} (f : α → α → Fp → α × Fp) (l : List (Option α)) (fp : Fp) : List (Option α) × Fp :=
  match l with
  | some x :: some y :: r =>
    let (z, fp) := f x y fp
    let (r, fp) := foldLevel f r fp
    (some z :: r, fp)
  | x :: y :: r =>
    let (r', fp) := foldLevel f r fp
    ((x <|> y) :: r', fp)
  | l => (l, fp)
/-- R72, R77: the balanced tree over a list whose length is a power of two. -/
def foldTree {α : Type} (fuel : Nat) (f : α → α → Fp → α × Fp) (l : List (Option α)) (fp : Fp) : Option α × Fp :=
  match fuel with
  | 0 => ((l.headD none), fp)
  | k + 1 =>
    let (l', fp) := foldLevel f l fp
    foldTree k f l' fp

/-- One addition RNE in a float type, with its flags (R72, R116). -/
def addFlag (t : Nat) (x y : Nat) (fp : Fp) : Nat × Fp :=
  let (e, fl) := fadd false (fval t x) (fval t y)
  let (r, f) := roundF t { Fp.rne with flags := fp.flags ||| fl } e
  (r, { fp with flags := f.flags })

/-- The lanes of a source, those inactive missing. -/
def someLanes (wd : Nat) (p : W) (x : V) : List (Option Nat) :=
  (List.range (512 / wd)).map fun i => if p.getLsbD i then some (lane x wd i) else none

/-- VREDSUM (R116); the value of one active lane passes through as it is, a NaN's encoding too (log 77). -/
def vredsum (t : Nat) (p : W) (x : V) (fp : Fp) : V × Fp :=
  let wd := laneBits t
  let (r, fp) := foldTree 7 (fun a b fp => if isFloat t then addFlag t a b fp else ((a + b) % 2 ^ wd, fp)) (someLanes wd p x) fp
  (BitVec.ofNat 512 (r.getD 0), fp)
/-- VREDMAX and VREDMIN (R116). -/
def vredpick (t : Nat) (larger : Bool) (p : W) (x : V) : V :=
  let wd := laneBits t
  let l := (someLanes wd p x).map fun o => o.map fun y => if isFloat t && isNaN t y then nanOf t else y
  let none' := if isFloat t then nanOf t else wrapTo wd (if larger then intMin (isSigned t) wd else intMax (isSigned t) wd)
  BitVec.ofNat 512 ((foldTree 7 (fun a b fp => (pick t larger a b, fp)) l Fp.rne).1.getD none')
/-- VREDSUMW (R116). -/
def vredsumw (t : Nat) (p : W) (x : V) (fp : Fp) : V × Fp :=
  let wd := laneBits t
  let wide := fun y => if isFloat t then (convert t 8 Fp.rne y).1 else wrapTo 64 (intOf (isSigned t) wd y)
  let l := (someLanes wd p x).map fun o => o.map wide
  let (r, fp) := foldTree 7 (fun a b fp => if isFloat t then addFlag 8 a b fp else ((a + b) % 2 ^ 64, fp)) l fp
  (BitVec.ofNat 512 (r.getD 0), fp)

/-- R117: the accumulator type of VDOT for a source type. -/
def dotType (t : Nat) : Nat :=
  if isCplx t then 21 else if isFloat t then 8 else if isSigned t then 2 else 6
/-- R73, R141: the exact sum of products and of the terms before them, with its flags. -/
def sumProducts (down : Bool) (first : List FVal) (l : List (FVal × FVal)) : FVal × Nat :=
  let ps := l.map fun x => fmul x.1 x.2
  let (z, f) := fsum down (first ++ ps.map (·.1))
  (z, ps.foldl (fun n p => n ||| p.2) f)
/-- VDOT and VDOTC (R117). -/
def vdot (t : Nat) (conj : Bool) (p : W) (xb xc old : V) (fp : Fp) : V × Fp :=
  let d := dotType t
  let wd := tyBits d
  let k := wd / storeBits t
  runLanes wd p old fp fun j fp =>
    let prs := (List.range k).map fun i => (elemAt t xb (k * j + i), elemAt t xc (k * j + i))
    let a := lane old wd j
    if isFloat t then
      let (e, fl) := sumProducts fp.down [fval 8 a] (prs.map fun x => (fval t x.1, fval t x.2))
      roundF 8 (fp.raise fl) e
    else if isCplx t then
      let n := compBits t
      let (re, im) := prs.foldl (fun (s : Int × Int) xy =>
        let (br, bi) := cparts n xy.1
        let (cr, ci) := cparts n xy.2
        let ci := if conj then intOf true n (intRes true fp.sat n (-ci)) else ci
        (s.1 + br * cr - bi * ci, s.2 + br * ci + bi * cr)) (cparts 32 a)
      (cmake fp.sat 32 re im, fp)
    else
      let s := isSigned t
      let sum := prs.foldl (fun (z : Int) xy => z + intOf s (tyBits t) xy.1 * intOf s (tyBits t) xy.2) (intOf s 32 a)
      (intRes s fp.sat 32 sum, fp)
/-- VCMUL and VCMULC (R118). -/
def vcmul (t : Nat) (conj : Bool) (sat : Bool) (x y : Nat) : Nat :=
  let n := compBits t
  let (br, bi) := cparts n x
  let (cr, ci) := cparts n y
  let ci := if conj then intOf true n (intRes true sat n (-ci)) else ci
  cmake sat n (br * cr - bi * ci) (br * ci + bi * cr)

/-! ### Moves (R119) -/

/-- VPERM, VSLUP and VSLDN. -/
def vperm (wd : Nat) (p : W) (x idx old : V) : V :=
  mapLanes wd p old fun i => let j := lane idx wd i; if j < 512 / wd then lane x wd j else 0
def vslup (wd : Nat) (p : W) (x old : V) (k : Nat) : V := mapLanes wd p old fun i => if k ≤ i then lane x wd (i - k) else 0
def vsldn (wd : Nat) (p : W) (x old : V) (k : Nat) : V :=
  mapLanes wd p old fun i => if i + k < 512 / wd then lane x wd (i + k) else 0

end Sys2Proof.Machine
end

