-- ==== Sys2Proof/Machine/MatrixOps.lean ====
section
/-! DEFINITION. The matrix unit's data (R122 to R126, R134 to R144): configurations, planes and slots, footprints, what the moving commands
make of bytes, and what the products compute. -/

namespace Sys2Proof.Machine

/-! ### Configurations (R123, R124) -/

def mType (c : W) : Nat := W.bits c 0 5
def mRows (c : W) : Nat := W.bits c 5 5 + 1
def mKlen (c : W) : Nat := W.bits c 10 8 + 1
def mBlk (c : W) : Bool := c.getLsbD 18
def mSparse (c : W) : Nat := W.bits c 19 3
def mConj (c : W) : Bool := c.getLsbD 22
/-- R123: the storage width of a configuration's type. -/
def mWidth (c : W) : Nat := storeBits (mType c)
/-- R123: the row length in bytes. -/
def mRb (c : W) : Nat := ceilDiv (mKlen c * mWidth c) 8
/-- R123: the N of N-of-12. -/
def mN (c : W) : Nat := ([0, 2, 3, 4, 6] : List Nat).getD (mSparse c) 0
/-- R58 and R59: the types of a block size. -/
def blockType (mx : Bool) (t : Nat) : Bool :=
  decide (11 ≤ t ∧ t ≤ 15) || t == 0 || (!mx && (t == 4 || t == 16 || t == 17))
/-- R124: a valid configuration. -/
def mValid (c : W) : Bool :=
  let t := mType c
  (decide (9 ≤ t ∧ t ≤ 19) || t == 0 || t == 4) && decide (mRb c ≤ 96) && decide (mSparse c ≤ 4)
    && (mSparse c == 0 || (!isCplx t && mKlen c % mN c == 0)) && (!mBlk c || blockType true t)
/-- R140: the number of the set that an MMA or MMAS type belongs to; none for a type that no pair holds. -/
def mSet (t : Nat) : Option Nat :=
  if t = 9 ∨ t = 10 then some 0 else if 11 ≤ t ∧ t ≤ 14 then some 1 else if t = 15 then some 2
  else if t = 0 ∨ t = 4 then some 3 else if t = 16 ∨ t = 17 then some 4 else none

/-! ### Planes and slots (R122, R126) -/

/-- The plane codes. -/
def planeMem (t : Tile) (plane : Nat) : Mem :=
  match plane with
  | 0 => t.mdata
  | 1 => t.mscale
  | 2 => t.mmeta
  | _ => t.z
def setPlane (t : Tile) (plane : Nat) (m : Mem) : Tile :=
  match plane with
  | 0 => { t with mdata := m }
  | 1 => { t with mscale := m }
  | 2 => { t with mmeta := m }
  | _ => { t with z := m }
/-- The place of row i of a register in its plane. -/
def rowAt (plane num i : Nat) : Nat := if plane = 1 then 768 * num + 24 * i else 3072 * num + 96 * i
/-- Element k of `wd` bits of the row at a place (R60, R122). -/
def elemIn (m : Mem) (at_ wd k : Nat) : Nat :=
  if wd = 4 then bits (Mem.byteAt m (at_ + k / 2)).toNat (4 * (k % 2)) 4
  else Mem.load m (at_ + wd / 8 * k) (wd / 8)
/-- Element k of `wd` bits of a line of bytes. -/
def elemOf (l : List Byte) (wd k : Nat) : Nat :=
  if wd = 4 then bits (l.getD (k / 2) 0).toNat (4 * (k % 2)) 4
  else leNat ((List.range (wd / 8)).map fun i => l.getD (wd / 8 * k + i) 0)
/-- Elements of `wd` bits packed in bytes; an unused nibble is zero. -/
def packElems (wd : Nat) (l : List Nat) : List Byte :=
  if wd = 4 then (List.range (ceilDiv l.length 2)).map fun i =>
    BitVec.ofNat 8 (l.getD (2 * i) 0 % 16 + 16 * (l.getD (2 * i + 1) 0 % 16))
  else l.flatMap fun x => leBytes (wd / 8) x
/-- The bytes of element k of a line of `wd`-bit elements. -/
def elemBytes (wd k : Nat) : List Nat := if wd = 4 then [k / 2] else (List.range (wd / 8)).map fun i => wd / 8 * k + i
/-- The bits of an element that are kept: 6 of a 6-bit one (R60). -/
def maskElem (t x : Nat) : Nat := if tyBits t = 6 then x % 64 else x

/-! ### Products (R140 to R144) -/

/-- R141: one rounding of acc + s to f32. -/
def accRound (acc : Nat) (s : FVal) (flags : Nat) : Nat × Nat :=
  let (z, f) := fadd false (fval 8 acc) s
  let (r, fp) := roundF 8 { Fp.rne with flags := flags ||| f } z
  (r, fp.flags)
/-- R141: the groups of one element, in ascending order: `scale g` is what multiplies the sum of group g. -/
def accGroups (fuel g : Nat) (acc flags : Nat) (l : List (FVal × FVal)) (scale : Nat → FVal → FVal) : Nat × Nat :=
  match fuel with
  | 0 => (acc, flags)
  | n + 1 =>
    if l.isEmpty then (acc, flags)
    else
      let (s, f) := sumProducts false [] (l.take 8)
      let (acc', fl) := accRound acc (scale g s) (flags ||| f)
      accGroups n (g + 1) acc' fl (l.drop 8) scale

/-- An operand of a product: its planes as the command reads them, its register and its configuration. -/
structure Opnd where
  data : Mem
  scale : Mem
  metas : Mem
  num : Nat
  cfg : W
deriving DecidableEq, Repr

/-- Element (i, k) of an operand. -/
def Opnd.elem (x : Opnd) (i k : Nat) : Nat := elemIn x.data (rowAt 0 x.num i) (mWidth x.cfg) k
/-- R58, R59: the value of element (i, k) without its scale. -/
def Opnd.val (x : Opnd) (mx : Bool) (i k : Nat) : FVal :=
  let t := mType x.cfg
  let v := elemVal t (maskElem t (x.elem i k))
  if mx && t == 0 then fscale v (-6) else v
/-- The integer that element (i, k) holds. -/
def Opnd.int (x : Opnd) (i k : Nat) : Int := intOf (isSigned (mType x.cfg)) (tyBits (mType x.cfg)) (x.elem i k)
/-- R142: the scale byte of group g of row i. -/
def Opnd.scaleOf (x : Opnd) (i g : Nat) : Nat :=
  (Mem.byteAt x.scale (rowAt 1 x.num i + 8 * g / (if mBlk x.cfg then 32 else 8))).toNat
/-- R143: index nibble e of row j. -/
def Opnd.index (x : Opnd) (j e : Nat) : Nat := elemIn x.metas (rowAt 2 x.num j) 4 e
/-- R143: the indices of row j are in range and rise within each group. -/
def Opnd.indicesOk (x : Opnd) (j : Nat) : Bool :=
  let n := mN x.cfg
  (List.range (mKlen x.cfg)).all fun e =>
    decide (x.index j e < 12) && (e % n == 0 || decide (x.index j (e - 1) < x.index j e))
/-- R143: the stored entry that stands at logical k of row j. -/
def Opnd.entryAt (x : Opnd) (j k : Nat) : Option Nat :=
  let n := mN x.cfg
  (List.range n).findSome? fun i => if x.index j (n * (k / 12) + i) = k % 12 then some (n * (k / 12) + i) else none

/-- The kinds of product. -/
inductive Prod where
  | dense | scaled | sparse
deriving DecidableEq, Repr

/-- R140: the logical K. -/
def logicalK (kind : Prod) (b c : Opnd) : Nat :=
  match kind with
  | .sparse => mKlen c.cfg * 12 / mN c.cfg
  | _ => mKlen b.cfg
/-- Logical element k of row j of B. -/
def bVal (kind : Prod) (c : Opnd) (j k : Nat) : FVal :=
  match kind with
  | .sparse => match c.entryAt j k with
    | some e => c.val false j e
    | none => .fin false 0 0 false
  | .scaled => c.val (mBlk c.cfg) j k
  | .dense => c.val false j k
def bInt (kind : Prod) (c : Opnd) (j k : Nat) : Int :=
  match kind with
  | .sparse => ((c.entryAt j k).map fun e => c.int j e).getD 0
  | _ => c.int j k

/-- R141: element (i, j) of the accumulator after a product, with the flags raised so far. -/
def productElem (kind : Prod) (b c : Opnd) (i j acc flags : Nat) : Nat × Nat :=
  let n := logicalK kind b c
  if kind == .scaled || isFloat (mType b.cfg) then
    let mx := kind == .scaled && mBlk b.cfg
    let l := (List.range n).map fun k => (b.val mx i k, bVal kind c j k)
    accGroups (n + 1) 0 acc flags l fun g s =>
      if kind == .scaled then
        let sa := b.scaleOf i g
        let sb := c.scaleOf j g
        if sa = 255 ∨ sb = 255 then .nan else fscale s ((sa : Int) + sb - 254)
      else s
  else
    (wrapTo 32 ((List.range n).foldl (fun (z : Int) k => z + b.int i k * bInt kind c j k) (intOf true 32 acc)), flags)

/-- R144: element (i, j) of the accumulator pair. -/
def complexElem (b c : Opnd) (i j re im : Nat) : Nat × Nat :=
  let n := compBits (mType b.cfg)
  let (x, y) := (List.range (mKlen b.cfg)).foldl (fun (z : Int × Int) k =>
    let (ar, ai) := cparts n (b.elem i k)
    let (br, bi) := cparts n (c.elem j k)
    let bi := if mConj c.cfg then intOf true n (wrapTo n (-bi)) else bi
    (z.1 + ar * br - ai * bi, z.2 + ar * bi + ai * br)) (intOf true 32 re, intOf true 32 im)
  (wrapTo 32 x, wrapTo 32 y)

/-- The place of element (i, j) of a slot (R126). -/
def zAt (n i j : Nat) : Nat := 3072 * n + 96 * i + 4 * j
/-- The elements (i, j) with i < m and j < n, row-major. -/
def grid (m n : Nat) : List (Nat × Nat) := (List.range m).flatMap fun i => (List.range n).map fun j => (i, j)

/-- R138: what ZOUT stores for one element; to an integer type it saturates also under FP_MODE.SAT (R62; log 103). -/
def zoutElem (ty : Nat) (re im : Nat) (fp : Fp) : Nat × Fp :=
  if isCplx ty then
    let n := compBits ty
    let (x, fp) := intToInt fp true 32 true n re
    let (y, fp) := intToInt fp true 32 true n im
    (x + y * 2 ^ n, fp)
  else if isFloat ty then convert 8 ty fp re
  else convert 2 ty fp re
/-- R138: a type that ZOUT draws for under SR (R66). -/
def zoutDraws (e : Enc) (fpMode : W) : Bool := decide (9 ≤ e.ty ∧ e.ty ≤ 12) && (Fp.of e.mod fpMode 0).mode == 5

end Sys2Proof.Machine
end

