-- ==== Sys2Proof/Machine/Chain.lean ====
section
/-! DEFINITION. Systolic chains (R145 to R150): their geometry around holes, joining, forming, leaving and breaking. -/

namespace Sys2Proof.Machine

/-- A rectangle in a region's logical coordinates: westmost column, northmost row, columns and rows. -/
structure Rect where
  x0 : Nat
  y0 : Nat
  ncol : Nat
  nrow : Nat
deriving DecidableEq, Repr

def Rect.has (r : Rect) (x y : Nat) : Bool := decide (r.x0 ≤ x ∧ x < r.x0 + r.ncol ∧ y ≤ r.y0 ∧ r.y0 < y + r.nrow)
def Rect.cols (r : Rect) : List Nat := (List.range r.ncol).map (r.x0 + ·)
/-- Rows from the north. -/
def Rect.rows (r : Rect) : List Nat := (List.range r.nrow).map (r.y0 - ·)

/-- R145: the rectangle of a chain descriptor; none where MCHJOIN finds it BAD without looking at holes. -/
def chainRect (s : State) (vni : Nat) (d : W) : Option Rect :=
  let g := s.grid vni
  let cols := g.2.2.1
  let rows := g.2.2.2
  if W.bits d 48 16 ≠ 0 then none
  else if W.bits d 0 32 = 0 then some ⟨0, rows - 1, cols, rows⟩
  else
    let r : Rect := ⟨W.bits d 0 8, W.bits d 8 8, W.bits d 16 8, W.bits d 24 8⟩
    if r.ncol = 0 ∨ r.nrow = 0 ∨ cols < r.x0 + r.ncol ∨ rows ≤ r.y0 ∨ r.y0 + 1 < r.nrow then none else some r

/-- R145: a position that counts as a hole for chains: a hole, the site of a migrated tile, or the coordinates that one reads. -/
def chainHole (s : State) (vni x y : Nat) : Bool :=
  let t := s.siteAt vni x y
  let g := s.grid vni
  s.gone t || s.moved t || s.tiles.any fun z =>
    s.moved (siteOf z.1) && ((s.grid z.2.vni).1 + z.2.logX, (s.grid z.2.vni).2.1 + z.2.logY) == (g.1 + x, g.2.1 + y)

/-- A rectangle with its kept columns from the west and rows from the north. -/
structure Geom where
  rect : Rect
  cols : List Nat
  rows : List Nat
deriving DecidableEq, Repr

/-- R145: columns and rows with a hole are dropped; none where the descriptor is BAD. -/
def chainGeom (s : State) (vni : Nat) (d : W) : Option Geom :=
  match chainRect s vni d with
  | none => none
  | some r =>
    let cols := r.cols.filter fun x => !r.rows.any fun y => chainHole s vni x y
    let rows := r.rows.filter fun y => !r.cols.any fun x => chainHole s vni x y
    if cols.isEmpty || rows.isEmpty then none else some ⟨r, cols, rows⟩

/-- The place of a number in a list, 0xFF where it is not in it. -/
def placeIn (l : List Nat) (x : Nat) : Nat := if l.contains x then l.findIdx (· == x) else 0xFF
/-- CPOS and RPOS of a tile: 0xFF unless it stands at a kept column and row (R146, R147). -/
def Geom.pos (g : Geom) (t : Tile) (moved : Bool) : Nat × Nat :=
  let c := placeIn g.cols t.logX
  let r := placeIn g.rows t.logY
  if moved || c = 0xFF || r = 0xFF then (0xFF, 0xFF) else (c, r)

/-- The tile is a member of the chain of a descriptor in a region. -/
def inChain (t : Tile) (vni : Nat) (d : W) : Bool := t.bound && t.vni == vni && t.chain.state != 0 && t.chain.desc == d
/-- The sites of a chain's members. -/
def chainMembers (s : State) (vni : Nat) (d : W) : List Site := (s.tiles.filter fun z => inChain z.2 vni d).map fun z => siteOf z.1
/-- Change the chain state of some tiles. -/
def modChains (s : State) (l : List Site) (f : Chain → Chain) : State :=
  l.foldl (fun s t => s.modTile t fun x => { x with chain := f x.chain }) s

/-- R146: the status of MCHJOIN at a tile, and its chain state after. The links of a tile that the descriptor's own chain drops serve no
other chain. -/
def chainJoin (s : State) (t : Site) (d : W) : Nat × Chain :=
  let x := s.tile t
  match chainGeom s x.vni d with
  | none => (4, x.chain)
  | some g =>
    if x.chain.state ≠ 0 ∨ (s.bypass t).any (fun b => b != d || (g.pos x (s.moved t)).1 != 0xFF) = true then (3, x.chain)
    else if !g.rect.has x.logX x.logY then (2, x.chain)
    else if g.rect.cols.any (fun a => g.rect.rows.any fun b =>
        !chainHole s x.vni a b && !s.inRegion x.vni (s.siteAt x.vni a b)) then (5, x.chain)
    else
      let p := g.pos x (s.moved t)
      if p.1 = 0xFF then (1, x.chain)
      else (0, { Chain.reset with state := 1, cpos := p.1, rpos := p.2, ceff := g.cols.length, reff := g.rows.length,
                                  chainId := W.bits d 32 16, desc := d })

/-- R150: what MCHDIM writes. -/
def chainDim (s : State) (t : Site) (d : W) : W :=
  let x := s.tile t
  match chainGeom s x.vni d with
  | none => 0
  | some g =>
    let p := g.pos x (s.moved t)
    w (p.1 % 256 + p.2 % 256 * 2 ^ 8 + g.cols.length % 256 * 2 ^ 16 + g.rows.length % 256 * 2 ^ 24)

/-- The tiles of a rectangle that stand in a dropped row or column. -/
def droppedTiles (s : State) (vni : Nat) (g : Geom) : List Site :=
  (g.rect.cols.flatMap fun x => g.rect.rows.map fun y => (x, y)).filterMap fun (x, y) =>
    if (g.cols.contains x && g.rows.contains y) || s.holeAt vni x y then none else some (s.siteAt vni x y)

/-- R147: every member has joined and no dropped tile's links serve another chain: the chain is FORMED. -/
def chainForm (s : State) (t : Site) : State :=
  let x := s.tile t
  let d := x.chain.desc
  match (if x.chain.state = 1 then chainGeom s x.vni d else none) with
  | none => s
  | some g =>
    let joined := g.cols.all fun a => g.rows.all fun b =>
      let y := s.tile (s.siteAt x.vni a b)
      inChain y x.vni d && y.chain.state == 1
    let dropped := droppedTiles s x.vni g
    if joined && dropped.all fun z => (s.bypass z).isNone && (s.tile z).chain.state == 0 then
      modChains s (chainMembers s x.vni d) fun c => { c with state := 2, dropped := dropped }
    else s

/-- The fewest steps after which a member has left. -/
def minGone (g : Option Nat) (n : Nat) : Option Nat := some (Nat.min (g.getD n) n)
/-- R147: another member has left after `n` steps. -/
def Chain.peerLeft (c : Chain) (n : Nat) : Chain :=
  if c.state = 1 then { c with state := 3, gone := some 0 }
  else { c with state := if c.state = 2 ∧ n < c.steps then 3 else c.state, gone := minGone c.gone n }
/-- R148: the chain can no longer deliver operands that have not arrived. -/
def Chain.break' (c : Chain) : Chain := if c.state = 0 then c else { c with state := 3, gone := some 0 }

/-- R147, R149: the tile leaves its chain; with the last member the links of its dropped tiles, which the members list, are free. -/
def chainLeave (s : State) (t : Site) : State :=
  let x := s.tile t
  if x.chain.state = 0 then s
  else
    let others := (chainMembers s x.vni x.chain.desc).filter (· != t)
    modChains (modChains s others (Chain.peerLeft · x.chain.steps)) [t] fun _ => Chain.reset

/-- R148: an operand that a member latches for a step reaches the members of its row (A) or column (B). -/
def chainSend (s : State) (t : Site) (isA : Bool) (l : Latched) : State :=
  let x := s.tile t
  let l := { l with isA := isA }
  let to_ := (chainMembers s x.vni x.chain.desc).filter fun z =>
    let c := (s.tile z).chain
    if isA then c.rpos == x.chain.rpos else c.cpos == x.chain.cpos
  modChains s to_ fun c => { c with latched := c.latched ++ [l] }
/-- The operand of a step that has arrived. -/
def Chain.arrived (c : Chain) (isA : Bool) (step : Nat) : Option Latched := c.latched.find? fun l => l.isA == isA && l.step == step
/-- R147: one more MCHMMA issued: the chain breaks where a member has left after fewer. -/
def Chain.issue (c : Chain) : Chain :=
  let n := c.steps + 1
  { c with steps := n, state := if c.state = 2 ∧ c.gone.any (· < n) then 3 else c.state }

end Sys2Proof.Machine
end

