-- ==== Sys2Proof/Machine/Edge.lean ====
section
/-! DEFINITION. Edge memory: translation, owner states and their transfers (R182 to R184), and the tile or saved image that a name stands for
(R238, R345). -/

namespace Sys2Proof.Machine

/-! ### Translation (R182) -/

/-- The end of edge memory: 3 TiB (R182). Physical addresses above it are those of host memory (R320, log 80). -/
def edgeEnd : Nat := 0x30000000000
def pteLeaf (e : W) : Bool := e.getLsbD 1 || e.getLsbD 3
/-- R6: the fields of a page-table entry of RISC-V Sv48 and Sv57 as the edition named there has them; one with V clear, with W and no R,
or with a reserved bit set, of [63:54] or U, A or D of a pointer to the next table, gives a page fault. -/
def pteValid (e : W) : Bool :=
  e.getLsbD 0 && !(e.getLsbD 2 && !e.getLsbD 1) && W.bits e 54 10 == 0
    && (pteLeaf e || !(e.getLsbD 4 || e.getLsbD 6 || e.getLsbD 7))
def ptePage (e : W) : Nat := W.bits e 10 44
/-- The bytes of a page at a level: 4 KiB, 2 MiB, 1 GiB at levels 0, 1, 2. -/
def pageSize (level : Nat) : Nat := 2 ^ (12 + 9 * level)
/-- The entries written into the page tables (R182). -/
def writeTables (s : State) (l : List (Nat × W)) : State := { s with tables := l.foldl (fun t x => insert t x.1 x.2) s.tables }
/-- The walk of a page table from the table `page` at a level: the leaf entry that maps an address, its level and where it stands. -/
def walk (s : State) (level page va : Nat) : Option (W × Nat × Nat) :=
  let at_ := 4096 * page + 8 * (va / pageSize level % 512)
  let e := (lookup s.tables at_).getD 0
  if !pteValid e then none
  else if pteLeaf e then some (e, level, at_)
  else match level with
    | 0 => none
    | k + 1 => walk s k (ptePage e) va
/-- The walk for an address under a PASID; the upper bits of a Sv48 address repeat bit 47. -/
def walkPasid (s : State) (pasid va : Nat) : Option (W × Nat × Nat) :=
  match s.pasids.find? (·.pasid == pasid) with
  | none => none
  | some r =>
    if r.sv57 = false ∧ va / 2 ^ 47 ≠ 0 ∧ va / 2 ^ 47 ≠ 2 ^ 10 - 1 then none
    else walk s (if r.sv57 then 4 else 3) r.root va
/-- R6: a leaf's A, and for a write its D, still clear. -/
def pteFresh (e : W) (write : Bool) : Bool := !e.getLsbD 6 || (write && !e.getLsbD 7)
/-- An edge virtual address under a PASID for a read or a write: the physical address, and whether it lies in host memory (R320). Pages
are of 4 KiB, 2 MiB or 1 GiB, at a multiple of their size. An entry whose A, or for a write D, is clear gives a page fault where the
implementation does not set the bits itself (R6, log 80). -/
def translate (s : State) (pasid va : Nat) (write : Bool) : Option (Nat × Bool) :=
  match walkPasid s pasid va with
  | none => none
  | some (e, k, _) =>
    if 2 < k ∨ ptePage e % 2 ^ (9 * k) ≠ 0 ∨ e.getLsbD (if write then 2 else 1) = false
      ∨ (pteFresh e write && !Config.setsAD) = true then none
    else
      let pa := 4096 * ptePage e + va % pageSize k
      some (if pa < edgeEnd then (pa, false) else (pa - edgeEnd, true))
/-- R6: an access sets A, and a write D, in the entry that translates it, where the implementation does so. -/
def touchPage (s : State) (pasid va : Nat) (write : Bool) : State :=
  match walkPasid s pasid va with
  | some (e, _, at_) => if pteFresh e write && Config.setsAD then writeTables s [(at_, e ||| w (64 + 128 * b01 write))] else s
  | none => s
/-- The same for several addresses. -/
def touchPages (s : State) (pasid : Nat) (vas : List Nat) (write : Bool) : State := vas.foldl (fun s va => touchPage s pasid va write) s
/-- The translation for an engine or a stream, which reach edge memory only. -/
def etranslate (s : State) (pasid va : Nat) (write : Bool) : Option (Nat × Bool) := (translate s pasid va write).filter (!·.2)
/-- Every byte of a range of edge memory translates. -/
def mapped (s : State) (pasid va len : Nat) (write : Bool) : Bool :=
  (List.range (ceilDiv len 4096 + 1)).all fun i => (etranslate s pasid (Nat.min (va + 4096 * i) (va + len - 1)) write).isSome

/-! ### Edge memory of virtual devices (R356, R358) -/

/-- The 2 MiB regions, as ranges, that a page table maps, from the table `page` at a level. -/
def leaves (s : State) (level page : Nat) : List (Nat × Nat) :=
  (s.tables.filter fun e => e.1 / 4096 == page).flatMap fun e =>
    if !pteValid e.2 then []
    else if pteLeaf e.2 then
      let pa := 4096 * ptePage e.2
      if level ≤ 2 ∧ pa < edgeEnd then [(pa / 2 ^ 21, (pa + pageSize level - 1) / 2 ^ 21)] else []
    else match level with
      | 0 => []
      | k + 1 => leaves s k (ptePage e.2)
/-- A device's edge memory: what its PASIDs reach. -/
def VDev.memory (s : State) (d : VDev) : List (Nat × Nat) :=
  (s.pasids.filter fun r => d.pasids.contains r.pasid).flatMap fun r => leaves s (if r.sv57 then 4 else 3) r.root
/-- The virtual function that a device is: 256 to each host link (R319, R356; log 110). -/
def VDev.isFn (d : VDev) (link fn : Nat) : Bool := fn != 0 && d.num == 256 * link + fn - 1
/-- The windows of a device's function, as ranges of 2 MiB regions. -/
def VDev.windows (s : State) (d : VDev) : List (Nat × Nat) :=
  (s.funcs.filter fun f => d.isFn f.link f.fn).flatMap fun f => (f.windows.filter (·.2 != 0)).map fun x => (x.1 / 2 ^ 21, (x.1 + x.2 - 1) / 2 ^ 21)
/-- Some range of one list meets one of the other. -/
def clash (l m : List (Nat × Nat)) : Bool := l.any fun x => m.any fun y => decide (x.1 ≤ y.2 ∧ y.1 ≤ x.2)
/-- R358: no two devices share a 2 MiB region, and a device's window lies in its own edge memory. -/
def apart (s : State) : Bool :=
  s.vdevs.all fun d =>
    (d.windows s).all (fun x => (List.range (x.2 - x.1 + 1)).all fun i => clash [(x.1 + i, x.1 + i)] (d.memory s))
      && s.vdevs.all fun e => e.num == d.num || !clash (d.memory s) (e.memory s)
/-- The islands make no change that would not leave the devices apart. -/
def keepApart (s t : State) : State := if apart t then t else s

/-- The bytes at a physical address of edge memory or of host memory. -/
def State.ebytes (s : State) (p : Nat × Bool) (n : Nat) : List Byte := Mem.bytes (if p.2 then s.hostMem else s.edge) p.1 n
/-- Store at a physical address; words wholly written lose their poison. -/
def State.estore (s : State) (p : Nat × Bool) (bs : List Byte) : State :=
  if p.2 then { s with hostMem := Mem.store s.hostMem p.1 bs }
  else { s with edge := Mem.store s.edge p.1 bs, edgePoison := keepPoison s.edgePoison p.1 bs.length }
/-- The poisoned words among `n` bytes of edge memory, by their number from the start. -/
def State.ebad (s : State) (p : Nat × Bool) (n : Nat) : List Nat :=
  if p.2 then [] else (List.range (n / 8)).filter fun i => s.edgePoison.contains (p.1 + 8 * i)
/-- Mark words of edge memory as poisoned. -/
def State.epoison (s : State) (p : Nat × Bool) (l : List Nat) : State :=
  if p.2 then s else
  let l := l.map fun i => p.1 + 8 * i
  { s with edgePoison := l.filter (fun x => !s.edgePoison.contains x) ++ s.edgePoison }

/-! ### Owner states (R183, R184) -/

/-- The 2 MiB region of a physical address. -/
def regionOf (pa : Nat) : Nat := pa / 2 ^ 21
/-- A region; one not listed is in ISLAND. -/
def State.own (s : State) (r : Nat) : OwnRegion := (s.owners.find? (·.num == r)).getD ⟨r, .island, []⟩
/-- Replace a region. -/
def State.setOwn (s : State) (x : OwnRegion) : State :=
  { s with owners := s.owners.filter (·.num != x.num) ++ [x] }
/-- The side that owns a region; none in TRANSIT. -/
def OwnRegion.side (x : OwnRegion) : Option Bool :=
  match x.owner with
  | .island => some false
  | .fabric => some true
  | .transit _ => none
/-- An access waits for a region, or holds it until the other regions of the access are there. -/
def OwnRegion.add (x : OwnRegion) (fabric : Bool) (k : Accessor) : OwnRegion :=
  if x.waiting.contains (fabric, k) then x else { x with waiting := x.waiting ++ [(fabric, k)] }
/-- An access has been performed, or will not be. -/
def OwnRegion.drop (x : OwnRegion) (k : Accessor) : OwnRegion := { x with waiting := x.waiting.filter (·.2 != k) }
/-- R183, R184: the other side waits and no access of the owner does: the transfer begins. -/
def OwnRegion.begin' (x : OwnRegion) : OwnRegion :=
  match x.side with
  | some f => if x.waiting.any (·.1 == !f) && !x.waiting.any (·.1 == f) then { x with owner := .transit (!f) } else x
  | none => x
/-- Change the record of a region where that changes anything. -/
def State.modOwn (s : State) (r : Nat) (f : OwnRegion → OwnRegion) : State :=
  let x := s.own r
  if f x = x then s else s.setOwn (f x)
/-- A number inserted in a rising list without repeats. -/
def rising (n : Nat) (l : List Nat) : List Nat :=
  match l with
  | [] => [n]
  | x :: r => if n < x then n :: x :: r else if n = x then x :: r else x :: rising n r

/-- R183: an access of a side to some regions: true where it is performed, all of them being its side's. Otherwise it starts or joins
the transfer of the first region, in rising order, that is not its side's; it holds the ones before that until it is performed (log 80). -/
def access (s : State) (k : Accessor) (fabric : Bool) (rs : List Nat) : Bool × State :=
  let rs := rs.foldr rising []
  let mine := rs.takeWhile fun r => (s.own r).side == some fabric
  match rs.drop mine.length with
  | [] => (true, rs.foldl (fun s r => s.modOwn r fun x => (x.drop k).begin') s)
  | r :: _ => (false, (mine.foldl (fun s r => s.modOwn r fun x => x.add fabric k) s).modOwn r fun x => (x.add fabric k).begin')
/-- The accesses of some accessors that waited will not be made. -/
def unwait (s : State) (p : Accessor → Bool) : State :=
  { s with owners := s.owners.map fun x => OwnRegion.begin' { x with waiting := x.waiting.filter fun y => !p y.2 } }
/-- The accesses of an engine context, to edge memory and to saved images. -/
def ofEngine (n : Nat) (k : Accessor) : Bool :=
  match k with
  | .engine m => m == n
  | .image _ _ u => u == 4 * n
  | _ => false
/-- The accesses to a saved image. -/
def ofImage (vni name : Nat) (k : Accessor) : Bool :=
  match k with
  | .image v n _ => v == vni && n == name
  | _ => false
/-- The regions of a range of edge memory; none for host memory. -/
def regionsOf (p : Nat × Bool) (n : Nat) : List Nat :=
  if p.2 then [] else if n = 0 then [] else (List.range (regionOf (p.1 + n - 1) - regionOf p.1 + 1)).map (regionOf p.1 + ·)

/-- OWNER_TRANSFER_START, R183: an access of a side that does not own the region. -/
def execOwnerTransferStart (region : Nat) (fabric : Bool) (s : State) : Out State := .next (access s .other fabric [region]).2
/-- OWNER_TRANSFER_COMPLETE, R184: the accesses that waited for the new owner come before any transfer away; one of which nothing more is
known is performed at once. -/
def execOwnerTransferComplete (region : Nat) (s : State) : Out State :=
  let x := s.own region
  .next (match x.owner with
    | .transit f => s.setOwn (OwnRegion.begin' { x with owner := if f then .fabric else .island, waiting := x.waiting.filter (· != (f, .other)) })
    | _ => s)

/-! ### Tiles and saved images (R238, R345) -/

/-- What a name stands for as the map of a tile reads. -/
def State.tgt (s : State) (t : Site) (name : Nat) : Tgt :=
  match resolve (s.tile t) name with
  | .bound d => if s.gone d then .none else .tile d
  | .forwarded d => if s.gone d then .none else .tile d
  | .moving _ => .wait
  | .swapped _ => if (s.image (s.tile t).vni name).isSome then .image (s.tile t).vni name else .none
  | _ => .none
/-- What a name of a region stands for as the islands know it: what its own saved image says of the others may be out of date (R238). -/
def State.nameTgt (s : State) (vni name : Nat) : Tgt :=
  if (s.image vni name).isSome then .image vni name
  else match s.siteOfName vni name with
    | none => .none
    | some d => if s.gone d then .none else if (s.tile d).moving then .wait else .tile d
/-- Change the tile record of a target. -/
def State.modTgt (s : State) (x : Tgt) (f : Tile → Tile) : State :=
  match x with
  | .tile t => (s.modTile t f).active t
  | .image v n => s.modImage v n f
  | _ => s

/-- R183, R184, R345: an access to a saved image is one of the FABRIC side to the regions that hold it: false while a transfer must come
first. `user` tells it from the image's other accesses. -/
def imageAccess (s : State) (x : Tgt) (user : Nat) : Bool × State :=
  match x with
  | .image v n => access s (.image v n user) true (((s.image v n).map (·.regs)).getD [])
  | _ => (true, s)

end Sys2Proof.Machine
end

