-- ==== Sys2Proof/Machine/Collective.lean ====
section
/-! DEFINITION. The Aster tree: collective descriptors, CBEGIN, CWAIT, CABORT, CSTAT, the barrier forms, and the root's steps (R77, R271 to
R288). -/

namespace Sys2Proof.Machine

/-! ### Descriptors (R272) -/

def dOp (l : List W) : Nat := W.bits (l.getD 0 0) 0 3
def dType (l : List W) : Nat := W.bits (l.getD 0 0) 4 2
def dNorerun (l : List W) : Bool := (l.getD 0 0).getLsbD 6
def dList (l : List W) : Bool := (l.getD 0 0).getLsbD 7
def dGroup (l : List W) : Nat := W.bits (l.getD 0 0) 16 16
def dElems (l : List W) : Nat := W.bits (l.getD 0 0) 32 24
def dTimeout (l : List W) : Nat := W.bits (l.getD 1 0) 0 32
def dCore (l : List W) : Nat := W.bits (l.getD 2 0) 32 2
def dListAddr (l : List W) : W := w (W.bits (l.getD 2 0) 0 32)
def dCount (l : List W) : Nat := W.bits (l.getD 2 0) 32 12

/-- The rectangle of a descriptor, placed as a chain rectangle (R145, R272). -/
def dRect (s : State) (vni : Nat) (l : List W) : Option Rect := chainRect s vni (w (W.bits (l.getD 2 0) 0 32))
/-- R272: word 0 of a collective descriptor, or of a barrier's (R285), breaks its rules. -/
def word0Bad (l : List W) (barrier : Bool) : Bool :=
  let x := l.getD 0 0
  if barrier then x != 0
  else decide (5 < dOp l) || x.getLsbD 3 || W.bits x 8 8 != 0 || W.bits x 56 8 != 0 || dElems l == 0
    || (decide (3 ≤ dOp l) && decide (dType l < 2))
/-- R272, R357: a field of the 24 bytes breaks its rule. -/
def descBad (s : State) (vni : Nat) (l : List W) (barrier : Bool) : Bool :=
  word0Bad l barrier || W.bits (l.getD 1 0) 32 32 != 0 ||
    (if dList l then W.bits (l.getD 2 0) 44 20 != 0 || W.bits (l.getD 2 0) 0 3 != 0 || dCount l == 0
     else W.bits (l.getD 2 0) 34 30 != 0 || dCore l == 3 || (dRect s vni l).isNone)

/-- Name and core of a list entry. -/
def entName (x : BitVec 32) : Nat := x.toNat % 2 ^ 16
def entCore (x : BitVec 32) : Nat := bits x.toNat 16 2
/-- R272: an entry of a member list breaks its rule. -/
def listBad : List (BitVec 32) → Bool
  | [] => false
  | x :: r => entCore x == 3 || bits x.toNat 18 14 != 0 || (match r with
      | y :: _ => decide (y.toNat ≤ x.toNat)
      | [] => false) || listBad r

/-- The tile of a region that reads some logical coordinates (R29, R384), be it swapped out. -/
def State.tileAtLog (s : State) (vni x y : Nat) : Option Site :=
  let reads := fun (t : Tile) => t.bound && t.vni == vni && t.logX == x && t.logY == y
  match s.tiles.find? fun z => reads z.2 && !s.gone (siteOf z.1) with
  | some z => some (siteOf z.1)
  | none => (s.saved.find? fun z => z.vni == vni && reads z.tile).map fun z => parked vni z.name

/-- R272: the members of a rectangle in rank order; none with a tile outside the region. -/
def rectMembers (s : State) (vni : Nat) (r : Rect) (k : CoreKind) : Option (List CoreId) :=
  (r.rows.flatMap fun y => r.cols.map fun x => (x, y)).foldr (fun p l => match l with
    | none => none
    | some l => match s.tileAtLog vni p.1 p.2 with
      | some t => some (⟨t, k⟩ :: l)
      | none => if s.holeAt vni p.1 p.2 then some l else none) (some [])
/-- R272, R283: the members of a list in rank order; none with a name that is a hole or UNBOUND. -/
def listMembers (s : State) (vni : Nat) (l : List (BitVec 32)) : Option (List CoreId) :=
  l.foldr (fun x r => match r, s.siteOfName vni (entName x) with
    | some r, some t => if s.gone t then none else some (⟨t, (CoreKind.ofCode (entCore x)).getD .flow⟩ :: r)
    | _, _ => none) (some [])
/-- R272: the members a descriptor names, in rank order; none where the root answers BAD_DESC. -/
def membersOf (s : State) (vni : Nat) (d : List W) (l : List (BitVec 32)) : Option (List CoreId) :=
  if dList d then listMembers s vni l
  else match dRect s vni d, CoreKind.ofCode (dCore d) with
    | some r, some k => rectMembers s vni r k
    | _, _ => none

/-- R272: a core's rank in a descriptor's member set; none where it is no member. -/
def rankIn (s : State) (c : CoreId) (d : List W) (l : List (BitVec 32)) : Option Nat :=
  let t := s.tile c.site
  if dList d then
    let i := l.findIdx fun x => entName x == t.name && entCore x == c.kind.code
    if i < l.length then some i else none
  else match dRect s t.vni d with
    | none => none
    | some r =>
      if dCore d = c.kind.code ∧ r.has t.logX t.logY then
        let before := (r.rows.flatMap fun y => r.cols.map fun x => (x, y)).takeWhile fun p => p != (t.logX, t.logY)
        some (before.countP fun p => (s.tileAtLog t.vni p.1 p.2).isSome || !s.holeAt t.vni p.1 p.2)
      else none

/-- R283: the local checks in order: 3 for a rule of R272 broken, 4 for an issuer outside the member set. -/
def localStatus (s : State) (c : CoreId) (d : List W) (l : List (BitVec 32)) (barrier : Bool) : Nat :=
  if descBad s (s.tile c.site).vni d barrier then 3
  else if dList d && listBad l then 3
  else if (rankIn s c d l).isNone then 4 else 0

/-- The words at places, or the first that is poisoned. -/
def readWords (s : State) (a : W) (ps : List Loc) : Except W (List W) :=
  let rd := ps.map fun p => readPlace s s.cur p 8
  match (List.range ps.length).find? fun j => (rd.getD j (0, false)).2 with
  | some j => .error (a + w (8 * j))
  | none => .ok (rd.map fun x => w x.1)
/-- Read a control block of `n` words (R205) after the checks of R171. -/
def readBlock (i : Instr) (a : W) (n : Nat) (s : State) (body : List W → State → Eff) : Eff :=
  match places s s.cur ⟨false, false⟩ (wordAddrs a n) with
  | .error (c, d) => .trap c d s
  | .ok ps =>
    atPlaces i 8 ps s fun s =>
      match readWords s a ps with
      | .error x => .trap 0x19 x s
      | .ok ws => body ws s
/-- Two 32-bit entries of each word. -/
def entriesOf (n : Nat) (ws : List W) : List (BitVec 32) :=
  (ws.flatMap fun (x : W) => [x.extractLsb' 0 32, x.extractLsb' 32 32]).take n
/-- R205, R283, R285: a descriptor and, once its fields pass, its member list. -/
def readDesc (i : Instr) (a : W) (barrier : Bool) (s : State) (body : List W → List (BitVec 32) → State → Eff) : Eff :=
  readBlock i a 3 s fun ws s =>
    if descBad s s.here.vni ws barrier || !dList ws then body ws [] s
    else readBlock i (dListAddr ws) (ceilDiv (dCount ws) 2) s fun ls s => body ws (entriesOf (dCount ws) ls) s

/-! ### Instances at the root (R273, R274) -/

/-- Result words a member has been given. -/
def Inst.givenTo (x : Inst) (r : Nat) : Nat := (lookup x.given r).getD 0
/-- NORERUN of an instance. -/
def Inst.norerun (x : Inst) : Bool := dNorerun x.desc
/-- R274: the instance counts as DONE: also FINAL under NORERUN. -/
def Inst.ended (x : Inst) : Bool := x.state == 4 || (x.state == 3 && x.norerun)
/-- NEXTSEQ of a group. -/
def State.nextSeq (s : State) (vni group : Nat) : BitVec 16 :=
  ((s.groups.find? fun g => g.vni == vni && g.group == group).map (·.next)).getD 0
/-- Advance NEXTSEQ. -/
def State.bumpSeq (s : State) (vni group : Nat) : State :=
  let n := s.nextSeq vni group + 1
  { s with groups := s.groups.filter (fun g => !(g.vni == vni && g.group == group)) ++ [⟨vni, group, n⟩] }
/-- R273: an instance is retired. -/
def retired (s : State) (x : Inst) : Bool :=
  x.ended || ((x.state == 5 || x.state == 6) &&
    (x.answered.length == x.members.length || decide (16 ≤ (s.nextSeq x.vni x.group - x.seq).toNat)))
/-- Two records of one instance. -/
def sameInst (x y : Inst) : Bool := x.vni == y.vni && x.group == y.group && x.seq == y.seq
/-- Replace an instance. -/
def State.setInst (s : State) (x : Inst) : State := { s with insts := mapIf s.insts (sameInst x) fun _ => x }
def State.inst (s : State) (vni group seq : Nat) : Option Inst :=
  s.insts.find? fun x => x.vni == vni && x.group == group && x.seq.toNat == seq
/-- The root need not keep a retired instance of which no core waits for anything. -/
def mayForget (s : State) (x : Inst) : Bool :=
  retired s x && (x.members.all fun c =>
    let k := s.liveCore c
    !(k.coll.any fun y => instOf y x && decide (y.state < 4)) && (match k.req with
      | some (.join _ _ _ _) => k.ans.isNone
      | _ => true))
    && (x.state != 5 || x.joined.all fun r => x.aborted.contains r)
    && (x.state != 3 || (List.range x.members.length).all fun r => x.givenTo r == x.results.length)

/-- Members that have joined, by rank. -/
def Inst.allJoined (x : Inst) : Bool := (List.range x.members.length).all fun r => x.joined.contains r
/-- R273: a member joins; when every member has, the instance runs. -/
def joinInst (s : State) (x : Inst) (r : Nat) : State :=
  let x := { x with joined := x.joined ++ [r] }
  if x.allJoined then
    let x := { x with state := 2 }
    setMembers (s.setInst x) x fun y => { y with state := 2 }
  else s.setInst x

/-- The answer word of the root: the result of CBEGIN, with bit 63 where an instance answers. -/
def joinWordOf (seq status rank : Nat) (some' : Bool) : W :=
  w (seq + status * 2 ^ 16 + rank % 2 ^ 16 * 2 ^ 24 + b01 some' * 2 ^ 63)
/-- R274: the slots in use, in all and by a VNI. -/
def slotsUsed (s : State) (vni : Option Nat) : Nat := s.insts.countP fun x => x.slot && (match vni with
  | some v => x.vni == v
  | none => true)
/-- R273, R274, R283: what the root answers to a join request: with the oldest open instance that names the issuer and has not answered
it, or, the members passing its check, with a new one. -/
def rootJoin (s : State) (c : CoreId) (d : List W) (l : List (BitVec 32)) : W × State :=
  let vni := (s.tile c.site).vni
  let rank := (rankIn s c d l).getD 0
  match s.insts.find? fun x => x.vni == vni && x.group == dGroup d && !retired s x && x.members.contains c
      && !x.answered.contains (x.members.findIdx (· == c)) with
  | some x =>
    let r := x.members.findIdx (· == c)
    let x := { x with answered := x.answered ++ [r] }
    if x.desc != d || x.list != l then (joinWordOf x.seq.toNat 2 rank true, s.setInst x)
    else if x.state = 5 then (joinWordOf x.seq.toNat 5 r true, s.setInst x)
    else if x.state = 6 then (joinWordOf x.seq.toNat 1 r true, s.setInst x)
    else (joinWordOf x.seq.toNat 0 r true, joinInst s x r)
  | none =>
    match membersOf s vni d l with
    | none => (joinWordOf 0 3 rank false, s)
    | some ms =>
      if 256 ≤ s.insts.countP fun x => (x.state == 5 || x.state == 6) && !retired s x then (joinWordOf 0 1 rank false, s)
      else
        let s := { s with insts := s.insts.filter fun x => !mayForget s x }
        let quota := ((s.region vni).map (·.quota)).getD 0
        let free := decide (slotsUsed s none < 16 ∧ slotsUsed s (some vni) < quota)
        let x : Inst := { vni := vni, group := dGroup d, seq := s.nextSeq vni (dGroup d), desc := d, list := l, members := ms,
                          joined := [], answered := [ms.findIdx (· == c)], aborted := [], state := if free then 1 else 6,
                          slot := free, contrib := List.replicate ms.length [], results := [], given := [], finished := [],
                          cause := 0, causeRank := 0xFFFF }
        let s := { s with insts := s.insts ++ [x] }.bumpSeq vni (dGroup d)
        if free then (joinWordOf x.seq.toNat 0 rank true, joinInst s x (ms.findIdx (· == c)))
        else (joinWordOf x.seq.toNat 1 rank true, s)

/-- One join request at the root. -/
def joinOne (s : State) (c : CoreId) : State :=
  match (s.core c).req, (s.core c).ans with
  | some (.join d l _ _), none =>
    let (x, s') := rootJoin s c d l
    s'.modCore c fun k => { k with ans := some x }
  | _, _ => s
/-- R274: the place of a request among those of one root cycle: the sequence number that it would open, then its VNI. -/
def joinKey (s : State) (c : CoreId) : Nat :=
  let vni := (s.tile c.site).vni
  match (s.core c).req with
  | some (.join d _ _ _) => (s.nextSeq vni (dGroup d)).toNat * 4096 + vni
  | _ => 0
/-- A core put into a list that ascends by a key, behind its equals. -/
def putBy (f : CoreId → Nat) (c : CoreId) (l : List CoreId) : List CoreId :=
  match l with
  | [] => [c]
  | x :: r => if f c < f x then c :: x :: r else x :: putBy f c r
/-- COLLECTIVE_JOIN_REQUEST, R273, R274: the requests that reach the root in one root cycle. -/
def execCollectiveJoinRequest (cs : List CoreId) (s : State) : Out State :=
  .next ((cs.foldl (fun l c => putBy (joinKey s) c l) []).foldl joinOne s)

/-- R275: elements in one input word and in one result word. -/
def perIn (d : List W) : Nat := match dType d with
  | 0 => 4
  | 3 => 1
  | _ => 2
def perOut (d : List W) : Nat := if dType d = 3 then 1 else 2

/-- R283: the core's instance after an answer; its queues hold no word of an earlier one. The cached copy of the descriptor stays while
another core of the tile holds an instance that named its address (R205). After an answer other than JOINED or ABORTED it
is no current one: COLLQ_STATUS, CWAIT, CABORT and CSTAT read it. Where no instance answers the last one stays (R284, log 73). -/
def takeInst (s : State) (c : CoreId) (x : W) : State :=
  let st := W.bits x 16 8
  let seq := W.bits x 0 16
  match (s.core c).req with
  | some (.join d l addr keep) =>
    if x.getLsbD 63 = false then s.modCore c fun k => { k with coll := k.coll.map fun y => { y with usable := false, shown := false } }
    else
      let vni := (s.tile c.site).vni
      let i := s.inst vni (dGroup d) seq
      let rs := (i.map (·.state)).getD 0
      let ok := st == 0 || st == 5
      let y : Coll := { vni := vni, group := dGroup d, seq := seq, rank := W.bits x 24 16,
                        state := if st = 5 then 5 else if rs = 5 ∧ st ≠ 2 then 1 else rs, norerun := (i.map (·.norerun)).getD (dNorerun d),
                        usable := ok, shown := true, inWords := ceilDiv (dElems d) (perIn d), outWords := ceilDiv (dElems d) (perOut d), pushed := 0,
                        consumed := 0, delivered := 0, popped := 0, abrt := st == 5, cause := (i.map (·.cause)).getD 0,
                        causeRank := (i.map (·.causeRank)).getD 0xFFFF, descAddr := addr }
      let s := s.modCore c fun k => { k with coll := some y, inj := [], ext := [] }
      let others := kinds.any fun k => k != c.kind && ((s.core ⟨c.site, k⟩).coll.any fun y => y.usable && y.descAddr == addr)
      if !(ok && keep) && others then s
      else s.modTile c.site fun t =>
        { t with cbCache := t.cbCache.filter (·.addr != addr) ++ if ok && keep then [⟨addr, d, l⟩] else [] }
  | _ => s

/-- COLLECTIVE_JOIN_ANSWER, R283. -/
def execCollectiveJoinAnswer (c : CoreId) (s : State) : Out State :=
  let k := s.core c
  .next (match k.req, k.ans with
    | some (.join _ _ _ _), some x => answered (takeInst s c x) c (w (W.bits x 0 40))
    | _, _ => s)

/-- R205: the cached copy of a descriptor, while some core of the tile holds the instance it named as its current one. -/
def cached (t : Tile) (a : Nat) : Option CbCache :=
  if kinds.any fun k => (t.core k).coll.any fun y => y.usable && y.descAddr == a then t.cbCache.find? (·.addr == a) else none
/-- R283: the current instance is still in progress. -/
def collBusy (k : Core) : Bool :=
  k.coll.any fun y => y.usable && !(y.state == 4 || y.state == 5 || y.state == 6 || (y.state == 3 && y.norerun))

/-- R283: after the local checks, the request. -/
def beginWith (e : Enc) (d : List W) (l : List (BitVec 32)) (s : State) : Eff :=
  match localStatus s s.cur d l false with
  | 0 => ask (.cbegin e) (.join d l (s.me.g e.b).toNat true) 7 (s.modMe fun k => { k with coll := k.coll.map fun y => { y with abrt := false } })
  | n => .ok (s.modMe fun k => k.writeW e.L .g e.a (w (n * 2 ^ 16)))
/-- CBEGIN, R283. -/
def bodyCbegin (e : Enc) (s : State) : Eff :=
  if collBusy s.me then .wait 7 0 s
  else
    let a := s.me.g e.b
    match cached s.here a.toNat with
    | some x => beginWith e x.words x.members s
    | none => readDesc (.cbegin e) a false s fun d l s => beginWith e d l s
def execCbegin (e : Enc) (s : State) : Out State := issue (.cbegin e) {} (fun _ e s => bodyCbegin e s) s

/-! ### Results (R275, R277) -/

/-- R77: one element combined: a float sum rounds RNE; min and max order −0 below +0. -/
def combine (d : List W) (x y : Nat) : Nat :=
  if dType d < 2 then
    match dOp d with
    | 0 => addRne 8 x y
    | 1 => fpick 8 false x y
    | _ => fpick 8 true x y
  else
    let n := if dType d = 2 then 32 else 64
    oper (match dOp d with
      | 0 => 0
      | 1 => 5
      | 2 => 6
      | 3 => 2
      | 4 => 3
      | _ => 4) n x y
/-- R77: the fold of one value of each member in rank order: a tree over the next power of two. -/
def foldRanks (d : List W) (l : List Nat) : Nat :=
  let n := Nat.log2 (2 * l.length - 1)
  (((foldTree n (fun x y fp => (combine d x y, fp)) (l.map some ++ List.replicate (2 ^ n - l.length) none) Fp.rne).1).getD 0)
/-- R275: element j of an input word, as the tree takes it: bf16 widened to f32, a NaN to the canonical one (R56, R69). -/
def inElem (d : List W) (x : W) (j : Nat) : Nat :=
  match dType d with
  | 0 =>
    let y := W.bits x (16 * j) 16
    if 0x7F80 < y % 2 ^ 15 then 0x7FC00000 else y * 2 ^ 16
  | 3 => x.toNat
  | _ => W.bits x (32 * j) 32
/-- The result words that one input word of each member gives; `n` elements of it are real. -/
def outWordsOf (d : List W) (ws : List W) (n : Nat) : List W :=
  let els := (List.range n).map fun j => foldRanks d (ws.map fun x => inElem d x j)
  if perOut d = 1 then els.map w
  else (List.range (ceilDiv n 2)).map fun j => w (els.getD (2 * j) 0 + els.getD (2 * j + 1) 0 * 2 ^ 32)

/-- The core of a rank, where its current instance is this one. -/
def Inst.member (s : State) (x : Inst) (r : Nat) : Option CoreId :=
  (x.members[r]?).filter fun c => (s.liveCore c).coll.any fun y => instOf y x && y.usable && decide (y.state < 4)
/-- A leaf takes the next input word of a member when the tree holds none of it. -/
def consumeWord (s : State) (x : Inst) (r : Nat) : State :=
  match x.member s r with
  | none => s
  | some c =>
    match (s.liveCore c).inj with
    | [] => s
    | v :: rest =>
      if !(x.contrib.getD r []).isEmpty then s
      else
        let s := s.modLiveCore c fun k => { k with inj := rest, coll := k.coll.map fun y => { y with consumed := y.consumed + 1 } }
        s.setInst { x with contrib := x.contrib.set r [v] }
/-- R277: with a word of every member, and room in the tree for its results, the fold. FINAL with the last; under NORERUN the slot is
free then (R274). -/
def combineWords (s : State) (x : Inst) : State :=
  let done := x.results.length
  let elems := done * perOut x.desc
  let n := Nat.min (perIn x.desc) (dElems x.desc - elems)
  if x.state ≠ 2 ∨ n = 0 ∨ (x.contrib.any (·.isEmpty)) then s
  else if (List.range x.members.length).any fun r => decide (64 < done + ceilDiv n (perOut x.desc) - x.givenTo r) then s
  else
    let out := outWordsOf x.desc (x.contrib.map fun l => l.headD 0) n
    let fin := decide (dElems x.desc ≤ elems + n)
    let x := { x with results := x.results ++ out, contrib := x.contrib.map fun _ => [] }
    if fin then
      let x := { x with state := 3, slot := x.slot && !x.norerun }
      setMembers (s.setInst x) x fun y => { y with state := 3 }
    else s.setInst x
/-- R275: result words enter a member's extraction queue in order, while it has room. -/
def deliverWords (s : State) (x : Inst) (r : Nat) : State :=
  match x.member s r with
  | none => s
  | some c =>
    let room := 64 - (s.liveCore c).ext.length
    let ws := (x.results.drop (x.givenTo r)).take room
    let s := s.modLiveCore c fun k => { k with ext := k.ext ++ ws, coll := k.coll.map fun y => { y with delivered := y.delivered + ws.length } }
    s.setInst { x with given := insert x.given r (x.givenTo r + ws.length) }
/-- COLLECTIVE_RESULT, R277: the tree takes a member's next word, folds what is complete, and delivers to the member. -/
def execCollectiveResult (vni group seq rank : Nat) (s : State) : Out State :=
  .next (match s.inst vni group seq with
    | none => s
    | some x =>
      if x.state ≠ 2 ∧ x.state ≠ 3 then s
      else
        let s := consumeWord s x rank
        let s := combineWords s ((s.inst vni group seq).getD x)
        deliverWords s ((s.inst vni group seq).getD x) rank)

/-! ### Aborts (R279 to R281) -/

/-- R279: the root aborts an instance, unless it is over. -/
def rootAbort (s : State) (x : Inst) (cause rank : Nat) : State :=
  if x.ended || x.state == 5 || x.state == 6 then s
  else s.setInst { x with state := 5, cause := cause, causeRank := rank }
/-- R280: a member receives the abort; one whose instance it is not its current one only sees its STATE change. -/
def receiveAbort (s : State) (c : CoreId) (x : Inst) : State :=
  s.modLiveCore c fun k =>
    match k.coll with
    | some y =>
      if !instOf y x || y.state == 5 || y.state == 6 then k
      else if !y.usable then { k with coll := some { y with state := 5, cause := x.cause, causeRank := x.causeRank } }
      else
        { k with inj := [], ext := [],
                 coll := some { y with state := 5, abrt := true, cause := x.cause, causeRank := x.causeRank } }
    | none => k
/-- R274, R280: the abort has reached a member; with the last the slot is free. -/
def reachMember (s : State) (x : Inst) (r : Nat) : State :=
  let x := { x with aborted := if x.aborted.contains r then x.aborted else x.aborted ++ [r] }
  s.setInst { x with slot := x.slot && x.aborted.length != x.members.length }
/-- ABORT_RECEIPT, R280: not before a join answer on its way to the member. -/
def execAbortReceipt (vni group seq rank : Nat) (s : State) : Out State :=
  .next (match s.inst vni group seq with
    | none => s
    | some x =>
      match x.members[rank]? with
      | none => s
      | some c =>
        if x.state ≠ 5 ∨ (s.core c).ans.isSome then s else reachMember (receiveAbort s c x) x rank)

/-- Abort the current instance of a core whose context is saved (R279, R281, R377). -/
def preemptColl (s : State) (c : CoreId) : State :=
  match (s.core c).coll with
  | none => s
  | some y =>
    match s.insts.find? (instOf y) with
    | none => s
    | some x =>
      if !y.usable || x.ended || x.state == 6 then s
      else
        let s := rootAbort s x 2 y.rank
        match s.insts.find? (instOf y) with
        | some x => reachMember (receiveAbort s c x) x y.rank
        | none => s
/-- R279: a core's context is saved for pre-emption or migration: every instance that names it and is not over is aborted, be it one
that it has not joined. -/
def preemptAll (s : State) (c : CoreId) : State :=
  let s := preemptColl s c
  (s.insts.filter fun x => x.members.contains c).foldl (fun s x => rootAbort s x 2 (x.members.findIdx (· == c))) s

/-- CWAIT's event (R278). -/
def eventReached (y : Coll) (n : Nat) : Bool :=
  match n with
  | 0 => y.consumed == y.inWords
  | 1 => y.delivered == y.outWords
  | _ => y.state == 4 || (y.norerun && y.delivered == y.outWords)
/-- CWAIT, R284. -/
def execCwait (e : Enc) (s : State) : Out State :=
  issue (.cwait e) {} (fun _ e s =>
    let put := fun n => Eff.ok (s.modMe fun k => k.writeW e.L .g e.a (w n))
    match s.me.coll.filter fun y => y.seq == W.bits (s.me.g e.b) 0 16 with
    | none => put 2
    | some y => if eventReached y e.fc then put 0 else if y.state = 5 then put 1 else .wait 7 0 s) s
/-- CABORT, R284. -/
def execCabort (e : Enc) (s : State) : Out State :=
  issue (.cabort e) {} (fun _ e s =>
    let put := fun (s : State) n => Eff.ok (s.modMe fun k => k.writeW e.L .g e.a (w n))
    match s.me.coll.filter fun y => y.seq == W.bits (s.me.g e.b) 0 16 with
    | none => put s 2
    | some y =>
      if y.state = 5 then put (s.modMe fun k => { k with coll := some { y with abrt := false } }) 1
      else if y.state = 4 ∨ y.state = 6 ∨ (y.state = 3 ∧ y.norerun) then put s 2
      else ask (.cabort e) (.abort y.seq) 7 s) s
/-- CSTAT, R284. -/
def execCstat (e : Enc) (s : State) : Out State :=
  issue (.cstat e) {} (fun _ e s =>
    let n := W.bits (s.me.g e.b) 0 16
    let x := match s.me.coll.filter fun y => y.seq == n with
      | none => n
      | some y =>
        let ab := y.state == 5
        n + y.state * 2 ^ 16 + (if ab then y.cause else 0) * 2 ^ 20 + (if ab then y.causeRank % 2 ^ 16 else 0xFFFF) * 2 ^ 32
          + y.rank % 2 ^ 16 * 2 ^ 48
    .ok (s.modMe fun k => k.writeW e.L .g e.a (w x))) s

/-- COLLECTIVE_ABORT_REQUEST, R279: the answer is what CABORT writes. -/
def execCollectiveAbortRequest (c : CoreId) (s : State) : Out State :=
  let k := s.core c
  .next (match k.req, k.ans, k.coll with
    | some (.abort _), none, some y =>
      let ans := fun (s : State) n => s.modCore c fun k => { k with ans := some (w n) }
      match s.insts.find? (instOf y) with
      | none => ans s 2
      | some x =>
        if x.state = 5 then ans s 1
        else if x.ended || x.state == 6 then ans s 2
        else ans (rootAbort s x 3 y.rank) 0
    | _, _, _ => s)
/-- CABORT_DECISION, R284: with status 0 or 1 the member has received the abort, and ABRT is clear. -/
def execCabortDecision (c : CoreId) (s : State) : Out State :=
  let k := s.core c
  .next (match k.req, k.ans, k.coll with
    | some (.abort _), some x, some y =>
      let s := match (if x = 2 then none else s.insts.find? (instOf y)) with
        | some i => reachMember (receiveAbort s c i) i y.rank
        | none => s
      let s := if x = 2 then s else s.modCore c fun k => { k with coll := k.coll.map fun y => { y with abrt := false } }
      answered s c x
    | _, _, _ => s)

/-! ### Barriers (R285 to R287) -/

/-- Record of a barrier ID at a core; one not listed is zero. -/
def Core.bar (k : Core) (id : Nat) : Bar := (k.bars.find? (·.id == id)).getD ⟨id, 0, 0, 0, 0, []⟩
def Core.setBar (k : Core) (b : Bar) : Core := { k with bars := k.bars.filter (·.id != b.id) ++ [b] }
/-- The barrier ID of a form (R282). -/
def barId (e : Enc) : Nat := e.immHigh
def barCk (e : Enc) : Ck := { bad := decide (63 < barId e) }

/-- A generation of the region's ID. -/
def State.barGen (s : State) (vni id : Nat) (gen : BitVec 16) : Option BarGen :=
  s.barGens.find? fun b => b.vni == vni && b.id == id && b.gen == gen
/-- Two records of one generation. -/
def sameGen (x y : BarGen) : Bool := x.vni == y.vni && x.id == y.id && x.gen == y.gen

/-- An earlier generation of the same ID is outstanding. -/
def genBehind (s : State) (b : BarGen) : Bool :=
  s.barGens.any fun x => x.vni == b.vni && x.id == b.id && x.status.isNone && x.gen != b.gen && decide ((b.gen - x.gen).toNat < 2 ^ 15)
/-- A core's generation is over. -/
def Core.barOver (k : Core) (id : Nat) (gen : BitVec 16) (status rank : Nat) : Core :=
  let b := k.bar id
  if b.gens.contains gen then k.setBar { b with gens := b.gens.filter (· != gen), last := gen, status := status, rank := rank } else k
/-- The core's arrival at a generation has reached the tree. -/
def arrivedAt (k : Core) (id : Nat) (gen : BitVec 16) : Bool := !(k.barOut.any fun a => a.id == id && a.gen == gen)
/-- R286: a generation is over for every core of the region that has arrived at it. -/
def overAll (s : State) (b : BarGen) (status rank : Nat) : State :=
  let close := fun (t : Tile) => t.mapCores fun k => if arrivedAt k b.id b.gen then k.barOver b.id b.gen status rank else k
  let s := { s with
    barGens := mapIf s.barGens (sameGen b) fun x => { x with status := some status, rank := rank }
    saved := mapIf s.saved (·.vni == b.vni) fun y => { y with tile := close y.tile } }
  s.tiles.foldl (fun s z => if z.2.bound && z.2.vni == b.vni then s.modTile (siteOf z.1) close else s) s
/-- R285: generations of an ID complete in ascending order. -/
def barReady (s : State) (b : BarGen) : Bool :=
  b.status.isNone && !b.members.isEmpty && b.members.all (fun c => b.arrived.contains c) && !genBehind s b
/-- Complete what is complete; the rank of a result that is not aborted is free (R286). -/
def barSettle (fuel : Nat) (s : State) (vni id : Nat) : State :=
  match fuel with
  | 0 => s
  | n + 1 =>
    match s.barGens.find? fun b => b.vni == vni && b.id == id && barReady s b with
    | some b => barSettle n (overAll { s with fresh := s.fresh + 1 } b 0 (Config.freeRank s.fresh).toNat) vni id
    | none => s

/-- R285: the members of a barrier in rank order; one that is no tile of the region stands as a core of a site that is none of the wafer's,
which never arrives. -/
def barMembers (s : State) (vni : Nat) (d : List W) (l : List (BitVec 32)) : List CoreId :=
  let none' : Site := ⟨126, 126⟩
  if dList d then l.map fun x => ⟨((s.siteOfName vni (entName x)).filter fun t => !s.gone t).getD none', (CoreKind.ofCode (entCore x)).getD .flow⟩
  else match dRect s vni d, CoreKind.ofCode (dCore d) with
    | some r, some k => (r.rows.flatMap fun y => r.cols.map fun x => (x, y)).filterMap fun p =>
        match s.tileAtLog vni p.1 p.2 with
        | some t => some ⟨t, k⟩
        | none => if s.holeAt vni p.1 p.2 then none else some ⟨none', k⟩
    | _, _ => []
/-- The generations that are kept beside a new one of an ID: not those completed so long ago that their numbers come round again. -/
def keepGens (l : List BarGen) (vni id : Nat) (gen : BitVec 16) : List BarGen :=
  l.filter fun x => !(x.vni == vni && x.id == id && x.status.isSome && decide (2 ^ 14 ≤ (gen - x.gen).toNat ∧ (gen - x.gen).toNat < 2 ^ 15))
/-- BARRIER_ARRIVAL, R285: a core's oldest arrival on its way reaches the tree. One with an unequal descriptor or
member list (R273) counts as absent; one at a generation that is over completes at once. -/
def execBarrierArrival (c : CoreId) (s : State) : Out State :=
  .next (match (s.liveCore c).barOut with
    | [] => s
    | a :: r =>
      let vni := (s.liveTile c.site).vni
      let s := s.modLiveCore c fun k => { k with barOut := r }
      match s.barGen vni a.id a.gen with
      | none =>
        let b : BarGen := { vni := vni, id := a.id, gen := a.gen, desc := a.desc, list := a.members, members := barMembers s vni a.desc a.members,
                            arrived := [c], status := none, rank := 0 }
        barSettle 8 { s with barGens := keepGens s.barGens vni a.id a.gen ++ [b] } vni a.id
      | some b =>
        match b.status with
        | some st => s.modLiveCore c fun k => k.barOver a.id a.gen st b.rank
        | none =>
          if b.desc != a.desc || b.list != a.members then s
          else barSettle 8 { s with barGens := mapIf s.barGens (sameGen b) fun x => { x with arrived := x.arrived ++ [c] } } vni a.id)

/-- R286: the arrival of BARARR and BARSYNC: it waits for room, is a release at REGION, and takes the next generation. While a BARARR waits
only as a release its kind is 0 (R268, log 28). -/
def barArrive (i : Instr) (e : Enc) (s : State) (body : BitVec 16 → State → Eff) : Eff :=
  readDesc i (s.me.g e.b) true s fun d l s =>
    match localStatus s s.cur d l true with
    | 0 =>
      let b := s.me.bar (barId e)
      if 4 ≤ b.gens.length then .wait 7 0 s
      else if !earlierDone s s.cur 3 then .wait (match i with
        | .barsync _ => 7
        | _ => 0) 0 s
      else
        let g := b.ag
        body g (s.modMe fun k => { (k.setBar { b with ag := g + 1, gens := b.gens ++ [g] }) with
          barOut := k.barOut ++ [⟨barId e, g, d, l⟩] })
    | n => .ok (s.modMe fun k => k.writeW e.L .g e.a (w (n * 2 ^ 16)))
/-- R286: the result of a generation that is complete at the core: 2 OLD where a later one has been recorded. -/
def barWord (k : Core) (id : Nat) (g : BitVec 16) (free : Nat) : W :=
  let b := k.bar id
  if b.last = g then w (g.toNat + b.status * 2 ^ 16 + b.rank % 2 ^ 16 * 2 ^ 32)
  else w (g.toNat + 2 * 2 ^ 16 + (Config.freeRank free).toNat * 2 ^ 32)
/-- R286: write the result once the generation is complete. -/
def barWait (e : Enc) (g : BitVec 16) (s : State) : Eff :=
  if (s.me.bar (barId e)).gens.contains g then .wait 7 0 s
  else .ok ({ s with fresh := s.fresh + 1 }.modMe fun k => k.writeW e.L .g e.a (barWord k (barId e) g s.fresh))
/-- R286: a generation that the core has not arrived at. -/
def notArrived (k : Core) (id : Nat) (g : BitVec 16) : Bool := decide ((g - (k.bar id).ag).toNat < 2 ^ 15)
/-- The generation that g[b] names. -/
def genOf (x : W) : BitVec 16 := x.setWidth 16

/-- BARARR, R286. -/
def bodyBararr (e : Enc) (s : State) : Eff :=
  barArrive (.bararr e) e s fun g s => .ok (s.modMe fun k => k.writeW e.L .g e.a (w g.toNat))
def execBararr (e : Enc) (s : State) : Out State := issue (.bararr e) (barCk e) (fun _ e s => bodyBararr e s) s
/-- BARWAIT, R286. -/
def execBarwait (e : Enc) (s : State) : Out State :=
  issue (.barwait e) (barCk e) (fun _ e s =>
    let g := genOf (s.me.g e.b)
    if notArrived s.me (barId e) g then .trap 0x03 (w g.toNat) s else barWait e g s) s
/-- The mark of a BARSYNC that stands at the core's PC and has arrived. -/
def Core.arrival (k : Core) (id : Nat) : Option (BitVec 16) :=
  (k.cbank.barHeld.find? fun x => x.pc == k.pc && x.pos == k.pos && x.id == id).map (·.gen)
/-- The mark set or, with none, cleared; those of code that is over go. -/
def Core.setArrival (k : Core) (id : Nat) (g : Option (BitVec 16)) : Core :=
  k.modBank k.lev fun b => { b with
    barHeld := (b.barHeld.filter fun x => decide (x.pos.length < k.pos.length)) ++ (g.map fun g => ⟨k.pc, k.pos, id, g⟩).toList }
/-- BARSYNC, R286, R287: it arrives once, however often it executes. -/
def bodyBarsync (e : Enc) (s : State) : Eff :=
  let wait := fun g (s : State) => match barWait e g s with
    | .ok s' => .ok (s'.modMe fun k => k.setArrival (barId e) none)
    | .wait k o s' => .wait k o (s'.modMe fun k => k.setArrival (barId e) (some g))
    | x => x
  match s.me.arrival (barId e) with
  | some g => wait g s
  | none => barArrive (.barsync e) e s wait
def execBarsync (e : Enc) (s : State) : Out State := issue (.barsync e) (barCk e) (fun _ e s => bodyBarsync e s) s
/-- BARTRY, R286. -/
def execBartry (e : Enc) (s : State) : Out State :=
  issue (.bartry e) (barCk e) (fun _ e s =>
    let g := genOf (s.me.g e.b)
    if notArrived s.me (barId e) g then .trap 0x03 (w g.toNat) s
    else
      let x : W := if (s.me.bar (barId e)).gens.contains g then 0 else BitVec.allOnes 64
      .ok (s.modMe fun k => k.writeW e.L .p e.a x)) s

/-! ### Timeouts (R279, R285) -/

/-- A wait has exceeded TIMEOUT units of 256 node cycles. -/
def timedOut (d : List W) (waited : Nat) : Bool := dTimeout d != 0 && decide (256 * dTimeout d < waited)
/-- ROOT_JOIN_TIMEOUT, R279: the lowest rank not joined is named. A `group` of 65536 + id stands for generation `seq` of a barrier ID
(R285), whose lowest absent rank is named. -/
def execRootJoinTimeout (vni group seq waited : Nat) (s : State) : Out State :=
  .next (if 65536 ≤ group then
    match s.barGen vni (group - 65536) (BitVec.ofNat 16 seq) with
    | some b =>
      if b.status.isSome || !timedOut b.desc waited || genBehind s b then s
      else barSettle 8 (overAll s b 1 (b.members.findIdx fun c => !b.arrived.contains c)) vni (group - 65536)
    | none => s
  else match s.inst vni group seq with
    | some x =>
      if x.state ≠ 1 ∨ !timedOut x.desc waited then s
      else rootAbort s x 1 (((List.range x.members.length).find? fun r => !x.joined.contains r).getD 0)
    | none => s)
/-- The leaf of a rank has its contribution to the word in hand: in the tree, or pushed at the member (R279, R417). -/
def Inst.sent (s : State) (x : Inst) (r : Nat) : Bool :=
  !(x.contrib.getD r []).isEmpty || (x.member s r).any fun c => !(s.liveCore c).inj.isEmpty
/-- NODE_TIMEOUT, R279: a node holds one member's contribution and waits for another's. -/
def execNodeTimeout (vni group seq waited : Nat) (s : State) : Out State :=
  .next (match s.inst vni group seq with
    | some x =>
      if x.state ≠ 2 ∨ !timedOut x.desc waited ∨ x.contrib.all (·.isEmpty) then s
      else match (List.range x.members.length).find? fun r => !x.sent s r with
        | some r => rootAbort s x 1 r
        | none => s
    | none => s)

end Sys2Proof.Machine
end

