-- ==== Sys2Proof/Machine/Handlers.lean ====
section
/-! DEFINITION. The forms that end an activation, masked windows, and join counters (R248 to R254). -/

namespace Sys2Proof.Machine

/-- The send buffer of the running bank is committed and the masked window and PRIV.RESUMABLE are closed (R248). -/
def closeOut (s : State) : State :=
  let hi := s.me.lev
  (commit s s.cur hi).modMe fun k => { k.modAct (fun a => { a with resumable := false }) with mask := none }
/-- The commit of a bank has gone through. -/
def committed (s : State) : Bool := s.me.cbank.sends.isEmpty

/-- A packet that its sender's HALT waits for: none of a reply, which its tile's interface sends, nor of the access that a form itself
makes through a cluster window. -/
def owned (p : Pkt) : Bool := !isReply p.body && p.body != .cluster
/-- R178, R248: HALT waits until the vector queue is empty, open CXs and commands have retired, results have arrived, every packet is
acknowledged, and the operations handed to a bank have been performed. -/
def quietCore (s : State) (c : CoreId) : Bool :=
  (s.core c).vq.isEmpty && (s.core c).outst.isEmpty && (c.kind != .math || (s.tile c.site).mwin.isEmpty)
    && !(s.pkts.any fun p => p.src == c && owned p) && ((s.core c).resv.all fun x => s.pkts.any fun p => p.id == x.1 && p.body == .cluster) && !s.owes c

/-- R193, R248: the freeing of a record waits for the core's bank operations at its tile; not for vector results. -/
def mayFree (s : State) : Bool := freeReady s s.cur

/-- R248: end the running activation once its sends are committed. -/
def ending (s : State) (body : State → Eff) : Eff :=
  let s := closeOut s
  if !committed s then .wait 10 0 s
  else if !mayFree s then .wait 0 0 s
  else body s

/-- The message record of the running activation in its ring, with its bytes and poisoned words as they now stand. -/
def heldRecord (s : State) : Option (Act × List Byte × List Nat) :=
  match s.me.act with
  | some a =>
    if a.noMsg || a.recLen == 0 then none
    else match s.me.headRec a.chan with
      | some r =>
        let x := ringAddr (s.me.ring a.chan) r.at_ + 16
        some (a, Mem.bytes s.here.mem x r.len, s.here.badWords x r.len)
      | none => none
  | none => none

/-- R248: write a record that has been freed at the tail of its ring as a new message of this core; one that does not fit is a bounced
packet. None where the bounce area has no room for it. -/
def requeue (s : State) (a : Act) (payload : List Byte) (bad : List Nat) : Option State :=
  let c := s.cur
  let body : Body := .message a.desc payload bad
  let hi := s.me.lev
  let p : Pkt := { id := s.nextPkt, vni := s.here.vni, vc := if hi then 5 else 0, src := c, name := s.here.name, to_ := .tile,
                   dst := c.site, at_ := c.site, arr := 0, kind := c.kind, chan := a.chan, hops := 0, stall := 0, reinj := 0,
                   backoff := 64, fwd := false, state := 0, since := 0, landed := false, no := 0, before := [], body := body }
  let older := s.pkts.any fun q => sameFlow q p && decide (q.state < 2)
  match takeMessage s.here p a.desc payload bad older with
  | (.accept, t) => some (s.setTile c.site t)
  | (.unreachable, t) => some ((s.setTile c.site t).modCore c fun k => k.recordAsync 0x16 (unreachDetail p.name c.kind a.chan))
  | (.bounce, t) =>
    let size := reserveSize body
    if s.me.reserved + size > 65536 then none
    else
      let s' := ({ s with nextPkt := s.nextPkt + 1, pkts := s.pkts ++ [p] }.setTile c.site t).modCore c fun k => k.reserve p.id size
      some (bounce s' p)

/-- DONE, R248. -/
def execDone (e : Enc) (s : State) : Out State :=
  issue (.done e) {} (fun _ _ s =>
    ending s fun s => .over (endAct (freeRecord s s.cur s.me.lev) s.cur s.me.lev)) s

/-- HRET, R248, R251: HPCOUNT becomes HP_LIMIT. -/
def execHret (e : Enc) (s : State) : Out State :=
  issue (.hret e) {} (fun _ _ s =>
    if !s.me.lev then .trap 0x03 0 s
    else ending s fun s =>
      let s' := endAct (freeRecord s s.cur true) s.cur true
      .over (s'.modMe fun k => { k with hpCount := k.ctl.hpLimit.toNat % 256 })) s

/-- HALT, R248, R249. -/
def execHalt (e : Enc) (s : State) : Out State :=
  issue (.halt e) {} (fun _ e s =>
    if s.me.lev then .trap 0x03 0 s
    else ending s fun s =>
      let s := freeRecord s s.cur false
      if !quietCore s s.cur then .wait 0 0 s
      else .over (haltCore (endAct s s.cur false) s.cur (W.bits (s.me.g e.b) 0 32))) s

/-- REQUEUE, R248: the record goes to the tail of its ring with its descriptor. -/
def execRequeue (e : Enc) (s : State) : Out State :=
  issue (.requeue e) {} (fun _ _ s =>
    ending s fun s =>
      let hi := s.me.lev
      match heldRecord s with
      | none => .over (endAct s s.cur hi)
      | some (a, payload, bad) =>
        match requeue (s.modMe fun k => k.freeHead a.chan) a payload bad with
        | some s' => .over (endAct (ringFreed s' s.cur a.chan) s.cur hi)
        | none => .wait 10 0 s) s

/-! ### Masked windows (R252) -/

/-- HMASK. -/
def execHmask (e : Enc) (s : State) : Out State :=
  issue (.hmask e) {} (fun _ _ s =>
    if s.me.lev || s.me.mask.isSome then .ok s else .ok (s.modMe fun k => { k with mask := some 0 })) s
/-- HUNMASK. -/
def execHunmask (e : Enc) (s : State) : Out State :=
  issue (.hunmask e) {} (fun _ _ s => if s.me.lev then .ok s else .ok (s.modMe fun k => { k with mask := none })) s

/-! ### Joins (R254) -/

/-- A join word with nonzero bits [7:6]. -/
def badJoin (x : Nat) : Bool := bits x 6 2 != 0
/-- The word of JOINSET. -/
def joinWord (e : Enc) (k : Core) : Nat := if e.imms.isEmpty then (k.g e.c).toNat else e.immHigh
/-- JOINSET: it takes effect at issue. -/
def execJoinset (e : Enc) (s : State) : Out State :=
  issue (.joinset e) { bad := !e.imms.isEmpty && badJoin e.immHigh } (fun _ e s =>
    let k := s.me
    let wd := joinWord e k
    let n := W.bits (k.g e.b) 0 32
    if badJoin wd then .trap 0x03 0 s
    else .ok (s.modMe fun k =>
      let old := vget k.joins e.fa
      { k with joins := vset k.joins e.fa (if n = 0 then { old with armed := false } else ⟨true, BitVec.ofNat 32 n, w wd⟩) })) s

/-- The amount of JOINARR. -/
def joinAmount (e : Enc) (k : Core) : Nat :=
  if !e.imms.isEmpty then e.immHigh else if e.b != 0 then W.bits (k.g e.b) 0 32 else 1
/-- JOINARR: an entry of the send buffer. -/
def execJoinarr (e : Enc) (s : State) : Out State :=
  issue (.joinarr e) {} (fun _ e s =>
    match bufferSend s s.cur none (.join e.fa (joinAmount e s.me)) with
    | .inl s' => .ok s'
    | .inr s' => .wait 10 0 s') s

end Sys2Proof.Machine
end

