-- ==== Sys2Proof/Machine/Context.lean ====
section
/-! DEFINITION. The trap instructions, returns from traps, context images, and claiming the matrix unit (R370 to R381, R386). -/

namespace Sys2Proof.Machine

/-! ### BRK, TRAP, ECALL (R371, R372, R374) -/

/-- BRK, R372. -/
def execBrk (e : Enc) (s : State) : Out State := issue (.brk e) {} (fun _ _ s => .trapNext 0x1A 0 s) s
/-- TRAP, R372. -/
def execTrap (e : Enc) (s : State) : Out State :=
  issue (.trap e) {} (fun _ e s => .trapNext 0x1B (if e.imms.isEmpty then s.me.g e.b else w e.immHigh) s) s
/-- R364, R374: ECALL is delegated to the tile supervisor handler. -/
def Core.delegates (c : Core) (cause : Nat) : Bool :=
  c.ctl.trapDeleg.getLsbD cause && c.ctl.trapVec.toNat % 2 ^ 22 / 2 * 2 != 0 && !c.active
/-- ECALL, R374. -/
def execEcall (e : Enc) (s : State) : Out State :=
  issue (.ecall e) {} (fun _ e s =>
    let n := e.immHigh
    if s.me.delegates 0x1C && !s.me.sup then .trapNext 0x1C (w n) s
    else ask (.ecall e) (.ecall n (s.me.g e.b)) 11 s) s

/-! ### SRET and OVLRET (R370, R373) -/

/-- TRAP_CAUSE with ACTIVE cleared. -/
def Ctl.inactive (r : Ctl) : Ctl := { r with trapCause := setBits r.trapCause 8 1 0 }
/-- R373, RESUME: the interrupted code goes on at TRAP_PC, at its own level and with its own watchdog count; with none, the core reaches
a dispatch point (R367). -/
def resumeAct (s : State) (c : CoreId) : State :=
  let k := s.core c
  let cause := k.ctl.trapCause
  let pc := w (k.ctl.trapPc.toNat % 2 ^ 22 / 2 * 2)
  let s := s.modCtl c Ctl.inactive
  if k.act.all fun a => a.noMsg && decide (a.pos.length ≤ 1) then endAct s c false
  else s.modCore c fun k => { k.modAct fun a => { a.leave pc with sup := cause.getLsbD 11, cycles := a.saved } with restore := none }.unblock
/-- R365, R373: an activation interrupted by a resumable cause is aborted; the handler's own sends stay. -/
def abortUnder (s : State) : State :=
  let hi := s.me.lev
  let own := s.me.cbank.sends.drop ((s.me.act.map (·.sends0)).getD 0)
  (abortAct s s.cur hi).modMe fun k => k.modBank hi fun b =>
    { b with sends := own, act := b.act.map fun a => { a with sends0 := 0 } }
/-- R373: what every SRET checks. -/
def sretBad (k : Core) (resume : Bool) : Bool := !k.active || (resume && !k.ctl.trapCause.getLsbD 7)
/-- R373: REDELIVER, DROP and HALT, up to the end of the activation. -/
def sretEnd (drop : Bool) (s : State) (body : State → Eff) : Eff :=
  if sretBad s.me false then .trap 0x03 0 s
  else if s.me.ctl.trapCause.getLsbD 7 && mustDrain s s.cur then .wait 0 0 s
  else
    let s := if s.me.ctl.trapCause.getLsbD 7 then abortUnder s else s
    let s := commit s s.cur s.me.lev
    if !committed s then .wait 10 0 s
    else if drop && !mayFree s then .wait 0 0 s
    else body (if drop then freeRecord s s.cur s.me.lev else s)
/-- The handler and its activation are over. -/
def endHandler (s : State) : State := endAct (s.modCtl s.cur Ctl.inactive) s.cur s.me.lev

/-- SRET RESUME, R373. -/
def execSretResume (e : Enc) (s : State) : Out State :=
  issue (.sretResume e) {} (fun _ _ s => if sretBad s.me true then .trap 0x03 0 s else .over (resumeAct s s.cur)) s
/-- SRET REDELIVER, R373. -/
def execSretRedeliver (e : Enc) (s : State) : Out State :=
  issue (.sretRedeliver e) {} (fun _ _ s => sretEnd false s fun s => .over (endHandler s)) s
/-- SRET DROP, R373. -/
def execSretDrop (e : Enc) (s : State) : Out State :=
  issue (.sretDrop e) {} (fun _ _ s => sretEnd true s fun s => .over (endHandler s)) s
/-- SRET HALT, R373. -/
def execSretHalt (e : Enc) (s : State) : Out State :=
  issue (.sretHalt e) {} (fun _ e s =>
    sretEnd true s fun s =>
      if !quietCore s s.cur then .wait 0 0 s
      else .over (haltCore (endHandler s) s.cur (W.bits (s.me.g e.b) 0 32 ||| 0x80000000))) s

/-- OVLRET, R370: the interrupted code goes on at the bank's resume PC, with IFENCE; it counts against a masked window (R252). -/
def execOvlret (e : Enc) (s : State) : Out State :=
  issue (.ovlret e) {} (fun _ _ s =>
    let k := s.me
    if !k.resumable || k.active then .trap 0x03 0 s
    else fetchFresh s fun s => .over (s.modMe fun k =>
      { k.modAct fun a => { a.leave k.cbank.resume with resumable := false } with
        mask := k.mask.map (· + 1), restore := none }.unblock)) s

/-- XBOUND, R379: both bounds as one change, and IFENCE. -/
def execXbound (e : Enc) (s : State) : Out State :=
  issue (.xbound e) {} (fun _ e s =>
    let lo := s.me.g e.b
    let hi := s.me.g e.c
    let bad := fun (x : W) => x.toNat % 64 != 0 || decide (0x002C0000 < x.toNat)
    if bad lo || bad hi || ringsOverlap s.here lo.toNat hi.toNat then .trap 0x03 0 s
    else fetchFresh s fun s => .ok (s.modCtl s.cur fun r => { r with codeBase := lo, xbound := hi })) s
/-- MIGR, R386. -/
def execMigr (e : Enc) (s : State) : Out State := issue (.migr e) {} (fun _ e s => ask (.migr e) .migr 0 s) s

/-! ### Context images (R376 to R378) -/

/-- A bank's g and p registers as an image holds them. -/
def Bank.gWords (b : Bank) : List W := (List.range 32).map fun n => if n = 0 then 0 else vget b.g n
def Bank.pWords (b : Bank) : List W := (List.range 8).map fun n => if n = 0 then BitVec.allOnes 64 else vget b.p n
/-- A port, a stream binding, a slot entry, a join counter and a barrier record as an image holds them. -/
def Port.words (p : Port) : List W :=
  [p.cap.setWidth 64, (p.cap >>> 64).setWidth 64, w (p.word.toNat + b01 p.bound * 2 ^ 8), w p.read]
def Stream.word (x : Stream) : W := w (x.chan.getD 0 + b01 x.chan.isSome * 2 ^ 8 + x.popped % 2 ^ 16 * 2 ^ 16)
def Slot.word (x : Slot) : W := w (b01 x.bound + (if x.bound then x.addr % 2 ^ 32 * 2 ^ 32 else 0))
def Join.words (x : Join) : List W := [w (x.count.toNat + b01 x.armed * 2 ^ 32), x.word]
def Bar.word (b : Bar) : W := w (b.ag.toNat + b.last.toNat * 2 ^ 16 + b.status % 2 ^ 8 * 2 ^ 32 + b.rank % 2 ^ 16 * 2 ^ 40)
/-- The control registers of an image, in its order. -/
def Ctl.words (r : Ctl) : List W :=
  [r.fpMode, r.fpFlags, r.seed, r.codeBase, r.xbound, r.rowinLo, r.rowinHi, r.trapVec, r.trapDeleg, r.ovlVec, r.loaderVec,
   r.trapScratch, r.wdogBudget, r.hpLimit, r.varbWeight, r.maskLimit]
/-- Words padded with zeros to a length. -/
def padTo (l : List W) (n : Nat) : List W := (l ++ List.replicate (n - l.length) 0).take n
/-- The 16 bytes of a capability as two words. -/
def capWordsOf (c : Cap) : List W := [c.setWidth 64, (c >>> 64).setWidth 64]

/-- R376: the 704 words of a core's context image. -/
def contextWords (t : Tile) (kind : CoreKind) : List W :=
  let k := t.core kind
  let coll := match k.coll.filter (·.usable) with
    | some y => w (y.rank % 2 ^ 16 + (if y.state = 5 then y.cause else 0) * 2 ^ 16 + (if y.state = 5 then y.causeRank % 2 ^ 16 else 0) * 2 ^ 32)
    | none => 0
  padTo [w (0x4358 + kind.code * 2 ^ 16 + 2 ^ 20), 0x1600] 8 ++ k.lo.gWords ++ k.hi.gWords ++ k.lo.pWords ++ k.hi.pWords
    ++ [k.lo.lat, k.lo.ovlAddr, k.lo.resume, 0, k.hi.lat, k.hi.ovlAddr, k.hi.resume, 0] ++ k.ctl.words
    ++ padTo [w k.msgid.toNat, w k.fixHp.hpCount, w (k.hstatus.toNat + b01 k.haltReq * 2 ^ 32 + b01 k.halted * 2 ^ 33),
              w (b01 (kind == .math && t.claimed))] 8
    ++ padTo (if kind = .flow then k.ctl.engctx.toList else []) 8
    ++ k.v.toList.flatMap (fun x => (List.range 8).map fun i => x.extractLsb' (64 * i) 64)
    ++ k.c.toList.flatMap capWordsOf ++ k.q.toList.flatMap Port.words ++ k.streams.toList.map Stream.word ++ k.slots.toList.map Slot.word
    ++ k.joins.toList.flatMap Join.words ++ padTo [collWord k, coll] 4 ++ List.replicate 40 0 ++ padTo k.inj 64 ++ padTo k.ext 64
    ++ (List.range 64).map (fun n => (k.bar n).word) ++ k.ctl.task.toList ++ k.ctl.ring.toList

/-- The word of an image that a poisoned register word stands at (R398). -/
def poisonWord (p : RegPoison) : Option Nat :=
  match p.file with
  | .g => some ((if p.hi then 40 else 8) + p.num)
  | .p => some ((if p.hi then 80 else 72) + p.num)
  | .v => some (128 + 8 * p.num + p.lane)
  | .c => some (256 + 2 * p.num + p.lane)
  | .q => some (288 + 4 * p.num + p.lane)
  | _ => none
/-- Inverse of `poisonWord`. -/
def poisonAt (n : Nat) (d : W) : Option RegPoison :=
  if 8 ≤ n ∧ n < 40 then some ⟨.g, false, n - 8, 0, d⟩
  else if 40 ≤ n ∧ n < 72 then some ⟨.g, true, n - 40, 0, d⟩
  else if 72 ≤ n ∧ n < 80 then some ⟨.p, false, n - 72, 0, d⟩
  else if 80 ≤ n ∧ n < 88 then some ⟨.p, true, n - 80, 0, d⟩
  else if 128 ≤ n ∧ n < 256 then some ⟨.v, false, (n - 128) / 8, (n - 128) % 8, d⟩
  else if 256 ≤ n ∧ n < 288 then some ⟨.c, false, (n - 256) / 2, (n - 256) % 2, d⟩
  else if 288 ≤ n ∧ n < 304 ∧ (n - 288) % 4 < 2 then some ⟨.q, false, (n - 288) / 4, (n - 288) % 4, d⟩
  else none

/-- The records that a loaded ring register describes, read from the ring's descriptors. -/
def parseRecs (fuel : Nat) (t : Tile) (chan : Nat) (r : W) (i used : Nat) : List Rec :=
  match fuel with
  | 0 => []
  | n + 1 =>
    if used = 0 then []
    else
      let len := W.bits (t.word (ringAddr r i)) 0 12
      let pad := len == 0xFFF
      let g := Nat.max 1 (Nat.min used (if pad then ringGran r - i % ringGran r else ceilDiv (16 + len) 64))
      ⟨chan, i % 65536, g, pad, if pad then 0 else len, 0, false⟩ :: parseRecs n t chan r (i + g) (used - g)
/-- The records of every enabled ring. -/
def parseRings (t : Tile) (rings : List W) : List Rec :=
  ((List.range 64).zip rings).flatMap fun (n, r) =>
    if ringEn r then parseRecs (ringUsed r) t n r (ringCons r) (ringUsed r) else []

/-- A bank loaded from an image, with no activation; none has started since (R100). -/
def loadBank (g p x : List W) : Bank :=
  { g := Vector.ofFn fun i => g.getD i.val 0, p := Vector.ofFn fun i => p.getD i.val 0, lat := keep (x.getD 0 0) 0 47, ovlAddr := x.getD 1 0,
    resume := x.getD 2 0, sends := [], partialMark := false, spill := false, barHeld := [], act := none }
/-- R378: the control registers loaded, each with only the bits it holds. -/
def loadCtl (old : Ctl) (l eng task ring : List W) : Ctl :=
  { old with
    fpMode := keep (l.getD 0 0) 0 4, fpFlags := keep (l.getD 1 0) 0 5, seed := keep (l.getD 2 0) 0 32, codeBase := boundOf (l.getD 3 0)
    xbound := boundOf (l.getD 4 0), rowinLo := boundOf (l.getD 5 0), rowinHi := boundOf (l.getD 6 0), trapVec := keep (l.getD 7 0) 1 21
    trapDeleg := keep (l.getD 8 0) 1 29, ovlVec := keep (l.getD 9 0) 1 21, loaderVec := keep (l.getD 10 0) 1 21
    trapScratch := l.getD 11 0, wdogBudget := keep (l.getD 12 0) 0 32, hpLimit := keep (l.getD 13 0) 0 8
    varbWeight := keep (l.getD 14 0) 0 4, maskLimit := keep (l.getD 15 0) 0 16, engctx := Vector.ofFn fun i =>
      let x : W := eng.getD i.val 0
      engctxValue x (W.bits x 22 12) (W.bits x 63 1)
    task := Vector.ofFn fun i => taskValue (task.getD i.val 0), ring := Vector.ofFn fun i => ringFields (ring.getD i.val 0) }

/-- R376, R378: the current instance that COLLQ_STATUS and the word after it name. -/
def loadColl (s : State) (c : CoreId) (st x : W) (ext : Nat) : Option Coll :=
  let state := W.bits st 32 3
  if state = 0 then none
  else
    let seq := W.bits st 16 16
    let rank := W.bits x 0 16
    let vni := (s.tile c.site).vni
    let i := s.insts.find? fun i => i.vni == vni && i.seq.toNat == seq && i.members[rank]? == some c
    let group := (i.map (·.group)).getD 0
    let given := (i.map fun i => i.givenTo rank).getD ext
    let nin := (i.map fun i => ceilDiv (dElems i.desc) (perIn i.desc)).getD 0
    let nout := (i.map fun i => ceilDiv (dElems i.desc) (perOut i.desc)).getD given
    some { vni := vni, group := group, seq := seq, rank := rank, state := state, norerun := st.getLsbD 38, usable := true, shown := true,
           inWords := if st.getLsbD 35 then nin else nin + 1, outWords := if st.getLsbD 36 then given else Nat.max nout (given + 1),
           pushed := nin, consumed := nin, delivered := given, popped := given - ext, abrt := st.getLsbD 37, cause := W.bits x 16 4,
           causeRank := W.bits x 32 16, descAddr := 2 ^ 64 }

/-- R378: a core with the context of an image; a record that an ingest engine wrote and that the loaded ring still holds keeps its mark (R312); `bad` lists its poisoned words with what their consumer's trap carries. -/
def loadContext (s : State) (c : CoreId) (l : List W) (bad : List (Nat × W)) : State :=
  let at_ := fun (o n : Nat) => (l.drop (o / 8)).take n
  let st := s.core c
  let word := fun (o : Nat) => l.getD (o / 8) 0
  let inj := (at_ 0xC00 64).take (W.bits (word 0xAA0) 0 7)
  let ext := (at_ 0xE00 64).take (W.bits (word 0xAA0) 8 7)
  let rings := (at_ 0x1400 64).map ringFields
  let k : Core := { st with
    lo := loadBank (at_ 0x40 32) (at_ 0x240 8) (at_ 0x2C0 4), hi := loadBank (at_ 0x140 32) (at_ 0x280 8) (at_ 0x2E0 4)
    v := Vector.ofFn fun i => BitVec.ofNat 512 (leNat ((at_ (0x400 + 64 * i.val) 8).flatMap fun (x : W) => leBytes 8 x.toNat))
    c := Vector.ofFn fun i => word (0x808 + 16 * i.val) ++ word (0x800 + 16 * i.val)
    q := Vector.ofFn fun i =>
      let o := 0x900 + 32 * i.val
      ⟨(word (o + 16)).getLsbD 8, (word (o + 16)).setWidth 8, word (o + 8) ++ word o, (word (o + 24)).toNat⟩
    streams := Vector.ofFn fun i =>
      let x := word (0x980 + 8 * i.val)
      ⟨if x.getLsbD 8 then some (W.bits x 0 6) else none, W.bits x 16 16⟩
    slots := Vector.ofFn fun i =>
      let x := word (0x9A0 + 8 * i.val)
      ⟨x.getLsbD 0, W.bits x 32 32, false, 0⟩
    joins := Vector.ofFn fun i =>
      let x := word (0xA20 + 16 * i.val)
      ⟨x.getLsbD 32, x.setWidth 32, word (0xA28 + 16 * i.val)⟩
    ctl := loadCtl st.ctl (at_ 0x300 16) (if c.kind = .flow then at_ 0x3C0 4 else []) (at_ 0x1200 64) rings
    msgid := (word 0x380).setWidth 16, hpCount := (word 0x388).toNat, hstatus := (word 0x390).setWidth 32
    haltReq := (word 0x390).getLsbD 32, halted := (word 0x390).getLsbD 33
    inj := inj, ext := ext, coll := loadColl s c (word 0xAA0) (word 0xAA8) ext.length
    bars := (List.range 64).map fun n =>
      let x := word (0x1000 + 8 * n)
      let gens := (s.barGens.filter fun b => b.vni == (s.tile c.site).vni && b.id == n && b.status.isNone && b.arrived.contains c).map (·.gen)
      ⟨n, x.setWidth 16, (x >>> 16).setWidth 16, W.bits x 32 8, W.bits x 40 16, gens⟩
    recs := (parseRings (s.tile c.site) rings).map fun r => { r with eng := st.recs.any fun y => y.eng && y.chan == r.chan && y.at_ == r.at_ }
    regPoison := bad.filterMap fun b => poisonAt b.1 b.2
    pend := [], outst := [], mask := none, lowSusp := false, pin := none, restore := none }
  (s.setCore c (if k.halted then k.block 2 0 0xFFFF else k.block 1 0 0xFFFF)).modTile c.site fun t =>
    { t with claimed := if c.kind = .math then (word 0x398).getLsbD 0 else t.claimed
             mdep := if c.kind = .math then [] else t.mdep }

/-- R377: the places of an image's words at g[b], with the checks of R171. -/
def imagePlaces (s : State) (write : Bool) (a : W) : Except (Nat × W) (List Loc) :=
  if a.toNat % 64 ≠ 0 then .error (0x09, a) else places s s.cur ⟨write, false⟩ (wordAddrs a 704)
/-- R377: what CTXSAVE and the switches of R383 wait for. -/
def resultsDone (k : Core) : Bool := k.vq.isEmpty && k.outst.isEmpty
/-- Store bytes and their poisoned words at a place. -/
def storeAt (s : State) (c : CoreId) (p : Loc) (bs : List Byte) (bad : List Nat) : State :=
  match whereIs s c p with
  | some (t, o) => s.modTile t fun x => x.storePoison o bs bad
  | none => s
/-- CTXSAVE, R377. -/
def bodyCtxsave (e : Enc) (s : State) : Eff :=
  match imagePlaces s true (s.me.g e.b) with
  | .error (c, d) => .trap c d s
  | .ok ps =>
    if s.me.lowSusp then .trap 0x03 0 s
    else if !resultsDone s.me then .wait 0 0 s
    else atPlaces (.ctxsave e) 8 ps s fun s =>
      let s := (preemptColl s s.cur).modMe fun k => k.settleV (some k.pos)
      let k := s.me
      .ok (storeAt s s.cur (ps.headD .inj) ((contextWords s.here s.cur.kind).flatMap fun (x : W) => leBytes 8 x.toNat)
        (k.regPoison.filterMap poisonWord))
def execCtxsave (e : Enc) (s : State) : Out State := issue (.ctxsave e) {} (fun _ e s => bodyCtxsave e s) s

/-- R378: the magic, version and kind of an image. -/
def imageBad (kind : CoreKind) (x : W) : Bool := W.bits x 0 24 != 0x104358 + kind.code * 2 ^ 16
/-- CTXLOAD, R378. -/
def bodyCtxload (e : Enc) (s : State) : Eff :=
  let a := s.me.g e.b
  match imagePlaces s false a with
  | .error (c, d) => .trap c d s
  | .ok ps =>
    atPlaces (.ctxload e) 8 ps s fun s =>
      let rd := ps.map fun p => readPlace s s.cur p 8
      let ws := rd.map fun x => w x.1
      let bad := ((List.range 704).zip rd).filterMap fun (j, x) => if x.2 then some (j, a + w (8 * j)) else none
      if (lookup bad 0).isSome then .trap 0x19 a s
      else if imageBad s.cur.kind (ws.headD 0) then .trap 0x03 (ws.headD 0) s
      else ending s fun s =>
        let hi := s.me.lev
        let s := freeRecord s s.cur hi
        if !quietCore s s.cur || !resultsDone s.me then .wait 0 0 s
        else
          let s := if s.cur.kind = .math then chainLeave s s.cur.site else s
          let s := endAct (preemptColl s s.cur) s.cur hi
          .over (xonSweep (loadContext (s.modMe fun k => { k with wait := none }) s.cur ws bad))
def execCtxload (e : Enc) (s : State) : Out State := issue (.ctxload e) {} (fun _ e s => bodyCtxload e s) s

/-! ### The matrix area (R380, R381) -/

/-- The listed bytes of a range, numbered from its start. -/
def Mem.slice (m : Mem) (a n : Nat) : Mem := (m.filter fun c => decide (a ≤ c.1 ∧ c.1 < a + n)).map fun c => (c.1 - a, c.2)
/-- A range replaced by listed bytes numbered from its start. -/
def Mem.splice (m : Mem) (a n : Nat) (p : Mem) : Mem :=
  (m.filter fun c => decide (c.1 < a)) ++ ((p.filter fun c => decide (c.1 < n)).map fun c => (a + c.1, c.2))
    ++ m.filter fun c => decide (a + n ≤ c.1)

/-- The planes of a matrix area: plane, offset, bytes. -/
def areaPlanes : List (Nat × Nat × Nat) := [(0, 0x100, 0x6000), (1, 0x6100, 0x1800), (2, 0x7900, 0x6000), (3, 0xD900, 0x18000)]
/-- The first 0x100 bytes of a matrix area. -/
def areaHead (t : Tile) : List W :=
  padTo [0x4D41] 8 ++ t.mcfg.toList ++ padTo [w t.lastId, w (t.mdep.getD 0 0), w (t.mdep.getD 1 0)] 16
/-- R381: store the matrix state of tile `m` at a byte of a tile; poisoned words go with their poison. -/
def storeArea (x m : Tile) (a : Nat) : Tile :=
  let mem := areaPlanes.foldl (fun y p => Mem.splice y (a + p.2.1) p.2.2 (planeMem m p.1)) x.mem
  let bad := areaPlanes.flatMap fun p => (m.mpoison.filter (·.1 == p.1)).map fun y => (a + p.2.1 + y.2.1) / 8 * 8
  let x := (x.setMem a 0x25900 mem).store a ((areaHead m).flatMap fun (y : W) => leBytes 8 y.toNat)
  x.poisonAt bad.eraseDups
/-- R381: load matrix state from a byte of tile `x` into tile `m`. -/
def loadArea (x m : Tile) (a : Nat) : Tile :=
  let m := areaPlanes.foldl (fun m p => setPlane m p.1 (Mem.slice x.mem (a + p.2.1) p.2.2)) m
  let bad := areaPlanes.flatMap fun p => (x.poison.filter fun y => decide (a + p.2.1 ≤ y ∧ y < a + p.2.1 + p.2.2)).flatMap fun y =>
    (List.range 8).map fun i => (p.1, y - (a + p.2.1) + i, w y)
  { m with mcfg := Vector.ofFn fun i => keep (x.word (a + 0x40 + 8 * i.val)) 0 23, lastId := (x.word (a + 0x80)).toNat,
           mdep := [(x.word (a + 0x88)).toNat, (x.word (a + 0x90)).toNat].filter (· != 0), mpoison := bad }

/-- R381: the address of MCLAIM and MRELEASE. -/
def areaAddr (e : Enc) (k : Core) : W := k.g e.b + BitVec.ofInt 64 (e.immS .rr * 64)
/-- R381: the words of an area with the checks of R171; its address is a multiple of 64 (R380). -/
def areaPlaces (s : State) (write : Bool) (a : W) : Except (Nat × W) (List Loc) :=
  if a.toNat % 64 ≠ 0 then .error (0x09, a) else places s s.cur ⟨write, false⟩ (wordAddrs a (0x25900 / 8))
/-- The results of retired commands whose windows have closed are written. -/
def settled (t : Tile) : Tile := mSettleAll t
where
  /-- A held result is written when no window holds it. -/
  mSettleAll (t : Tile) : Tile :=
    t.mpend.foldl (fun t x =>
      if winOpen (t.math.posOf false) x.depth x.expiry then t
      else
        let m := x.bytes.foldl (fun m b => Mem.put m b.1 b.2) (planeMem t x.plane)
        { (setPlane t x.plane m) with
          mpend := t.mpend.filter (· != x)
          mpoison := (t.mpoison.filter fun y => !(y.1 == x.plane && x.bytes.any fun b => b.1 == y.2.1)) ++ x.poison.map fun y => (x.plane, y) }) t
/-- MCLAIM, R381. -/
def bodyMclaim (e : Enc) (s : State) : Eff :=
  if s.here.claimed then .trap 0x03 0 s
  else match areaPlaces s true (areaAddr e s.me) with
    | .error (c, d) => .trap c d s
    | .ok ps =>
      if !s.here.mwin.isEmpty then .wait 0 0 s
      else atPlaces (.mclaim e) 8 ps s fun s =>
        let s := (chainLeave s s.cur.site).modHere settled
        match whereIs s s.cur (ps.headD .inj) with
        | some (t, o) =>
          let m := s.here
          .ok ((s.modTile t fun x => storeArea x m o).modHere fun x => { x with claimed := true })
        | none => .wait 10 0 s
def execMclaim (e : Enc) (s : State) : Out State := issue (.mclaim e) {} (fun _ e s => bodyMclaim e s) s
/-- MRELEASE, R381. -/
def bodyMrelease (e : Enc) (s : State) : Eff :=
  match areaPlaces s false (areaAddr e s.me) with
  | .error (c, d) => .trap c d s
  | .ok ps =>
    atPlaces (.mrelease e) 8 ps s fun s =>
      match whereIs s s.cur (ps.headD .inj) with
      | none => .wait 10 0 s
      | some (t, o) =>
        let x := s.tile t
        let h := x.word o
        if x.bad o then .trap 0x19 (areaAddr e s.me) s
        else if W.bits h 0 16 ≠ 0x4D41 then .trap 0x03 h s
        else if !s.here.mwin.isEmpty then .wait 0 0 s
        else .ok (s.modHere fun m => { loadArea x { m with mpend := [] } o with claimed := false })
def execMrelease (e : Enc) (s : State) : Out State := issue (.mrelease e) {} (fun _ e s => bodyMrelease e s) s

end Sys2Proof.Machine
end

