-- ==== Sys2Proof/Machine/Engine.lean ====
section
/-! DEFINITION. Copy engines: timelines, copy descriptors, CPY, CPY2D, CPYCAN, and the steps of an engine context (R230 to R238, R306, R307). -/

namespace Sys2Proof.Machine

/-! ### Slots and contexts (R230, R231) -/

/-- ENGCTXn of a tile's flow core. -/
def Tile.engctx (t : Tile) (slot : Nat) : W := vget t.flow.ctl.engctx slot
/-- VALID of a slot. -/
def Tile.slotValid (t : Tile) (slot : Nat) : Bool := (t.engctx slot).getLsbD 63
/-- The context bound to a slot of a tile. -/
def State.engineAt (s : State) (t : Site) (slot : Nat) : Option Engine :=
  if (s.tile t).slotValid slot then s.engines.find? fun x => x.site == t && x.slot == slot && x.away.isNone else none
def State.engine (s : State) (n : Nat) : Option Engine := s.engines.find? (·.num == n)
def State.modEngine (s : State) (n : Nat) (f : Engine → Engine) : State := { s with engines := mapIf s.engines (·.num == n) f }
/-- The counter of a slot, 0 where none is bound. -/
def counterOf (s : State) (slot : Nat) : Nat := ((s.engineAt s.cur.site slot).map (·.counter)).getD 0

/-- TLRD, R231. -/
def execTlrd (e : Enc) (s : State) : Out State :=
  issue (.tlrd e) {} (fun _ e s => .ok (s.modMe fun k => k.writeW e.L .g e.a (w (counterOf s e.fb)))) s
/-- TLWAIT, R231. -/
def execTlwait (e : Enc) (s : State) : Out State :=
  issue (.tlwait e) {} (fun _ e s =>
    let n := (s.me.g e.c).toNat
    if !s.here.slotValid e.fb && n != 0 then .trap 0x03 (w e.fb) s
    else if n ≤ counterOf s e.fb then .ok s else .wait 5 e.fb s) s

/-! ### Descriptors (R232) -/

def EOp.word (x : EOp) (i : Nat) : W := x.words.getD i 0
def EOp.edge (x : EOp) : Nat := W.bits (x.word 0) 0 57
def EOp.local' (x : EOp) : Nat := W.bits (x.word 1) 0 22
def EOp.len (x : EOp) : Nat := W.bits (x.word 2) 0 32
def EOp.kind (x : EOp) : Nat := W.bits (x.word 2) 32 2
def EOp.chan (x : EOp) : Nat := W.bits (x.word 2) 34 6
def EOp.sema (x : EOp) : Nat := W.bits (x.word 2) 40 5
def EOp.semen (x : EOp) : Bool := (x.word 2).getLsbD 45
def EOp.recen (x : EOp) : Bool := (x.word 2).getLsbD 46
def EOp.estride (x : EOp) : Int := if x.twoD then (x.word 3).toInt else 0
def EOp.lstride (x : EOp) : Int := if x.twoD then intOf true 32 (x.word 4).toNat else 0
def EOp.rows (x : EOp) : Nat := if x.twoD then W.bits (x.word 4) 32 16 else 1
/-- The register that CREG names. -/
def cregOf (x : W) : Nat := W.bits x 48 4

/-- R234, ERR_DESC: a nonzero zero field, or too many bytes. -/
def EOp.badDesc (x : EOp) : Bool :=
  let k := x.kind
  W.bits (x.word 0) 57 7 != 0 || W.bits (x.word 1) 22 42 != 0 || (k == 3 && W.bits (x.word 1) 0 22 != 0)
    || (k != 3 && x.chan != 0) || (x.word 2).getLsbD 47 || (decide (k < 2) && cregOf (x.word 2) != 0) || W.bits (x.word 2) 52 12 != 0
    || (x.twoD && (W.bits (x.word 4) 48 16 != 0 || (k == 3 && W.bits (x.word 4) 0 32 != 0))) || decide (2 ^ 32 ≤ x.len * x.rows)
/-- The local start of a row. -/
def EOp.rowLocal (x : EOp) (r : Nat) : Int := (x.local' : Int) + r * x.lstride
/-- R234, ERR_RANGE. -/
def EOp.badRange (x : EOp) : Bool :=
  decide (x.kind < 3) && [0, x.rows - 1].any fun r => decide (x.rowLocal r < 0 ∨ 0x002C0000 < x.rowLocal r + x.len)
/-- R234: the status that an operation's checks, made at the interface of a site, give before any data moves; none where it moves data. -/
def startStatus (s : State) (vni : Nat) (at_ : Option Site) (x : EOp) : Option Nat :=
  if x.badDesc then some 3
  else if x.len = 0 ∨ x.rows = 0 then some 0
  else if x.len % 64 ≠ 0 ∨ x.edge % 64 ≠ 0 ∨ x.local' % 64 ≠ 0 ∨ x.estride % 64 ≠ 0 ∨ x.lstride % 64 ≠ 0 then some 1
  else if x.badRange then some 4
  else if 2 ≤ x.kind then
    (capCheckIn s vni x.cap 0 (if x.kind = 3 then some x.chan else none) at_).map fun _ => 5
  else none

/-! ### CPY, CPY2D, CPYCAN (R233, R237) -/

/-- R201: a bank operation, a RAMO or a queued stream pop of the running core has still to be performed on bytes of its tile that an
operation's data touches: for KIND 3 those of its channel's ring. -/
def footBusy (s : State) (x : EOp) : Bool :=
  let t := s.here
  let ring := (t.core (capKind x.cap)).ring x.chan
  let touch := fun (a n : Nat) =>
    if x.kind = 3 then decide (ringBase ring < a + n ∧ a < ringBase ring + ringGran ring * 64)
    else (List.range x.rows).any fun r => decide (x.rowLocal r < ((a + n : Nat) : Int) ∧ (a : Int) < x.rowLocal r + x.len)
  decide (x.kind < 2 ∨ cname x.cap = t.name)
    && (popsOut s.me || t.bankq.any (fun y => y.src == s.cur && touch y.addr y.width)
      || s.pkts.any fun p => p.src == s.cur && decide (p.state < 2) && p.name == t.name && (match p.body with
        | .ramoReq a n _ _ _ _ _ => touch a n
        | _ => false))

/-- R233: read and latch a descriptor of `n` words, and take a ticket. -/
def cpyBody (i : Instr) (e : Enc) (n : Nat) (twoD : Bool) (s : State) : Eff :=
  let a := s.me.g e.c
  match s.engineAt s.cur.site e.fb with
  | none => .trap 0x03 0 s
  | some eng =>
    if a.toNat % 8 ≠ 0 then .trap 0x09 a s
    else match places s s.cur ⟨false, false⟩ (wordAddrs a n) with
      | .error (c, d) => .trap c d s
      | .ok ps =>
        if 32 ≤ eng.ops.length then .wait 0 0 s
        else atPlaces i 8 ps s fun s =>
          let rd := ps.map fun p => readPlace s s.cur p 8
          match (List.range n).find? fun j => (rd.getD j (0, false)).2 with
          | some j => .trap 0x19 (a + w (8 * j)) s
          | none =>
            let words := rd.map fun x => w x.1
            let t := eng.issued + 1
            let cap := if 2 ≤ W.bits (words.getD 2 0) 32 2 then s.me.capReg (cregOf (words.getD 2 0)) else 0
            let op : EOp := { ticket := t, words := words, twoD := twoD, cap := cap, phase := 0, status := 0, moved := 0, poisoned := false, goal := 0, part := [], partBad := [] }
            if footBusy s op then .wait 0 0 s
            else .ok ((s.modEngine eng.num fun x => { x with issued := t, ops := x.ops ++ [op] }).modMe fun k => k.writeW e.L .g e.a (w t))
def bodyCpy (e : Enc) (s : State) : Eff := cpyBody (.cpy e) e 3 false s
def bodyCpy2d (e : Enc) (s : State) : Eff := cpyBody (.cpy2d e) e 5 true s
/-- CPY, R233. -/
def execCpy (e : Enc) (s : State) : Out State := issue (.cpy e) {} (fun _ e s => bodyCpy e s) s
/-- CPY2D, R233. -/
def execCpy2d (e : Enc) (s : State) : Out State := issue (.cpy2d e) {} (fun _ e s => bodyCpy2d e s) s
/-- CPYCAN, R237: every outstanding operation ends CANCELLED, with what it has moved. -/
def execCpycan (e : Enc) (s : State) : Out State :=
  issue (.cpycan e) {} (fun _ e s =>
    match s.engineAt s.cur.site e.fb with
    | none => .trap 0x03 0 s
    | some eng =>
      .ok (((unwait s (ofEngine eng.num)).modEngine eng.num fun x =>
          { x with fault := none, ops := x.ops.map fun o => { o with phase := 2, status := 2 } }).modMe
        fun k => k.writeW e.L .g e.a (w eng.issued))) s

/-! ### The steps of a context (R234 to R238, R307) -/

/-- The context's own tile (R238). -/
def engineTile (s : State) (x : Engine) : Tgt :=
  match x.away with
  | some (v, n) => .image v n
  | none =>
    match resolve (s.tile x.site) (s.tile x.site).name with
    | .moving _ => .wait
    | _ => .tile x.site
/-- The site of a target that is a tile. -/
def Tgt.site (x : Tgt) : Option Site :=
  match x with
  | .tile t => some t
  | _ => Option.none
/-- The tile that an operation's data goes to or comes from: by the map of the context's tile, or, while that is swapped out, as the islands
know the names. -/
def dataTile (s : State) (x : Engine) (o : EOp) : Tgt :=
  if o.kind < 2 then engineTile s x
  else match engineTile s x with
    | .tile t => s.tgt t (cname o.cap)
    | .image v _ => s.nameTgt v (cname o.cap)
    | r => r

/-- The operation of a context that comes first: it has not completed. -/
def Engine.op (x : Engine) : Option EOp := x.ops.head?
/-- Change the first operation of a context. -/
def modOp (s : State) (n : Nat) (f : EOp → EOp) : State :=
  s.modEngine n fun x => { x with ops := match x.ops with
    | o :: r => f o :: r
    | [] => [] }
/-- Engine progress sets the ACTIVITY bit of the context's tile (R269). -/
def engineActive (s : State) (x : Engine) : State := s.modTgt (engineTile s x) fun t => { t with activity := true }
/-- An operation ends with a status; ERR_TRANSLATE and ERR_UNREACHABLE record ENGINE_FAULT against the flow core (R234). -/
def endOp (s : State) (x : Engine) (o : EOp) (status : Nat) : State :=
  let s := modOp (s.modEngine x.num fun y => { y with fault := none }) x.num fun p => { p with phase := 2, status := status }
  if status = 6 ∨ status = 7 then
    let d := w (x.slot + status * 2 ^ 8 + o.ticket % 2 ^ 44 * 2 ^ 12)
    s.modTgt (engineTile s x) fun t => { t with flow := t.flow.recordAsync 0x1D d }
  else s

/-- ENGINE_OPERATION_START, R234, R238: the oldest operation, none being under way, checks its descriptor; it waits while its tile is
MOVING. -/
def execEngineOperationStart (n : Nat) (s : State) : Out State :=
  .next (match s.engine n with
    | none => s
    | some x =>
      match x.op with
      | none => s
      | some o =>
        if o.phase ≠ 0 ∨ engineTile s x = .wait then s
        else match startStatus s (s.getTgt (engineTile s x)).vni (engineTile s x).site o with
          | some k => engineActive (endOp s x o k) x
          | none => engineActive (modOp s n fun p => { p with phase := 1 }) x)

/-- What one 64-byte beat, or the write of one record of KIND 3, comes to: `bytes` have moved, and `edge` is the edge address that the
operation has reached. -/
inductive Beat where
  | wait (s : State)
  | fault (va : Nat)
  | unreachable
  | ok (s : State) (bytes edge : Nat)
deriving DecidableEq, Repr

/-- Edge virtual address of byte `off` of row r. -/
def EOp.edgeAt (x : EOp) (r off : Nat) : Nat := (((x.edge : Int) + r * x.estride + off) % 2 ^ 57).toNat
/-- The row, and the place in it, that an operation has reached. -/
def EOp.row (x : EOp) : Nat := x.moved / x.len
def EOp.off (x : EOp) : Nat := x.moved % x.len
/-- R236: the longest record for a ring. -/
def recordMax (r : W) : Nat := Nat.min 1024 (ringGran r * 64 / 4)

/-- R307: the bytes of the record of KIND 3 that comes next, or is under way: of a target that quarantines it, where no ring is read, as
for the largest (log 104). -/
def nextRecord (stray : Bool) (ring : W) (o : EOp) : Nat :=
  if o.goal ≠ 0 then o.goal else Nat.min (if stray then 1024 else recordMax ring) (o.len - o.off)
/-- R339, R341, R346: what a copy carries is of its context's region; at a tile whose router does not permit that, or that is of another
region, it is quarantined: the failed check. -/
def stray (s : State) (x : Engine) (to_ : Tgt) : Option Nat :=
  let vni := (s.getTgt (engineTile s x)).vni
  match to_ with
  | .tile t => if !(s.tile t).router.transit.contains vni then some 1 else if (s.tile t).vni ≠ vni then some 2 else none
  | _ => none
/-- A quarantined beat or record is removed and reported, and counts as acknowledged. -/
def copyQuarantine (s : State) (x : Engine) (o : EOp) (to_ : Tgt) (check : Nat) : State :=
  match to_ with
  | .tile t =>
    let h : PktHead := ⟨(s.getTgt (engineTile s x)).vni, 0, ⟨x.site, .flow⟩, if o.kind < 2 then (s.tile t).name else cname o.cap, t,
      capKind o.cap, o.chan, none⟩
    { s with reports := s.reports ++ [.quarantine t h check] }
  | _ => s

/-- The 64 bytes at an edge address with the poisoned words among them, read for an operation. -/
def readBeat (s : State) (x : Engine) (va : Nat) : Beat ⊕ (State × List Byte × List Nat) :=
  match etranslate s x.pasid va false with
  | none => .inl (.fault va)
  | some p =>
    match access s (.engine x.num) true (regionsOf p 64) with
    | (false, s) => .inl (.wait s)
    | (true, s) => .inr (touchPage s x.pasid va false, s.ebytes p 64, s.ebad p 64)
/-- R236: one step of a copy into a channel: the next record is begun where the ring has space for it, gathered, or written. -/
def recordBeat (s : State) (x : Engine) (o : EOp) : Beat :=
  match dataTile s x o with
  | .wait => .wait s
  | .none => .unreachable
  | to_ =>
    let t := s.getTgt to_
    let k := capKind o.cap
    let ring := (t.core k).ring o.chan
    let set := fun (s : State) (f : EOp → EOp) => engineActive (modOp s x.num f) x
    let off := (stray s x to_).isSome
    if !off && !ringEn ring then .unreachable
    else if o.goal = 0 then
      let n := nextRecord off ring o
      if off || fits ring n then .ok (set s fun p => { p with goal := n }) 0 1 else .wait s
    else if o.part.length < o.goal then
      match readBeat s x (o.edgeAt o.row (o.off + o.part.length)) with
      | .inl b => b
      | .inr (s, bs, bad) =>
        .ok (set s fun p => { p with part := p.part ++ bs, partBad := p.partBad ++ bad.map (p.part.length / 8 + ·),
                                     poisoned := p.poisoned || !bad.isEmpty }) 64 (o.edgeAt o.row (o.off + o.part.length + 64))
    else
      match imageAccess s to_ (4 * x.num) with
      | (false, s) => .wait s
      | (true, s) =>
        let done := fun (s : State) => set s fun p => { p with moved := p.moved + p.goal, goal := 0, part := [], partBad := [] }
        match stray s x to_ with
        | some n => .ok (done (copyQuarantine s x o to_ n)) 0 1
        | none =>
          let own := s.getTgt (engineTile s x)
          let d := descOf o.goal 0 false false own.name (o.ticket % 65536) (0x40 + x.slot) (routeTag k o.chan)
          let hs := Config.freeTransit s.fresh
          let lat := latOf (hs.toNat % 256) (hs.toNat / 256) 0 o.chan false
          match ringPut t k o.chan d lat o.part o.partBad with
          | .ok t' => .ok (done (State.modTgt { s with fresh := s.fresh + 1 } to_ fun _ => t')) 0 1
          | .full => .wait s
          | _ => .unreachable
/-- R234: one beat between edge memory and a tile. -/
def dataBeat (s : State) (x : Engine) (o : EOp) : Beat :=
  match dataTile s x o with
  | .wait => .wait s
  | .none => .unreachable
  | to_ =>
    let va := o.edgeAt o.row o.off
    let a := (o.rowLocal o.row + o.off).toNat
    let next := o.edgeAt o.row (o.off + 64)
    let done := fun (s : State) (bad : Bool) =>
      engineActive (modOp s x.num fun p => { p with moved := p.moved + 64, poisoned := p.poisoned || bad }) x
    match imageAccess s to_ (4 * x.num) with
    | (false, s) => .wait s
    | (true, s) =>
      match stray s x to_ with
      | some n => .ok (done (copyQuarantine s x o to_ n) false) 64 next
      | none =>
        if o.kind = 1 then
          match etranslate s x.pasid va true with
          | none => .fault va
          | some p =>
            match access s (.engine x.num) true (regionsOf p 64) with
            | (false, s) => .wait s
            | (true, s) =>
              let t := s.getTgt to_
              let bad := t.badWords a 64
              .ok (done (touchPage ((s.estore p (Mem.bytes t.mem a 64)).epoison p bad) x.pasid va true) (!bad.isEmpty)) 64 next
        else match readBeat s x va with
          | .inl b => b
          | .inr (s, bs, bad) => .ok (done (s.modTgt to_ fun t => t.storePoison a bs bad) (!bad.isEmpty)) 64 next

/-- The record of a KIND 3 operation is complete and is to be written. -/
def EOp.gathered (o : EOp) : Bool := o.kind == 3 && o.goal != 0 && o.part.length == o.goal
/-- R307: a burst: up to 4 KiB, ending at a 4 KiB boundary of the edge address. `left` counts the bytes that the burst may still move. -/
def burst (fuel : Nat) (s : State) (n left : Nat) : State :=
  match fuel with
  | 0 => s
  | k + 1 =>
    match s.engine n with
    | none => s
    | some x =>
      match x.op with
      | none => s
      | some o =>
        if o.phase ≠ 1 ∨ x.fault.isSome then s
        else if o.moved = o.len * o.rows then engineActive (endOp s x o (if o.poisoned then 8 else 0)) x
        else if left = 0 ∧ o.gathered = false then s
        else match (if o.kind = 3 then recordBeat s x o else dataBeat s x o) with
          | .wait s' => s'
          | .fault va => s.modEngine n fun y => { y with fault := some va }
          | .unreachable => engineActive (endOp s x o 7) x
          | .ok s' m edge => burst k s' n (if edge % 4096 = 0 then 0 else left - m)

/-- R307: a context is eligible: it has an operation under way that no translation fault pauses, and for KIND 3 space in the target ring
for its next entry. -/
def Engine.eligible (s : State) (x : Engine) : Bool :=
  x.fault.isNone && (match x.op with
    | none => false
    | some o => o.phase == 1 && (o.kind != 3 || o.moved == o.len * o.rows || (match dataTile s x o with
      | .wait => false
      | .none => true
      | to_ =>
        let ring := ((s.getTgt to_).core (capKind o.cap)).ring o.chan
        (stray s x to_).isSome || !ringEn ring || fits ring (nextRecord false ring o))))
/-- The context of an engine that its rotation serves next, in ascending context number (R307). -/
def nextContext (s : State) (e : Nat) : Option Nat :=
  let last := (lookup s.engTurn e).getD 15
  ((List.range 16).map fun i => 16 * e + (last + 1 + i) % 16).find? fun n => (s.engine n).any (Engine.eligible s)
/-- ENGINE_BURST, R307: the engine of a context serves it in its turn. -/
def execEngineBurst (n : Nat) (s : State) : Out State :=
  .next (if nextContext s (n / 16) ≠ some n then s
    else burst 196 { s with engTurn := insert s.engTurn (n / 16) (n % 16) } n 4096)

/-- The page of the table that holds the entries of a level for an address, from the table `page` at level `top`. -/
def tableAt (s : State) (top level page va : Nat) : Option Nat :=
  if top = level then some page
  else match top with
    | 0 => none
    | k + 1 =>
      let e := (lookup s.tables (4096 * page + 8 * (va / pageSize (k + 1) % 512))).getD 0
      if !pteValid e || pteLeaf e then none else tableAt s k level (ptePage e) va
/-- The level of a page of 4 KiB, 2 MiB or 1 GiB. -/
def levelOf (len : Nat) : Option Nat := [0, 1, 2].find? fun k => pageSize k == len
/-- A page of `len` bytes entered in a PASID's tables with its permissions, its A and D set, where they reach that far. -/
def mapPage (s : State) (pasid va pa len : Nat) (r w : Bool) : State :=
  match s.pasids.find? (·.pasid == pasid), levelOf len with
  | some d, some k =>
    match tableAt s (if d.sv57 then 4 else 3) k d.root va with
    | some t =>
      writeTables s [(4096 * t + 8 * (va / pageSize k % 512), BitVec.ofNat 64 (0xC1 + 2 * b01 r + 4 * b01 w + pa / 4096 % 2 ^ 44 * 2 ^ 10))]
    | none => s
  | _, _ => s
/-- TRANSLATION_RESOLVED, R234: the island answers a translation fault with a page that it maps, or with none; where the access still has
no permission the operation ends ERR_TRANSLATE. -/
def execTranslationResolved (n pasid va pa len : Nat) (r w : Bool) (s : State) : Out State :=
  .next (match s.engine n with
    | none => s
    | some x =>
      match x.fault, x.op with
      | some a, some o =>
        if engineTile s x = .wait then s else
        let s := keepApart s (mapPage s pasid va pa len r w)
        if (etranslate s x.pasid a (o.kind == 1)).isSome then s.modEngine n fun y => { y with fault := none }
        else engineActive (endOp s x o 6) x
      | _, _ => s)

/-- R235: a completion record, where its address lies in user tile memory. -/
def putRecord (s : State) (x : Engine) (o : EOp) (to_ : Tgt) : State :=
  let c := (s.getTgt to_).engctx x.slot
  let a := W.bits c 6 16 * 64 + 16 * (o.ticket % 2 ^ W.bits c 0 4)
  if 0x002C0000 < a + 16 then s
  else s.modTgt to_ fun t => t.store a (leBytes 8 o.ticket ++ leBytes 2 o.status ++ leBytes 2 0 ++ leBytes 4 o.moved)
/-- ENGINE_OPERATION_COMPLETE, R235: the record, then the counter, then the semaphore. -/
def execEngineOperationComplete (n : Nat) (s : State) : Out State :=
  .next (match s.engine n with
    | none => s
    | some x =>
      match x.op, engineTile s x with
      | some o, to_ =>
        if o.phase ≠ 2 ∨ to_ = .wait then s
        else match imageAccess s to_ (4 * x.num) with
        | (false, s) => s
        | (true, s) =>
          let s := engineActive s x
          let s := if o.recen then putRecord s x o to_ else s
          let s := s.modEngine n fun y => { y with counter := o.ticket, ops := y.ops.drop 1 }
          if !o.semen then s
          else match to_ with
            | .tile t => semAdd s t o.sema 1
            | to_ => s.modTgt to_ fun t => t.setSem o.sema (Nat.min (t.sem o.sema + 1) (2 ^ 32 - 1))
      | none, _ => s)

/-- R356: a resource is bound to the device of a region: one that the device lists, or, of a region of no device, one that none lists. -/
def State.owned (s : State) (vni : Nat) (list : VDev → List Nat) (n : Nat) : Bool :=
  match s.vdevOf vni with
  | some d => (list d).contains n
  | none => !s.vdevs.any fun d => (list d).contains n
/-- R230: CTX and VALID of a slot of a tile's flow core. -/
def Tile.setCtx (x : Tile) (slot n : Nat) : Tile :=
  { x with flow := { x.flow with ctl := { x.flow.ctl with
      engctx := vset x.flow.ctl.engctx slot (setBits (setBits (x.engctx slot) 22 12 n) 63 1 1) } } }
/-- R306: the contexts of an island's engines that a region may use and that are not bound. -/
def freeCtxs (s : State) (vni isl : Nat) : List Nat :=
  ((List.range 64).map fun i => 64 * isl + i).filter fun n => (s.engine n).isNone && s.owned vni (·.engines) n
/-- R306, R384: the contexts of a tile whose islands are not the home island of a site. -/
def awayCtxs (s : State) (t d : Site) : List Engine := s.engines.filter fun e => e.site == t && e.away.isNone && e.num / 64 != homeNum d
/-- R384 step 3: the names that come to some sites have no operation outstanding at a context that must be bound anew, and the islands have
room for those (log 113). -/
def ctxRoom (s : State) (vni : Nat) (mine : Nat → Engine → Bool) (l : List (Nat × Site)) : Bool :=
  let foreign := fun (x : Nat × Site) => s.engines.filter fun e => mine x.1 e && e.num / 64 != homeNum x.2
  l.all fun x => (foreign x).all (·.ops.isEmpty)
    && decide (((l.filter fun y => homeNum y.2 == homeNum x.2).map fun y => (foreign y).length).sum ≤ (freeCtxs s vni (homeNum x.2)).length)
/-- R384 step 3: the contexts of a tile that has come from another home island are bound anew, with the same values, among those of its
own home island. -/
def rehome (s : State) (t : Site) : State :=
  ((awayCtxs s t t).zip (freeCtxs s (s.tile t).vni (homeNum t))).foldl (fun s (e, n) =>
    ({ unwait s (ofEngine e.num) with engines := mapIf s.engines (·.num == e.num) fun y => { y with num := n } }).modTile t fun x =>
      x.setCtx e.slot n) s
/-- ENGINE_CONTEXT_BIND, R230, R306, R356: the home island binds a context of its own engines, of 16 contexts each, to a slot of a tile's flow
core; context and PASID are those of the region's device. -/
def execEngineContextBind (n pasid : Nat) (t : Site) (slot : Nat) (count : W) (s : State) : Out State :=
  .next (if !(s.tile t).bound || decide (4096 ≤ n ∨ 4 ≤ slot ∨ n / 64 ≠ homeNum t) || (s.engine n).isSome || (s.tile t).slotValid slot
      || !s.owned (s.tile t).vni (·.engines) n || !s.owned (s.tile t).vni (·.pasids) pasid then s
    else
      let e : Engine := { num := n, pasid := pasid, site := t, away := none, slot := slot, counter := count.toNat, issued := count.toNat,
                          ops := [], fault := none }
      let s := { s with engines := s.engines ++ [e] }
      s.modTile t fun x => x.setCtx slot n)

end Sys2Proof.Machine
end

