-- ==== Sys2Proof/Machine/Fetch.lean ====
section
/-! DEFINITION. What a core does on its turn before its instruction executes: time, pending traps and events at the boundary, the choice of
what runs, and fetching and decoding under the code window (R30, R43, R175, R245, R250, R252, R267, R367). -/

namespace Sys2Proof.Machine

/-- `n` field cycles of a core: the watchdog count of the running activation, none that is suspended (R267), takes `counted` of them, and
the time in the current kind of wait all (R268), saturating. -/
def Core.tick (c : Core) (n counted : Nat) : Core :=
  let b := { c.blocked with waited := Nat.min 0xFFFFFFFF (c.blocked.waited + n) }
  let k := if c.running.isSome then c.modAct (fun a => { a with cycles := a.cycles + counted }) else c
  { k with blocked := b }

/-- R325: how many of `n` cycles the throttle of a tile's field withholds matrix issue in; which ones is not stated. -/
def State.withheld (s : State) (t : Site) (n : Nat) : Nat :=
  if s.duty.contains (fieldNo t) then Config.freeStall s.fresh % (n + 1) else 0
/-- `n` field cycles of a tile (R99); those in which throttle withholds issue do not count against WDOG_BUDGET (R325). -/
def State.tick (s : State) (t : Site) (n : Nat) : State :=
  { s.modTile t fun x => { x.mapCores (Core.tick · n (n - s.withheld t n)) with cycle := x.cycle + w n } with fresh := s.fresh + 5 }

/-- R204: what the word at an address held before the writes that no IFENCE of the core orders ahead of its fetches. -/
def staleWords (t : Tile) (c : Core) (a : Nat) : List OldWord := (t.past.drop c.seen).filter (·.addr == a)
/-- R204: the word that one fetch returns: the value of one of the writes to choose from, and for a word of which single bytes were
written each byte from its own; the `no`th choice is free. -/
def fetchWord (t : Tile) (c : Core) (no a : Nat) : BitVec 16 :=
  let cur := BitVec.ofNat 16 (Mem.load t.mem a 2)
  let l := staleWords t c a
  if l.all (·.val == cur) then cur
  else
    let vs := l.map (·.val) ++ [cur]
    let pick := fun (i : Nat) => vs.getD (Config.freePick (2 * no + i) % vs.length) cur
    if l.any (·.torn) then (pick 1).extractLsb' 8 8 ++ (pick 0).extractLsb' 0 8 else pick 0

/-- The words that a core fetches for its next instruction, each with its address: up to a base word, and no more than five. -/
def fetchWords (fuel : Nat) (t : Tile) (c : Core) (no a : Nat) : Except (Nat × W) (List (BitVec 16)) :=
  match fuel with
  | 0 => .ok []
  | n + 1 =>
    if !(c.inCode a && decide (a < 0x00300000)) then .error (0x07, w a)
    else if t.bad a then .error (0x19, w (a / 8 * 8))
    else
      let x := fetchWord t c no a
      if isHead x then
        match fetchWords n t c (no + 1) (a + 2) with
        | .ok l => .ok (x :: l)
        | .error e => .error e
      else .ok [x]

/-- R43 steps 1 to 4 for a list of fetched words: the instruction, or the trap. -/
def decodeFetched (ws : List (BitVec 16)) : Except (Nat × W) Instr :=
  match decodeWords ws with
  | .ok (i, _) => .ok i
  | .error (.opcode base page) => .error (0x01, w (base.toNat + page * 2 ^ 16))
  | .error (.head x) => .error (0x02, w x.toNat)
  | .error .short => .error (0x07, 0)

/-- Fetch and decode the next instruction of a core; `no` numbers its free choices. -/
def fetch (t : Tile) (c : Core) (no : Nat) : Except (Nat × W) Instr :=
  match fetchWords 5 t c no c.pc.toNat with
  | .error e => .error e
  | .ok ws => decodeFetched ws

/-- R267: the running activation has used up its watchdog budget. -/
def Core.overBudget (c : Core) : Bool :=
  c.ctl.wdogBudget != 0 && (c.act.any fun a => decide (c.ctl.wdogBudget.toNat < a.cycles))
/-- R252: one more instruction would exceed the masked window. -/
def Core.maskFull (c : Core) : Bool := c.mask.any fun n => decide (c.ctl.maskLimit.toNat ≤ n)

/-- What a turn comes to: a state, an instruction that executes in a state, or a schedule entry that no agent performs. -/
inductive Turned where
  | settled (s : State)
  | run (i : Instr) (s : State)
  | nobody
deriving DecidableEq, Repr

/-- One turn of the current core. Where it has issued an instruction that waits for another agent, only time passes. Otherwise it
takes what is due at the boundary, in the order: a trap of an earlier vector instruction or matrix command (R106, R132), an Async
cause (R367), the watchdog (R267), a high-priority message (R250); then it dispatches, or fetches its next instruction. -/
def coreTurn (s : State) : Turned :=
  let c := s.cur
  let k := s.me
  if k.wait.isSome || k.req.isSome || k.held.isSome || k.halted then .settled s
  else if k.trapDue && k.atBoundary then .settled (deliverPending s c)
  else if !k.async.isEmpty && !k.active && k.atBoundary && !(k.act.isNone && k.lo.act.isSome) then .settled (takeAsync s c)
  else if k.overBudget && k.atBoundary then .settled (takeTrap s c 0x17 k.ctl.wdogBudget k.pc)
  else if hpReady s c then .settled (preempt s c)
  else if k.act.isNone then .settled (dispatch s c)
  else if k.maskFull && k.blocked.kind == 0 then .settled (takeTrap s c 0x18 k.ctl.maskLimit k.pc)
  else match fetch s.here k s.fresh with
    | .error (cause, d) => .settled (takeTrap s c cause d k.pc)
    | .ok i => .run i s

/-- Whether a range of `n` bytes at the core's PC lies in its code window. -/
def Core.roomAt (c : Core) (n : Nat) : Bool :=
  decide (c.ctl.codeBase.toNat ≤ c.pc.toNat ∧ c.pc.toNat + n ≤ c.ctl.xbound.toNat ∧ c.pc.toNat + n ≤ 0x00300000) && !c.pc.getLsbD 0

/-- A core that fetches its next instruction on its next turn: nothing is pending at its boundary and an activation runs. Where none
does, or its code window does not hold the longest instruction at its PC, a window and an entry at 0x8000 (log 4). -/
def Core.ready (c : Core) : Core :=
  let c := { c with wait := none, req := none, ans := none, ptrap := none, async := [], held := none, halted := false, mask := none,
                    hpCount := if c.anyPending true then c.ctl.hpLimit.toNat % 256 else c.hpCount }
  let c := c.unblock
  let c : Core := if c.act.isSome then c.modAct fun a => { a with cycles := 0 }
    else
      let a : Act := { pc := 0x8000, pos := [c.freshPos], chan := 0, desc := 0, record := 0, recLen := 0, sup := false,
                       resumable := false, cycles := 0, saved := 0, sends0 := 0, noMsg := true }
      { c.modBank false fun b => { b with act := some a } with lowSusp := false, seqTop := c.freshPos }
  if c.roomAt 10 then c
  else
    let c := c.modAct fun a => { a with pc := 0x8000 }
    { c with ctl := { c.ctl with codeBase := 0x8000, xbound := 0x8040 } }

/-- The bytes of an instruction stored where a core fetches next, as an image is loaded ahead of every fetch (R203). -/
def placeWords (s : State) (ws : List (BitVec 16)) : State :=
  let s := { s with moves := [] }
  let s := s.modMe Core.ready
  let a := s.me.pc.toNat
  let s := s.modMe fun k => { k with seen := s.here.past.length }
  s.modHere fun t =>
    { t with mem := Mem.store t.mem a (bytesOf ws), poison := t.poison.filter fun x => decide (x + 8 ≤ a ∨ a + 10 ≤ x) }

end Sys2Proof.Machine
end

