-- ==== Sys2Proof/Machine/Sched.lean ====
section
/-! DEFINITION. The scheduling and trap steps of a core, the island's answer to a held core, and the quiescence evaluation (R245, R250, R252,
R267, R269, R364 to R369). -/

namespace Sys2Proof.Machine

/-- A core is where an event of the boundary can be taken: no answer is awaited, it is neither held nor halted. -/
def atEvent (k : Core) : Bool := k.atBoundary && k.held.isNone && !k.halted
/-- A pending Async cause is due (R367). -/
def asyncDue (k : Core) : Bool := !k.async.isEmpty && !k.active && !(k.act.isNone && k.lo.act.isSome)

/-- HANDLER_DISPATCH, R245. -/
def execHandlerDispatch (c : CoreId) (s : State) : Out State :=
  .next (let k := s.core c
    if !atEvent k || k.trapDue || asyncDue k then s else dispatch s c)
/-- HP_PREEMPTION, R250. -/
def execHpPreemption (c : CoreId) (s : State) : Out State :=
  .next (let k := s.core c
    if !atEvent k || k.trapDue || asyncDue k then s else preempt s c)
/-- WATCHDOG, R267. -/
def execWatchdog (c : CoreId) (s : State) : Out State :=
  .next (let k := s.core c
    if !atEvent k || k.trapDue || asyncDue k || !k.overBudget then s else takeTrap s c 0x17 k.ctl.wdogBudget k.pc)
/-- MASK_OVERRUN, R252: the instruction that would exceed MASK_LIMIT does not execute. -/
def execMaskOverrun (c : CoreId) (s : State) : Out State :=
  .next (let k := s.core c
    if k.wait.isSome || k.req.isSome || k.held.isSome || k.halted || k.blocked.kind != 0 || k.trapDue || asyncDue k || k.act.isNone
      || !k.maskFull then s
    else takeTrap s c 0x18 k.ctl.maskLimit k.pc)
/-- The current core fetches its next instruction: nothing is due at its boundary, and an activation runs. -/
def fetchDue (s : State) : Bool :=
  let k := s.me
  k.wait.isNone && k.req.isNone && k.held.isNone && !k.halted && !(k.trapDue && k.atBoundary) && !(asyncDue k && k.atBoundary)
    && !(k.overBudget && k.atBoundary) && !hpReady s s.cur && k.act.isSome && !(k.maskFull && k.blocked.kind == 0)
/-- OVERLAY_ENTRY, R369: the current core's next fetch faults at an address outside its code window, and enters the overlay handler. -/
def execOverlayEntry (addr : W) (s : State) : Out State :=
  .next (if !fetchDue s || !s.me.overlayTakes then s
    else match fetch s.here s.me s.fresh with
      | .error (0x07, a) => if a = addr then enterOverlay s s.cur s.me.ctl.ovlVec addr s.me.pc else s
      | _ => s)
/-- TRAP_DELIVERY, R106, R132, R364: a trap that waited for its core's boundary. -/
def execTrapDelivery (c : CoreId) (s : State) : Out State :=
  .next (if atEvent (s.core c) then deliverPending s c else s)
/-- ASYNC_TRAP_TAKE, R367. -/
def execAsyncTrapTake (c : CoreId) (s : State) : Out State :=
  .next (if atEvent (s.core c) && !(s.core c).trapDue && asyncDue (s.core c) then takeAsync s c else s)

/-! ### The island's answer (R366, R373) -/

/-- The core is held no longer and its trap handling is over. -/
def letGo (s : State) (c : CoreId) : State :=
  (s.modCtl c Ctl.inactive).modCore c fun k => { k with held := none }
/-- RESUME: a resumable cause only; with no activation the core reaches a dispatch point. -/
def answerResume (s : State) (c : CoreId) : State :=
  let k := s.core c
  let cause := k.ctl.trapCause
  if !cause.getLsbD 7 then s
  else
    let pc := w (k.ctl.trapPc.toNat % 2 ^ 22 / 2 * 2)
    (letGo s c).modCore c fun k =>
      if k.act.isNone then k.block 1 0 0xFFFF
      else { k.modAct fun a => { a with pc := pc, sup := cause.getLsbD 11 } with restore := none }.unblock
/-- REDELIVER, DROP and HALT: R365 for a resumable cause; the record is freed but for REDELIVER; HALT waits as R248 says. -/
def answerEnd (s : State) (c : CoreId) (mode : Nat) (status : W) : State :=
  let k := s.core c
  let hi := k.lev
  let res := k.ctl.trapCause.getLsbD 7
  if res && k.act.isSome && mustDrain s c then s
  else
    let s1 := if res && k.act.isSome then abortAct s c hi else s
    let s1 := commit s1 c hi
    if !(((s1.core c).bank hi).sends.isEmpty) || (mode != 1 && !freeReady s1 c) then s1
    else
      let s2 := if mode = 1 then s1 else freeRecord s1 c hi
      let fin := fun (s : State) => if k.act.isSome then endAct (letGo s c) c hi else (letGo s c).modCore c fun k => k.block 1 0 0xFFFF
      if mode = 3 then
        if quietCore s2 c then haltCore (fin s2) c (W.bits status 0 32 ||| 0x80000000) else s1
      else fin s2
/-- ISLAND_TRAP_ANSWER: mode 0 RESUME, 1 REDELIVER, 2 DROP, 3 HALT (R371). -/
def execIslandTrapAnswer (c : CoreId) (mode : Nat) (status : W) (s : State) : Out State :=
  .next (if (s.core c).held.isNone || decide (3 < mode) then s
    else if mode = 0 then answerResume s c else answerEnd s c mode status)

/-! ### Quiescence (R269) -/

/-- The sites of a region's tiles. -/
def State.tilesOf (s : State) (vni : Nat) : List Site :=
  (s.tiles.filter fun x => x.2.bound && x.2.vni == vni && !s.gone (siteOf x.1)).map fun x => siteOf x.1
/-- The blocked-on records of a region's cores. -/
def State.records (s : State) (vni : Nat) : List Blocked :=
  (s.tilesOf vni).flatMap fun t => kinds.map fun k => ((s.tile t).core k).blocked
/-- What one evaluation finds: nothing of the region moves. -/
def quietNow (s : State) (vni : Nat) : Bool :=
  let ts := s.tilesOf vni
  (ts.all fun t => !(s.tile t).activity) && ((s.records vni).all fun b => decide (1 ≤ b.kind ∧ b.kind ≤ 11))
    && !(s.pkts.any (·.vni == vni)) && !(s.engines.any fun x => !x.ops.isEmpty && match x.away with
      | some a => a.1 == vni
      | none => ts.contains x.site)
/-- Work of the region is outstanding. -/
def workLeft (s : State) (vni : Nat) : Bool :=
  ((s.records vni).any fun b => decide (3 ≤ b.kind ∧ b.kind ≤ 11))
    || s.launches.any fun l => s.places.any fun p => p.vni == vni && p.num == l.place && s.qctxs.any fun q => q.num == l.ctx && q.vdev == p.vdev
/-- QUIESCENCE_EVALUATION: the predicate holds when two evaluations in a row found nothing moving, and REGION_STALL is raised once when it
has held for `threshold` evaluations more and work of the region is outstanding. -/
def execQuiescenceEvaluation (vni threshold : Nat) (s : State) : Out State :=
  .next (let q := if quietNow s vni then ((s.region vni).map (·.quiet)).getD 0 + 1 else 0
    let s1 := (s.tilesOf vni).foldl (fun s t => s.modTile t fun x => { x with activity := false }) (s.modRegion vni fun r => { r with quiet := q, raised := r.raised && q != 0 })
    if 2 + threshold ≤ q ∧ (s.region vni).any (·.raised) = false ∧ workLeft s vni = true then
      (s1.modRegion vni fun r => { r with raised := true }) |> fun s1 => { s1 with reports := s1.reports ++ [.regionStall vni (s.records vni)] }
    else s1)

end Sys2Proof.Machine
end

