-- ==== Sys2Proof/Machine/Launch.lean ====
section
/-! DEFINITION. Queue contexts, launches and placements (R51, R207, R255 to R260, R320, R321, R418). -/

namespace Sys2Proof.Machine

/-! ### Doorbells (R320, R321) -/

def State.qctx (s : State) (n : Nat) : Option QCtx := s.qctxs.find? (·.num == n)
def State.modQctx (s : State) (n : Nat) (f : QCtx → QCtx) : State := { s with qctxs := mapIf s.qctxs (·.num == n) f }

/-- R320: a write of QDOOR: a TAIL too far ahead is ignored and sets ERR, which a written one clears. -/
def qdoorWrite (s : State) (ctx : Nat) (v : W) : State :=
  s.modQctx ctx fun q =>
    let tail := BitVec.ofNat 16 (W.bits v 0 16)
    let err := q.err && !v.getLsbD 32
    if 2 ^ q.k < (tail - q.head).toNat then { q with err := true } else { q with tail := tail, err := err }
/-- QDOOR_WRITE, R320. -/
def execQdoorWrite (ctx : Nat) (v : W) (s : State) : Out State := .next (qdoorWrite s ctx v)
/-- QINFO_VEN_WRITE, R321. -/
def execQinfoVenWrite (ctx : Nat) (ven : Bool) (s : State) : Out State := .next (s.modQctx ctx fun q => { q with ven := ven })

/-! ### MSI-X vectors (R320, R321) -/

/-- A function of a host link; one not bound has no vector and no window. -/
def State.func (s : State) (link fn : Nat) : HostFn :=
  (s.funcs.find? fun f => f.link == link && f.fn == fn).getD { link := link, fn := fn, vectors := 0, table := [], pending := [], windows := [] }
def State.setFunc (s : State) (f : HostFn) : State :=
  { s with funcs := s.funcs.filter (fun x => !(x.link == f.link && x.fn == f.fn)) ++ [f] }
/-- The low and the high word of a vector table entry; the mask bit, bit 32 of the high word, is 1 after reset (log 82). -/
def HostFn.entry (f : HostFn) (vec : Nat) : W × W := (lookup f.table vec).getD (0, 0x100000000)
def HostFn.masked (f : HostFn) (vec : Nat) : Bool := (f.entry vec).2.getLsbD 32
/-- R320, R321: a queue context's vector is sent where the function has it and the context enables it; a masked one is pending. -/
def sendVector (s : State) (q : QCtx) : State :=
  let f := s.func q.link q.fn
  if !q.ven || decide (f.vectors ≤ q.vec) then s
  else if f.masked q.vec then s.setFunc { f with pending := f.pending.filter (· != q.vec) ++ [q.vec] }
  else { s with reports := s.reports ++ [.msix q.num q.vec] }

/-! ### Completion records (R255, R259) -/

/-- R255, R320: the island writes a completion record and then sends the context's MSI-X vector; false while an owner transfer must come
first. A DONEADDR that does not translate is reported. -/
def writeCompletion (s : State) (q : QCtx) (seq doneaddr : W) (status code : Nat) : Bool × State :=
  let s := touchPage s q.pasid doneaddr.toNat true
  match translate s q.pasid doneaddr.toNat true with
  | none => (true, { s with reports := s.reports ++ [.launchNotRecorded q.num seq] })
  | some p =>
    match access s (.record q.num) false (regionsOf p 16) with
    | (false, s) => (false, s)
    | (true, s) => (true, sendVector (s.estore p (leBytes 8 seq.toNat ++ leBytes 4 status ++ leBytes 4 code)) q)

/-! ### Launch packets (R255) -/

/-- The enabled cores of a launch packet with their channels. -/
def launchCores (x : W) : List (CoreKind × Nat) :=
  [(CoreKind.flow, 16), (CoreKind.shape, 24), (CoreKind.math, 32)].filterMap fun (k, o) =>
    if x.getLsbD (o + 7) then some (k, W.bits x o 6) else none
/-- A nonzero field that must be zero; a channel field of a core that is not enabled has only its bit 6 zero. -/
def packetBad (l : List W) : Bool :=
  let x := l.getD 0 0
  x.getLsbD 22 || x.getLsbD 30 || x.getLsbD 38 || W.bits x 40 24 != 0 || (l.drop 5).any (· != 0)
/-- A DONEADDR to which no record can be written. -/
def doneBad (d : W) : Bool := d.toNat % 16 != 0 || W.bits d 57 7 != 0

/-- The RINGn value of an image's ring. -/
def imageRing (base size : Nat) : W := ringValue (base / 64 % 65536) ((List.range 12).findIdx (fun i => size ≤ 2 ^ (i + 9))) true 0 0
/-- R175: the code window that an image gives a core. -/
def Image.window (i : Image) (k : CoreKind) : Nat × Nat :=
  match i.bounds.find? (·.1 == k) with
  | some (_, lo, hi) => (lo, hi)
  | none => (i.text.1 / 64 * 64, roundUp i.text.2 64)
/-- R180: every ring of the image lies in user tile memory and outside the image's code windows. -/
def Image.ok (i : Image) : Bool :=
  i.rings.all fun (_, _, base, size) =>
    let r := imageRing base size
    let hi := ringBase r + ringGran r * 64
    decide (hi ≤ 0x002C0000) && kinds.all fun k => let x := i.window k; decide (x.2 ≤ x.1 ∨ hi ≤ x.1 ∨ x.2 ≤ ringBase r)
/-- R18, R177: a cluster has at most 16 members, and each stands where its number says from the north-west corner of a 4 by 4 rectangle
of logical tiles. -/
def clusterFits (s : State) (vni : Nat) (cl : List (Nat × Nat)) : Bool :=
  let corners := cl.filterMap fun (name, k) => (s.siteOfName vni name).map fun t =>
    (((s.liveTile t).logX : Int) - (k % 4 : Nat), ((s.liveTile t).logY : Int) + (k / 4 : Nat))
  decide (cl.length ≤ 16) && (cl.all fun x => decide (x.2 < 16)) && decide (cl.map Prod.snd).Nodup
    && corners.all fun c => corners.head? == some c
/-- A placement of a virtual device whose clusters are well formed and whose images the home island takes. -/
def State.findPlace (s : State) (vdev num : Nat) : Option Place :=
  s.places.find? fun p => p.vdev == vdev && p.num == num && (p.clusters.all (clusterFits s p.vni)) && p.images.all fun x => x.2.ok
/-- The placement of a launch. -/
def State.placeOf (s : State) (l : Launch) : Option Place := (s.qctx l.ctx).bind fun q => s.findPlace q.vdev l.place
/-- A placement that an event names: its number, and that of its virtual device above it. -/
def State.placeNo (s : State) (n : Nat) : Option Place := s.findPlace (n / 65536) (n % 65536)
def State.modPlace (s : State) (p : Place) (f : Place → Place) : State :=
  { s with places := mapIf s.places (fun x => x.vdev == p.vdev && x.num == p.num) f }
/-- The working tiles of a placement. -/
def State.placeTiles (s : State) (p : Place) : List Site :=
  (p.clusters.flatMap id).filterMap fun x => match s.siteOfName p.vni x.1 with
    | some t => if s.gone t then none else some t
    | none => none
/-- The launch of a context. -/
def State.launch (s : State) (ctx : Nat) : Option Launch := s.launches.find? (·.ctx == ctx)
def State.modLaunch (s : State) (ctx : Nat) (f : Launch → Launch) : State := { s with launches := mapIf s.launches (·.ctx == ctx) f }

/-- LAUNCH_PACKET_TAKE, R255, R320: the island takes the next packet of a context whose last launch is over. -/
def execLaunchPacketTake (ctx : Nat) (s : State) : Out State :=
  .next (match s.qctx ctx with
    | none => s
    | some q =>
      if q.head = q.tail ∨ (s.launch ctx).isSome = true then s
      else
      let s := touchPage s q.pasid (q.base + 64 * (q.head.toNat % 2 ^ q.k)) false
      match translate s q.pasid (q.base + 64 * (q.head.toNat % 2 ^ q.k)) false with
        | none => s
        | some p =>
          match access s (.take ctx) false (regionsOf p 64) with
          | (false, s) => s
          | (true, s) =>
            let bs := s.ebytes p 64
            let l := (List.range 8).map fun i => w (leNat ((bs.drop (8 * i)).take 8))
            let seq := l.getD 3 0
            let d := l.getD 4 0
            let s := { s with reports := s.reports ++ (s.ebad p 64).map fun i => .edgePoison (p.1 + 8 * i) }
            let taken := fun (s : State) => s.modQctx ctx fun q => { q with head := q.head + 1 }
            if doneBad d then { taken s with reports := s.reports ++ [.launchNotRecorded ctx seq] }
            else if packetBad l || (launchCores (l.getD 0 0)).isEmpty || (s.findPlace q.vdev (W.bits (l.getD 0 0) 0 16)).isNone then
              match writeCompletion s q seq d 0 1 with
              | (true, s) => taken s
              | (false, s) => s
            else
              let x : Launch := { ctx := ctx, place := W.bits (l.getD 0 0) 0 16, ch := launchCores (l.getD 0 0),
                                  args := (bs.drop 8).take 16, seq := seq, doneaddr := d, admitted := false, sent := [], ends := [],
                                  tiles := [], count := 0, err := 0, doomed := false }
              { taken s with launches := s.launches ++ [x] })

/-! ### Admission and image load (R256, R257) -/

/-- R257: what loading an image writes in one core. -/
def loadCore (k : Core) (kind : CoreKind) (i : Image) : Core :=
  let x := i.window kind
  let k : Core := { k with ctl := { k.ctl with codeBase := w x.1, xbound := w x.2, rowinLo := 0, rowinHi := 0 } }
  let k := (i.tasks.filter (·.1 == kind)).foldl (fun k (_, n, t) => k.setTask n (taskValue (t ||| 0x100000000))) k
  let k := (i.rings.filter (·.1 == kind)).foldl (fun k (_, n, base, size) =>
    let new := imageRing base size
    let old := k.ring n
    if ringEn old && decide (W.bits old 0 20 = W.bits new 0 20) then k
    else ((({ k with recs := k.recs.filter (·.chan != n) }.setRing n new).restartReads n).loseRecord n)) k
  (i.caps.filter (·.1 == kind)).foldl (fun k (_, n, c) => k.putReg .c false n (c.setWidth 512) []) k
/-- R203, R257: a tile with an image loaded, ahead of every later fetch; a word that the image emits whole loses its poison. -/
def loadImage (t : Tile) (i : Image) : Tile :=
  let mem := i.bytes.foldl (fun m (b : Nat × Byte) => Mem.put m b.1 b.2) t.mem
  let whole := fun (a : Nat) => (List.range 8).all fun j => i.bytes.any fun (b : Nat × Byte) => b.1 == a + j
  let t := { t with mem := mem, poison := t.poison.filter fun a => !whole a }
  { t with flow := loadCore t.flow .flow i, shape := loadCore t.shape .shape i, math := loadCore t.math .math i }.mapCores
    fun k => { k with seen := t.past.length }
/-- R180: every enabled ring of a tile lies where it may, those kept from an earlier launch among them. -/
def ringsClear (t : Tile) : Bool :=
  kinds.all fun k => (List.range 64).all fun n => let r := (t.core k).ring n; !ringEn r || ringPlaced t r
/-- R177: the windows of a cluster: its members that work, by member number. -/
def windowsOf (s : State) (p : Place) (cl : List (Nat × Nat)) : List (Nat × Nat) :=
  cl.filterMap fun (name, k) => match s.siteOfName p.vni name with
    | some t => if s.gone t then none else some (k, name)
    | none => none
/-- R256: no other placement holds a tile of this one. -/
def placeFree (s : State) (p : Place) : Bool :=
  let ts := s.placeTiles p
  p.admitted.isNone && !p.swapped && !(s.places.any fun x => x.admitted.isSome && !x.swapped && (s.placeTiles x).any ts.contains)
/-- R256: an earlier launch that is not admitted needs a tile of this one. -/
def overtakes (s : State) (l : Launch) (p : Place) : Bool :=
  (s.launches.takeWhile (·.ctx != l.ctx)).any fun x => !x.admitted && (s.placeOf x).any fun y => (s.placeTiles y).any (s.placeTiles p).contains

/-- A launch is over: its completion record is written, and its placement's tiles are free. -/
def endLaunch (s : State) (q : QCtx) (l : Launch) (p : Place) (status code : Nat) : Bool × State :=
  match writeCompletion s q l.seq l.doneaddr status code with
  | (false, s) => (false, s)
  | (true, s) =>
    (true, { s with launches := s.launches.filter (·.ctx != l.ctx) }.modPlace p fun x => { x with admitted := none })
/-- R256, R257: the images, windows, entries and capabilities of a placement loaded on its tiles. -/
def loadPlace (s : State) (p : Place) : State :=
  xonSweep (p.clusters.foldl (fun s cl => cl.foldl (fun s m =>
    match s.siteOfName p.vni m.1 with
    | some t =>
      if s.gone t then s
      else s.modTile t fun x =>
        let x := match lookup p.images m.1 with
          | some i => loadImage x i
          | none => x
        { x with cluster := windowsOf s p cl, left := [], stopped := false }
    | none => s) s) s)
/-- PLACEMENT_ADMISSION, R256: a placement is loaded on its tiles. The island rejects images that would put a ring where none may be
(R180): the launch delivers nothing and ends BAD_DESC (log 83). -/
def execPlacementAdmission (ctx : Nat) (s : State) : Out State :=
  .next (match s.launch ctx with
    | none => s
    | some l =>
      match s.placeOf l, s.qctx ctx with
      | some p, some q =>
        if l.admitted || !placeFree s p || overtakes s l p then s
        else
          let s1 := loadPlace s p
          if (s.placeTiles p).any fun t => !ringsClear (s1.tile t) then (endLaunch s q l p 0 1).2
          else (s1.modPlace p fun x => { x with admitted := some ctx }).modLaunch ctx fun x => { x with admitted := true }
      | _, _ => s)

/-! ### The launch tree (R258, R259) -/

/-- Twice the distance, along x and along y, of a site from an island, which stands at the north-east corner of its field (R11, log 84). -/
def islandDistance (n : Nat) (t : Site) : Nat :=
  let d := fun (a b : Nat) => (a - b) + (b - a)
  d (2 * t.x) (28 * (n / 8) + 27) + d (2 * t.y) (28 * (n % 8) + 27)
/-- R258: the root of the tree over some tiles: the one nearest the island, of equals the first by number. -/
def treeRoot (island : Nat) (ts : List Site) : Option Site :=
  ts.find? fun t => ts.all fun u => decide (islandDistance island t < islandDistance island u)
    || (islandDistance island t == islandDistance island u && decide (Site.num t ≤ Site.num u))
/-- `b` lies between `a` and `c`, or is `c`. -/
def onWay (a b c : Nat) : Bool := decide (a < b ∧ b ≤ c ∨ c ≤ b ∧ b < a)
/-- The tile of a list that is nearest to a place on one axis. -/
def nearestBy (f : Site → Nat) (x : Nat) (l : List Site) : Option Site :=
  l.find? fun t => l.all fun u => decide ((f t - x) + (x - f t) ≤ (f u - x) + (x - f u))
/-- R258: the parent of a tile: the tree runs along the root's row and then along each column. -/
def treeParent (root : Site) (ts : List Site) (t : Site) : Option Site :=
  if t = root then none
  else
    let column := ts.filter fun u => u.x == t.x && onWay t.y u.y root.y
    let row := ts.filter fun u => u.y == root.y && (onWay t.x u.x root.x || (u.x == t.x && u != t))
    if t.y ≠ root.y ∧ column ≠ [] then nearestBy (·.y) t.y column else nearestBy (·.x) t.x row
/-- The tree of a placement for the launches of a queue context. -/
def parentIn (s : State) (q : QCtx) (p : Place) (t : Site) : Option Site :=
  let ts := s.placeTiles p
  (treeRoot q.island ts).bind fun r => treeParent r ts t

/-! ### Launch messages (R258) -/

/-- R249, R258: a launch message at one core. -/
def launchAt (s : State) (l : Launch) (c : CoreId) (chan : Nat) : State :=
  let k := s.core c
  let r := k.ring chan
  let d := descOf 16 0 true false 0xFFFF (W.bits l.seq 0 16) 0 (routeTag c.kind chan)
  let handler := k.isHandler chan
  let s := if ringEn r then s.modCore c fun k =>
      let k := { k with heldLaunch := k.heldLaunch ++ [(chan, d, l.args)], launch := if handler then some l.ctx else none }
      if k.halted then { k with halted := false }.block 1 0 0xFFFF else k
    else s
  if handler then s else s.modLaunch l.ctx fun x => { x with ends := x.ends ++ [c], err := x.err ||| 0x80 }
/-- LAUNCH_MESSAGE_DELIVERY, R258: the launch tree reaches a tile after its parent in the tree; its interface takes the message of every enabled core. -/
def execLaunchMessageDelivery (ctx : Nat) (t : Site) (s : State) : Out State :=
  .next (match s.launch ctx, s.qctx ctx with
    | some l, some q =>
      match s.placeOf l with
      | none => s
      | some p =>
        if !l.admitted || p.swapped || l.sent.contains t || !(s.placeTiles p).contains t || !((parentIn s q p t).all l.sent.contains)
            || (l.ch.any fun x => !((s.tile t).core x.1).heldLaunch.isEmpty) then s
        else
          let s := l.ch.foldl (fun s x => launchAt s l ⟨t, x.1⟩ x.2) s
          (s.modLaunch ctx fun x => { x with sent := x.sent ++ [t] }).active t
    | _, _ => s)
/-- LAUNCH_MESSAGE_WRITE, R258: the interface writes a launch message it holds when the ring has space. A ring disabled meanwhile takes
nothing, and the core's part is over. -/
def execLaunchMessageWrite (c : CoreId) (s : State) : Out State :=
  .next (match (s.core c).heldLaunch with
    | [] => s
    | (chan, d, pl) :: r =>
      let hs := Config.freeTransit s.fresh
      let lat := latOf (hs.toNat % 256) (hs.toNat / 256) 0 chan false
      match ringPut (s.tile c.site) c.kind chan d lat pl [] with
      | .full => s
      | .ok t =>
        let s := ({ s with fresh := s.fresh + 1 }.setTile c.site t).active c.site
        s.modCore c fun k => { k with heldLaunch := r }
      | _ =>
        let s := match (s.core c).launch with
          | some ctx => s.modLaunch ctx fun x => if x.ends.contains c then x else { x with ends := x.ends ++ [c], err := x.err ||| 0x80 }
          | none => s
        s.modCore c fun k => { k with heldLaunch := r, launch := none })

/-! ### The end of a launch (R259, R260) -/

/-- R260: every enabled core of a tile has ended its part. -/
def arrived (l : Launch) (t : Site) : Bool := l.sent.contains t && l.ch.all fun x => l.ends.contains ⟨t, x.1⟩
/-- The working tiles of a cluster. -/
def clusterTiles (s : State) (p : Place) (cl : List (Nat × Nat)) : List Site :=
  cl.filterMap fun x => match s.siteOfName p.vni x.1 with
    | some t => if s.gone t then none else some t
    | none => none
/-- CLUSTER_LEAVE, R260: every member has arrived, and all leave. -/
def execClusterLeave (place cluster : Nat) (s : State) : Out State :=
  .next (match s.placeNo place with
    | none => s
    | some p =>
      match p.admitted.bind s.launch, p.clusters[cluster]? with
      | some l, some cl =>
        let ts := clusterTiles s p cl
        if p.swapped || !(ts.all (arrived l)) then s
        else ts.foldl (fun s t => s.modTile t fun x => { x with left := x.cluster.map (·.1) }) s
      | _, _ => s)
/-- R259: a tile's part of a launch is over. -/
def partOver (s : State) (l : Launch) (t : Site) : Bool := arrived l t && ((s.tile t).cluster.all fun x => (s.tile t).left.contains x.1)
/-- LAUNCH_STATUS_WORD, R259: a tile's status word is combined up the tree, after those of its children; with the last one the completion
record is written. A launch that has lost a tile ends by its tear-down only (R390). -/
def execLaunchStatusWord (ctx : Nat) (t : Site) (s : State) : Out State :=
  .next (match s.launch ctx, s.qctx ctx with
    | some l, some q =>
      match s.placeOf l with
      | none => s
      | some p =>
        if l.doomed || l.tiles.contains t || p.swapped || !(s.placeTiles p).contains t || !partOver s l t
            || ((s.placeTiles p).any fun u => parentIn s q p u == some t && !l.tiles.contains u) then s
        else
          let l' := { l with tiles := l.tiles ++ [t] }
          if (s.placeTiles p).all l'.tiles.contains then
            (endLaunch s q l p (l.count % 2 ^ 24 + l.err % 256 * 2 ^ 24) 0).2
          else s.modLaunch ctx fun _ => l'
    | _, _ => s)

/-! ### Tear-down (R418) -/

/-- R418 steps 1 and 2 at one core: dispatch stops and its activations end as an Abort cause ends them. A CAPREVOKE that it waits for is its
own no more. -/
def tearCore (s : State) (c : CoreId) : State :=
  let s := { s with regions := s.regions.map fun r => { r with revoking := r.revoking.filter (· != c) } }
  let one := fun (s : State) (hi : Bool) => if ((s.core c).bank hi).act.isSome then endAct (abortAct s c hi) c hi else s
  (letGo (one (one s true) false) c).modCore c fun k =>
    { k with heldLaunch := [], launch := none, ptrap := none, wait := none, req := none, ans := none }
/-- R237: the operations of an engine context cancelled. -/
def cancelOps (x : Engine) : Engine := { x with fault := none, ops := x.ops.map fun o => if o.phase = 2 then o else { o with phase := 2, status := 2 } }
/-- PLACEMENT_TEARDOWN: the island stops and ends what runs, then halts the quiet cores, then cancels the copies, then writes the record;
the step does what can be done at its moment, and is repeated until the record is written. -/
def execPlacementTeardown (place : Nat) (s : State) : Out State :=
  .next (match s.placeNo place with
    | none => s
    | some p =>
      match p.admitted.bind s.launch, p.admitted.bind s.qctx with
      | some l, some q =>
        if p.swapped then s
        else
          let ts := s.placeTiles p
          let cs := ts.flatMap fun t => kinds.map fun k => (⟨t, k⟩ : CoreId)
          let s1 := cs.foldl tearCore (ts.foldl (fun s t => s.modTile t fun x => { x with stopped := true, torn := true }) s)
          if !(cs.all fun c => quietCore s1 c) then s1
          else
            let s2 := cs.foldl (fun s c => s.modCore c fun k => { k with halted := true }.block 2 0 0xFFFF) s1
            let ours := s2.engines.filter fun x => ts.contains x.site && x.away.isNone
            let s2 := { ours.foldl (fun s x => unwait s (ofEngine x.num)) s2 with
              engines := mapIf s2.engines (fun x => ts.contains x.site && x.away.isNone) cancelOps }
            if s2.engines.any fun x => ts.contains x.site && x.away.isNone && !x.ops.isEmpty then s2
            else
              match endLaunch s2 q l p 0x80000000 2 with
              | (false, s) => s
              | (true, s) => ts.foldl (fun s t => s.modTile t fun x => { x with stopped := false, torn := false, left := x.cluster.map (·.1) }) s
      | _, _ => s)

end Sys2Proof.Machine
end

