-- ==== Sys2Proof/Machine/Ingest.lean ====
section
/-! DEFINITION. Ethernet ports: ingest rules, frames, flow control, edge rings, and egress (R308 to R318). -/

namespace Sys2Proof.Machine

/-! ### Frames (R309) -/

/-- One bit of the Ethernet frame check sequence. -/
def crcStep (poly c : Nat) : Nat := if c % 2 = 1 then c / 2 ^^^ poly else c / 2
/-- A reflected 32-bit CRC of bytes, from a start value, before its final inversion. -/
def crcBytes (poly c : Nat) (l : List Byte) : Nat :=
  match l with
  | [] => c
  | b :: r =>
    let x := c ^^^ b.toNat
    crcBytes poly (crcStep poly (crcStep poly (crcStep poly (crcStep poly (crcStep poly (crcStep poly (crcStep poly (crcStep poly x)))))))) r
/-- The FCS of a frame. -/
def fcsOf (l : List Byte) : BitVec 32 := BitVec.ofNat 32 (crcBytes 0xEDB88320 0xFFFFFFFF l ^^^ 0xFFFFFFFF)

/-- A byte of a frame, and a big-endian 16-bit field. -/
def fb (f : List Byte) (i : Nat) : Nat := (f.getD i 0).toNat
def fh (f : List Byte) (i : Nat) : Nat := 256 * fb f i + fb f (i + 1)
/-- A VLAN tag stands at an offset. -/
def tagAt (f : List Byte) (i : Nat) : Bool := fh f i == 0x8100 || fh f i == 0x88A8
/-- R309: the offset of the EtherType, after up to two tags. -/
def etherAt (f : List Byte) : Nat := if tagAt f 12 then (if tagAt f 16 then 20 else 16) else 12
/-- Header fields that a rule tests. -/
def Rule.bit (r : Rule) (i : Nat) : Bool := r.w0.getLsbD i
def Rule.vid (r : Rule) : Nat := W.bits r.w0 10 12
def Rule.ethertype (r : Rule) : Nat := W.bits r.w0 22 16
def Rule.udpdst (r : Rule) : Nat := W.bits r.w0 38 16
def Rule.seqctr (r : Rule) : Nat := W.bits r.w0 54 6

/-- R309: where the IP payload of a frame begins and ends, its protocol number, and whether it may hold a UDP header; none where the
frame is not of the version or is shorter than it states. -/
def ipOf (f : List Byte) (six : Bool) : Option (Nat × Nat × Nat × Bool) :=
  let e := etherAt f
  let i := e + 2
  if six then
    let n := i + 40 + fh f (i + 4)
    if fh f e == 0x86DD && fb f i / 16 == 6 && decide (n ≤ f.length) then some (i + 40, n, fb f (i + 6), true) else none
  else
    let h := fb f i % 16 * 4
    let n := i + fh f (i + 2)
    if fh f e == 0x0800 && fb f i / 16 == 4 && decide (i + h ≤ f.length ∧ n ≤ f.length) then
      some (i + h, n, fb f (i + 9), fh f (i + 6) % 0x2000 == 0)
    else none
/-- R309: the UDP payload that begins with the header at `lo`, of a frame that holds the header's port and length fields (log 85). -/
def udpOf (f : List Byte) (lo : Nat) : Option (Nat × Nat) :=
  let n := fh f (lo + 4)
  if lo + 6 ≤ f.length ∧ lo + n ≤ f.length then some (lo + 8, lo + n) else none
/-- R309: the payload that a rule delivers of a frame; none where it does not take the frame. -/
def Rule.take (r : Rule) (f : List Byte) : Option (List Byte) :=
  let cut := fun (lo hi : Nat) => (f.take hi).drop lo
  let e := etherAt f
  if r.bit 1 && !(tagAt f 12 && fh f 14 % 4096 == r.vid) then none
  else if r.bit 2 && fh f e != r.ethertype then none
  else if !r.bit 3 then some (cut (e + 2) f.length)
  else match ipOf f (r.bit 9) with
    | none => none
    | some (lo, hi, proto, first) =>
      if !r.bit 4 then some (cut lo hi)
      else if proto ≠ 17 ∨ first = false ∨ fh f (lo + 2) ≠ r.udpdst then none
      else (udpOf f lo).map fun x => cut x.1 x.2

/-! ### Ports and rules -/

/-- Where a rule delivers: the tile, or its saved image while it is swapped out; none for a hole or an unbound name. -/
def ruleTgt (s : State) (r : Rule) : Tgt :=
  let v := cvni r.cap
  let n := cname r.cap
  if (s.image v n).isSome then .image v n
  else match s.siteOfName v n with
    | some t => if s.gone t then .none else .tile t
    | none => .none
/-- Fields of the words of an edge rule (R315). -/
def Rule.ebase (r : Rule) : Nat := W.bits r.e0 0 57
def Rule.esize (r : Rule) : Nat := 2 ^ W.bits r.e1 0 6
def Rule.pasid (r : Rule) : Nat := W.bits r.e1 8 20
def Rule.cword (r : Rule) : Nat := W.bits r.e2 0 57
/-- R312, R315: the occupancy of a rule's ring: granules, or pages of an edge ring. -/
def ruleOcc (s : State) (r : Rule) : Nat :=
  if r.edge then ceilDiv (r.prod - r.cons) 4096
  else occupancy ((s.getTgt (ruleTgt s r)).core (capKind r.cap)) r.chan

/-- The number of a rule among the users of saved images. -/
def ruleUser (port idx : Nat) : Nat := 4 * (2 ^ 20 + 256 * port + idx) + 3
/-- The accesses of a rule, to edge memory and to saved images. -/
def ofRule (port idx : Nat) (k : Accessor) : Bool :=
  match k with
  | .rule p i => p == port && i == idx
  | .image _ _ u => u == ruleUser port idx
  | _ => false
/-- R312: XOFF for a rule whose occupancy exceeds HIWAT. -/
def xoffRule (s : State) (n idx : Nat) : State :=
  match (s.port n).bind (·.rule idx) with
  | none => s
  | some r =>
    if r.en && r.fcen && !r.paused && decide (r.hiwat < ruleOcc s r) then
      s.modPort n fun p => { p with rules := mapIf p.rules (·.idx == idx) (fun x => { x with paused := true })
                                    sentPause := p.sentPause ++ [(r.prio, 0xFFFF)] }
    else s
/-- Two rules write to one tile ring: records, or notices of edge rings. -/
def sameRing (x y : Rule) : Bool :=
  cvni x.cap == cvni y.cap && cname x.cap == cname y.cap && capKind x.cap == capKind y.cap && x.chan == y.chan
/-- R312: XOFF for every rule whose occupancy a frame has raised that rule `r` of a port took: that of its tile ring, and for an edge rule that
of its own edge ring. -/
def xoffAll (s : State) (n : Nat) (r : Rule) : State :=
  s.ports.foldl (fun s p => p.rules.foldl (fun s x =>
    if (if x.edge then p.num == n && x.idx == r.idx else sameRing x r) then xoffRule s p.num x.idx else s) s) s

/-- R316: the next value of a sequence counter. -/
def nextSeqctr (s : State) (n : Nat) : Nat × State :=
  let v := (lookup s.seqctrs n).getD 0
  (v, { s with seqctrs := insert s.seqctrs n ((v + 1) % 2 ^ 48) })

/-! ### Edge rings (R315) -/

/-- The physical places of `n` bytes at an offset of an edge ring, 64 bytes at a time; none where one does not translate. -/
def ringPlaces (s : State) (r : Rule) (off n : Nat) : Option (List (Nat × Bool)) :=
  ((List.range (ceilDiv n 64)).map fun i => etranslate s r.pasid (r.ebase + (off + 64 * i) % r.esize) true).foldr
    (fun x l => match x, l with
      | some x, some l => some (x :: l)
      | _, _ => none) (some [])
/-- Bytes written 64 at a time. -/
def storeChunks (s : State) (ps : List (Nat × Bool)) (bs : List Byte) : State :=
  match ps with
  | [] => s
  | p :: r => storeChunks (s.estore p (bs.take 64)) r (bs.drop 64)
/-- R315: the engine reads a rule's consume word: false while an owner transfer must come first. -/
def readConsume (s : State) (n : Nat) (r : Rule) : Bool × State :=
  let s := touchPage s r.pasid r.cword false
  match etranslate s r.pasid r.cword false with
  | none => (true, s.modRule n r.idx fun x => { x with err := x.err + 1 })
  | some p =>
    match access s (.rule n r.idx) true (regionsOf p 8) with
    | (false, s) => (false, s)
    | (true, s) =>
      let v := leNat (s.ebytes p 8)
      if r.cons ≤ v ∧ v ≤ r.prod then
        let s := s.modRule n r.idx fun x => { x with cons := v }
        (true, s.modPort n fun p => match p.rule r.idx with
          | some y => xonRule p y (ceilDiv (y.prod - y.cons) 4096)
          | none => p)
      else (true, s.modRule n r.idx fun x => { x with err := x.err + 1 })
/-- R243: the pad and the bytes of a record of `len` payload bytes at an offset of an edge ring. -/
def edgeNeed (r : Rule) (len : Nat) : Nat × Nat :=
  let n := roundUp (16 + len) 64
  let pos := r.prod % r.esize
  (if pos + n > r.esize then r.esize - pos else 0, n)
def edgeFits (r : Rule) (len : Nat) : Bool :=
  decide ((edgeNeed r len).1 + (edgeNeed r len).2 + (r.prod - r.cons) ≤ r.esize)

/-! ### Taking a frame (R310 to R313, R315) -/

/-- R313: a taken frame is dropped; `f` advances its counter. -/
def dropFrame (s : State) (n : Nat) (r : Rule) (f : Rule → Rule) : State := s.modRule n r.idx f
def noFit (s : State) (n : Nat) (r : Rule) : State :=
  dropFrame s n r fun x => if x.fcen then { x with overrun := x.overrun + 1 } else { x with nofit := x.nofit + 1 }
def unreach (s : State) (n : Nat) (r : Rule) : State := dropFrame s n r fun x => { x with unreach := x.unreach + 1 }
/-- R310: the ingest header. -/
def ingestHeader (seq port idx : Nat) : List Byte := leBytes 8 (seq % 2 ^ 48 + port % 32 * 2 ^ 48 + idx % 256 * 2 ^ 56)
/-- R310: the descriptor of an ingest record. -/
def ingestDesc (r : Rule) (len seq port : Nat) : W := descOf len 0 false false 0xFFFF (seq % 65536) (0x80 + port) (routeTag (capKind r.cap) r.chan)
/-- R340, R341: what a rule delivers is of its capability's region; at a tile whose router does not permit that, or that is of another
region, it is quarantined: the failed check (log 104). -/
def ingestStray (s : State) (r : Rule) : Option (Site × Nat) :=
  match ruleTgt s r with
  | .tile t =>
    if !(s.tile t).router.transit.contains (cvni r.cap) then some (t, 1)
    else if (s.tile t).vni ≠ cvni r.cap then some (t, 2) else none
  | _ => none
/-- Write a record in the rule's tile ring. -/
def tileRecord (s : State) (n : Nat) (r : Rule) (seq : Nat) (pl : List Byte) : State :=
  match ingestStray s r with
  | some (t, check) =>
    let h : PktHead := ⟨cvni r.cap, 0, ⟨t, capKind r.cap⟩, cname r.cap, t, capKind r.cap, r.chan, some (ingestDesc r pl.length seq n)⟩
    { s with reports := s.reports ++ [.quarantine t h check] }
  | none =>
  let hs := Config.freeTransit s.fresh
  let lat := latOf (hs.toNat % 256) (hs.toNat / 256) 0 r.chan false
  let to_ := ruleTgt s r
  match to_ with
  | .none => unreach s n r
  | _ =>
    match ringPut (s.getTgt to_) (capKind r.cap) r.chan (ingestDesc r pl.length seq n) lat pl [] true with
    | .ok t => State.modTgt { s with fresh := s.fresh + 1 } to_ fun _ => t
    | .closed => unreach s n r
    | _ => noFit s n r
/-- R315: the notice fits its tile ring: none where the destination is closed, a hole or unbound. -/
def noticeFits (s : State) (r : Rule) : Option Bool :=
  match ruleTgt s r with
  | .none => none
  | to_ =>
    let ring := ((s.getTgt to_).core (capKind r.cap)).ring r.chan
    if !ringEn ring then none else some (fits ring 24)
/-- R315: a frame into the edge ring and its notice; false while an owner transfer must come first. -/
def edgeRecord (s : State) (n : Nat) (r : Rule) (seq : Nat) (pl : List Byte) : Bool × State :=
  let body := ingestHeader seq n r.idx ++ pl
  match (if edgeFits r body.length then (true, s) else readConsume s n r) with
  | (false, s) => (false, s)
  | (true, s) =>
    match (s.port n).bind (·.rule r.idx) with
    | none => (true, s)
    | some r =>
      match noticeFits s r with
      | none => (true, unreach s n r)
      | some ok =>
        if !ok || !edgeFits r body.length then (true, noFit s n r)
        else
          let (pad, len) := edgeNeed r body.length
          let at_ := r.prod + pad
          match ringPlaces s r r.prod pad, ringPlaces s r at_ len with
          | some pp, some ps =>
            match access s (.rule n r.idx) true ((pp.take 1 ++ ps).flatMap fun p => regionsOf p 64) with
            | (false, s) => (false, s)
            | (true, s) =>
              let hs := Config.freeTransit s.fresh
              let lat := latOf (hs.toNat % 256) (hs.toNat / 256) 0 r.chan false
              let s := touchPages s r.pasid ((List.range (ceilDiv (pad + len) 64)).map fun i => r.ebase + (r.prod + 64 * i) % r.esize) true
              let s := storeChunks { s with fresh := s.fresh + 1 } (pp.take 1) (leBytes 8 0xFFF)
              let s := storeChunks s ps (leBytes 8 (ingestDesc r body.length seq n).toNat ++ leBytes 8 lat.toNat ++ body)
              let s := s.modRule n r.idx fun x => { x with prod := at_ + len }
              (true, tileRecord s n r seq (ingestHeader seq n r.idx ++ leBytes 8 at_ ++ leBytes 8 (16 + body.length)))
          | _, _ => (true, unreach s n r)
/-- R309: the rule that takes a frame, the first in ascending index, and the payload that it delivers. -/
def EthPort.taker (p : EthPort) (frame : List Byte) : Option (Rule × List Byte) :=
  p.rules.findSome? fun r => if r.en then (r.take frame).map fun pl => (r, pl) else none
/-- R316: the last beat of a frame that a rule takes reaches the merge point of its counter, before its record is written. -/
def lastBeat (s : State) (port : Nat) (frame : List Byte) : State :=
  match (s.port port).bind (·.taker frame) with
  | none => s
  | some (r, _) =>
    let (seq, s) := nextSeqctr s r.seqctr
    s.modPort port fun p => { p with tickets := p.tickets ++ [(frame, r.idx, seq)] }
/-- R316, R317: the sequence value of a frame that a rule takes: the one it has from the merge point, or the next; none while an earlier
frame of the rule at this port is still to be written. -/
def seqOf (s : State) (port : Nat) (p : EthPort) (r : Rule) (frame : List Byte) : Option (Nat × State) :=
  match p.tickets.find? (·.2.1 == r.idx) with
  | none => some (nextSeqctr s r.seqctr)
  | some t => if t.1 = frame then some (t.2.2, s.modPort port fun p => { p with tickets := p.tickets.erase t }) else none
/-- The values that a frame has from the merge points of rules that do not take it after all, having changed since its last beat; they go to no
record. -/
def EthPort.dropTickets (p : EthPort) (frame : List Byte) (taker : Option Nat) : EthPort :=
  { p with tickets := p.tickets.filter fun t => t.1 != frame || some t.2.1 == taker }
/-- FRAME_RECEIVE, R309: a frame with its FCS at a port. Where its record must wait for an owner transfer, nothing happens yet. -/
def execFrameReceive (port : Nat) (frame : List Byte) (fcs : BitVec 32) (s : State) : Out State :=
  .next (match s.port port with
    | none => s
    | some p =>
      if fcs ≠ fcsOf frame then s.modPort port fun p => { p with fcsErrors := p.fcsErrors + 1 }
      else match p.taker frame with
        | none => s.modPort port fun p => (({ p with osQueue := p.osQueue ++ [frame] } : EthPort).dropTickets frame none)
        | some (r, pl) =>
          let p := p.dropTickets frame (some r.idx)
          let s := s.modPort port fun p => p.dropTickets frame (some r.idx)
          match imageAccess s (ruleTgt s r) (ruleUser port r.idx), seqOf s port p r frame with
          | (false, s), _ => s
          | _, none => s
          | (true, s0), some (seq, _) =>
            let s1 := ((seqOf s0 port p r frame).map Prod.snd).getD s0
            let s1 := s1.modRule port r.idx fun x => { x with matched := x.matched + 1 }
            if 2040 < pl.length then dropFrame s1 port r fun x => { x with oversize := x.oversize + 1 }
            else if r.edge then
              match edgeRecord s1 port r seq pl with
              | (true, s2) => xoffAll s2 port r
              | (false, s2) => { s with owners := s2.owners }
            else xoffAll (tileRecord s1 port r seq (ingestHeader seq port r.idx ++ pl)) port r)
/-- XOFF_REPEAT, R312: 20 microseconds after the last one, while occupancy stays above LOWAT. -/
def execXoffRepeat (port rule waited : Nat) (s : State) : Out State :=
  .next (match (s.port port).bind (·.rule rule) with
    | none => s
    | some r =>
      if r.paused && decide (20 ≤ waited ∧ r.lowat < ruleOcc s r) then
        s.modPort port fun p => { p with sentPause := p.sentPause ++ [(r.prio, 0xFFFF)] }
      else s)
/-- CONSUME_WORD_REREAD, R315. -/
def execConsumeWordReread (port rule : Nat) (s : State) : Out State :=
  .next (match (s.port port).bind (·.rule rule) with
    | none => s
    | some r => if r.en && r.edge then (readConsume s port r).2 else s)

/-! ### Rules (R308) -/

/-- R308: a rule's seal passes the injection checks of its region. -/
def sealOk (s : State) (r : Rule) : Bool := (capCheckIn s (cvni r.cap) r.cap 0 (some r.chan) none).isNone
/-- R315: the checks of an edge rule on its three words; the consume word holds 0. -/
def edgeOk (s : State) (r : Rule) : Bool :=
  let k := W.bits r.e1 0 6
  decide (16 ≤ k ∧ k ≤ 36) && decide (r.ebase % 4096 = 0 ∧ r.cword % 8 = 0)
    && mapped s r.pasid r.ebase r.esize true && mapped s r.pasid r.ebase r.esize false
    && mapped s r.pasid r.cword 8 true && (match etranslate s r.pasid r.cword false with
      | some p => leNat (s.ebytes p 8) == 0
      | none => false)
/-- A rule with EN cleared and its ERR counter advanced. -/
def Rule.refuse (r : Rule) : Rule := { r with w0 := setBits r.w0 0 1 0, err := r.err + 1, paused := false }
/-- A port after a rule calls for no pause: XON when no other rule does. -/
def endPause (p : EthPort) (r : Rule) : EthPort :=
  if r.paused && !(p.rules.any fun x => x.paused && x.prio == r.prio) then { p with sentPause := p.sentPause ++ [(r.prio, 0)] } else p
/-- R359: a rule names a sequence counter that its region holds or no region holds, and for an edge ring a PASID of its region's device. -/
def Rule.owned (s : State) (r : Rule) : Bool :=
  (s.regions.all fun x => x.vni == cvni r.cap || !x.seqctrs.contains r.seqctr)
    && (s.ports.all fun p => p.rules.all fun x => !x.en || cvni x.cap == cvni r.cap || x.seqctr != r.seqctr)
    && (!r.edge || s.owned (cvni r.cap) (·.pasids) r.pasid)
/-- R316: a region's sequence counter, bound to it and 0 when the first of its rules names it (log 111). -/
def bindCounter (s : State) (vni n : Nat) : State :=
  if (s.region vni).all (·.seqctrs.contains n) then s
  else { s with seqctrs := s.seqctrs.filter (·.1 != n) }.modRegion vni fun r => { r with seqctrs := r.seqctrs ++ [n] }
/-- INGRULE_ENABLE, R308: island software writes a rule; setting EN makes its checks. It enables none with a counter or a PASID that is
another tenant's (R358, R359). While the consume word's region must change its
owner, nothing happens yet. -/
def execIngruleEnable (port rule : Nat) (w0 : W) (cap : Cap) (w3 e0 e1 e2 : W) (s : State) : Out State :=
  .next (match s.port port with
    | none => s
    | some p =>
      if 255 < rule then s
      else
        let old : Rule := (p.rule rule).getD (Rule.reset rule)
        let new : Rule := { old with w0 := keep w0 0 61, cap := cap, w3 := w (W.bits w3 0 6 + W.bits w3 8 30 * 2 ^ 8), e0 := keep e0 0 57,
                                     e1 := w (W.bits e1 0 6 + W.bits e1 8 20 * 2 ^ 8), e2 := keep e2 0 57, prod := 0, cons := 0, paused := false }
        let put := fun (s : State) (r : Rule) => s.modPort port fun p => endPause { p with rules := putRule p.rules r } old
        let s := unwait s (ofRule port rule)
        if !new.en then put s new
        else if !new.owned s then s
        else
          let (ready, s) := if new.edge then (match etranslate s new.pasid new.cword false with
              | some p => access s (.rule port rule) true (regionsOf p 8)
              | none => (true, s)) else (true, s)
          if !ready then s
          else if sealOk s new && (!new.fcen || decide (new.lowat < new.hiwat)) && (!new.bit 4 || new.bit 3) && (!new.edge || edgeOk s new) then
            put (bindCounter s (cvni new.cap) new.seqctr) new
          else put s new.refuse)
/-- R308, R352: every enabled rule of a region is checked again at a key change. -/
def recheckRules (s : State) (vni : Nat) : State :=
  { s with ports := s.ports.map fun p => p.rules.foldl (fun p r =>
      if r.en && cvni r.cap == vni && !sealOk s r then endPause { p with rules := putRule p.rules r.refuse } r else p) p }

/-! ### Egress and pauses (R318) -/

/-- PEER_PAUSE_RECEIVE: a priority flow control frame of the peer. -/
def execPeerPauseReceive (port prio quanta : Nat) (s : State) : Out State :=
  .next (s.modPort port fun p =>
    let l := p.pausedPrio.filter (· != prio % 8)
    { p with pausedPrio := if quanta % 65536 = 0 then l else l ++ [prio % 8] })
/-- The first frame of a priority, and the others. -/
def popFrame (prio : Nat) (l : List (Nat × List Byte)) : Option (List Byte) × List (Nat × List Byte) :=
  match l with
  | [] => (none, [])
  | x :: r => if x.1 = prio then (some x.2, r) else
      let y := popFrame prio r
      (y.1, x :: y.2)
/-- EGRESS_TRANSMIT: the oldest frame of a priority that is not paused leaves, with its FCS. -/
def execEgressTransmit (port prio : Nat) (s : State) : Out State :=
  .next (s.modPort port fun p =>
    if p.pausedPrio.contains prio then p
    else match popFrame prio p.egress with
      | (some f, l) => { p with egress := l, sent := p.sent ++ [f ++ leBytes 4 (fcsOf f).toNat] }
      | (none, _) => p)

end Sys2Proof.Machine
end

