-- ==== Sys2Proof/Machine/Route.lean ====
section
/-! DEFINITION. Routes of the two mesh planes: detour tables, dimension order, links (R263, R391, R392, R401). -/

namespace Sys2Proof.Machine

/-- Fields of a detour entry (R391). -/
def deValid (e : W) : Bool := e.getLsbD 36
def deOut (e : W) : Nat := W.bits e 33 3
def deMask (e : W) : Nat := W.bits e 28 5
def deHits (e : W) (d : Site) (arr : Nat) : Bool :=
  decide (W.bits e 0 7 ≤ d.x ∧ d.x ≤ W.bits e 7 7 ∧ W.bits e 14 7 ≤ d.y ∧ d.y ≤ W.bits e 21 7) && (deMask e).testBit arr

/-- The bank in force at a router for a VNI. -/
def Router.bank (r : Router) (vni : Nat) : List W := if r.sel.contains vni then r.bank1 else r.bank0
/-- R263: dimension order: along x, then along y. -/
def dimOrder (t d : Site) : Nat :=
  if t.x < d.x then 1 else if d.x < t.x then 3 else if t.y < d.y then 2 else 4
/-- R392: the direction of departure (1 east, 2 north, 3 west, 4 south). -/
def Router.out (r : Router) (t d : Site) (arr vni : Nat) : Nat :=
  match (r.bank vni).find? fun e => deValid e && deHits e d arr with
  | some e => deOut e
  | none => dimOrder t d
/-- The neighbour in a direction; none at the edge of the wafer. -/
def neighbour (t : Site) (dir : Nat) : Option Site :=
  match dir with
  | 1 => if t.x < 125 then some ⟨t.x + 1, t.y⟩ else none
  | 2 => if t.y < 125 then some ⟨t.x, t.y + 1⟩ else none
  | 3 => if 0 < t.x then some ⟨t.x - 1, t.y⟩ else none
  | 4 => if 0 < t.y then some ⟨t.x, t.y - 1⟩ else none
  | _ => none
/-- The number of the link that leaves a site in a direction: two for each site, its eastward and its northward one. -/
def linkNo (t : Site) (dir : Nat) : Nat :=
  match dir with
  | 1 => 2 * Site.num t
  | 2 => 2 * Site.num t + 1
  | 3 => 2 * Site.num ⟨t.x - 1, t.y⟩
  | _ => 2 * Site.num ⟨t.x, t.y - 1⟩ + 1
/-- A link by number; one not listed is up. -/
def State.link (s : State) (n : Nat) : LinkSt :=
  (s.links.find? (·.num == n)).getD { num := n, fore := ⟨0, 0, []⟩, back := ⟨0, 0, []⟩, down := false, tries := 0, returned := false, barred := false }
def State.setLink (s : State) (l : LinkSt) : State := { s with links := s.links.filter (·.num != l.num) ++ [l] }
/-- R14: the links of the packet plane, the circuit plane and the operand links, and those of the tree, each by its number among all links. -/
def planeLink (plane n : Nat) : Nat := 31752 * plane + n
/-- R10, R401: a link of the packet plane (0) or the circuit plane (1) that is declared down, or that leads to a router that does not work:
one declared dead, or that of a site marked dead at power-on. The router of a spare site that no row uses forwards (log 71). -/
def State.planeDown (s : State) (plane : Nat) (t : Site) (dir : Nat) : Bool :=
  (s.link (planeLink plane (linkNo t dir))).down || (match neighbour t dir with
    | some n => (s.tile n).router.dead || s.dead.contains n
    | none => true)
def State.linkDown (s : State) (t : Site) (dir : Nat) : Bool := s.planeDown 0 t dir

/-- The directed links of a route, each as a site and a direction. -/
def routeLinks (fuel : Nat) (s : State) (t d : Site) (arr vni : Nat) : List (Site × Nat) :=
  match fuel with
  | 0 => []
  | k + 1 =>
    if t = d then []
    else
      let o := Router.out (s.tile t).router t d arr vni
      match neighbour t o with
      | some n => (t, o) :: routeLinks k s n d o vni
      | none => []
/-- R291: the circuit-plane route between two tiles. -/
def circuit (s : State) (t d : Site) (vni : Nat) : List (Site × Nat) := routeLinks 500 s t d 0 vni
/-- The direction from a site to its neighbour; 0 where the two are not neighbours. -/
def dirTo (a b : Site) : Nat := ((List.range 5).find? fun d => neighbour a d == some b).getD 0
/-- Every link of a circuit over some routers is up. -/
def circuitUp (s : State) (via : List Nat) : Bool :=
  (via.zip (via.drop 1)).all fun x => !s.planeDown 1 (siteOf x.1) (dirTo (siteOf x.1) (siteOf x.2))
/-- The routers of a route, by number. -/
def routersOf (l : List (Site × Nat)) (d : Site) : List Nat := l.map (fun x => Site.num x.1) ++ [Site.num d]

end Sys2Proof.Machine
end

