-- ==== Sys2Proof/Machine/Exchange.lean ====
section
/-! DEFINITION. The demand-scheduled exchange: demand vectors, DPOST, XNEXT, XEND, XSTAT, the arbiter's plan and the steps of interfaces and
arbiters (R289 to R304). -/

namespace Sys2Proof.Machine

/-! ### Demand vectors (R290) -/

/-- Fields of a demand vector, whose words are `l`. -/
def vXid (l : List W) : Nat := W.bits (l.getD 0 0) 0 16
def vXseq (l : List W) : Nat := W.bits (l.getD 0 0) 16 16
def vRank (l : List W) : Nat := W.bits (l.getD 0 0) 32 10
def vNrank (l : List W) : Nat := W.bits (l.getD 0 0) 48 11
def vQlog (l : List W) : Nat := W.bits (l.getD 1 0) 0 3
def vResid (l : List W) : Bool := (l.getD 1 0).getLsbD 3
def vPrimary (l : List W) : Nat := W.bits (l.getD 1 0) 8 6
def vStandby (l : List W) : Nat := W.bits (l.getD 1 0) 16 6
def vNpair (l : List W) : Nat := W.bits (l.getD 1 0) 24 11
def vCalBase (l : List W) : Nat := W.bits (l.getD 2 0) 0 22
def vCalLog (l : List W) : Nat := W.bits (l.getD 2 0) 24 4
def vRxBase (l : List W) : Nat := W.bits (l.getD 2 0) 32 22
def vRxLen (l : List W) : Nat := W.bits (l.getD 3 0) 0 32
def vRxTab (l : List W) : Nat := W.bits (l.getD 3 0) 32 22
/-- Pair i: destination, bytes, source address. -/
def vPair (l : List W) (i : Nat) : Nat × Nat × Nat :=
  let x := l.getD (4 + 2 * i) 0
  (W.bits x 0 10, W.bits x 32 32, W.bits (l.getD (5 + 2 * i) 0) 0 22)
def vPairs (l : List W) : List (Nat × Nat × Nat) := (List.range (vNpair l)).map (vPair l)

/-- No destination of a list of pairs stands twice. -/
def destsDistinct : List (Nat × Nat × Nat) → Bool
  | [] => true
  | x :: r => !(r.any fun y => y.1 == x.1) && destsDistinct r
/-- R290: a rule of the header, or of a pair, fails. -/
def headBad (l : List W) : Bool :=
  let w0 := l.getD 0 0
  let w1 := l.getD 1 0
  let w2 := l.getD 2 0
  let w3 := l.getD 3 0
  W.bits w0 42 6 != 0 || W.bits w0 59 5 != 0 || W.bits w1 4 4 != 0 || W.bits w1 14 2 != 0 || W.bits w1 22 2 != 0 || W.bits w1 35 29 != 0
    || W.bits w2 22 2 != 0 || W.bits w2 28 4 != 0 || W.bits w2 54 10 != 0 || W.bits w3 54 10 != 0
    || decide (vNrank l < 2 ∨ 1024 < vNrank l ∨ vNrank l ≤ vRank l ∨ 5 < vQlog l ∨ vNrank l ≤ vNpair l)
    || vPrimary l == vStandby l || vCalBase l % 64 != 0 || decide (vCalLog l < 4 ∨ 10 < vCalLog l) || vRxBase l % 64 != 0
    || vRxLen l % 64 != 0 || vRxTab l % 8 != 0
    || decide (0x002C0000 < vCalBase l + 16 * 2 ^ vCalLog l ∨ 0x002C0000 < vRxBase l + vRxLen l ∨ 0x002C0000 < vRxTab l + 16 * vNrank l)
def pairBad (l : List W) (i : Nat) : Bool :=
  let p := vPair l i
  W.bits (l.getD (4 + 2 * i) 0) 10 22 != 0 || W.bits (l.getD (5 + 2 * i) 0) 22 42 != 0 || p.2.1 == 0 || p.2.1 % 64 != 0
    || p.2.2 % 64 != 0 || p.1 == vRank l || decide (vNrank l ≤ p.1 ∨ 0x002C0000 < p.2.2 + p.2.1)
def vectorBad (l : List W) : Bool :=
  headBad l || (List.range (vNpair l)).any (pairBad l) || !destsDistinct (vPairs l)

/-- DPOST, R301: the vector is read and latched; a bad one is answered at once. -/
def bodyDpost (e : Enc) (s : State) : Eff :=
  let a := s.me.g e.b
  readBlock (.dpost e) a 4 s fun h s =>
    readBlock (.dpost e) (a + 32) (2 * vNpair h) s fun ps s =>
      let l := h ++ ps
      if vectorBad l then .ok (s.modMe fun k => k.writeW e.L .g e.a 1)
      else ask (.dpost e) (.dpost l) 8 s
def execDpost (e : Enc) (s : State) : Out State := issue (.dpost e) {} (fun _ e s => bodyDpost e s) s
/-- DPOST_ANSWER, R301. -/
def execDpostAnswer (c : CoreId) (s : State) : Out State :=
  let k := s.core c
  .next (match k.req, k.ans with
    | some (.dpost _), some x => answered s c x
    | _, _ => s)

/-! ### Exchanges and interfaces -/

/-- The number of the virtual device of a region; 1024 where it belongs to none. -/
def vdevNum (s : State) (vni : Nat) : Nat := ((s.vdevOf vni).map (·.num)).getD 1024
/-- R359: how many exchanges a virtual device may have open. -/
def xQuota (s : State) (vni : Nat) : Nat := ((s.vdevOf vni).map (·.xquota)).getD 4
/-- An open exchange of a device. -/
def State.exch (s : State) (xid vdev : Nat) : Option Exch := s.exchs.find? fun x => x.xid == xid && x.vdev == vdev
/-- Replace an exchange. -/
def State.setExch (s : State) (x : Exch) : State := { s with exchs := mapIf s.exchs (fun y => y.xid == x.xid && y.vdev == x.vdev) fun _ => x }
/-- The exchange of a tile's interface. -/
def exchOf (s : State) (t : Site) (i : XIf) : Option Exch := (s.exch i.xid (vdevNum s (s.liveTile t).vni)).filter (·.xseq == i.xseq)
/-- The exchange interface of a tile, be it swapped out. -/
def State.xifAt (s : State) (t : Site) : Option XIf := (s.liveTile t).xif
/-- Change the interface of a tile. -/
def State.modXif (s : State) (t : Site) (f : XIf → XIf) : State := s.modLive t fun x => { x with xif := x.xif.map f }
/-- The tile of a rank. -/
def Exch.siteOf (x : Exch) (r : Nat) : Option Site := (x.posts.find? (·.rank == r)).map (·.site)
/-- The interface at a tile stands in this exchange: no later post of its flow core has put it into another one. -/
def Exch.has (x : Exch) (i : XIf) : Bool := i.xid == x.xid && i.xseq == x.xseq
/-- Change the interfaces of every rank that still stand in the exchange. -/
def modRanks (s : State) (x : Exch) (f : Nat → XIf → XIf) : State :=
  x.posts.foldl (fun s p => s.modXif p.site fun i => if x.has i then f p.rank i else i) s
/-- The quantum. -/
def Exch.q (x : Exch) : Nat := 2 ^ (13 + x.qlog)

/-! ### The plan (R291, R292, R295, R297) -/

/-- A stream still to plan: ranks, round, bytes not yet granted, its route and routers. -/
structure Todo where
  s : Nat
  d : Nat
  bytes : Nat
  links : List (Site × Nat)
  via : List Nat
deriving DecidableEq, Repr

/-- D[s][d] of a stream. -/
def Todo.quanta (x : Todo) (q : Nat) : Nat := ceilDiv x.bytes q
/-- R291: rank s chooses: the largest D, ties to the smallest (d − s) mod NRANK. -/
def pickDest (nrank q : Nat) (l : List Todo) : Option Todo :=
  l.foldl (fun b x => match b with
    | none => some x
    | some y =>
      if y.quanta q < x.quanta q ∨ (y.quanta q = x.quanta q ∧ (x.d + nrank - x.s) % nrank < (y.d + nrank - y.s) % nrank) then some x
      else some y) none
/-- R291: one phase: its grants (stream and bytes) and what is left. -/
def planPhase (nrank q : Nat) (useLinks : Bool) (l : List Todo) : List (Todo × Nat) × List Todo :=
  let r := (List.range nrank).foldl (fun (acc : List (Todo × Nat) × List Nat × List (Site × Nat)) s =>
    let cand := l.filter fun x => x.s == s && x.bytes != 0 && !acc.2.1.contains x.d
      && !(useLinks && x.links.any fun k => acc.2.2.contains k)
    match pickDest nrank q cand with
    | none => acc
    | some x => (acc.1 ++ [(x, Nat.min q x.bytes)], x.d :: acc.2.1, x.links ++ acc.2.2)) ([], [], [])
  (r.1, l.map fun x => if r.1.any fun y => y.1.s == x.s && y.1.d == x.d then { x with bytes := x.bytes - Nat.min q x.bytes } else x)
/-- R291: the phases of a round. -/
def planPhases (fuel nrank q : Nat) (useLinks : Bool) (l : List Todo) : List (List (Todo × Nat)) :=
  match fuel with
  | 0 => []
  | k + 1 =>
    if l.all fun x => x.bytes == 0 then []
    else
      let (g, l') := planPhase nrank q useLinks l
      g :: planPhases k nrank q useLinks l'
/-- The quanta of a round, a bound on its phases. -/
def quantaOf (q : Nat) (l : List Todo) : Nat := (l.map fun x => x.quanta q).sum
/-- A stream of an exchange as something to plan. -/
def todoOf (st : State) (x : Exch) (s d bytes : Nat) : Option Todo :=
  match x.siteOf s, x.siteOf d with
  | some a, some b =>
    let l := circuit st a b (st.liveTile a).vni
    some { s := s, d := d, bytes := bytes, links := l, via := routersOf l b }
  | _, _ => none
/-- Number the grants of some phases from `base`. -/
def grantsOf (base : Nat) (resid : Bool) (l : List (List (Todo × Nat))) : List Grant :=
  ((List.range l.length).zip l).flatMap fun p => p.2.map fun g =>
    { phase := base + p.1, s := g.1.s, d := g.1.d, bytes := g.2, resid := resid, label := none, via := g.1.via, done := false }

/-- R293: the PHASE entry of a rank for a phase, with its label once set; none where the rank neither sends nor receives. -/
def phaseEntry (l : List Grant) (r p : Nat) : Option CalEntry :=
  let out := l.find? fun g => g.phase == p && g.s == r
  let inn := l.find? fun g => g.phase == p && g.d == r
  if out.isNone && inn.isNone then none
  else
    let o := out.getD { phase := 0, s := 0, d := 0, bytes := 0, resid := false, label := none, via := [], done := false }
    let i := inn.getD { phase := 0, s := 0, d := 0, bytes := 0, resid := false, label := none, via := [], done := false }
    some ⟨w (1 + b01 out.isSome * 2 ^ 4 + b01 inn.isSome * 2 ^ 5 + p % 2 ^ 16 * 2 ^ 16 + o.d % 1024 * 2 ^ 32 + i.s % 1024 * 2 ^ 42
        + o.label.getD 0 % 256 * 2 ^ 52), w (o.bytes % 2 ^ 32 + i.bytes % 2 ^ 32 * 2 ^ 32)⟩
/-- An entry without data: MAIN_END 2, END 3, LOST 4. -/
def plainEntry (kind phase speer : Nat) : CalEntry := ⟨w (kind + phase % 2 ^ 16 * 2 ^ 16 + speer % 1024 * 2 ^ 32), 0⟩
/-- The entries of some new phases for every rank, in ascending phase order, and one more entry for each rank `last` answers. -/
def entriesFor (nrank : Nat) (l : List Grant) (lo n : Nat) (last : Nat → Option CalEntry) : List (Nat × CalEntry) :=
  (List.range nrank).flatMap fun r =>
    ((List.range n).filterMap fun p => phaseEntry l r (lo + p)).map (fun e => (r, e)) ++ ((last r).map fun e => (r, e)).toList

/-- R295: offsets of the streams at destination d, each in a region of its stated bytes; the key is the row of RXTAB. -/
def offsets (d start : Nat) (l : List (Nat × List (Nat × Nat × Nat))) (key : Nat → Nat) : List (Nat × Nat) × Nat :=
  l.foldl (fun (acc : List (Nat × Nat) × Nat) x =>
    match x.2.find? fun p => p.1 == d with
    | some p => (acc.1 ++ [(key x.1, acc.2)], acc.2 + p.2.1)
    | none => acc) ([], start)
/-- Posts in rank order. -/
def Exch.byRank (x : Exch) : List Post := (List.range x.nrank).filterMap fun r => x.posts.find? (·.rank == r)
/-- Bytes of the main streams to d. -/
def Exch.mainTo (x : Exch) (d : Nat) : Nat := (offsets d 0 (x.byRank.map fun p => (p.rank, p.pairs)) id).2

/-- R295: the lowest rank at which the main streams do not fit. -/
def Exch.mainFull (x : Exch) : Option Nat := (x.byRank.find? fun p => decide (p.rxLen < x.mainTo p.rank)).map (·.rank)
/-- R291, R293, R295: plan the main round: its grants and entries, the receive offsets, and what XSTAT reads; LOST alone where the main
streams of a destination do not fit. -/
def planMain (s : State) (x : Exch) : State :=
  match x.mainFull with
  | some d => s.setExch { x with planned := true, queue := (List.range x.nrank).map fun r => (r, plainEntry 4 0 d) }
  | none =>
    let todo := x.byRank.flatMap fun p => p.pairs.filterMap fun y => todoOf s x p.rank y.1 y.2.1
    let n := quantaOf x.q todo
    let withL := planPhases n x.nrank x.q true todo
    let without := planPhases n x.nrank x.q false todo
    let g := grantsOf 0 false withL
    let pP := withL.length
    let x' := { x with planned := true, grants := g, pP := pP, pP0 := without.length, linkx := pP - without.length,
                       queue := entriesFor x.nrank g 0 pP fun _ => some (plainEntry 2 pP 0) }
    modRanks (s.setExch x') x' fun r i =>
      { i with state := 2, pP := pP, pP0 := x'.pP0, linkx := x'.linkx,
               rxOff := (offsets r 0 (x.byRank.map fun p => (p.rank, p.pairs)) id).1 }

/-- R297: the residual streams to d that fit: dropped in descending source rank until the rest do. -/
def fitResid (room : Nat) (l : List (Nat × Nat)) : List Nat :=
  (List.range (l.length + 1)).foldl (fun best n =>
    if decide (((l.take n).map Prod.snd).sum ≤ room) then (l.take n).map Prod.fst else best) []
/-- The source ranks whose residual streams to d are granted. -/
def Exch.residTo (x : Exch) (d : Nat) : List Nat :=
  let room := ((x.posts.find? (·.rank == d)).map (·.rxLen)).getD 0 - x.mainTo d
  fitResid room (x.byRank.filterMap fun p => (p.residual.find? fun y => y.1 == d).map fun y => (p.rank, y.2.1))
/-- A residual stream is granted. -/
def Exch.residOk (x : Exch) (r : Nat) (y : Nat × Nat × Nat) : Bool := (x.residTo y.1).contains r
/-- R297: plan the residual round, numbered from P. -/
def planResid (s : State) (x : Exch) : State :=
  let todo := x.byRank.flatMap fun p => (p.residual.filter (x.residOk p.rank)).filterMap fun y => todoOf s x p.rank y.1 y.2.1
  let ph := planPhases (quantaOf x.q todo) x.nrank x.q true todo
  let g := grantsOf x.pP true ph
  let n := ph.length
  let x' := { x with residPlanned := true, residPhases := n, grants := x.grants.map (fun y => { y with label := none }) ++ g,
                     queue := x.queue ++ entriesFor x.nrank g x.pP n fun _ => some (plainEntry 3 (x.pP + n) 0) }
  modRanks (s.setExch x') x' fun r i =>
    let off := (offsets r (x.mainTo r) (x.byRank.map fun p => (p.rank, p.residual.filter (x.residOk p.rank))) fun k => x.nrank + k).1
    let ref := (((x.posts.find? (·.rank == r)).map (·.residual)).getD []).filter fun y => !x.residOk r y
    { i with state := 3, residPhases := n, rxOff := i.rxOff ++ off, refused := i.refused + (ref.map fun y => y.2.1).sum }

/-! ### The arbiter (R289, R292, R293, R301) -/

/-- The streams of a list of pairs. -/
def streamsOf (resid : Bool) (l : List (Nat × Nat × Nat)) : List XStream :=
  l.map fun p => { dest := p.1, resid := resid, bytes := p.2.1, src := p.2.2, actual := p.2.1, granted := 0, sent := 0, last := false }
/-- The interface of a tile whose main post has been accepted. -/
def openXif (l : List W) (x : Exch) : XIf :=
  { isOpen := true, xid := vXid l, xseq := vXseq l, rank := vRank l, nrank := vNrank l, calBase := vCalBase l, calLog := vCalLog l,
    rxBase := vRxBase l, rxLen := vRxLen l, rxTab := vRxTab l, written := 0, popped := 0, ring := [], queue := [], started := false,
    sendDone := false, recvDone := false, readies := [], markers := [], streams := streamsOf false (vPairs l), rxOff := [], rxGot := [],
    phaseDone := [], ends := [], state := 1, pP := 0, pP0 := 0, linkx := 0, residPhases := 0, waste := 0, refused := 0, abandoned := 0,
    failover := !x.hasStandby, serving := x.serving, closing := none, top := 0, paused := false, head := l.take 4, mainOver := false }
/-- A new exchange, served by the standby where the primary's arbiter has failed (log 89). -/
def openExch (l : List W) (vdev : Nat) (down : List Nat) : Exch :=
  let spare := down.contains (vPrimary l)
  { xid := vXid l, xseq := vXseq l, vdev := vdev, nrank := vNrank l, qlog := vQlog l, primary := vPrimary l, standby := vStandby l,
    serving := if spare then vStandby l else vPrimary l, hasStandby := !spare, posts := [], planned := false, residPlanned := false, grants := [], queue := [], pP := 0,
    pP0 := 0, linkx := 0, residPhases := 0, mainEnds := [], ends := [], lost := false, reports := [], taking := false, beat := 0 }
/-- The post of a rank. -/
def postOf (t : Site) (l : List W) : Post :=
  { rank := vRank l, site := t, pairs := vPairs l, residual := [], rxLen := vRxLen l, calLog := vCalLog l }
/-- R301: accept a main post. -/
def addMain (s : State) (t : Site) (x : Exch) (l : List W) : State :=
  let x := { x with posts := x.posts ++ [postOf t l] }
  let s := (s.setExch x).modTile t fun y => { y with xif := some (openXif l x) }
  if x.posts.length = x.nrank ∧ x.taking = false then planMain s x else s
/-- R301: the header fields that every main post repeats. -/
def sameExch (x : Exch) (l : List W) : Bool :=
  x.xseq == vXseq l && x.nrank == vNrank l && x.qlog == vQlog l && x.primary == vPrimary l && x.standby == vStandby l
/-- R301: the answer to a main post. -/
def mainPost (s : State) (t : Site) (l : List W) : Nat × State :=
  let vni := (s.tile t).vni
  let vd := vdevNum s vni
  let mine := (s.tile t).xif.filter (·.isOpen)
  if mine.any fun i => !(i.xid == vXid l && i.xseq == vXseq l) then (2, s)
  else match s.exch (vXid l) vd with
    | some x =>
      if !sameExch x l then (3, s)
      else if mine.isSome || x.posts.any (·.rank == vRank l) then (4, s)
      else (0, addMain s t x l)
    | none =>
      if 4 ≤ s.exchs.length ∨ xQuota s vni ≤ s.exchs.countP (·.vdev == vd) then (2, s)
      else
        let x := openExch l vd s.arbitersDown
        (0, addMain { s with exchs := s.exchs ++ [x] } t x l)
/-- R297: a residual post's header equals the main post's but for RESID and NPAIR. -/
def sameHead (h l : List W) : Bool :=
  let rest := fun (x : W) => setBits (setBits x 3 1 0) 24 11 0
  h.getD 0 0 == l.getD 0 0 && rest (h.getD 1 0) == rest (l.getD 1 0) && h.getD 2 0 == l.getD 2 0 && h.getD 3 0 == l.getD 3 0
/-- R297, R301: the answer to a residual post: RESID_CLOSED once the rank has popped MAIN_END, be the exchange over. -/
def residPost (s : State) (t : Site) (l : List W) : Nat × State :=
  match (s.tile t).xif.filter fun (i : XIf) => sameHead i.head l with
  | none => (3, s)
  | some i =>
    match if i.isOpen then exchOf s t i else none with
    | none => (if i.mainOver then 5 else 3, s)
    | some x =>
      let old := ((x.posts.find? (·.rank == i.rank)).map (·.residual)).getD []
      if i.mainOver then (5, s)
      else if (vPairs l).any fun p => old.any fun y => y.1 == p.1 then (4, s)
      else
        let x' := { x with posts := mapIf x.posts (·.rank == i.rank) fun p => { p with residual := p.residual ++ vPairs l } }
        (0, (s.setExch x').modXif t fun i => { i with streams := i.streams ++ streamsOf true (vPairs l) })
/-- The arbiter that answers a post, which serves the exchange or would, has failed; or reports of the interface's former exchange, sent
before the post, are still on their way (log 109). -/
def postUnheard (s : State) (t : Site) (l : List W) : Bool :=
  ((s.tile t).xif.any fun i => !i.isOpen && (!i.ends.isEmpty || !i.phaseDone.isEmpty)) || match s.exch (vXid l) (vdevNum s (s.tile t).vni) with
  | some x => s.arbitersDown.contains x.serving
  | none => s.arbitersDown.contains (vPrimary l) && s.arbitersDown.contains (vStandby l)
/-- DEMAND_POST_RECEIPT, R301. -/
def execDemandPostReceipt (c : CoreId) (s : State) : Out State :=
  let k := s.core c
  .next (match k.req, k.ans with
    | some (.dpost l), none =>
      if postUnheard s c.site l then s else
      let (n, s') := if vResid l then residPost s c.site l else mainPost s c.site l
      s'.modCore c fun k => { k with ans := some (w n) }
    | _, _ => s)

/-- R292: the labels in use at a router. -/
def labelsAt (s : State) (n : Nat) : List Nat :=
  s.exchs.flatMap fun x => x.grants.filterMap fun g => if g.via.contains n then g.label else none
/-- The lowest label free at every router of a route whose links are up. -/
def freeLabel (s : State) (via : List Nat) : Option Nat :=
  if !circuitUp s via then none else
  let used := via.flatMap (labelsAt s)
  (List.range 256).find? fun n => !used.contains n
/-- R292: labels of the phases that have completed at every rank. -/
def dropLabels (l : List Grant) : List Grant :=
  l.map fun g => if (l.filter fun y => y.phase == g.phase).all (·.done) then { g with label := none } else g
/-- R292, R392, R402: the circuit of a grant under the tables in force. -/
def viaNow (s : State) (x : Exch) (g : Grant) : List Nat :=
  match x.siteOf g.s, x.siteOf g.d with
  | some a, some b => routersOf (circuit s a b (s.liveTile a).vni) b
  | _, _ => g.via
/-- LABEL_ASSIGN, R292: the first grant without a label takes the lowest one free; where none is, the labels of completed phases are
released first. -/
def execLabelAssign (xid vdev : Nat) (s : State) : Out State :=
  .next (match (s.exch xid vdev).filter fun x => !s.arbitersDown.contains x.serving with
    | none => s
    | some x =>
      match x.grants.find? fun g => g.label.isNone && !g.done with
      | none => s
      | some g =>
        let via := viaNow s x g
        let set := fun (s : State) (x : Exch) n =>
          s.setExch { x with grants := mapIf x.grants (· == g) fun y => { y with label := some n, via := via } }
        match freeLabel s via with
        | some n => set s x n
        | none =>
          let x' := { x with grants := dropLabels x.grants }
          let s' := s.setExch x'
          match freeLabel s' via with
          | some n => set s' x' n
          | none => s')

/-- KIND and PHASE of an entry. -/
def CalEntry.kind (e : CalEntry) : Nat := W.bits e.w0 0 4
def CalEntry.phase (e : CalEntry) : Nat := W.bits e.w0 16 16
def CalEntry.sends (e : CalEntry) : Bool := e.w0.getLsbD 4
def CalEntry.recvs (e : CalEntry) : Bool := e.w0.getLsbD 5
def CalEntry.speer (e : CalEntry) : Nat := W.bits e.w0 32 10
def CalEntry.rpeer (e : CalEntry) : Nat := W.bits e.w0 42 10
/-- R293: an entry written into the ring of a tile. -/
def putEntry (s : State) (t : Site) (e : CalEntry) : State :=
  s.modLive t fun x => match x.xif with
    | some i =>
      let a := i.calBase + 16 * (i.written % 2 ^ i.calLog)
      { x.store a (leBytes 8 e.w0.toNat ++ leBytes 8 e.w1.toNat) with
        xif := some { i with written := i.written + 1, ring := i.ring ++ [e], state := if e.kind = 4 then 5 else i.state } }
    | none => x
/-- CALENDAR_ENTRY_DELIVERY, R293, R336: the next entry of a rank, once its labels are set and its ring has space; END once every grant of the
exchange has been performed. -/
def execCalendarEntryDelivery (xid vdev rank : Nat) (s : State) : Out State :=
  .next (match s.exch xid vdev with
    | none => s
    | some x =>
      match x.queue.find? (·.1 == rank), x.siteOf rank with
      | some (_, e), some t =>
        let mine := x.grants.filter fun g => e.kind == 1 && g.phase == e.phase && (g.s == rank || g.d == rank) && !g.done
        let room := (s.xifAt t).any fun i => decide (i.written - i.popped < 2 ^ i.calLog) && i.serving == x.serving
        if x.lost || x.taking || !room || mine.any (·.label.isNone) || (e.kind == 3 && x.grants.any fun g => !g.done)
            || s.arbitersDown.contains x.serving then s
        else match imageAccess s (s.live t) (4 * Site.num t + 2) with
        | (false, s) => s
        | (true, s) =>
          let e' := if e.kind = 1 then (phaseEntry x.grants rank e.phase).getD e else e
          putEntry (s.setExch { x with queue := x.queue.eraseP (·.1 == rank) }) t e'
      | _, _ => s)

/-! ### XNEXT, XEND, XSTAT (R302 to R304) -/

/-- The stream of a rank to a destination in a round. -/
def XIf.stream (i : XIf) (dest : Nat) (resid : Bool) : Option XStream := i.streams.find? fun x => x.dest == dest && x.resid == resid
def XIf.setStream (i : XIf) (x : XStream) : XIf :=
  { i with streams := mapIf i.streams (fun y => y.dest == x.dest && y.resid == x.resid) fun _ => x }
/-- R302: the entry popped is done with: its slot is free, its end is reported, and with END or LOST the exchange ends here. -/
def closeEntry (i : XIf) (e : CalEntry) : XIf :=
  let k := e.kind
  { i with popped := i.popped + 1, mainOver := i.mainOver || k == 2, ends := if k = 1 then i.ends else i.ends ++ [k], isOpen := i.isOpen && !(k == 3 || k == 4),
           state := if k = 3 then 4 else if k = 4 then 5 else i.state }
/-- XNEXT, R302. -/
def execXnext (e : Enc) (s : State) : Out State :=
  issue (.xnext e) {} (fun _ e s =>
    let put := fun (s : State) (x : W) (bad : List (Nat × W)) => s.modMe fun k => k.writeW e.L .g e.a x bad
    let s := s.modHere fun t => { t with xif := t.xif.map fun (i : XIf) => { i with paused := false } }
    match s.here.xif.filter (·.isOpen) with
    | none => .ok (put s 0 [])
    | some i =>
      match i.ring with
      | [] => .wait 8 0 s
      | x :: r =>
        if 2 ≤ i.queue.length then .wait 8 0 s
        else if !earlierDone s s.cur 1 ∨ (x.kind = 1 ∧ x.sends = true ∧ !accessesDone s s.cur) then .wait 8 0 s
        else
          let a := i.calBase + 16 * (i.popped % 2 ^ i.calLog)
          let v := s.here.word a
          let bad := if s.here.bad a then [(0, w a)] else []
          let i := { i with ring := r }
          if x.kind = 1 then
            .ok (put (s.modHere fun t => { t with xif := some { closeEntry i x with queue := i.queue ++ [x] } }) v bad)
          else if x.kind ≠ 4 ∧ !i.queue.isEmpty then
            .hold ((s.modHere fun t => { t with xif := some { i with closing := some (x, v) } }).modMe fun k =>
              { k with wait := some ⟨.xnext e, 0, false, [], []⟩ }.block 8 0 0xFFFF)
          else .ok (put (s.modHere fun t => { t with xif := some (closeEntry i x) }) v bad)) s
/-- The XNEXT that waits for every earlier entry is complete once the interface holds none. -/
def settleXnext (s : State) (t : Site) : State :=
  match s.xifAt t with
  | some i =>
    match i.closing with
    | some (x, v) =>
      if !i.queue.isEmpty then s
      else
        let c : CoreId := ⟨t, .flow⟩
        answered (s.modXif t fun i => { closeEntry i x with closing := none }) c v
    | none => s
  | none => s

/-- R303: the status of XEND, and the stream after. -/
def xendStatus (i : Option XIf) (b c : W) : Nat × Option XStream :=
  match i.filter (·.isOpen) with
  | none => (3, none)
  | some i =>
    match i.stream (W.bits b 0 10) (b.getLsbD 16) with
    | none => (3, none)
    | some x =>
      if W.bits b 10 6 ≠ 0 ∨ W.bits b 17 47 ≠ 0 ∨ c.toNat % 64 ≠ 0 ∨ x.bytes < c.toNat then (2, none)
      else if x.last ∨ c.toNat < x.sent then (1, none)
      else (0, some { x with actual := c.toNat })
/-- XEND, R303. -/
def execXend (e : Enc) (s : State) : Out State :=
  issue (.xend e) {} (fun _ e s =>
    let (n, y) := xendStatus s.here.xif (s.me.g e.b) (s.me.g e.c)
    let s := match y with
      | some y => s.modHere fun x => { x with xif := x.xif.map fun (i : XIf) => i.setStream y }
      | none => s
    .ok (s.modMe fun k => k.writeW e.L .g e.a (w n))) s
/-- R304: an item of XSTAT. -/
def xstatItem (i : Option XIf) (n : Nat) : W :=
  match i with
  | none => 0
  | some i =>
    match n with
    | 0 => w (i.pP % 2 ^ 16 + i.pP0 % 2 ^ 16 * 2 ^ 16 + i.linkx % 2 ^ 16 * 2 ^ 32 + i.residPhases % 2 ^ 16 * 2 ^ 48)
    | 1 => w (i.waste % 2 ^ 40)
    | 2 => w (i.xid % 2 ^ 16 + i.xseq % 2 ^ 16 * 2 ^ 16 + i.state % 8 * 2 ^ 32 + b01 i.failover * 2 ^ 35 + i.serving % 64 * 2 ^ 36)
    | _ => w (i.refused % 2 ^ 32 + i.abandoned % 2 ^ 16 * 2 ^ 32)
/-- XSTAT, R304. -/
def execXstat (e : Enc) (s : State) : Out State :=
  issue (.xstat e) {} (fun _ e s =>
    let n := (s.me.g e.b).toNat
    if 3 < n then .trap 0x03 0 s else .ok (s.modMe fun k => k.writeW e.L .g e.a (xstatItem s.here.xif n))) s

/-! ### The interface (R294, R295, R296) -/

/-- The entry at the head is complete when both of its parts are. -/
def finishEntry (s : State) (t : Site) : State :=
  match s.xifAt t with
  | some i =>
    match i.queue with
    | e :: r =>
      if i.started && (i.sendDone || !e.sends) && (i.recvDone || !e.recvs) then
        settleXnext (s.modXif t fun i => { i with
          queue := r, started := false, sendDone := false, recvDone := false, phaseDone := i.phaseDone ++ [e.phase] }) t
      else s
    | [] => s
  | none => s
/-- The tile of a peer of a tile's interface, whose own interface still stands in the exchange. -/
def peerOf (s : State) (t : Site) (i : XIf) (rank : Nat) : Option Site :=
  (exchOf s t i).bind fun x => (x.siteOf rank).filter fun p => (s.xifAt p).any x.has

/-- A phase belongs to the residual round. -/
def residPhase (s : State) (t : Site) (i : XIf) (phase rank : Nat) : Bool :=
  (exchOf s t i).any fun x => x.grants.any fun g => g.phase == phase && g.s == rank && g.resid
/-- R294, R303: the bytes that an entry grants to its stream count as granted when it starts, and its last grant has then started. -/
def XIf.startGrant (i : XIf) (e : CalEntry) (resid : Bool) : XIf :=
  match if e.sends then i.stream e.speer resid else none with
  | some x =>
    let g := x.granted + W.bits e.w1 0 32
    i.setStream { x with granted := g, last := x.last || decide (x.bytes ≤ g) }
  | none => i
/-- A started grant that can send nothing any more is granted no more (log 21). -/
def XIf.dropGrant (i : XIf) (e : CalEntry) (resid : Bool) : XIf :=
  match if e.sends && !i.sendDone then i.stream e.speer resid else none with
  | some x => i.setStream { x with granted := x.granted - W.bits e.w1 0 32, last := false }
  | none => i
/-- EXCHANGE_PHASE_START, R294, R299: the entry at the head starts, unless a pre-emption holds it; the receiver sends READY to its peer. -/
def execExchangePhaseStart (t : Site) (s : State) : Out State :=
  .next (match s.xifAt t with
    | none => s
    | some i =>
      match i.queue with
      | [] => s
      | e :: _ =>
        if i.started || i.paused then s
        else
          let resid := residPhase s t i e.phase i.rank
          let s := s.modXif t fun i => { i.startGrant e resid with started := true, top := Nat.max i.top (e.phase + 1) }
          let s := match (if e.recvs then peerOf s t i e.rpeer else none) with
            | some p => s.modXif p fun j => { j with readies := j.readies ++ [(e.phase, i.rank)] }
            | none => s
          finishEntry (s.active t) t)

/-- R340, R341: where the circuit of a grant is cut: the first router that does not permit the region, or an interface of another region,
with the failed check. -/
def circuitCut (s : State) (t : Site) (i : XIf) (phase : Nat) (dest : Site) : Option (Site × Nat) :=
  let vni := (s.tile t).vni
  let via := ((exchOf s t i).bind fun x => x.grants.find? fun g => g.phase == phase && g.s == i.rank).map (·.via) |>.getD []
  match via.find? fun n => !(s.tile (siteOf n)).router.transit.contains vni with
  | some n => some (siteOf n, 1)
  | none => if (s.liveTile dest).vni ≠ vni then some (dest, 2) else none
/-- READY_RECEIPT, R294, R296: with READY from the peer, the entry at the head sends its bytes and the end marker; traffic that its circuit
does not let through is quarantined. -/
def execReadyReceipt (t : Site) (s : State) : Out State :=
  .next (match s.xifAt t with
    | none => s
    | some i =>
      match i.queue with
      | [] => s
      | e :: _ =>
        if !i.started || i.sendDone || !e.sends || !i.readies.contains (e.phase, e.speer) then s
        else
          let resid := residPhase s t i e.phase i.rank
          match i.stream e.speer resid, peerOf s t i e.speer with
          | some x, some p =>
            let g := W.bits e.w1 0 32
            let n := Nat.min g (x.actual - x.sent)
            let m : Marker := { phase := e.phase, src := i.rank, resid := resid, data := Mem.bytes (s.tile t).mem (x.src + x.sent) n,
                                bad := (s.tile t).badWords (x.src + x.sent) n, total := x.sent + n, final := x.last, written := [] }
            let sent := fun (s : State) => s.modXif t fun i =>
              { i.setStream { x with sent := x.sent + n } with
                sendDone := true, waste := i.waste + (g - n), readies := i.readies.filter (· != (e.phase, e.speer)) }
            match circuitCut s t i e.phase p with
            | some (a, check) =>
              let h : PktHead := ⟨(s.tile t).vni, 0, ⟨t, .flow⟩, (s.liveTile p).name, p, .flow, 0, none⟩
              finishEntry ((sent { s with reports := s.reports ++ [.quarantine a h check] }).active t) t
            | none => finishEntry (((sent s).modXif p fun j => { j with markers := j.markers ++ [m] }).active t) t
          | _, _ => s)

/-- The row of RXTAB of a marker's stream, the stream's offset, and the address at which the marker's bytes belong. -/
def Marker.row (m : Marker) (i : XIf) : Nat := if m.resid then i.nrank + m.src else m.src
def Marker.off (m : Marker) (i : XIf) : Nat := (lookup i.rxOff (m.row i)).getD 0
def Marker.addr (m : Marker) (i : XIf) : Nat := i.rxBase + m.off i + (lookup i.rxGot (m.row i)).getD 0
/-- Words of a marker's data written, with the poison they carry (R186, R338, R398). -/
def receiveWords (x : Tile) (a : Nat) (m : Marker) (l : List Nat) : Tile :=
  l.foldl (fun x j => if 8 * j < m.data.length ∧ m.written.contains j = false then
      x.storePoison (a + 8 * j) ((m.data.drop (8 * j)).take 8) (if m.bad.contains j then [0] else []) else x) x
/-- R295: what is left of a marker's bytes, and with FINAL the entry of RXTAB. -/
def receive (x : Tile) (i : XIf) (m : Marker) : Tile :=
  let row := m.row i
  let off := m.off i
  let got := (lookup i.rxGot row).getD 0
  let x := if m.written = [] then x.storePoison (m.addr i) m.data m.bad
    else receiveWords x (m.addr i) m (List.range (m.data.length / 8))
  let x := if m.final then
      x.setWord (i.rxTab + 8 * row) (w (m.total % 2 ^ 32 + off % 2 ^ 22 * 2 ^ 32 + 2 ^ 63)) else x
  { x with xif := some { i with rxGot := insert i.rxGot row (got + m.data.length), recvDone := true,
                                markers := i.markers.filter (· != m) } }
/-- The interface of a tile whose started entry still receives, with what has come of its peer's stream. -/
def receiving (s : State) (t : Site) : Option (XIf × Marker) :=
  (s.xifAt t).bind fun i => i.queue.head?.bind fun e =>
    if !i.started || !e.recvs || i.recvDone then none
    else (i.markers.find? fun m => m.phase == e.phase && m.src == e.rpeer).map fun m => (i, m)
/-- R186, R338: some words of a stream's data are written before its marker is there, so that any mix of old and received words may be seen. -/
def phaseWords (s : State) (t : Site) (words : List Nat) : State :=
  match receiving s t with
  | none => s
  | some (i, m) =>
    match imageAccess s (s.live t) (4 * Site.num t + 2) with
    | (false, s) => s
    | (true, s) =>
      ((s.modLive t fun x => receiveWords x (m.addr i) m words).modXif t fun i =>
        { i with markers := mapIf i.markers (· == m) fun y => { y with written := y.written ++ words } }).active t
/-- END_MARKER_ARRIVAL, R295: the marker has arrived, and what is left of the stream's data is written. -/
def execEndMarkerArrival (t : Site) (s : State) : Out State :=
  .next (match receiving s t with
    | none => s
    | some (i, m) =>
      match imageAccess s (s.live t) (4 * Site.num t + 2) with
      | (false, s) => s
      | (true, s) => finishEntry ((s.modLive t fun x => receive x i m).active t) t)

/-- The grant that a rank receives in a phase has been performed. -/
def markDone (l : List Grant) (phase rank : Nat) : List Grant :=
  mapIf l (fun g => g.phase == phase && g.d == rank) fun g => { g with done := true }
/-- PHASE_COMPLETION_REPORT, R292. -/
def execPhaseCompletionReport (t : Site) (s : State) : Out State :=
  .next (match s.xifAt t with
    | none => s
    | some i =>
      match i.phaseDone with
      | [] => s
      | p :: r =>
        let s' := match exchOf s t i with
          | some x => s.setExch { x with grants := markDone x.grants p i.rank }
          | none => s
        s'.modXif t fun i => { i with phaseDone := r })

/-- Every rank of an exchange is in a list. -/
def Exch.all (x : Exch) (l : List Nat) : Bool := (List.range x.nrank).all fun r => l.contains r
/-- MAIN_END_REPORT, R297, R302: with every rank's MAIN_END the residual round is planned; with every END or LOST the exchange is closed
and its labels are free. -/
def execMainEndReport (t : Site) (s : State) : Out State :=
  .next (match s.xifAt t with
    | none => s
    | some i =>
      match i.ends with
      | [] => s
      | k :: r =>
        let x := exchOf s t i
        let s := s.modXif t fun i => { i with ends := r }
        match x with
        | none => s
        | some x =>
          if k = 2 then
            let x := { x with mainEnds := x.mainEnds ++ [i.rank] }
            if x.all x.mainEnds && !x.residPlanned then planResid (s.setExch x) x else s.setExch x
          else
            let x := { x with ends := x.ends ++ [i.rank] }
            if x.all x.ends then { s with exchs := s.exchs.filter fun y => !(y.xid == x.xid && y.vdev == x.vdev) } else s.setExch x)

/-! ### Failover (R298, R299) -/

/-- HEARTBEAT, R298: a failed arbiter sends none. -/
def execHeartbeat (xid vdev : Nat) (s : State) : Out State :=
  .next (match s.exch xid vdev with
    | some x => if s.arbitersDown.contains x.serving then s else s.setExch { x with beat := x.beat + 1 }
    | none => s)
/-- R298, R299: an arbiter takes an exchange over: nothing the former one has not delivered counts any more. -/
def takeOver (x : Exch) (by_ : Nat) (spare : Bool) : Exch :=
  { x with serving := by_, hasStandby := x.hasStandby && spare, taking := true, reports := [], queue := [] }
/-- TAKEOVER, R298: a standby that has received no heartbeat for 48 µs; `waited` in nanoseconds. -/
def execTakeover (xid vdev waited : Nat) (s : State) : Out State :=
  .next (match s.exch xid vdev with
    | some x =>
      if x.hasStandby && !s.arbitersDown.contains x.standby && decide (48000 ≤ waited) then s.setExch (takeOver x x.standby false) else s
    | none => s)
/-- TAKEOVER_RECEIPT, R298: the rank keeps the entry it has started and abandons those handed over or in its ring. A rank that has ended the
exchange and stands in another one has none of it. -/
def execTakeoverReceipt (xid vdev rank : Nat) (s : State) : Out State :=
  .next (match s.exch xid vdev with
    | none => s
    | some x =>
      match x.siteOf rank with
      | none => s
      | some t =>
        if !x.taking || x.reports.contains rank then s
        else settleXnext (s.modXif t fun i =>
          let keep := if i.started then 1 else 0
          if !x.has i then i
          else if i.serving = x.serving && i.failover && i.ring.isEmpty && decide (i.queue.length ≤ keep) then i
          else { i with queue := i.queue.take keep, ring := [], popped := i.written - (if i.closing.isSome then 1 else 0),
                        abandoned := i.abandoned + (i.queue.length - keep) + i.ring.length, serving := x.serving,
                        failover := true }) t)

/-- Bytes of a stream whose grants stand. -/
def standing (x : Exch) (s d : Nat) (resid : Bool) : Nat :=
  ((x.grants.filter fun g => g.done && g.s == s && g.d == d && g.resid == resid).map (·.bytes)).sum
/-- R298: the standby plans the remaining quanta, its phases numbered from one above the highest that any rank started. An exchange whose main
round cannot be planned is lost for the ranks that have not ended it. -/
def replan (st : State) (x : Exch) : State :=
  match x.mainFull with
  | some d => st.setExch { x with taking := false, reports := [], queue :=
      ((List.range x.nrank).filter fun r => !x.ends.contains r).map fun r => (r, plainEntry 4 0 d) }
  | none =>
  let base := x.posts.foldl (fun n p => Nat.max n ((((st.xifAt p.site).filter x.has).map (·.top)).getD 0))
    ((x.grants.filter (·.done)).foldl (fun n g => Nat.max n (g.phase + 1)) 0)
  let rest := fun (resid : Bool) => x.byRank.flatMap fun p =>
    (if resid then p.residual.filter (x.residOk p.rank) else p.pairs).filterMap fun y =>
      todoOf st x p.rank y.1 (y.2.1 - standing x p.rank y.1 resid)
  let plan := fun resid => planPhases (quantaOf x.q (rest resid)) x.nrank x.q true (rest resid)
  let kept := x.grants.filter (·.done)
  let main := plan false
  let g1 := grantsOf base false main
  let pP := base + main.length
  let x' := { x with taking := false, reports := [], grants := kept ++ g1, pP := if x.residPlanned then x.pP else pP,
                     queue := entriesFor x.nrank g1 base main.length fun r =>
                       if x.mainEnds.contains r then none else some (plainEntry 2 pP 0) }
  if !x.residPlanned then modRanks (st.setExch x') x' fun _ i => { i with pP := pP }
  else
    let res := plan true
    let g2 := grantsOf pP true res
    let n := pP + res.length
    let x'' := { x' with grants := x'.grants ++ g2, residPhases := n - x.pP,
                         queue := x'.queue ++ entriesFor x.nrank g2 pP res.length fun r =>
                           if x.ends.contains r then none else some (plainEntry 3 n 0) }
    modRanks (st.setExch x'') x'' fun _ i => { i with residPhases := n - x.pP }
/-- A started entry whose peer has abandoned its side can no more complete (log 21). -/
def stuckEntry (s : State) (t : Site) (x : Exch) (i : XIf) : Bool :=
  match i.queue with
  | e :: _ =>
    let lacks := fun (r : Nat) => match (x.siteOf r).bind fun p => s.xifAt p with
      | some j => !x.has j || j.serving == x.serving && j.failover && !(j.queue.any fun y => y.phase == e.phase)
      | none => true
    (e.sends && !i.sendDone && lacks e.speer)
      || (e.recvs && !i.recvDone && lacks e.rpeer && !(i.markers.any fun m => m.phase == e.phase && m.src == e.rpeer))
      || (s.gone t)
  | [] => false
/-- R298: with every rank's report the standby plans again. -/
def replanAll (s : State) (x : Exch) : State :=
  if !x.all x.reports then s.setExch x
  else if x.planned then replan s x else planMain s { x with taking := false, reports := [] }
/-- GRANT_REPORT, R298: a rank that has let its started entries complete reports the grants it completed; with every report the
standby plans again. A rank that has ended the exchange and stands in another one has nothing more to report. -/
def execGrantReport (xid vdev rank : Nat) (s : State) : Out State :=
  .next (match s.exch xid vdev with
    | none => s
    | some x =>
      match x.siteOf rank with
      | none => s
      | some t =>
        match s.xifAt t with
        | none => s
        | some i =>
          let stuck := stuckEntry s t x i
          if !x.taking || x.reports.contains rank then s
          else if !x.has i then replanAll s { x with reports := x.reports ++ [rank] }
          else if !(i.serving == x.serving && i.failover && i.ring.isEmpty) then s
          else if !i.queue.isEmpty && !stuck then s
          else
            let got := i.phaseDone ++ (if stuck && i.recvDone then i.queue.map (·.phase) else [])
            let x := { x with grants := got.foldl (fun l p => markDone l p rank) x.grants, reports := x.reports ++ [rank] }
            let dropped := fun (i : XIf) => match i.queue with
              | e :: _ => if i.started then i.dropGrant e (residPhase s t i e.phase i.rank) else i
              | [] => i
            let s := settleXnext ((s.setExch x).modXif t fun i =>
              let i := dropped i
              { i with phaseDone := [], queue := [], started := false, sendDone := false, recvDone := false,
                       abandoned := i.abandoned + i.queue.length }) t
            replanAll s x)
/-- LOST_ENTRY_WRITE, R298: the serving arbiter has failed and no live standby is left: the home island writes LOST, which the rank's next XNEXT
returns. -/
def execLostEntryWrite (t : Site) (s : State) : Out State :=
  .next (match (s.xifAt t).filter (·.isOpen) with
    | none => s
    | some i =>
      match exchOf s t i with
      | none => s
      | some x =>
        if !s.arbitersDown.contains x.serving || (x.hasStandby && !s.arbitersDown.contains x.standby)
            || i.ring.any fun e => e.kind == 4 then s
        else match imageAccess s (s.live t) (4 * Site.num t + 2) with
        | (false, s) => s
        | (true, s) =>
          let s := (s.setExch { x with lost := true, queue := [] }).modXif t fun i =>
            { i with abandoned := i.abandoned + i.ring.length, ring := [], popped := i.written - (if i.closing.isSome then 1 else 0) }
          putEntry s t (plainEntry 4 0 0))

end Sys2Proof.Machine
end

