-- ==== Sys2Proof/Machine/Matrix.lean ====
section
/-! DEFINITION. The page-4 instructions at issue (R125, R127, R128, R130, R134, R146 to R150), the sequencer with its dependences and
lookahead windows (R128, R129, R132), and what each command does when it is performed (R135 to R144, R148). -/

namespace Sys2Proof.Machine

/-! ### Registers that a command reads and writes (R129) -/

/-- The words of a command. -/
def MCmd.enc (q : MCmd) : Enc := (encOf q.i).getD (Enc.plain 0)
/-- R129: the destinations of a command: plane and register. -/
def destsOf (i : Instr) : List (Nat × Nat) :=
  match i with
  | .mld e | .mldc e | .mtr e => [(0, e.fa)]
  | .mlds e => [(1, e.fa)]
  | .mldm e => [(2, e.fa)]
  | .mma e | .mmax e | .mmas e | .mchmma e | .zclr e | .zld e => [(3, e.a)]
  | .mmac e => [(3, e.a), (3, e.a + 1)]
  | _ => []
/-- The planes and registers that a command reads. -/
def readsOf (i : Instr) : List (Nat × Nat) :=
  match i with
  | .mst e | .mstc e => [(0, e.fa)]
  | .mtr e => [(0, e.fb)]
  | .mma e | .mchmma e => [(3, e.a), (0, e.fb), (0, e.fc)]
  | .mmax e => [(3, e.a), (0, e.fb), (1, e.fb), (0, e.fc), (1, e.fc)]
  | .mmas e => [(3, e.a), (0, e.fb), (0, e.fc), (2, e.fc)]
  | .mmac e => [(3, e.a), (3, e.a + 1), (0, e.fb), (0, e.fc)]
  | .zst e => [(3, e.a)]
  | .zout e => if isCplx e.ty then [(3, e.a), (3, e.a + 1)] else [(3, e.a)]
  | _ => []
/-- The register of a plane: the m registers share three planes. -/
def regOf (x : Nat × Nat) : Nat × Nat := (if x.1 = 3 then 3 else 0, x.2)

/-- Instruction number up to which the window of a command reaches. -/
def MCmd.expiry (q : MCmd) : Nat := q.pos.headD 0 + q.enc.L
/-- R38: a command at a position stands inside the window of another. -/
def MCmd.holds (q : MCmd) (pos : List Nat) : Bool := winOpen (some pos) q.pos.length q.expiry
def MPend.holds (x : MPend) (pos : List Nat) : Bool := winOpen (some pos) x.depth x.expiry

/-- R129: q reads or writes a register that x writes. -/
def afterWriter (q x : MCmd) : Bool := ((destsOf x.i).map regOf).any fun r => ((readsOf q.i ++ destsOf q.i).map regOf).contains r
/-- R330: q writes a register that x reads; what x also writes stands under its window (R129). -/
def afterReader (q x : MCmd) : Bool :=
  ((readsOf x.i).map regOf).any fun r =>
    ((destsOf q.i).map regOf).contains r && !(x.holds q.pos && ((destsOf x.i).map regOf).contains r)
/-- R129, R330: q waits for an earlier command that writes a register which q reads or writes, unless q is inside its window, and for one
that reads a register which q writes. -/
def waitsFor (q x : MCmd) : Bool := decide (x.id < q.id) && ((!x.holds q.pos && afterWriter q x) || afterReader q x)
/-- R128: x is a predecessor of q. -/
def isPred (q x : MCmd) : Bool := q.deps.contains x.id || waitsFor q x
/-- q depends on x through some chain of open predecessors. -/
def reaches (fuel : Nat) (l : List MCmd) (q x : MCmd) : Bool :=
  match fuel with
  | 0 => false
  | n + 1 => isPred q x || l.any fun y => isPred q y && reaches n l y x
/-- R129: a reader inside q's window that q waits for. -/
def awaitsReader (l : List MCmd) (q x : MCmd) : Bool :=
  decide (q.id < x.id) && q.holds x.pos && ((readsOf x.i).any fun r => (destsOf q.i).contains r) && !reaches 32 l x q
/-- R128: a command may start: every predecessor has retired. -/
def mayStart (l : List MCmd) (q : MCmd) : Bool := !q.started && !l.any fun x => x.id != q.id && (isPred q x || awaitsReader l q x)

/-! ### Values under the windows (R129) -/

/-- The bytes of a plane as a command reads them: the results of earlier commands but for those whose windows it is inside. -/
def mview (t : Tile) (q : MCmd) (plane : Nat) : Mem :=
  (t.mpend.filter fun x => x.plane == plane && decide (x.id < q.id) && !x.holds q.pos).foldl
    (fun m x => x.bytes.foldl (fun m b => Mem.put m b.1 b.2) m) (planeMem t plane)
/-- The poisoned bytes of a plane after some bytes are written with theirs. -/
def mixBad (old : List (Nat × W)) (bytes : List (Nat × Byte)) (new : List (Nat × W)) : List (Nat × W) :=
  (old.filter fun x => !(bytes.any fun b => b.1 == x.1)) ++ new
/-- The poisoned bytes of a plane as a command reads them. -/
def mbad (t : Tile) (q : MCmd) (plane : Nat) : List (Nat × W) :=
  (t.mpend.filter fun x => x.plane == plane && decide (x.id < q.id) && !x.holds q.pos).foldl
    (fun l x => mixBad l x.bytes x.poison) ((t.mpoison.filter (·.1 == plane)).map (·.2))

/-- Write a held result into its plane. -/
def MPend.apply (t : Tile) (x : MPend) : Tile :=
  let m := x.bytes.foldl (fun m b => Mem.put m b.1 b.2) (planeMem t x.plane)
  let old := (t.mpoison.filter (·.1 == x.plane)).map (·.2)
  let bad := (mixBad old x.bytes x.poison).map fun y => (x.plane, y)
  { (setPlane t x.plane m) with mpoison := t.mpoison.filter (·.1 != x.plane) ++ bad }
/-- A held result that no command, open or still to come, must miss. -/
def MPend.free (t : Tile) (x : MPend) : Bool :=
  t.mwin.all (fun q => decide (x.id < q.id) && !x.holds q.pos) && !winOpen (t.math.posOf false) x.depth x.expiry
/-- Write the oldest held results while they are free. -/
def mSettle (fuel : Nat) (t : Tile) : Tile :=
  match fuel, t.mpend with
  | n + 1, x :: r => if x.free t then mSettle n (MPend.apply { t with mpend := r } x) else t
  | _, _ => t

/-! ### Issue (R124, R128, R134) -/

/-- R124: the configuration of m[n] is invalid or fails a requirement: its number. -/
def needM (t : Tile) (n : Nat) (own : W → Bool) : Option Nat :=
  let c := vget t.mcfg n
  if mValid c && own c then none else some n
/-- R140: requirements of each operand of MMA on its own. -/
def denseA (c : W) : Bool := mSparse c == 0 && (mSet (mType c)).isSome
def denseB (c : W) : Bool := denseA c && decide (mRows c ≤ 24)
/-- R140: two configurations that form an MMA pair. -/
def densePair (a b : W) : Bool := mSet (mType a) == mSet (mType b) && mKlen a == mKlen b
/-- R124: a product's checks: operand A, operand B, then the pair. -/
def pairCheck (t : Tile) (e : Enc) (a b : W → Bool) (pair : W → W → Bool) : Option Nat :=
  (needM t e.fb a <|> needM t e.fc b) <|> (if pair (vget t.mcfg e.fb) (vget t.mcfg e.fc) then none else some e.fc)

/-- R134 to R138: the lines of a memory command's footprint: how many, and the bytes of each. -/
def footOf (i : Instr) (cfgA : W) : Option (Nat × Nat × Bool) :=
  match i with
  | .mld _ => some (mRows cfgA, mRb cfgA, false)
  | .mldc _ => some (mKlen cfgA, ceilDiv (mRows cfgA * mWidth cfgA) 8, false)
  | .mlds _ => some (mRows cfgA, ceilDiv (mKlen cfgA) (if mBlk cfgA then 32 else 8), false)
  | .mldm _ => some (mRows cfgA, ceilDiv (mKlen cfgA) 2, false)
  | .mst _ => some (mRows cfgA, mRb cfgA, true)
  | .mstc _ => some (mKlen cfgA, ceilDiv (mRows cfgA * mWidth cfgA) 8, true)
  | .zld _ => some (32, 96, false)
  | .zst _ => some (32, 96, true)
  | .zout e => some (32, 24 * laneBits e.ty / 8, true)
  | _ => none
/-- The start of line i. -/
def lineAt (base stride : W) (i : Nat) : W := base + w i * stride
/-- R134: the words of a footprint, lowest address first. -/
def footWords (base stride : W) (count len : Nat) : List (W × Nat) :=
  sortAddrs ((List.range count).flatMap fun i => wordAddrs (lineAt base stride i) (ceilDiv len 8))
/-- R134: base address and the checks of a footprint: the fault, if any. -/
def mBase (e : Enc) (k : Core) : W :=
  k.g e.b + (if e.imms.isEmpty then 0 else BitVec.ofInt 64 (intOf true (8 * e.imms.length) e.immHigh))
def footFault (s : State) (e : Enc) (f : Nat × Nat × Bool) : Option (Nat × W) :=
  let k := s.me
  let base := mBase e k
  let stride := k.g e.c
  if base.toNat % 8 ≠ 0 then some (0x09, base)
  else if stride.toNat % 8 ≠ 0 then some (0x09, stride)
  else match places s s.cur ⟨f.2.2, false⟩ (footWords base stride f.1 f.2.1) with
    | .error x => some x
    | .ok _ => none

/-- R38, R129: a command that has been performed discards the results, come or to come, of the earlier commands inside whose windows it
writes the same registers. One that traps or is discarded writes nothing and discards nothing (R132). -/
def discardOld (t : Tile) (q : MCmd) : Tile :=
  { t with
    mwin := mapIf t.mwin (fun x => decide (x.id < q.id) && x.holds q.pos) fun x =>
      { x with dead := x.dead ++ (destsOf x.i).filter fun d => (destsOf q.i).contains d }
    mpend := t.mpend.filter fun x => !(decide (x.id < q.id) && (destsOf q.i).contains (x.plane, x.num) && x.holds q.pos) }
/-- R128: a command enters the window with the next ID. -/
def enterWindow (i : Instr) (e : Enc) (step : Nat) (s : State) : State :=
  let t := s.here
  let k := s.me
  let id := (t.lastId + 1) % 2 ^ 64
  let q : MCmd := { id := id, i := i, pc := k.pc, pos := k.pos, cfgA := vget t.mcfg e.fa, cfgB := vget t.mcfg e.fb,
                    cfgC := vget t.mcfg e.fc, base := mBase e k, stride := k.g e.c, fpMode := k.ctl.fpMode, seed := k.ctl.seed,
                    deps := t.mdep, started := false, dead := [], step := step,
                    asks := [], sites := [] }
  s.setTile s.cur.site { t with lastId := id, mdep := [], mwin := t.mwin ++ [q] }
/-- R66: the LFSR after n draws. -/
def drawN (n : Nat) (seed : Nat) : Nat := (List.range n).foldl (fun x _ => lfsrDraw x) seed

/-- R128, R132: issue a command: MATRIX_CONFIG, then ALIGN and the address map, then the window. A memory command issues once the
core's earlier accesses have been performed (R131). -/
def issueCmd (i : Instr) (e : Enc) (cfg : Option Nat) (s : State) : Eff :=
  match cfg with
  | some n => .trap 0x11 (w n) s
  | none =>
    let foot := footOf i (vget s.here.mcfg e.fa)
    match foot.bind (footFault s e) with
    | some (c, d) => .trap c d s
    | none =>
      if 32 ≤ s.here.mwin.length || (foot.isSome && !accessesDone s s.cur) then .wait 0 0 s
      else .ok (enterWindow i e 0 s)

/-- R127: encodings that pair forms and ZOUT refuse. -/
def pairCk (e : Enc) : Ck := { bad := e.a % 2 != 0 }
def zoutCk (e : Enc) : Ck :=
  let cplx := decide (19 ≤ e.ty ∧ e.ty ≤ 21)
  let ok := if 8 ≤ e.ty ∧ e.ty ≤ 12 then decide (e.mod ≤ 6)
    else (decide (e.ty ≤ 2) || decide (4 ≤ e.ty ∧ e.ty ≤ 6) || cplx) && decide (e.mod ≤ 1)
  { bad := !ok || (cplx && e.a % 2 != 0) }

/-- MLD, R135. -/
def execMld (e : Enc) (s : State) : Out State :=
  issue (.mld e) {} (fun _ e s => issueCmd (.mld e) e (needM s.here e.fa fun _ => true) s) s
/-- MLDC, R135. -/
def execMldc (e : Enc) (s : State) : Out State :=
  issue (.mldc e) {} (fun _ e s => issueCmd (.mldc e) e (needM s.here e.fa fun _ => true) s) s
/-- MLDS, R135. -/
def execMlds (e : Enc) (s : State) : Out State :=
  issue (.mlds e) {} (fun _ e s => issueCmd (.mlds e) e (needM s.here e.fa fun c => blockType (mBlk c) (mType c)) s) s
/-- MLDM, R135. -/
def execMldm (e : Enc) (s : State) : Out State :=
  issue (.mldm e) {} (fun _ e s => issueCmd (.mldm e) e (needM s.here e.fa fun c => mSparse c != 0) s) s
/-- MST, R136. -/
def execMst (e : Enc) (s : State) : Out State :=
  issue (.mst e) {} (fun _ e s => issueCmd (.mst e) e (needM s.here e.fa fun _ => true) s) s
/-- MSTC, R136. -/
def execMstc (e : Enc) (s : State) : Out State :=
  issue (.mstc e) {} (fun _ e s => issueCmd (.mstc e) e (needM s.here e.fa fun _ => true) s) s
/-- MMA, R140, R141. -/
def execMma (e : Enc) (s : State) : Out State :=
  issue (.mma e) {} (fun _ e s => issueCmd (.mma e) e (pairCheck s.here e denseA denseB densePair) s) s
/-- MMAX, R140, R142. -/
def execMmax (e : Enc) (s : State) : Out State :=
  issue (.mmax e) {} (fun _ e s =>
    let own := fun c => mSparse c == 0 && blockType (mBlk c) (mType c)
    issueCmd (.mmax e) e (pairCheck s.here e own (fun c => own c && decide (mRows c ≤ 24)) fun a b =>
      mBlk a == mBlk b && mWidth a == mWidth b && mKlen a == mKlen b) s) s
/-- MMAS, R140, R143. -/
def execMmas (e : Enc) (s : State) : Out State :=
  issue (.mmas e) {} (fun _ e s =>
    issueCmd (.mmas e) e (pairCheck s.here e denseA
      (fun c => mSparse c != 0 && (mSet (mType c)).isSome && decide (mRows c ≤ 24)) fun a b =>
      mSet (mType a) == mSet (mType b) && mKlen a * mN b == mKlen b * 12) s) s
/-- MMAC, R140, R144. -/
def execMmac (e : Enc) (s : State) : Out State :=
  issue (.mmac e) (pairCk e) (fun _ e s =>
    let own := fun c => mSparse c == 0 && isCplx (mType c)
    issueCmd (.mmac e) e (pairCheck s.here e own (fun c => own c && decide (mRows c ≤ 24)) fun a b =>
      mType a == mType b && mKlen a == mKlen b) s) s
/-- ZCLR, R137. -/
def execZclr (e : Enc) (s : State) : Out State := issue (.zclr e) {} (fun _ e s => issueCmd (.zclr e) e none s) s
/-- ZLD, R137. -/
def execZld (e : Enc) (s : State) : Out State := issue (.zld e) {} (fun _ e s => issueCmd (.zld e) e none s) s
/-- ZST, R137. -/
def execZst (e : Enc) (s : State) : Out State := issue (.zst e) {} (fun _ e s => issueCmd (.zst e) e none s) s
/-- ZOUT, R138: SR draws are taken in the order of issue (R133), after those of the vector instructions before it. -/
def execZout (e : Enc) (s : State) : Out State :=
  issue (.zout e) (zoutCk e) (fun _ e s =>
    let draws := zoutDraws e s.me.ctl.fpMode
    match issueCmd (.zout e) e none s with
    | .ok s' =>
      if draws && !s.me.vq.isEmpty then .wait 0 0 s
      else if draws then .ok (s'.modCtl s.cur fun r => { r with seed := w (drawN 768 (W.bits r.seed 0 32)) })
      else .ok s'
    | x => x) s
/-- MTR, R139. -/
def execMtr (e : Enc) (s : State) : Out State :=
  issue (.mtr e) {} (fun _ e s =>
    let own := fun c => mSparse c == 0
    let a := vget s.here.mcfg e.fa
    let b := vget s.here.mcfg e.fb
    let pair := mWidth a == mWidth b && mRows a == mKlen b && mKlen a == mRows b
    issueCmd (.mtr e) e ((needM s.here e.fa own <|> needM s.here e.fb own) <|> (if pair then none else some e.fb)) s) s

/-- MCHMMA, R148: outside a chain it traps; the west and north members check their own operand. -/
def execMchmma (e : Enc) (s : State) : Out State :=
  issue (.mchmma e) {} (fun _ e s =>
    let c := s.here.chain
    let bad := if c.state = 0 then some e.fb
      else (if c.cpos = 0 then needM s.here e.fb denseA else none) <|> (if c.rpos = 0 then needM s.here e.fc denseB else none)
    match bad with
    | some n => .trap 0x11 (w n) s
    | none =>
      if 32 ≤ s.here.mwin.length then .wait 0 0 s
      else .ok ((enterWindow (.mchmma e) e c.steps s).modHere fun t => { t with chain := t.chain.issue })) s

/-- MCFG, R125. -/
def execMcfg (e : Enc) (s : State) : Out State :=
  issue (.mcfg e) { bad := !e.imms.isEmpty && e.b != 0, info := if e.imms.isEmpty then 0 else w e.b } (fun _ e s =>
    writeMcfg s s.cur.site e.fa (if e.imms.isEmpty then s.me.g e.b else w e.immHigh)) s

/-- R130: Id(x) for the back-distance of an instruction. -/
def backId (e : Enc) (x : Nat) : Nat := if e.immHigh < x then x - e.immHigh else 0
/-- MID, R130. -/
def execMid (e : Enc) (s : State) : Out State :=
  issue (.mid e) {} (fun _ e s => .ok (s.modMe fun k => k.writeW e.L .g e.a (w (backId e s.here.lastId)))) s
/-- MDEP, R130. -/
def execMdep (e : Enc) (s : State) : Out State :=
  issue (.mdep e) {} (fun _ e s =>
    let i1 := backId e (s.me.g e.b).toNat
    let i2 := backId e (s.me.g e.c).toNat
    if s.here.lastId < i1 then .trap 0x03 (w i1) s
    else if s.here.lastId < i2 then .trap 0x03 (w i2) s
    else .ok (s.modHere fun t => { t with mdep := [i1, i2].filter (· != 0) })) s
/-- MWAIT, R130. -/
def execMwait (e : Enc) (s : State) : Out State :=
  issue (.mwait e) {} (fun _ e s =>
    let i1 := backId e (s.me.g e.b).toNat
    if s.here.lastId < i1 then .trap 0x03 (w i1) s
    else if s.here.mwin.any (·.id == i1) then .wait 9 0 s else .ok s) s
/-- MFENCE, R130. -/
def execMfence (e : Enc) (s : State) : Out State :=
  issue (.mfence e) {} (fun _ e s =>
    if s.here.mwin.any fun q => decide (q.id ≤ backId e s.here.lastId) then .wait 9 0 s else .ok s) s

/-- MCHJOIN, R146. -/
def execMchjoin (e : Enc) (s : State) : Out State :=
  issue (.mchjoin e) {} (fun _ e s =>
    let (x, c) := chainJoin s s.cur.site (s.me.g e.b)
    .ok ((s.modHere fun t => { t with chain := c }).modMe fun k => k.writeW e.L .g e.a (w x))) s
/-- Some MCHMMA of the tile is open. -/
def Tile.chainOpen (t : Tile) : Bool := t.mwin.any fun q => match q.i with
  | .mchmma _ => true
  | _ => false
/-- MCHLEAVE, R149. -/
def execMchleave (e : Enc) (s : State) : Out State :=
  issue (.mchleave e) {} (fun _ _ s => if s.here.chainOpen then .wait 0 0 s else .ok (chainLeave s s.cur.site)) s
/-- MCHDIM, R150. -/
def execMchdim (e : Enc) (s : State) : Out State :=
  issue (.mchdim e) {} (fun _ e s => .ok (s.modMe fun k => k.writeW e.L .g e.a (chainDim s s.cur.site (s.me.g e.b)))) s

/-! ### Performing a command -/

/-- A result of a command: plane, register, bytes by their place in the plane, and the poisoned ones. -/
structure MWrite where
  plane : Nat
  num : Nat
  bytes : List (Nat × Byte)
  poison : List (Nat × W)
deriving DecidableEq, Repr

/-- What performing a command comes to. -/
inductive MRes where
  /-- It must wait: an address of a tile that is moving, an operand still to arrive. -/
  | wait
  | fault (cause : Nat) (detail : W)
  | ok (writes : List MWrite) (s : State) (flags : Nat)
deriving DecidableEq, Repr

/-- The other member of the cluster whose window an address of a footprint lies in. -/
def mMember (x : Tile) (a : W) : Option Nat :=
  if a.toNat < 0x00300000 then none
  else (lookup x.cluster ((a.toNat - 0x10000000) / 0x00400000)).filter (· != x.name)
/-- Where an address of a command's footprint lies, its checks having passed at issue: at another member, where the command's request has
found it (R177). -/
def mPlace (s : State) (t : Site) (q : MCmd) (a : W) : Option (Site × Nat) :=
  let x := s.tile t
  match mMember x a with
  | none => some (t, a.toNat % 0x00400000)
  | some name => ((lookup q.sites name).filter (memberAt s x.vni name)).map fun y => (y, a.toNat % 0x00400000)
/-- Read a line: its bytes, and the poisoned ones with the address of their word. -/
def readLine (s : State) (t : Site) (q : MCmd) (a : W) (len : Nat) : List Byte × List (Nat × W) :=
  let rd := (List.range (ceilDiv len 8)).map fun j =>
    match mPlace s t q (a + w (8 * j)) with
    | some (x, o) => (Mem.bytes (s.tile x).mem o 8, (s.tile x).bad o)
    | none => (List.replicate 8 0, false)
  ((rd.flatMap (·.1)).take len,
   (List.range len).filterMap fun i => if (rd.getD (i / 8) ([], false)).2 then some (i, a + w (8 * (i / 8))) else none)
/-- Write a line with its poisoned bytes, each aligned word at once. -/
def writeLine (s : State) (t : Site) (q : MCmd) (a : W) (bs : List Byte) (bad : List Nat) : State :=
  (List.range (ceilDiv bs.length 8)).foldl (fun s j =>
    match mPlace s t q (a + w (8 * j)) with
    | some (x, o) => s.modTile x fun y => y.storePoison o ((bs.drop (8 * j)).take 8) (if bad.any (· / 8 == j) then [0] else [])
    | none => s) s
/-- R177, R178: the other members that a command's footprint lies at and that it has not reached. -/
def footTodo (s : State) (t : Site) (q : MCmd) : List Nat :=
  match footOf q.i q.cfgA with
  | none => []
  | some (n, len, _) =>
    membersIn ((footWords q.base q.stride n len).filterMap fun a =>
      if (mPlace s t q a.1).isSome then none else (mMember (s.tile t) a.1).map fun name => .member name 0)

/-- The poison of bytes of a list that lie at some places. -/
def badAt (l : List (Nat × W)) (at_ : Nat) (idx : List Nat) : List (Nat × W) :=
  idx.filterMap fun i => (lookup l (at_ + i)).map fun d => (i, d)
/-- The first poisoned byte in rows of a plane: `rows` rows of `len` bytes. -/
def rowsBad (l : List (Nat × W)) (plane num rows len : Nat) : Option W :=
  if l.isEmpty then none
  else (l.find? fun x => (List.range rows).any fun i => decide (rowAt plane num i ≤ x.1 ∧ x.1 < rowAt plane num i + len)).map (·.2)

/-- MLD, MLDS, MLDM: rows from memory (R135). -/
def loadRows (s : State) (t : Site) (q : MCmd) (plane num : Nat) (clean : List Byte → List Byte) (n len : Nat) : MRes :=
  let rows := (List.range n).map fun i =>
    let (bs, bad) := readLine s t q (lineAt q.base q.stride i) len
    ((List.range len).zip (clean bs), bad, rowAt plane num i)
  .ok [⟨plane, num, rows.flatMap fun r => r.1.map fun b => (r.2.2 + b.1, b.2),
        rows.flatMap fun r => r.2.1.map fun b => (r.2.2 + b.1, b.2)⟩] s 0
/-- R135: bits that a load writes as zero. -/
def cleanRow (ty klen : Nat) (bs : List Byte) : List Byte :=
  if tyBits ty = 6 then bs.map fun b => b &&& 0x3F
  else if tyBits ty = 4 ∧ klen % 2 = 1 then bs.take (bs.length - 1) ++ (bs.drop (bs.length - 1)).map fun b => b &&& 0x0F
  else bs
/-- R136: stores of rows of a plane. -/
def storeRows (s : State) (t : Site) (q : MCmd) (m : Mem) (bad : List (Nat × W)) (plane num : Nat) (clean : List Byte → List Byte)
    (n len : Nat) : MRes :=
  .ok [] ((List.range n).foldl (fun s i =>
    let r := rowAt plane num i
    writeLine s t q (lineAt q.base q.stride i) (clean (Mem.bytes m r len)) ((badAt bad r (List.range len)).map (·.1))) s) 0
/-- MLDC (R135): line k holds element k of every row. -/
def loadColumns (s : State) (t : Site) (q : MCmd) (num : Nat) : MRes :=
  let c := q.cfgA
  let wd := mWidth c
  let len := ceilDiv (mRows c * wd) 8
  let lines := (List.range (mKlen c)).map fun k => readLine s t q (lineAt q.base q.stride k) len
  let rows := (List.range (mRows c)).map fun i =>
    let els := (List.range (mKlen c)).map fun k => maskElem (mType c) (elemOf (lines.getD k ([], [])).1 wd i)
    let bad := (List.range (mKlen c)).flatMap fun k =>
      match (elemBytes wd i).findSome? fun b => lookup (lines.getD k ([], [])).2 b with
      | some d => (elemBytes wd k).map fun b => (b, d)
      | none => []
    ((List.range (mRb c)).zip (packElems wd els), bad, rowAt 0 num i)
  .ok [⟨0, num, rows.flatMap fun r => r.1.map fun b => (r.2.2 + b.1, b.2),
        rows.flatMap fun r => r.2.1.map fun b => (r.2.2 + b.1, b.2)⟩] s 0
/-- MSTC (R136). -/
def storeColumns (s : State) (t : Site) (q : MCmd) (m : Mem) (bad : List (Nat × W)) (num : Nat) : MRes :=
  let c := q.cfgA
  let wd := mWidth c
  .ok [] ((List.range (mKlen c)).foldl (fun s k =>
    let els := (List.range (mRows c)).map fun i => maskElem (mType c) (elemIn m (rowAt 0 num i) wd k)
    let bads := (List.range (mRows c)).flatMap fun i =>
      if (elemBytes wd k).any fun b => (lookup bad (rowAt 0 num i + b)).isSome then elemBytes wd i else []
    writeLine s t q (lineAt q.base q.stride k) (packElems wd els) bads) s) 0

/-- The bytes of slot elements. -/
def zBytes (n : Nat) (l : List ((Nat × Nat) × Nat)) : List (Nat × Byte) :=
  l.flatMap fun x => (List.range 4).zip (leBytes 4 x.2) |>.map fun b => (zAt n x.1.1 x.1.2 + b.1, b.2)
/-- MMA, MMAX, MMAS and MCHMMA (R141): the accumulator after the product. -/
def product (s : State) (kind : Prod) (b c : Opnd) (z : Mem) (n : Nat) : MRes :=
  let (l, flags) := (grid (mRows b.cfg) (mRows c.cfg)).foldl (fun (acc : List ((Nat × Nat) × Nat) × Nat) x =>
    let (y, f) := productElem kind b c x.1 x.2 (Mem.load z (zAt n x.1 x.2) 4) acc.2
    ((x, y) :: acc.1, f)) ([], 0)
  .ok [⟨3, n, zBytes n l.reverse, []⟩] s flags
/-- MMAC (R144). -/
def complexProduct (s : State) (b c : Opnd) (z : Mem) (n : Nat) : MRes :=
  let l := (grid (mRows b.cfg) (mRows c.cfg)).map fun x =>
    (x, complexElem b c x.1 x.2 (Mem.load z (zAt n x.1 x.2) 4) (Mem.load z (zAt (n + 1) x.1 x.2) 4))
  .ok [⟨3, n, zBytes n (l.map fun y => (y.1, y.2.1)), []⟩, ⟨3, n + 1, zBytes (n + 1) (l.map fun y => (y.1, y.2.2)), []⟩] s 0
/-- ZOUT (R138). -/
def zoutRun (s : State) (t : Site) (q : MCmd) (e : Enc) (z : Mem) : MRes :=
  let sw := laneBits e.ty
  let (l, fp) := (grid 32 24).foldl (fun (acc : List Nat × Fp) x =>
    let (y, fp) := zoutElem e.ty (Mem.load z (zAt e.a x.1 x.2) 4) (Mem.load z (zAt (e.a + 1) x.1 x.2) 4) acc.2
    (y :: acc.1, fp)) ([], Fp.of e.mod q.fpMode q.seed)
  let els := l.reverse
  .ok [] ((List.range 32).foldl (fun s i =>
    writeLine s t q (lineAt q.base q.stride i) (packElems sw ((els.drop (24 * i)).take 24)) []) s) fp.flags

/-- The operands of a product as a command reads them. -/
def opnd (t : Tile) (q : MCmd) (num : Nat) (cfg : W) : Opnd := ⟨mview t q 0, mview t q 1, mview t q 2, num, cfg⟩
/-- R132: the first poisoned byte that a product consumes: A, B, then the accumulator. -/
def productBad (t : Tile) (q : MCmd) (e : Enc) : Option W :=
  let d := mbad t q 0
  let z := mbad t q 3
  let a := rowsBad d 0 e.fb (mRows q.cfgB) (mRb q.cfgB)
  let b := rowsBad d 0 e.fc (mRows q.cfgC) (mRb q.cfgC)
  let acc := fun n => rowsBad z 3 n (mRows q.cfgB) (4 * mRows q.cfgC)
  ((a <|> b) <|> (match q.i with
    | .mmax _ =>
      let len := fun c => ceilDiv (mKlen c) (if mBlk c then 32 else 8)
      rowsBad (mbad t q 1) 1 e.fb (mRows q.cfgB) (len q.cfgB) <|> rowsBad (mbad t q 1) 1 e.fc (mRows q.cfgC) (len q.cfgC)
    | .mmas _ => rowsBad (mbad t q 2) 2 e.fc (mRows q.cfgC) (ceilDiv (mKlen q.cfgC) 2)
    | .mmac _ => acc (e.a + 1)
    | _ => none)) <|> acc e.a
/-- A product, unless it consumes poison. -/
def orPoison (bad : Option W) (r : MRes) : MRes :=
  match bad with
  | some d => .fault 0x19 d
  | none => r

/-- R148: MCHMMA with the operands that have arrived. -/
def chainProduct (s : State) (t : Site) (q : MCmd) (e : Enc) : MRes :=
  let x := s.tile t
  match x.chain.arrived true q.step, x.chain.arrived false q.step with
  | some a, some b =>
    if !(mValid a.cfg && mValid b.cfg && denseA a.cfg && denseB b.cfg && densePair a.cfg b.cfg) then .fault 0x11 0xFF
    else
      let bad := (rowsBad a.poison 0 0 (mRows a.cfg) (mRb a.cfg) <|> rowsBad b.poison 0 0 (mRows b.cfg) (mRb b.cfg))
        <|> rowsBad (mbad x q 3) 3 e.a (mRows a.cfg) (4 * mRows b.cfg)
      orPoison bad (product s .dense ⟨a.data, [], [], 0, a.cfg⟩ ⟨b.data, [], [], 0, b.cfg⟩ (mview x q 3) e.a)
  | _, _ => if x.chain.state = 3 ∧ x.chain.gone.any (· ≤ q.step) then .ok [] s 0 else .wait

/-- What a command does when it is performed. What MTR writes to the unused nibble of a row's last byte, which R139 leaves open, is
log 102's choice. -/
def performCmd (s : State) (t : Site) (q : MCmd) : MRes :=
  let x := s.tile t
  let e := q.enc
  let prod := fun (kind : Prod) =>
    orPoison (productBad x q e) (product s kind (opnd x q e.fb q.cfgB) (opnd x q e.fc q.cfgC) (mview x q 3) e.a)
  match q.i with
  | .mld _ => loadRows s t q 0 e.fa (cleanRow (mType q.cfgA) (mKlen q.cfgA)) (mRows q.cfgA) (mRb q.cfgA)
  | .mldc _ => loadColumns s t q e.fa
  | .mlds _ => loadRows s t q 1 e.fa id (mRows q.cfgA) (ceilDiv (mKlen q.cfgA) (if mBlk q.cfgA then 32 else 8))
  | .mldm _ => loadRows s t q 2 e.fa (cleanRow 16 (mKlen q.cfgA)) (mRows q.cfgA) (ceilDiv (mKlen q.cfgA) 2)
  | .mst _ => storeRows s t q (mview x q 0) (mbad x q 0) 0 e.fa
      (fun bs => if tyBits (mType q.cfgA) = 6 then bs.map fun b => b &&& 0x3F else bs) (mRows q.cfgA) (mRb q.cfgA)
  | .mstc _ => storeColumns s t q (mview x q 0) (mbad x q 0) e.fa
  | .mma _ => prod .dense
  | .mmax _ => prod .scaled
  | .mmas _ =>
    match productBad x q e with
    | some d => .fault 0x19 d
    | none =>
      let c := opnd x q e.fc q.cfgC
      if !(List.range (mRows q.cfgC)).all c.indicesOk then .fault 0x03 0
      else product s .sparse (opnd x q e.fb q.cfgB) c (mview x q 3) e.a
  | .mmac _ => orPoison (productBad x q e) (complexProduct s (opnd x q e.fb q.cfgB) (opnd x q e.fc q.cfgC) (mview x q 3) e.a)
  | .zclr _ => .ok [⟨3, e.a, (List.range 3072).map fun i => (rowAt 3 e.a 0 + i, 0), []⟩] s 0
  | .zld _ => loadRows s t q 3 e.a id 32 96
  | .zst _ => storeRows s t q (mview x q 3) (mbad x q 3) 3 e.a id 32 96
  | .zout _ =>
    let bad := mbad x q 3
    orPoison (rowsBad bad 3 e.a 32 96 <|> (if isCplx e.ty then rowsBad bad 3 (e.a + 1) 32 96 else none)) (zoutRun s t q e (mview x q 3))
  | .mtr _ =>
    let wd := mWidth q.cfgB
    let m := mview x q 0
    let rows := (List.range (mKlen q.cfgB)).map fun k =>
      let els := (List.range (mRows q.cfgB)).map fun i => maskElem (mType q.cfgA) (maskElem (mType q.cfgB) (elemIn m (rowAt 0 e.fb i) wd k))
      ((List.range (mRb q.cfgA)).zip (packElems wd els)).map fun b => (rowAt 0 e.fa k + b.1, b.2)
    orPoison (rowsBad (mbad x q 0) 0 e.fb (mRows q.cfgB) (mRb q.cfgB)) (.ok [⟨0, e.fa, rows.flatten, []⟩] s 0)
  | .mchmma _ => chainProduct s t q e
  | _ => .ok [] s 0

/-! ### The sequencer (R128, R132) -/

/-- R132: the open commands that go with a trapped one: those issued after it that the machine chooses, and those with a discarded
or trapped predecessor. -/
def discards (l : List MCmd) (fresh id : Nat) : List Nat :=
  (l.foldl (fun (acc : List Nat × Nat) x =>
    if x.id = id then acc
    else
      let gone := (decide (id < x.id) && Config.freeBit (fresh + acc.2)) || l.any fun y => acc.1.contains y.id && isPred x y
      (if gone then acc.1 ++ [x.id] else acc.1, acc.2 + 1)) ([id], 0)).1
/-- R132: a command traps: it and what is discarded with it leave the window; the trap of the command issued first is taken, and goes
before that of an instruction that waits for the window to empty (log 78). -/
def cmdTrap (s : State) (t : Site) (q : MCmd) (cause : Nat) (d : W) : State :=
  let l := (s.tile t).mwin
  let out := discards l s.fresh q.id
  let s := { s with fresh := s.fresh + l.length }
  let s := s.modTile t fun x => { x with mwin := x.mwin.filter fun y => !out.contains y.id }
  s.modCore ⟨t, .math⟩ fun k =>
    let new : PTrap := ⟨cause, d, q.pc, q.id, false⟩
    match k.ptrap with
    | some p => if p.cmd = 0 ∨ q.id < p.cmd then { k with ptrap := some new } else k
    | none => { k with ptrap := some new }

/-- The command leaves the window with its results. -/
def retire (s : State) (t : Site) (q : MCmd) (writes : List MWrite) (flags : Nat) : State :=
  let s := s.modTile t fun x =>
    let live := writes.filter fun y => !q.dead.contains (y.plane, y.num)
    let x := discardOld x q
    let x := { x with
      mwin := x.mwin.filter (·.id != q.id)
      chain := (match q.i with
        | .mchmma _ => { x.chain with latched := x.chain.latched.filter (·.step != q.step) }
        | _ => x.chain)
      mpend := x.mpend ++ live.map fun y => ⟨q.id, y.plane, y.num, y.bytes, y.poison, q.pos.length, q.expiry⟩ }
    mSettle (x.mpend.length + 1) x
  (s.modCtl ⟨t, .math⟩ fun r => { r with fpFlags := r.fpFlags ||| w flags }).active t

/-- R148: a member at the west or north edge latches its operand when its step starts. -/
def latchStep (s : State) (t : Site) (q : MCmd) : State :=
  match q.i with
  | .mchmma e =>
    let x := s.tile t
    let img := fun (num : Nat) (cfg : W) =>
      let base := rowAt 0 num 0
      let data := (mview x q 0).filterMap fun b => if base ≤ b.1 ∧ b.1 < base + 3072 then some (b.1 - base, b.2) else none
      let bad := (mbad x q 0).filterMap fun b => if base ≤ b.1 ∧ b.1 < base + 3072 then some (b.1 - base, b.2) else none
      (⟨q.step, true, cfg, data, bad⟩ : Latched)
    if x.chain.gone.any (· ≤ q.step) then s
    else
      let s := if x.chain.cpos = 0 then chainSend s t true (img e.fb q.cfgB) else s
      if x.chain.rpos = 0 then chainSend s t false (img e.fc q.cfgC) else s
  | _ => s
/-- R148: a step waits while its chain is JOINING. -/
def chainReady (t : Tile) (q : MCmd) : Bool :=
  match q.i with
  | .mchmma _ => t.chain.state != 1
  | _ => true

/-- Change an open command of a tile. -/
def modCmd (s : State) (t : Site) (id : Nat) (f : MCmd → MCmd) : State := s.modTile t fun x => { x with mwin := mapIf x.mwin (·.id == id) f }
/-- R177: a command starts: its requests travel to the other members that its footprint lies at; unchanged while one of them must stall. -/
def startCmd (s : State) (t : Site) (q : MCmd) : State :=
  match askMembers s ⟨t, .math⟩ (.clusterCmd q.id) (footTodo s t q) with
  | none => s
  | some (s', ids) => latchStep (modCmd s' t q.id fun z => { z with started := true, asks := ids }) t q
/-- MATRIX_COMMAND_START, R128: the oldest open command whose predecessors have all retired. Whether a field's duty cycle withholds it just
now is free (R325). -/
def execMatrixCommandStart (t : Site) (s : State) : Out State :=
  let x := s.tile t
  let slow := s.duty.contains (fieldNo t)
  let late := slow && Config.freeBit s.fresh
  let s := if slow then { s with fresh := s.fresh + 1 } else s
  .next (match if late then none else x.mwin.find? fun q => mayStart x.mwin q && chainReady x q with
    | none => s
    | some q => startCmd s t q)

/-- MATRIX_COMMAND_RETIRE, R128: a started command is performed, in full or not at all, once the other members that it reaches have
replied; where one has moved since, it asks again (R178). -/
def execMatrixCommandRetire (t : Site) (id : Nat) (s : State) : Out State :=
  .next (match (s.tile t).mwin.find? fun q => q.id == id && q.started with
    | none => s
    | some q =>
      if !q.asks.isEmpty then s
      else if !(footTodo s t q).isEmpty then modCmd s t id fun z => { z with started := false }
      else match performCmd s t q with
        | .wait => s
        | .fault cause d => cmdTrap s t q cause d
        | .ok writes s' flags => retire s' t q writes flags)

/-- CHAIN_FORMED, R147. -/
def execChainFormed (t : Site) (s : State) : Out State := .next (chainForm s t)

end Sys2Proof.Machine
end

