-- ==== Sys2Proof/Machine/Packets.lean ====
section
/-! DEFINITION. The steps of the packet plane: hops, arrivals, acknowledgements, returns and re-injection, accesses through cluster windows, and
requests to another core (R177, R198, R218, R222 to R224, R262, R318, R341, R345, R354, R355, R384, R402). -/

namespace Sys2Proof.Machine

/-! ### Order between packets -/

/-- Packets that arrive in the order of their sending: messages (R261) and requests to a core (R353). -/
def ordered (p : Pkt) : Bool :=
  match p.body with
  | .message _ _ _ => true
  | .wake => true
  | .haltc _ => true
  | .inspect _ => true
  | _ => false
/-- The packets sent before one. -/
def before (s : State) (p : Pkt) : List Pkt := s.pkts.takeWhile (·.id != p.id)
/-- R261: an earlier packet of the flow stands at the same router. -/
def behind (s : State) (p : Pkt) : Bool :=
  ordered p && (before s p).any fun q => sameFlow q p && q.state == 0 && q.at_ == p.at_ && q.to_ == p.to_
/-- R262, R353: an earlier packet of the flow has not been accepted. -/
def olderOut (s : State) (p : Pkt) : Bool := ordered p && (before s p).any fun q => ordered q && sameFlow q p && decide (q.state < 2)
/-- R198: a send that a release or a FENCE of its core places before this one has not been performed. A buffered send is kept before
later sends only (log 108). -/
def mustFollow (s : State) (p : Pkt) : Bool :=
  let t := s.tile p.src.site
  (List.range 4).any fun i => nameReach t i p.name &&
    s.pkts.any fun q => q.src == p.src && q.no != 0 && decide (q.no ≤ p.before.getD i 0) && decide (q.state < 2)
      && q.id != p.id && nameReach t i q.name

/-! ### Hops (R263, R264, R341, R392, R402) -/

/-- The header of a packet. -/
def Pkt.head (p : Pkt) : PktHead :=
  ⟨p.vni, p.vc, p.src, p.name, p.dst, p.kind, p.chan, match p.body with
    | .message d _ _ => some d
    | _ => none⟩
/-- R341: a packet is removed, reported with the failed check, and answered with a quarantine ACK. -/
def quarantine (s : State) (p : Pkt) (check : Nat) : State :=
  let s := s.modPkt p.id fun q => { q with state := 3 }
  { s with reports := s.reports ++ [.quarantine p.at_ p.head check] }

/-- The output of the router at which a packet stands that it leaves by; 0 is the interface of the tile. -/
def outOf (s : State) (p : Pkt) : Nat :=
  if p.at_ = p.dst then 0 else Router.out (s.tile p.at_).router p.at_ p.dst p.arr p.vni
/-- The virtual channel that a packet travels on: forwarding is on VC6 (R261, R384). -/
def Pkt.lane (p : Pkt) : Nat := if p.fwd then 6 else p.vc
/-- R264: a packet's age at a router at the time `now`. -/
def Pkt.age (p : Pkt) (now : Nat) : Nat := p.stall + (now - p.since) + 4 * p.hops
/-- R264: the packets ready at an output of a router. -/
def readyAt (s : State) (t : Site) (out now : Nat) : List Pkt :=
  s.pkts.filter fun q => q.to_ == .tile && q.state == 0 && q.at_ == t && !q.landed && decide (q.since ≤ now) && !behind s q && outOf s q == out
/-- The numbers below `n` in rotation after `last`. -/
def rotation (n last : Nat) : List Nat := (List.range n).map fun i => (last + 1 + i) % n
/-- R264: what an output serves next: the virtual channels take turns, of one channel the packet with the greatest age goes first, and
among equals the input ports take turns. -/
def nextServed (r : Router) (out now : Nat) (l : List Pkt) : Option Pkt :=
  let last := (lookup r.turns out).getD (7, 4)
  match (rotation 8 last.1).find? fun v => l.any (·.lane == v) with
  | none => none
  | some v =>
    let l := l.filter (·.lane == v)
    let top := l.foldl (fun n q => Nat.max n (q.age now)) 0
    let l := l.filter fun q => q.age now == top
    (rotation 5 last.2).findSome? fun a => l.find? (·.arr == a)
/-- A router after its output has served a packet. -/
def Router.served (r : Router) (out now : Nat) (p : Pkt) : Router :=
  { r with clock := now, turns := (out, p.lane, p.arr) :: r.turns.filter (·.1 != out) }

/-- PACKET_HOP: one router sends a packet on, or hands it to the interface of its tile, where the output serves it next (R264); it has
waited there for `waited` cycles. -/
def execPacketHop (p waited : Nat) (s : State) : Out State :=
  .next (match s.pkt p with
    | none => s
    | some p =>
      if p.to_ ≠ .tile ∨ p.state ≠ 0 ∨ p.landed = true ∨ behind s p = true then s
      else
        let r := (s.tile p.at_).router
        let o := outOf s p
        let now := Nat.max r.clock (p.since + waited)
        if !r.transit.contains p.vni then quarantine s p 1
        else if p.vni = 0 ∧ p.name < 0xFF00 then quarantine s p 3
        else if (nextServed r o now (readyAt s p.at_ o now)).map (·.id) ≠ some p.id then s
        else
          let s1 := s.modTile p.at_ fun t => { t with router := t.router.served o now p }
          if o = 0 then s1.modPkt p.id fun q => { q with landed := true, stall := q.stall + (now - q.since) }
          else match neighbour p.at_ o with
            | none => bounce s p
            | some n =>
              if s.linkDown p.at_ o then bounce s p
              else s1.modPkt p.id fun q => { q with
                at_ := n, arr := o, hops := q.hops + 1, stall := q.stall + (now - q.since), since := Nat.max now (s.tile n).router.clock })

/-! ### Arrivals -/

/-- R384: a packet is returned with the hold flag; its pair leaves the bounce list. -/
def heldReturn (s : State) (p : Pkt) : State :=
  (bounce s p).modTile p.dst fun t => t.setBl ((t.blOf p.kind p.chan).leave p.src)
/-- What keeps a packet from its destination interface, if anything does: no router has handed it over or it is out of turn, quarantined (R341), returned
with the hold flag or forwarded (R384), or ordered after a send still to come (R198). -/
def gateIn (s : State) (p : Pkt) : Option State :=
  if p.to_ ≠ .tile ∨ p.state ≠ 0 ∨ p.landed = false ∨ behind s p = true then some s
  else
    let t := s.tile p.dst
    if !t.router.transit.contains p.vni then some (quarantine s p 1)
    else if p.vni = 0 then some (quarantine s p 4)
    else if t.vni ≠ p.vni then some (quarantine s p 2)
    else if isReply p.body = true then none
    else if t.hold then some (heldReturn s p)
    else match t.fwd with
      | some d => some (s.modPkt p.id fun q => { q with dst := d, arr := 0, fwd := true, since := t.router.clock, landed := false })
      | none =>
        if t.viaOnly.isSome && !p.fwd then some (heldReturn s p)
        else if mustFollow s p then some s
        else none

/-- The answer of an interface to a message (R262). -/
def answer (s : State) (p : Pkt) (a : Answer) : State :=
  match a with
  | .accept => s.modPkt p.id fun q => { q with state := 3 }
  | .bounce => bounce s p
  | .unreachable => s.modPkt p.id fun q => { q with state := 2 }
/-- R318: a frame at an Ethernet port; the depth of its queues is the implementation's. -/
def gatewayTake (s : State) (p : Pkt) (n : Nat) (payload : List Byte) : State :=
  match s.port n with
  | none => answer s p .unreachable
  | some x =>
    if 8 ≤ p.chan then answer s p .unreachable
    else if olderOut s p || decide (Config.egressDepth ≤ (x.egress.countP fun y => y.1 == p.chan)) then answer s p .bounce
    else
      let f := payload ++ List.replicate (60 - payload.length) 0
      answer (s.modPort n fun y => { y with egress := y.egress ++ [(p.chan, f)] }) p .accept
/-- PACKET_ARRIVAL, R262: a message at its destination interface or port. -/
def execPacketArrival (p : Nat) (s : State) : Out State :=
  .next (match s.pkt p with
    | none => s
    | some p =>
      match p.body with
      | .message d pl bad =>
        match p.to_ with
        | .port n => if p.state ≠ 0 ∨ behind s p = true ∨ mustFollow s p = true then s else gatewayTake s p n pl
        | _ =>
          match gateIn s p with
          | some s' => s'
          | none =>
            let (a, t) := takeMessage (s.tile p.dst) p d pl bad (olderOut s p)
            answer ((s.setTile p.dst t).active p.dst) p a
      | _ => s)

/-! ### Requests served at a tile or on a saved image (R218, R222, R223, R345, R354, R355) -/

/-- R354: WAKE. -/
def wakeCore (k : Core) : Core := if k.halted then { k with halted := false, haltReq := false }.block 1 0 0xFFFF else { k with haltReq := false }
/-- R354: HALTC. -/
def haltcCore (k : Core) (status : BitVec 32) : Core := if k.halted then k else { k with haltReq := true, hstatus := status }
/-- R354: a core that is idle, with no activation suspended, takes a halt request at once. -/
def haltsNow (k : Core) : Bool := k.haltReq && k.lo.act.isNone && k.hi.act.isNone && k.held.isNone && !k.halted
/-- R355: an item of a core's state. -/
def inspectItem (k : Core) (n : Nat) : W :=
  match n with
  | 0 => w (k.blocked.kind + k.blocked.obj % 64 * 2 ^ 4 + k.blocked.peer % 65536 * 2 ^ 16 + Nat.min k.blocked.waited 0xFFFFFFFF * 2 ^ 32)
  | 1 => w (((k.lo.act.map fun (a : Act) => a.pc).getD 0).toNat % 2 ^ 22 + b01 k.halted * 2 ^ 24 + b01 k.haltReq * 2 ^ 25 + b01 k.lo.act.isSome * 2 ^ 26
      + b01 k.hi.act.isSome * 2 ^ 27 + b01 k.mask.isSome * 2 ^ 28)
  | 2 => collWord k
  | _ => k.lo.lat
/-- A request performed at a tile: the tile after it, and the reply where there is one. -/
def serve (t : Tile) (p : Pkt) : Option (Tile × Option Body) :=
  match p.body with
  | .put a pl bad => some (t.storePoison a pl bad, none)
  | .getReq a n local_ => some (t, some (.getReply local_ (Mem.bytes t.mem a n) (t.badWords a n)))
  | .ramoReq a n fn x pc hi out =>
    match bankRmw t a n fn x.toNat with
    | some (old, t') => some (t', some (.ramoReply out (sextBytes n old) none))
    | none => some (t, some (.ramoReply out 0 (some (w (a / 8 * 8), pc, hi))))
  | .wake => some (t.setCore p.kind (wakeCore (t.core p.kind)), none)
  | .haltc st => some (t.setCore p.kind (haltcCore (t.core p.kind) st), none)
  | .inspect n => some (t, some (.inspectReply (inspectItem (t.core p.kind) n)))
  | _ => none
/-- R261: the virtual channel of a reply: INSPECT answers stay on VC4. -/
def replyVc (b : Body) : Nat :=
  match b with
  | .inspectReply _ => 4
  | _ => 3
/-- A request becomes its reply, on its channel from `from_` to the core that asked. -/
def reply (s : State) (p : Pkt) (from_ : Site) (b : Body) : State :=
  s.modPkt p.id fun q => { q with
    vc := replyVc b, src := ⟨p.dst, p.kind⟩, name := (s.tile p.src.site).name, kind := p.src.kind, to_ := .tile, dst := p.src.site, at_ := from_
    arr := 0, hops := 0, stall := 0, reinj := 0, backoff := 64, fwd := false, since := (s.tile from_).router.clock, landed := false, no := 0, before := []
    body := b }
/-- A request performed at a tile or on a saved image, which `put` writes back: acknowledged or replied to from `from_`. One that an earlier
request of its flow, not accepted yet, must precede is returned to its sender (R262, R353). A core halted at once ends its part of a
launch there (R259, R354). -/
def served (s : State) (p : Pkt) (x : Tile) (c : CoreId) (from_ : Site) (put : State → Tile → State) : State :=
  if olderOut s p then bounce s p
  else match serve x p with
    | none => s
    | some (t, b) =>
      let s := put s t
      let s := if haltsNow (t.core p.kind) then
          (haltPart s (t.core p.kind) c (t.core p.kind).hstatus.toNat).modLiveCore c fun k => { k with haltReq := false }.nowHalted
        else s
      match b with
      | some b => reply s p from_ b
      | none => answer s p .accept
/-- A request at its destination interface. -/
def serveAt (s : State) (p : Pkt) : State :=
  match gateIn s p with
  | some s' => s'
  | none => served s p (s.tile p.dst) ⟨p.dst, p.kind⟩ p.dst fun s t => (s.setTile p.dst t).active p.dst
/-- The step of one kind of request. -/
def serveEvent (p : Nat) (kind : Body → Bool) (s : State) : Out State :=
  .next (match s.pkt p with
    | some p => if kind p.body then serveAt s p else s
    | none => s)

/-- PUT_ARRIVAL, R222. -/
def execPutArrival (p : Nat) (s : State) : Out State :=
  serveEvent p (fun b => match b with
    | .put _ _ _ => true
    | _ => false) s
/-- GET_REQUEST_ARRIVAL, R223. -/
def execGetRequestArrival (p : Nat) (s : State) : Out State :=
  serveEvent p (fun b => match b with
    | .getReq _ _ _ => true
    | _ => false) s
/-- RAMO_REQUEST_ARRIVAL, R218. -/
def execRamoRequestArrival (p : Nat) (s : State) : Out State :=
  serveEvent p isRamo s
/-- WAKE_REQUEST, R354. -/
def execWakeRequest (p : Nat) (s : State) : Out State := serveEvent p (fun b => b == .wake) s
/-- HALTC_REQUEST, R354. -/
def execHaltcRequest (p : Nat) (s : State) : Out State :=
  serveEvent p (fun b => match b with
    | .haltc _ => true
    | _ => false) s
/-- INSPECT_REQUEST, R355. -/
def execInspectRequest (p : Nat) (s : State) : Out State :=
  serveEvent p (fun b => match b with
    | .inspect _ => true
    | _ => false) s

/-! ### Replies -/

/-- The core that a reply goes to. -/
def Pkt.asker (p : Pkt) : CoreId := ⟨p.dst, p.kind⟩
/-- R181: a packet is over, and the bounce reservation that its sender holds for it is released; a reply stands for the ACK of its
request. -/
def doneWith (s : State) (c : CoreId) (id : Nat) : State :=
  (s.dropPkt id).modCore c fun k => { k with resv := k.resv.filter (·.1 != id) }
/-- A core waits for a packet. -/
def awaitsPkt (s : State) (c : CoreId) (id : Nat) : Bool := (s.core c).wait.any fun x => x.tag == id || x.more.contains id
/-- The instruction that waited for a packet is complete. -/
def finishWait (s : State) (c : CoreId) (id : Nat) : State := if awaitsPkt s c id then complete s c else s
/-- GET_REPLY_ARRIVAL, R223: the words of a GET are written at its local address, and the GET is complete. -/
def execGetReplyArrival (p : Nat) (s : State) : Out State :=
  .next (match s.pkt p with
    | none => s
    | some p =>
      match p.body with
      | .getReply a pl bad =>
        match gateIn s p with
        | some s' => s'
        | none =>
          let c := p.asker
          let n := pl.length / 8
          if !awaitsPkt s c p.id then doneWith s c p.id
          else match places s c ⟨true, false⟩ (wordAddrs (w a) n) with
            | .error _ => finishWait (doneWith s c p.id) c p.id
            | .ok ps =>
              if ps.any fun q => (whereIs s c q).isNone then s
              else
                let s := ((List.range n).zip ps).foldl (fun s (j, q) =>
                  storeAt s c q ((pl.drop (8 * j)).take 8) (if bad.contains j then [0] else [])) s
                finishWait (doneWith s c p.id) c p.id
      | _ => s)
/-- RAMO_RESULT_ARRIVAL, R218: g[a] receives the old value; a poisoned word traps the issuer (R398). -/
def execRamoResultArrival (p : Nat) (s : State) : Out State :=
  .next (match s.pkt p with
    | none => s
    | some p =>
      match p.body with
      | .ramoReply out old bad =>
        match gateIn s p with
        | some s' => s'
        | none =>
          let c := p.asker
          let s := finishWait (doneWith s c p.id) c p.id
          match bad with
          | none => s.modCore c fun k => k.deliver out (old.setWidth 512) []
          | some (d, pc, hi) => s.modCore c fun k =>
              { k with outst := k.outst.filter (·.id != out) }.pendTrap ⟨0x19, d, pc, 0, hi⟩
      | _ => s)
/-- INSPECT_REPLY, R355. -/
def execInspectReply (p : Nat) (s : State) : Out State :=
  .next (match s.pkt p with
    | none => s
    | some p =>
      match p.body with
      | .inspectReply x =>
        match gateIn s p with
        | some s' => s'
        | none =>
          let c := p.asker
          if awaitsPkt s c p.id then answered (doneWith s c p.id) c x else doneWith s c p.id
      | _ => s)

/-! ### Acknowledgements, returns and re-injection (R181, R224, R262, R341) -/

/-- A request that will have no reply ends its sender's wait: the result is not written; an access through a cluster window is
tried again. -/
def noReply (s : State) (p : Pkt) : State :=
  match p.body with
  | .getReq _ _ _ => finishWait s p.src p.id
  | .inspect _ => finishWait s p.src p.id
  | .ramoReq _ _ _ _ _ _ out =>
    finishWait (s.modCore p.src fun k => { k with outst := k.outst.filter (·.id != out) }) p.src p.id
  | .cluster => if awaitsPkt s p.src p.id then s.modCore p.src fun k => { k with wait := none }.unblock else s
  | .clusterCmd id => modCmd s p.src.site id fun q => { q with started := false, asks := [] }
  | _ => s
/-- ACK_ARRIVAL, R181: the ACK of an accepted packet, or a quarantine ACK (R341). -/
def execAckArrival (p : Nat) (s : State) : Out State :=
  .next (match s.pkt p with
    | some p => if p.state ≠ 3 then s else noReply (doneWith s p.src p.id) p
    | none => s)
/-- An access through a cluster window: the answer that there is no such tile records nothing, since it is tried again. -/
def isCluster (b : Body) : Bool :=
  match b with
  | .cluster => true
  | .clusterCmd _ => true
  | _ => false
/-- UNREACHABLE_RETURN, R224: the sender records SEND_UNREACHABLE. -/
def execUnreachableReturn (p : Nat) (s : State) : Out State :=
  .next (match s.pkt p with
    | some p =>
      if p.state ≠ 2 then s
      else
        let s := noReply (doneWith s p.src p.id) p
        if isCluster p.body then s
        else s.modCore p.src fun k => k.recordAsync 0x16 (unreachDetail p.name p.kind p.chan)
    | none => s)
/-- REINJECTION, R262: a bounced packet goes out again, to what its name now stands for (R345), after its backoff. A stall of the region's
injections (R360) holds no packet that was injected before it, so that the wait for those ends. -/
def execReinjection (p waited : Nat) (s : State) : Out State :=
  .next (match s.pkt p with
    | none => s
    | some p =>
      if p.state ≠ 1 ∨ waited < p.backoff ∨ olderOut s p = true then s
      else
        let from_ := p.src.site
        let t := s.tile from_
        let x := t.readBounce p.src.kind p
        let again := fun (to_ : PktTo) (d : Site) (st : Nat) => s.modPkt p.id fun q => { q with
          to_ := to_, dst := d, at_ := from_, arr := 0, hops := 0, stall := 0, fwd := false, state := st, reinj := q.reinj + 1
          backoff := Nat.min 4096 (2 * q.backoff), since := t.router.clock, landed := false
          body := if isReply q.body then q.body else q.body.withData x.1 x.2 }
        let tile := fun (d : Site) => if noTile s d then again .tile from_ 2 else again .tile d 0
        if isReply p.body then again .tile p.dst 0
        else match resolve t p.name with
          | .moving _ => s
          | .unbound => again .tile from_ 2
          | .bound d => tile d
          | .forwarded d => tile d
          | .swapped i => again (.island i) from_ 0
          | .gateway n => again (.port n) from_ 0)
/-- RESERVATION_LAPSE, R262: after 4,096 cycles the space is open to any arrival. -/
def execReservationLapse (c : CoreId) (chan waited : Nat) (s : State) : Out State :=
  .next (if waited < 4096 then s else s.modTile c.site fun t => t.setBl { t.blOf c.kind chan with reserved := none })

/-- SWAPPED_TARGET_SERVICE, R183, R340, R345: past the router of its sender's tile, the island that holds a tile's saved image performs what is sent to its name. Once the image is
gone the packet goes back, to be sent to where the name then is. -/
def execSwappedTargetService (p : Nat) (s : State) : Out State :=
  .next (match s.pkt p with
    | none => s
    | some p =>
      match p.to_ with
      | .island _ =>
        if p.state ≠ 0 ∨ behind s p = true ∨ mustFollow s p = true then s
        else if !(s.tile p.at_).router.transit.contains p.vni then quarantine s p 1
        else match s.image p.vni p.name with
          | none => bounce s p
          | some x =>
            match imageAccess s (.image p.vni p.name) (4 * p.id + 1) with
            | (false, s) => s
            | (true, s) =>
              match p.body with
              | .message d pl bad =>
                let (a, t) := takeMessage x.tile p d pl bad (olderOut s p)
                answer (s.modImage p.vni p.name fun _ => t) p a
              | _ =>
                if (serve x.tile p).isNone then bounce s p
                else served s p x.tile ⟨((s.siteOfName p.vni p.name).getD p.dst), p.kind⟩ p.src.site fun s t =>
                  s.modImage p.vni p.name fun _ => t
      | _ => s)

/-! ### Accesses through cluster windows (R177, R178) -/

/-- The effect of a form that can reach another member of the cluster. -/
def rerun (i : Instr) (s : State) : Option Eff :=
  match i with
  | .ld e => some (bodyLd e s)
  | .ldn e => some (bodyLdn e s)
  | .st e => some (bodySt e s)
  | .stn e => some (bodyStn e s)
  | .vld e => some (bodyVld e s)
  | .vst e => some (bodyVst e s)
  | .vlds e => some (bodyVlds e s)
  | .vsts e => some (bodyVsts e s)
  | .vgath e => some (bodyVgath e s)
  | .get e => some (bodyGet e s)
  | .vscat e => some (bodyVscat e s)
  | .vldb e => some (bodyVldb e s)
  | .amo e => some (bodyAmo e s)
  | .amow e => some (bodyAmow e s)
  | .cas e => some (bodyCas e s)
  | .casw e => some (bodyCasw e s)
  | .send e => some (bodySend e s)
  | .put e => some (bodyPut e s)
  | .cpy e => some (bodyCpy e s)
  | .cpy2d e => some (bodyCpy2d e s)
  | .capld e => some (bodyCapld e s)
  | .capst e => some (bodyCapst e s)
  | .cbegin e => some (bodyCbegin e s)
  | .bararr e => some (bodyBararr e s)
  | .barsync e => some (bodyBarsync e s)
  | .bop e => some (bopBody i e 8 s)
  | .bopw e => some (bopBody i e 4 s)
  | .vbred e => some (bodyVbred e s)
  | .dpost e => some (bodyDpost e s)
  | .ctxsave e => some (bodyCtxsave e s)
  | .ctxload e => some (bodyCtxload e s)
  | .mclaim e => some (bodyMclaim e s)
  | .mrelease e => some (bodyMrelease e s)
  | _ => none
/-- The packet of a waiting core has found a member; with the last of its packets the access is performed and the answers travel back. Where
the form has still to wait it is tried again there, with what it has done (R286); where it waits for another agent, or ends its
activation, no answer is needed. -/
def performAccess (s : State) (p : Pkt) : State :=
  match (s.core p.src).wait with
  | none => doneWith s p.src p.id
  | some x =>
    let tags := x.tag :: x.more
    if !tags.contains p.id then doneWith s p.src p.id
    else
      let back := fun (s' : State) => { s' with cur := s.cur }
      let last := !s.pkts.any fun q => q.id != p.id && tags.contains q.id && q.body == .cluster
      let s1 := ({ s with cur := p.src }).modCore p.src fun k => { k with wait := some { x with done := last, sites := insert x.sites p.name p.dst } }
      let at_ := p.dst
      if !last then reply (back s1) p at_ (.clusterReply none)
      else match rerun x.i s1 with
      | some (.ok s') => reply ((back s').modCore p.src fun k => k.block 11 0 p.name) p at_ (.clusterReply none)
      | some (.trap cause d s') =>
        reply ((back s').modCore p.src fun k => k.block 11 0 p.name) p at_ (.clusterReply (some (cause, d)))
      | some (.wait kind obj s') => back (s'.modCore p.src fun k => k.block kind obj 0xFFFF)
      | some (.hold s') => doneWith (back s') p.src p.id
      | some (.over s') => doneWith (back s') p.src p.id
      | _ => s
/-- CLUSTER_ACCESS, R177: the request of a core, or of a matrix command, at another member of the cluster. -/
def execClusterAccess (p : Nat) (s : State) : Out State :=
  .next (match s.pkt p with
    | some p =>
      if !isCluster p.body then s
      else match gateIn s p with
        | some s' => s'
        | none =>
          match p.body with
          | .clusterCmd id =>
            let s := (s.active p.dst).modTile p.src.site fun t =>
              { t with mwin := mapIf t.mwin (·.id == id) fun q => { q with sites := insert q.sites p.name p.dst } }
            reply s p p.dst (.clusterCmdReply id)
          | _ => performAccess (s.active p.dst) p
    | none => s)
/-- What a wait still awaits after one of its packets. -/
def Wait.after (x : Wait) (id : Nat) : Option Wait :=
  match (x.tag :: x.more).filter (· != id) with
  | [] => none
  | a :: r => some { x with tag := a, more := r }
/-- CLUSTER_ACCESS_REPLY: with the last answer the instruction is complete, or takes the trap that its access met; a matrix command has found
a member. -/
def execClusterAccessReply (p : Nat) (s : State) : Out State :=
  .next (match s.pkt p with
    | some p =>
      match p.body with
      | .clusterReply trap =>
        match gateIn s p with
        | some s' => s'
        | none =>
          let c := p.asker
          let s := doneWith s c p.id
          if !awaitsPkt s c p.id then s
          else match trap with
            | some (cause, d) => takeTrap (s.modCore c fun k => { k with wait := none }.unblock) c cause d (s.core c).pc
            | none => match (s.core c).wait.bind (·.after p.id) with
              | some x => s.modCore c fun k => { k with wait := some x }
              | none => complete s c
      | .clusterCmdReply id =>
        match gateIn s p with
        | some s' => s'
        | none =>
          let c := p.asker
          modCmd (doneWith s c p.id) c.site id fun q => { q with asks := q.asks.filter (· != p.id) }
      | _ => s
    | none => s)

end Sys2Proof.Machine
end

