-- ==== Sys2Proof/Machine/Binding.lean ====
section
/-! DEFINITION. Binding tiles to regions, binding maps, transit tables, virtual devices, and keys (R257, R308, R339, R340, R343, R345, R346, R352,
R356). -/

namespace Sys2Proof.Machine

/-! ### Binding maps (R345, R346) -/

/-- The binding map entry of a name as the islands write it: SWAPPED while its image is saved, MOVING while it is migrated, BOUND to its
tile, else UNBOUND. -/
def mapEntry (s : State) (vni name : Nat) : Nat :=
  match s.image vni name with
  | some x => x.island % 64 + 2 * 2 ^ 14
  | none => match s.siteOfName vni name with
    | some t => t.x + t.y * 2 ^ 7 + b01 (s.tile t).moving * 2 ^ 14
    | none => 0xFFFF
/-- The listed bytes of a binding map, numbered from its start. -/
def mapBytes (s : State) (vni : Nat) : Mem :=
  (List.range 0x8000).filterMap fun i =>
    let b := BitVec.ofNat 8 (mapEntry s vni (i / 2) / 256 ^ (i % 2))
    if b = 0 then none else some (i, b)
/-- A tile whose map the islands write whole. -/
def Tile.writeMap (t : Tile) (m : Mem) : Tile :=
  t.setMem 0x002C0000 0x8000 (Mem.splice t.mem 0x002C0000 0x8000 m)
/-- R346: a binding change of a region: the islands write the map at every tile of it, and report a map that differed from what they
wrote before. `f` changes what the names stand for. -/
def rebind (s : State) (vni : Nat) (f : State → State) : State :=
  let old := mapBytes s vni
  let differ := (s.tilesOf vni).filter fun t => (s.tile t).fwd.isNone && Mem.slice (s.tile t).mem 0x002C0000 0x8000 != old
  let s := f { s with reports := s.reports ++ differ.map .mapDiffers }
  let new := mapBytes s vni
  (s.tilesOf vni).foldl (fun s t => if (s.tile t).fwd.isSome then s else s.modTile t fun x => x.writeMap new) s
/-- The names of a region changed. -/
def setNames (s : State) (vni : Nat) (f : List (Nat × Site) → List (Nat × Site)) : State :=
  s.modRegion vni fun r => { r with names := f r.names }
/-- One entry of a tile's map. -/
def setEntry (s : State) (t : Site) (name entry : Nat) : State := s.modTile t fun x => x.store (mapAddr name) (leBytes 2 entry)

/-! ### Binding and unbinding (R257, R339) -/

/-- R257: a tile after reset; its router and its count at the home island (R397) are no part of it. -/
def resetTile (t : Tile) : Tile := { Tile.reset with router := t.router, eccCount := t.eccCount }
/-- The collective slot quota of a VNI of a virtual device. -/
def VDev.quotaOf (d : VDev) (vni : Nat) : Nat := (lookup (d.vnis.zip d.quotas) vni).getD 16
/-- A region with its first tile: its keys are drawn, its groups and barriers are 0 (R273, R285), and its collective quota is its virtual device's.
Its sequence counters come to it as its rules name them (R316). -/
def openRegion (s : State) (vni : Nat) (key prev : BitVec 256) : State :=
  if (s.region vni).isSome then s
  else
    let q := ((s.vdevOf vni).map fun d => d.quotaOf vni).getD 16
    let r : Region := { vni := vni, names := [], keyCur := key, keyPrev := prev, revoking := none, quota := q, quiet := 0, raised := false, stalled := false,
                        oldKeys := (key, prev), late := [], seqctrs := [] }
    { s with regions := s.regions ++ [r]
             groups := s.groups.filter (·.vni != vni), insts := s.insts.filter (·.vni != vni), barGens := s.barGens.filter (·.vni != vni) }
/-- R356: a site lies within the rectangle of its region's virtual device. -/
def inVdev (s : State) (vni : Nat) (t : Site) : Bool :=
  let g := s.grid vni
  match logOf s.dead t with
  | some (x, y) => decide (g.1 ≤ x ∧ x < g.1 + g.2.2.1 ∧ g.2.1 ≤ y ∧ y < g.2.1 + g.2.2.2)
  | none => false
/-- REGION_BIND, R257, R388, R405: once booted, the islands bind a working tile of no region to a name of a region: they reset it, write its binding fields, and
write the maps. `key` and `prev` are the keys drawn where the region is new. -/
def execRegionBind (t : Site) (vni name : Nat) (key prev : BitVec 256) (s : State) : Out State :=
  .next (if s.booted = false ∨ vni = 0 ∨ 4096 ≤ vni ∨ 0x4000 ≤ name ∨ (s.tile t).bound = true ∨ s.gone t = true ∨ inVdev s vni t = false
      ∨ (s.siteOfName vni name).isSome = true then s
    else
      let s := openRegion s vni key prev
      rebind s vni fun s =>
        let p := s.coords vni t
        let s := s.modTile t fun x => { resetTile x with bound := true, vni := vni, logX := p.1, logY := p.2, name := name }
        setNames s vni fun l => insert l name t)
/-- Some launch runs on a tile. -/
def inUse (s : State) (t : Site) : Bool := s.places.any fun p => p.admitted.isSome && !p.swapped && (s.placeTiles p).contains t
/-- A region that has lost its last tile is gone, its keys with it. -/
def closeRegion (s : State) (vni : Nat) : State :=
  { s with regions := s.regions.filter fun r => !(r.vni == vni && r.names.isEmpty) }
/-- A core that stood at one site stands at another. -/
def reSite (a b c : Site) : Site := if c = a then b else c
def reCore (a b : Site) (c : CoreId) : CoreId := ⟨reSite a b c.site, c.kind⟩
/-- Everything that finds a tile by its site finds it at another. -/
def reseat (s : State) (a b : Site) : State :=
  { s with
    insts := s.insts.map fun i => { i with members := i.members.map (reCore a b) }
    barGens := s.barGens.map fun g => { g with members := g.members.map (reCore a b), arrived := g.arrived.map (reCore a b) }
    launches := s.launches.map fun l =>
      { l with sent := l.sent.map (reSite a b), ends := l.ends.map (reCore a b), tiles := l.tiles.map (reSite a b) }
    regions := s.regions.map fun r => { r with revoking := r.revoking.map (reCore a b), late := r.late.map (reSite a b) }
    exchs := s.exchs.map fun x => { x with posts := x.posts.map fun p => { p with site := reSite a b p.site } } }
/-- The tile at a site goes to another use while its image is saved: the name stands at no site of the wafer (R383). -/
def park (s : State) (t : Site) : State :=
  match s.live t with
  | .image v n =>
    if 125 < t.y then s else (reseat s t (parked v n)).modRegion v fun r => { r with names := insert r.names n (parked v n) }
  | _ => s
/-- R352: the interface of a site takes its region's new keys. -/
def keysTaken (s : State) (vni : Nat) (t : Site) : State := s.modRegion vni fun r => { r with late := r.late.filter (· != t) }
/-- A tile leaves its region and is reset; its name is UNBOUND, unless its image is saved. Its engine contexts are released. -/
def unbind (s : State) (t : Site) : State :=
  let v := (s.tile t).vni
  let n := (s.tile t).name
  let s := rebind (park s t) v fun s =>
    let s := s.modTile t resetTile
    if s.siteOfName v n != some t then s else setNames s v fun l => l.filter (·.1 != n)
  let ours := s.engines.filter fun x => x.site == t && x.away.isNone
  xonSweep (closeRegion { (ours.foldl (fun s x => unwait s (ofEngine x.num)) (keysTaken s v t)) with
    engines := s.engines.filter fun x => !(x.site == t && x.away.isNone) } v)
/-- REGION_UNBIND, R257: not while a launch runs there. -/
def execRegionUnbind (t : Site) (s : State) : Out State :=
  .next (if !(s.tile t).bound || inUse s t then s else unbind s t)

/-- TRANSIT_TABLE_WRITE, R340: bit 0 stays 1; a bit is cleared only when its region is gone and nothing of it moves. -/
def execTransitTableWrite (t : Site) (vni : Nat) (permit : Bool) (s : State) : Out State :=
  .next (if vni = 0 ∨ 4096 ≤ vni then s
    else if !permit && ((s.region vni).isSome || s.pkts.any (·.vni == vni)) then s
    else s.modTile t fun x =>
      let l := x.router.transit.filter (· != vni)
      { x with router := { x.router with transit := if permit then l ++ [vni] else l } })
/-- BINDING_MAP_WRITE, R10, R346: the home island writes one entry, none that binds a name to a hole; it reports an entry that differs from what the islands had written. -/
def execBindingMapWrite (t : Site) (name : Nat) (entry : BitVec 16) (s : State) : Out State :=
  .next (if !(s.tile t).bound || decide (0x4000 ≤ name) || (match entryOf entry.toNat with
      | .bound d => noTile s d
      | _ => false) then s
    else
      let old := Mem.load (s.tile t).mem (mapAddr name) 2
      let s := if old ≠ mapEntry s (s.tile t).vni name ∧ (s.tile t).fwd.isNone = true then { s with reports := s.reports ++ [.mapDiffers t] } else s
      setEntry s t name entry.toNat)

/-! ### Virtual devices (R356) -/

/-- Two lists share an element. -/
def meets (l m : List Nat) : Bool := l.any m.contains
/-- A site stands within a rectangle of the logical grid. -/
def inRect (s : State) (x0 y0 cols rows : Nat) (t : Site) : Bool :=
  match logOf s.dead t with
  | some (x, y) => decide (x0 ≤ x ∧ x < x0 + cols ∧ y0 ≤ y ∧ y < y0 + rows)
  | none => false
/-- The region of an engine context. -/
def Engine.vni (s : State) (e : Engine) : Nat :=
  match e.away with
  | some a => a.1
  | none => (s.tile e.site).vni
/-- R356: a new device's parts are in their ranges, none is another device's, and what is bound of them already belongs together: its regions'
tiles stand in its rectangle, and its contexts carry its PASIDs and serve its regions. -/
def VDev.fits (s : State) (d : VDev) : Bool :=
  decide (d.num < 1024 ∧ d.xquota ≤ 4 ∧ d.quotas.length = d.vnis.length ∧ d.vnis ≠ [] ∧ 0 < d.cols ∧ 0 < d.rows
      ∧ d.x0 + d.cols ≤ Config.logicalCols ∧ d.y0 + d.rows ≤ Config.logicalRows)
    && decide (d.vnis.Nodup ∧ d.ctxs.Nodup ∧ d.pasids.Nodup ∧ d.engines.Nodup)
    && (d.quotas.all fun q => decide (q ≤ 16)) && (d.vnis.all fun v => decide (0 < v ∧ v < 4096)) && (d.engines.all fun n => decide (n < 4096))
    && decide ((s.vdevs.map (·.ctxs.length)).sum + d.ctxs.length ≤ 8192)
    && (s.vdevs.all fun e => e.num != d.num && !meets e.vnis d.vnis && !meets e.ctxs d.ctxs && !meets e.pasids d.pasids && !meets e.engines d.engines
      && decide (e.x0 + e.cols ≤ d.x0 ∨ d.x0 + d.cols ≤ e.x0 ∨ e.y0 + e.rows ≤ d.y0 ∨ d.y0 + d.rows ≤ e.y0))
    && (d.vnis.all fun v => (s.tilesOf v).all (inRect s d.x0 d.y0 d.cols d.rows))
    && (s.qctxs.all fun q => !d.ctxs.contains q.num || d.pasids.contains q.pasid)
    && (s.engines.all fun e => d.engines.contains e.num == d.vnis.contains (e.vni s) && (!d.engines.contains e.num || d.pasids.contains e.pasid))
/-- VIRTUAL_DEVICE_BIND: a rectangle of the grid, regions, contexts and quotas; no resource of another device, nor edge memory (R358). -/
def execVirtualDeviceBind (vf x0 y0 cols rows : Nat) (vnis ctxs pasids engines quotas : List Nat) (xquota : Nat) (s : State) : Out State :=
  .next (let d : VDev := { num := vf, x0 := x0, y0 := y0, cols := cols, rows := rows, vnis := vnis, ctxs := ctxs, pasids := pasids,
                           engines := engines, quotas := quotas, xquota := xquota }
    if !d.fits s || !apart { s with vdevs := s.vdevs ++ [d] } then s
    else
      let s := { s with vdevs := s.vdevs ++ [d], qctxs := mapIf s.qctxs (fun q => ctxs.contains q.num) fun q => { q with vdev := vf },
                        regions := mapIf s.regions (fun r => vnis.contains r.vni) fun r => { r with quota := d.quotaOf r.vni } }
      vnis.foldl (fun s v => (s.tilesOf v).foldl (fun s t =>
        let p := s.coords v t
        s.modTile t fun x => { x with logX := p.1, logY := p.2 }) s) s)

/-! ### Keys (R352) -/

/-- A core's CAPREVOKE request and its mode. -/
def revokeMode (k : Core) : Option Nat :=
  match k.req with
  | some (.caprevoke m) => if k.ans.isNone then some m else none
  | _ => none
/-- The first core of a region with a CAPREVOKE that no key change has served. -/
def firstRevoker (s : State) (vni : Nat) : Option (CoreId × Nat) :=
  ((s.tilesOf vni).flatMap fun t => kinds.map fun k => (⟨t, k⟩ : CoreId)).findSome? fun c => (revokeMode (s.core c)).map fun m => (c, m)
/-- KEY_CHANGE: the root draws new keys for the region of a CAPREVOKE, `k1` and, for PURGE, a different `k2` as the previous key; the ingest
rules are checked again under them (R308). Every interface of the region holds the old pair until it takes the new one (R352). -/
def execKeyChange (vni : Nat) (k1 k2 : BitVec 256) (s : State) : Out State :=
  .next (match s.region vni with
    | none => s
    | some r =>
      if r.revoking.isSome || !r.late.isEmpty then s
      else match firstRevoker s vni with
        | none => s
        | some (c, m) =>
          if m = 1 ∧ k1 = k2 then s
          else
            let s := s.modRegion vni fun r =>
              { r with revoking := some c, keyPrev := if m = 0 then r.keyCur else k2, keyCur := k1, oldKeys := (r.keyCur, r.keyPrev),
                       late := s.tilesOf vni }
            recheckRules s vni)
/-- CAPREVOKE_ANSWER: 0 DONE for the core whose key change is over, every interface holding the new keys; 1 BUSY for another of the region
meanwhile. -/
def execCaprevokeAnswer (c : CoreId) (s : State) : Out State :=
  .next (let v := (s.tile c.site).vni
    match revokeMode (s.core c), (s.region v).bind (·.revoking) with
    | some _, some d =>
      if d ≠ c then answered s c 1
      else if (s.region v).any fun r => !r.late.isEmpty then s
      else answered (s.modRegion v fun r => { r with revoking := none }) c 0
    | _, _ => s)

end Sys2Proof.Machine
end

