-- ==== Sys2Proof/Machine/Vector.lean ====
section
/-! DEFINITION. The vector instructions at issue (R102 to R106, R110 to R120): the checks of each form and its entry in the vector queue; and
what the queue makes of an entry: its result, the poison it consumes and the poison that stays. -/

namespace Sys2Proof.Machine

/-! ### Checks from the encoding alone (R102, R103) -/

/-- A type that the form lists, and a modifier that it lists for that type. -/
def tyCk (types : Nat → Bool) (mods : Nat → Nat → Bool) (e : Enc) : Ck := { bad := !(types e.ty && mods e.ty e.mod) }
/-- Float types under every modifier, the others under 000 and 001. -/
def modArith (ty mod : Nat) : Bool := if isFloat ty then decide (mod ≤ 6) else decide (mod ≤ 1)
/-- Float types under 000 only, the others under 000 and 001. -/
def modSign (ty mod : Nat) : Bool := if isFloat ty then mod == 0 else decide (mod ≤ 1)
/-- Modifier 000 only. -/
def modNone (_ mod : Nat) : Bool := mod == 0
def clsFI (t : Nat) : Bool := clsF t || clsI t
def clsFIC (t : Nat) : Bool := clsF t || clsI t || isCplx t

/-- R103: the source type code of VCVT. -/
def cvtSrc (e : Enc) : Nat := 4 * e.fc + e.f
/-- R69, R70, R112: the checks of VCVT. -/
def cvtCk (e : Enc) : Ck :=
  let a := cvtSrc e
  let b := e.ty
  let pair := isCplx a == isCplx b && !(isInt a && b == 22) && !(a == 22 && isInt b)
  let mod := if b = 22 then e.mod == 0 else if isFloat b then decide (e.mod ≤ 6) else decide (e.mod ≤ 1)
  { bad := !(decide (a < 23) && decide (b < 23) && pair && mod) }
/-- R103: VQUANT and VDEQ of block 32. -/
def isMx (e : Enc) : Bool := e.f == 1
/-- R103, R114: VQUANT; an integer element type takes the rounding modifiers too, which round it (log 77). -/
def quantCk (e : Enc) : Ck := { bad := !(quantType e.ty (isMx e)) || e.mod == 1 || e.mod == 7 }
def deqCk (e : Enc) : Ck := { bad := !(quantType e.ty (isMx e)) || e.mod == 7 || e.a % 2 != 0 }
/-- R117: the types and modifiers of VDOT. -/
def dotCk (e : Enc) : Ck :=
  let int := e.ty == 0 || e.ty == 1 || e.ty == 4 || e.ty == 5 || e.ty == 16 || e.ty == 17 || decide (18 ≤ e.ty ∧ e.ty ≤ 20)
  { bad := !((int && decide (e.mod ≤ 1)) || (decide (9 ≤ e.ty ∧ e.ty ≤ 15) && decide (e.mod ≤ 6))) }
def dotcCk (e : Enc) : Ck := { bad := !(decide (18 ≤ e.ty ∧ e.ty ≤ 20) && decide (e.mod ≤ 1)) }

/-! ### Entry in the queue (R104) -/

/-- R25: v[a] is no bound stream register, whatever the predicate (log 77), and the instruction enters the queue with its g operands. -/
def toV (i : Instr) (e : Enc) (x y sel : W) (s : State) : Eff :=
  if s.me.streamBound e.a then .trap 0x03 0 s else vpush i e x y sel none 0 s

/-- The predicate lanes of a form of `n` lanes are not all ones. -/
def partialPred (p : W) (n : Nat) : Bool := !((List.range n).all fun i => p.getLsbD i)

/-- R110: VCMP enters the queue and promises p[a]; where some lane is inactive it reads p[a] too. Of 64 lanes none active, it writes
no bit of p[a] (R37). -/
def cmpBody (i : Instr) (e : Enc) (s : State) : Eff :=
  let k := s.me
  let n := 512 / laneBits e.ty
  let old := partialPred (k.pred e) n
  if 64 ≤ n ∧ anyActive (k.pred e) n = false then vpush i e 0 0 0 none 0 s
  else if 16 ≤ k.vq.length || (old && k.mustWait .p e.a) then .wait 0 0 s
  else match (if old then k.poisonOf .p e.a else none) with
    | some d => .trap 0x19 d s
    | none =>
      let (out, k') := k.promise e.L .p e.a
      vpush i e 0 (k.p e.a) 0 (some out) 0 (s.setCore s.cur k')

/-- R119: VEXTR reads lane k, or gives 0 where there is none. -/
def extrLane (e : Enc) (y : W) : Option Nat := if y.toNat < 512 / laneBits e.ty then some y.toNat else none
/-- R119: VEXTR enters the queue; it promises g[a] unless bit k of P is 0. -/
def extrBody (i : Instr) (e : Enc) (s : State) : Eff :=
  let k := s.me
  if 16 ≤ k.vq.length then .wait 0 0 s
  else
    let y := k.g e.c
    if (extrLane e y).any fun j => !(k.pred e).getLsbD j then vpush i e 0 y 0 none 0 s
    else
      let (out, k') := k.promise e.L .g e.a
      vpush i e 0 y 0 (some out) 0 (s.setCore s.cur k')

/-! ### The instructions -/

/-- VADD, R107. -/
def execVadd (e : Enc) (s : State) : Out State := issue (.vadd e) (tyCk clsFIC modArith e) (fun _ e s => toV (.vadd e) e 0 0 0 s) s
/-- VSUB, R107. -/
def execVsub (e : Enc) (s : State) : Out State := issue (.vsub e) (tyCk clsFIC modArith e) (fun _ e s => toV (.vsub e) e 0 0 0 s) s
/-- VMUL, R107. -/
def execVmul (e : Enc) (s : State) : Out State := issue (.vmul e) (tyCk clsFI modArith e) (fun _ e s => toV (.vmul e) e 0 0 0 s) s
/-- VFMA, R107. -/
def execVfma (e : Enc) (s : State) : Out State := issue (.vfma e) (tyCk clsF modArith e) (fun _ e s => toV (.vfma e) e 0 0 0 s) s
/-- VFMS, R107. -/
def execVfms (e : Enc) (s : State) : Out State := issue (.vfms e) (tyCk clsF modArith e) (fun _ e s => toV (.vfms e) e 0 0 0 s) s
/-- VDIV, R107. -/
def execVdiv (e : Enc) (s : State) : Out State := issue (.vdiv e) (tyCk clsF modArith e) (fun _ e s => toV (.vdiv e) e 0 0 0 s) s
/-- VSQRT, R107. -/
def execVsqrt (e : Enc) (s : State) : Out State := issue (.vsqrt e) (tyCk clsF modArith e) (fun _ e s => toV (.vsqrt e) e 0 0 0 s) s
/-- VEXP2, R107. -/
def execVexp2 (e : Enc) (s : State) : Out State := issue (.vexp2 e) (tyCk clsF modArith e) (fun _ e s => toV (.vexp2 e) e 0 0 0 s) s
/-- VLOG2, R107. -/
def execVlog2 (e : Enc) (s : State) : Out State := issue (.vlog2 e) (tyCk clsF modArith e) (fun _ e s => toV (.vlog2 e) e 0 0 0 s) s
/-- VRCP, R107. -/
def execVrcp (e : Enc) (s : State) : Out State := issue (.vrcp e) (tyCk clsF modArith e) (fun _ e s => toV (.vrcp e) e 0 0 0 s) s
/-- VRSQ, R107. -/
def execVrsq (e : Enc) (s : State) : Out State := issue (.vrsq e) (tyCk clsF modArith e) (fun _ e s => toV (.vrsq e) e 0 0 0 s) s
/-- VSINPI, R107. -/
def execVsinpi (e : Enc) (s : State) : Out State := issue (.vsinpi e) (tyCk clsF modArith e) (fun _ e s => toV (.vsinpi e) e 0 0 0 s) s
/-- VCOSPI, R107. -/
def execVcospi (e : Enc) (s : State) : Out State := issue (.vcospi e) (tyCk clsF modArith e) (fun _ e s => toV (.vcospi e) e 0 0 0 s) s
/-- VMIN, R108. -/
def execVmin (e : Enc) (s : State) : Out State := issue (.vmin e) (tyCk clsFI modNone e) (fun _ e s => toV (.vmin e) e 0 0 0 s) s
/-- VMAX, R108. -/
def execVmax (e : Enc) (s : State) : Out State := issue (.vmax e) (tyCk clsFI modNone e) (fun _ e s => toV (.vmax e) e 0 0 0 s) s
/-- VABS, R108. -/
def execVabs (e : Enc) (s : State) : Out State := issue (.vabs e) (tyCk clsFI modSign e) (fun _ e s => toV (.vabs e) e 0 0 0 s) s
/-- VNEG, R108. -/
def execVneg (e : Enc) (s : State) : Out State := issue (.vneg e) (tyCk clsFIC modSign e) (fun _ e s => toV (.vneg e) e 0 0 0 s) s
/-- VAND, R109. -/
def execVand (e : Enc) (s : State) : Out State := issue (.vand e) (tyCk clsB modNone e) (fun _ e s => toV (.vand e) e 0 0 0 s) s
/-- VOR, R109. -/
def execVor (e : Enc) (s : State) : Out State := issue (.vor e) (tyCk clsB modNone e) (fun _ e s => toV (.vor e) e 0 0 0 s) s
/-- VXOR, R109. -/
def execVxor (e : Enc) (s : State) : Out State := issue (.vxor e) (tyCk clsB modNone e) (fun _ e s => toV (.vxor e) e 0 0 0 s) s
/-- VNOT, R109. -/
def execVnot (e : Enc) (s : State) : Out State := issue (.vnot e) (tyCk clsB modNone e) (fun _ e s => toV (.vnot e) e 0 0 0 s) s
/-- VSHL, R109. -/
def execVshl (e : Enc) (s : State) : Out State := issue (.vshl e) (tyCk clsI modNone e) (fun _ e s => toV (.vshl e) e 0 0 0 s) s
/-- VSHR, R109. -/
def execVshr (e : Enc) (s : State) : Out State := issue (.vshr e) (tyCk clsI modNone e) (fun _ e s => toV (.vshr e) e 0 0 0 s) s
/-- VSRA, R109. -/
def execVsra (e : Enc) (s : State) : Out State := issue (.vsra e) (tyCk clsI modNone e) (fun _ e s => toV (.vsra e) e 0 0 0 s) s
/-- VCMPEQ, R110. -/
def execVcmpeq (e : Enc) (s : State) : Out State := issue (.vcmpeq e) (tyCk clsFIC modNone e) (fun _ e s => cmpBody (.vcmpeq e) e s) s
/-- VCMPNE, R110. -/
def execVcmpne (e : Enc) (s : State) : Out State := issue (.vcmpne e) (tyCk clsFIC modNone e) (fun _ e s => cmpBody (.vcmpne e) e s) s
/-- VCMPLT, R110. -/
def execVcmplt (e : Enc) (s : State) : Out State := issue (.vcmplt e) (tyCk clsFI modNone e) (fun _ e s => cmpBody (.vcmplt e) e s) s
/-- VCMPLE, R110. -/
def execVcmple (e : Enc) (s : State) : Out State := issue (.vcmple e) (tyCk clsFI modNone e) (fun _ e s => cmpBody (.vcmple e) e s) s
/-- VSEL, R111. -/
def execVsel (e : Enc) (s : State) : Out State := issue (.vsel e) (tyCk clsB modNone e) (fun _ e s => toV (.vsel e) e 0 0 (s.me.p e.f) s) s
/-- VCVT, R112. -/
def execVcvt (e : Enc) (s : State) : Out State := issue (.vcvt e) (cvtCk e) (fun _ e s => toV (.vcvt e) e 0 0 0 s) s
/-- VQUANT, R114. -/
def execVquant (e : Enc) (s : State) : Out State := issue (.vquant e) (quantCk e) (fun _ e s => toV (.vquant e) e 0 0 0 s) s
/-- VDEQ, R115. -/
def execVdeq (e : Enc) (s : State) : Out State := issue (.vdeq e) (deqCk e) (fun _ e s => 
    if s.me.streamBound (e.a + 1) then .trap 0x03 0 s else toV (.vdeq e) e 0 0 0 s) s
/-- VREDSUM, R116. -/
def execVredsum (e : Enc) (s : State) : Out State := issue (.vredsum e) (tyCk clsFI modNone e) (fun _ e s => toV (.vredsum e) e 0 0 0 s) s
/-- VREDMAX, R116. -/
def execVredmax (e : Enc) (s : State) : Out State := issue (.vredmax e) (tyCk clsFI modNone e) (fun _ e s => toV (.vredmax e) e 0 0 0 s) s
/-- VREDMIN, R116. -/
def execVredmin (e : Enc) (s : State) : Out State := issue (.vredmin e) (tyCk clsFI modNone e) (fun _ e s => toV (.vredmin e) e 0 0 0 s) s
/-- VREDSUMW, R116. -/
def execVredsumw (e : Enc) (s : State) : Out State := issue (.vredsumw e) (tyCk clsFI modNone e) (fun _ e s => toV (.vredsumw e) e 0 0 0 s) s
/-- VDOT, R117. -/
def execVdot (e : Enc) (s : State) : Out State := issue (.vdot e) (dotCk e) (fun _ e s => toV (.vdot e) e 0 0 0 s) s
/-- VDOTC, R117. -/
def execVdotc (e : Enc) (s : State) : Out State := issue (.vdotc e) (dotcCk e) (fun _ e s => toV (.vdotc e) e 0 0 0 s) s
/-- VCMUL, R118. -/
def execVcmul (e : Enc) (s : State) : Out State := issue (.vcmul e) (tyCk isCplx modArith e) (fun _ e s => toV (.vcmul e) e 0 0 0 s) s
/-- VCMULC, R118. -/
def execVcmulc (e : Enc) (s : State) : Out State := issue (.vcmulc e) (tyCk isCplx modArith e) (fun _ e s => toV (.vcmulc e) e 0 0 0 s) s
/-- VIOTA, R119. -/
def execViota (e : Enc) (s : State) : Out State := issue (.viota e) (tyCk clsI modNone e) (fun _ e s => toV (.viota e) e (s.me.g e.b) 0 0 s) s
/-- VBCAST, R119. -/
def execVbcast (e : Enc) (s : State) : Out State := issue (.vbcast e) (tyCk clsB modNone e) (fun _ e s => toV (.vbcast e) e (s.me.g e.b) 0 0 s) s
/-- VINS, R119. -/
def execVins (e : Enc) (s : State) : Out State := issue (.vins e) (tyCk clsB modNone e) (fun _ e s => toV (.vins e) e (s.me.g e.b) (s.me.g e.c) 0 s) s
/-- VEXTR, R119. -/
def execVextr (e : Enc) (s : State) : Out State := issue (.vextr e) (tyCk clsB modNone e) (fun _ e s => extrBody (.vextr e) e s) s
/-- VPERM, R119. -/
def execVperm (e : Enc) (s : State) : Out State := issue (.vperm e) (tyCk clsB modNone e) (fun _ e s => toV (.vperm e) e 0 0 0 s) s
/-- VSLUP, R119. -/
def execVslup (e : Enc) (s : State) : Out State := issue (.vslup e) (tyCk clsB modNone e) (fun _ e s => toV (.vslup e) e 0 (s.me.g e.c) 0 s) s
/-- VSLDN, R119. -/
def execVsldn (e : Enc) (s : State) : Out State := issue (.vsldn e) (tyCk clsB modNone e) (fun _ e s => toV (.vsldn e) e 0 (s.me.g e.c) 0 s) s
/-- VMOV, R119. -/
def execVmov (e : Enc) (s : State) : Out State := issue (.vmov e) {} (fun _ e s => toV (.vmov e) e 0 0 0 s) s

/-! ### What the queue computes from an entry -/

/-- A result of the queue: new values of v[a] and v[a + 1], a value for g[a] or p[a], and the rounding state after. -/
structure VRun where
  v : Option V := none
  v2 : Option V := none
  r : Option W := none
  fp : Fp
deriving DecidableEq, Repr

/-- A value sign-extended from a lane of a signed or complex type (R119). -/
def extrValue (ty x : Nat) : W := if isSigned ty then BitVec.ofInt 64 (intOf true (laneBits ty) x) else w x

/-- R107 to R119: what a queued vector instruction computes from its operands b, c, the old v[a] and v[a + 1] (VDEQ). -/
def vcompute (q : VEntry) (b c a a1 : V) (fp0 : Fp) : VRun :=
  let p := q.p
  let map2 := fun (e : Enc) (g : Nat → Nat → Nat) =>
    let wd := laneBits e.ty
    ({ v := some (mapLanes wd p a fun i => g (lane b wd i) (lane c wd i)), fp := fp0 } : VRun)
  let run2 := fun (e : Enc) (g : Nat → Nat → Fp → Nat × Fp) =>
    let wd := laneBits e.ty
    let (x, fp) := runLanes wd p a (intSat e.ty e.mod fp0) fun i fp => g (lane b wd i) (lane c wd i) fp
    ({ v := some x, fp := fp } : VRun)
  let fused := fun (e : Enc) (minus : Bool) =>
    let wd := laneBits e.ty
    let (x, fp) := runLanes wd p a fp0 fun i fp => fma e.ty minus (lane b wd i) (lane c wd i) (lane a wd i) fp
    ({ v := some x, fp := fp } : VRun)
  let one := fun (e : Enc) (f : FVal → FVal × Nat) => run2 e fun x _ fp => elem1 e.ty f x fp
  let red := fun (x : V × Fp) => ({ v := some x.1, fp := x.2 } : VRun)
  let cmp := fun (e : Enc) (cond : Nat) => ({ r := some (vcmpMask cond e.ty p q.y b c), fp := fp0 } : VRun)
  match q.i with
  | .vadd e => run2 e (elem2 e.ty (fun fp x y => fadd fp.down x y) fun x y => x + y)
  | .vsub e => run2 e (elem2 e.ty (fun fp x y => fadd fp.down x (fneg y)) fun x y => x - y)
  | .vmul e => run2 e (elem2 e.ty (fun _ x y => fmul x y) fun x y => x * y)
  | .vfma e => fused e false
  | .vfms e => fused e true
  | .vdiv e => run2 e (elem2 e.ty (fun _ x y => fdiv x y) fun x _ => x)
  | .vsqrt e => one e fsqrt
  | .vexp2 e => one e fexp2
  | .vlog2 e => one e flog2
  | .vrcp e => one e frcp
  | .vrsq e => one e frsq
  | .vsinpi e => one e fsinpi
  | .vcospi e => one e fcospi
  | .vmin e => map2 e (pick e.ty false)
  | .vmax e => map2 e (pick e.ty true)
  | .vabs e => map2 e fun x _ => vabs e.ty (e.mod == 1) x
  | .vneg e => map2 e fun x _ => vneg e.ty (e.mod == 1) x
  | .vand e => map2 e fun x y => x &&& y
  | .vor e => map2 e fun x y => x ||| y
  | .vxor e => map2 e fun x y => x ^^^ y
  | .vnot e => map2 e fun x _ => 2 ^ laneBits e.ty - 1 - x
  | .vshl e => map2 e (vshift 0 (laneBits e.ty))
  | .vshr e => map2 e (vshift 1 (laneBits e.ty))
  | .vsra e => map2 e (vshift 2 (laneBits e.ty))
  | .vcmpeq e => cmp e 0
  | .vcmpne e => cmp e 1
  | .vcmplt e => cmp e 2
  | .vcmple e => cmp e 3
  | .vsel e =>
    let wd := laneBits e.ty
    { v := some (mapLanes wd p a fun i => if q.sel.getLsbD i then lane b wd i else lane c wd i), fp := fp0 }
  | .vcvt e => red (vcvt (cvtSrc e) e.ty p e.pred.isNone b a fp0)
  | .vquant e => red (vquant e.ty (isMx e) p b c a fp0)
  | .vdeq e =>
    let (x, y, fp) := vdeq e.ty (isMx e) p b a a1 fp0
    { v := some x, v2 := some y, fp := fp }
  | .vredsum e => red (vredsum e.ty p b fp0)
  | .vredmax e => { v := some (vredpick e.ty true p b), fp := fp0 }
  | .vredmin e => { v := some (vredpick e.ty false p b), fp := fp0 }
  | .vredsumw e => red (vredsumw e.ty p b fp0)
  | .vdot e => red (vdot e.ty false p b c a (intSat e.ty e.mod fp0))
  | .vdotc e => red (vdot e.ty true p b c a (intSat e.ty e.mod fp0))
  | .vcmul e => map2 e (vcmul e.ty false (e.mod == 1))
  | .vcmulc e => map2 e (vcmul e.ty true (e.mod == 1))
  | .viota e => { v := some (mapLanes (laneBits e.ty) p a fun i => (q.x.toNat + i) % 2 ^ laneBits e.ty), fp := fp0 }
  | .vbcast e => { v := some (mapLanes (laneBits e.ty) p a fun _ => q.x.toNat % 2 ^ laneBits e.ty), fp := fp0 }
  | .vins e =>
    let wd := laneBits e.ty
    { v := some (mapLanes wd p a fun i => if i = q.y.toNat then q.x.toNat % 2 ^ wd else lane a wd i), fp := fp0 }
  | .vextr e => { r := some (match extrLane e q.y with
      | some k => extrValue e.ty (lane b (laneBits e.ty) k)
      | none => 0), fp := fp0 }
  | .vperm e => { v := some (vperm (laneBits e.ty) p b c a), fp := fp0 }
  | .vslup e => { v := some (vslup (laneBits e.ty) p b a q.y.toNat), fp := fp0 }
  | .vsldn e => { v := some (vsldn (laneBits e.ty) p b a q.y.toNat), fp := fp0 }
  | .vmov _ => { v := some (mapLanes 8 p a fun i => lane b 8 i), fp := fp0 }
  | _ => { fp := fp0 }

/-! ### Poison (R106, R398) -/

/-- The 64-bit words that some of `n` elements of `wd` bits, chosen by a test, lie in. -/
def wordsOf (wd n : Nat) (t : Nat → Bool) : List Nat :=
  (List.range 8).filter fun j => (List.range n).any fun i => t i && laneWord wd i == j

/-- R106: the words of operands b, c and a that a queued instruction consumes: the lanes that its active lanes are computed from
(log 17). -/
def vused (q : VEntry) (c : V) : List Nat × List Nat × List Nat :=
  let p := q.p
  let act := fun (wd : Nat) => wordsOf wd (512 / wd) fun i => p.getLsbD i
  let from_ := fun (e : Enc) (src : Nat → Option Nat) =>
    let wd := laneBits e.ty
    let n := 512 / wd
    wordsOf wd n fun j => (List.range n).any fun i => p.getLsbD i && src i == some j
  match q.i with
  | .vfma e | .vfms e => (act (laneBits e.ty), act (laneBits e.ty), act (laneBits e.ty))
  | .vdot e | .vdotc e => let l := act (tyBits (dotType e.ty)); (l, l, l)
  | .vsel e =>
    let wd := laneBits e.ty
    (wordsOf wd (512 / wd) fun i => p.getLsbD i && q.sel.getLsbD i, wordsOf wd (512 / wd) fun i => p.getLsbD i && !q.sel.getLsbD i, [])
  | .vcvt e =>
    let a := storeBits (cvtSrc e)
    (wordsOf a (512 / Nat.max a (storeBits e.ty)) fun i => e.pred.isNone || p.getLsbD i, [], [])
  | .vquant _ => (wordsOf 32 16 fun i => p.getLsbD i, wordsOf 32 16 fun i => p.getLsbD (i + 16), [])
  | .vdeq e =>
    let any := (List.range 32).any fun i => p.getLsbD i
    (wordsOf (storeBits e.ty) 32 (fun i => p.getLsbD i) ++ (if any then [4] else []), [], [])
  | .vextr e => (match extrLane e q.y with
      | some k => if p.getLsbD k then [laneWord (laneBits e.ty) k] else []
      | none => [], [], [])
  | .vperm e => (from_ e fun i => some (lane c (laneBits e.ty) i), act (laneBits e.ty), [])
  | .vslup e => (from_ e fun i => if q.y.toNat ≤ i then some (i - q.y.toNat) else none, [], [])
  | .vsldn e => (from_ e fun i => some (i + q.y.toNat), [], [])
  | .vmov _ => (act 8, [], [])
  | .vsbind _ | .vsunbind _ | .viota _ | .vbcast _ | .vins _ => ([], [], [])
  | i => match encOf i with
    | some e => let l := act (laneBits e.ty); (l, l, [])
    | none => ([], [], [])

/-- R37, R104, R119: some lane of v[a] (of v[a + 1], `second`) is written. The reductions, VQUANT and a VCVT that clears the lanes above
its elements write whatever the predicate. -/
def vwrites (q : VEntry) (second : Bool) : Bool :=
  let p := q.p
  match q.i with
  | .vredsum _ | .vredmax _ | .vredmin _ | .vredsumw _ | .vquant _ => true
  | .vcvt e =>
    let n := 512 / Nat.max (storeBits (cvtSrc e)) (storeBits e.ty)
    e.pred.isNone || decide (n * storeBits e.ty < 512) || anyActive p n
  | .vdeq _ => anyActive (p >>> (if second then 16 else 0)) 16
  | .vins e => (extrLane e q.y).any fun k => p.getLsbD k
  | .vdot e | .vdotc e => anyActive p (512 / tyBits (dotType e.ty))
  | .vmov _ => anyActive p 64
  | i => match encOf i with
    | some e => anyActive p (512 / laneBits e.ty)
    | none => false
/-- Word j of v[a] (or of v[a + 1], `second`) is wholly replaced. -/
def vwhole (q : VEntry) (second : Bool) (j : Nat) : Bool :=
  let p := q.p
  let full := fun (wd : Nat) (t : Nat → Bool) => (List.range (64 / wd)).all fun i => t (64 / wd * j + i)
  match q.i with
  | .vredsum _ | .vredmax _ | .vredmin _ | .vredsumw _ => true
  | .vdot e | .vdotc e => full (tyBits (dotType e.ty)) fun i => p.getLsbD i
  | .vcvt e =>
    let wd := storeBits e.ty
    let n := 512 / Nat.max (storeBits (cvtSrc e)) wd
    full wd fun i => decide (n ≤ i) || e.pred.isNone || p.getLsbD i
  | .vquant e =>
    if j < 4 then full (storeBits e.ty) fun i => decide (32 ≤ i) || p.getLsbD i
    else if j = 4 then
      (if isMx e then (List.range 32).any fun i => p.getLsbD i
       else (List.range 4).all fun b => (List.range 8).any fun i => p.getLsbD (8 * b + i))
    else true
  | .vdeq _ => full 32 fun i => p.getLsbD (i + if second then 16 else 0)
  | .vins e => full (laneBits e.ty) fun i => p.getLsbD i && i == q.y.toNat
  | .vmov _ => full 8 fun i => p.getLsbD i
  | i => match encOf i with
    | some e => full (laneBits e.ty) fun i => p.getLsbD i
    | none => false

end Sys2Proof.Machine
end

