-- ==== Sys2Proof/Machine/Lupin.lean ====
section
/-! DEFINITION. The Lupin array (R152 to R167, R382): graph images and their checks, what a graph computes, slots and residencies, LLOAD,
LUNLOAD, LQUERY, CBSYNC, the CX opcodes, LSAVE and LREST. -/

namespace Sys2Proof.Machine

/-! ### Graph images (R154, R155) -/

/-- A cell record. -/
structure Cell where
  op : Nat
  mode : Nat
  tbl : Nat
  k : Nat
deriving DecidableEq, Repr

/-- A wire record. -/
structure Wire where
  src : Nat
  dst : Nat
  port : Nat
deriving DecidableEq, Repr

/-- A graph. -/
structure Graph where
  slot : Nat
  nsrc : Nat
  wide : Bool
  lat : Nat
  cells : List Cell
  wires : List Wire
  tabs : List (Nat × List Nat)
deriving DecidableEq, Repr

/-- Header fields (R154). -/
def hSlot (h : W) : Nat := W.bits h 16 4
def hNsrc (h : W) : Nat := W.bits h 20 2
def hLw (h : W) : Bool := h.getLsbD 22
def hLat (h : W) : Nat := W.bits h 24 7
def hNcell (h : W) : Nat := W.bits h 32 7
def hNwire (h : W) : Nat := W.bits h 40 8
def hNtab (h : W) : Nat := W.bits h 48 2
/-- R154: a header field out of range, or a nonzero zero field. -/
def badHeader (h : W) : Bool :=
  hNsrc h == 0 || h.getLsbD 23 || hLat h == 0 || decide (64 < hLat h) || h.getLsbD 31 || hNcell h == 0 || decide (64 < hNcell h)
    || h.getLsbD 39 || hNwire h == 0 || decide (193 < hNwire h) || hNtab h == 3 || W.bits h 50 2 != 1 || W.bits h 52 12 != 0

/-- R153: the ports of an operation; none for a code that names none. -/
def opPorts (op : Nat) : Option Nat :=
  if op = 0x00 then some 0
  else if op = 0x01 ∨ op = 0x30 then some 1
  else if op = 0x13 ∨ op = 0x19 then some 3
  else if (0x10 ≤ op ∧ op ≤ 0x18) ∨ (0x20 ≤ op ∧ op ≤ 0x2B) then some 2
  else none
/-- FADD, FSUB, FMUL, FFMA. -/
def opRounds (op : Nat) : Bool := decide (0x10 ≤ op ∧ op ≤ 0x13)

/-- The records of a graph from their words. -/
def cellOf (x : W) : Cell := ⟨W.bits x 4 8, W.bits x 12 3, W.bits x 15 1, W.bits x 32 32⟩
def wireOf (x : W) : Wire := ⟨W.bits x 8 8, W.bits x 16 8, W.bits x 24 2⟩
/-- The 256 entries of a table in its 128 words. -/
def tableOf (l : List W) : List Nat := l.flatMap fun x => [W.bits x 0 32, W.bits x 32 32]
/-- The graph that an image holds. -/
def graphOf (l : List W) : Graph :=
  let h := l.headD 0
  let r := l.drop 1
  let nc := hNcell h
  let nw := hNwire h
  let t := r.drop (nc + nw)
  { slot := hSlot h, nsrc := hNsrc h, wide := hLw h, lat := hLat h
    cells := (r.take nc).map cellOf
    wires := ((r.drop nc).take nw).map wireOf
    tabs := (List.range (hNtab h)).map fun i => (W.bits (t.getD (129 * i) 0) 4 1, tableOf ((t.drop (129 * i + 1)).take 128)) }

/-! ### The checks of R163 -/

/-- R163 step 2 for a cell record: none, or the status. -/
def cellCheck (x : W) : Option Nat :=
  if W.bits x 0 4 ≠ 1 ∨ W.bits x 16 16 ≠ 0 then some 3
  else
    let c := cellOf x
    if (opPorts c.op).isNone || (if opRounds c.op then c.mode == 7 else c.mode != 0) || (c.tbl != 0 && c.op != 0x30) then some 4 else none
/-- R163 step 2 for a wire record. -/
def wireCheck (x : W) : Option Nat :=
  if W.bits x 0 4 ≠ 2 ∨ W.bits x 4 4 ≠ 0 ∨ W.bits x 26 38 ≠ 0 then some 3
  else
    let r := wireOf x
    if 0x43 ≤ r.src ∨ (0x40 ≤ r.dst ∧ r.dst ≠ 0xFF) ∨ r.port = 3 ∨ (r.dst = 0xFF ∧ r.port ≠ 0) then some 5 else none
/-- R163 step 2 for the first word of a table record. -/
def tableCheck (x : W) : Option Nat := if W.bits x 0 4 ≠ 3 ∨ W.bits x 5 59 ≠ 0 then some 3 else none
/-- R163 step 2 for the record after the counted ones, whose image then is `n` bytes long. -/
def termCheck (x : W) (n : Nat) : Option Nat :=
  if W.bits x 0 4 ≠ 15 then some 6
  else if W.bits x 4 28 ≠ 0 ∨ W.bits x 48 16 ≠ 0 ∨ W.bits x 32 16 ≠ n then some 3
  else none

/-- What word i of an image with a header must be: the records of R155 in their order. -/
def recordCheck (h : W) (i : Nat) (x : W) : Option Nat :=
  let nc := hNcell h
  let nw := hNwire h
  let last := 1 + nc + nw + 129 * hNtab h
  if i ≤ nc then cellCheck x
  else if i ≤ nc + nw then wireCheck x
  else if i < last then (if (i - (1 + nc + nw)) % 129 = 0 then tableCheck x else none)
  else termCheck x (8 * (last + 1))

/-- How reading an image ended: a fault at an address, a status, or its words. -/
inductive Scan where
  | fault (cause : Nat) (addr : W)
  | status (n : Nat)
  | words (l : List W)
deriving DecidableEq, Repr

/-- R163 steps 1 and 2, reading words in address order until the terminal record or the first failure. -/
def scanFrom (fuel : Nat) (rd : Nat → Except (Nat × W) W) (h : W) (i last : Nat) (acc : List W) : Scan :=
  match fuel with
  | 0 => .status 6
  | n + 1 =>
    match rd i with
    | .error (c, a) => .fault c a
    | .ok x =>
      match recordCheck h i x with
      | some k => .status k
      | none => if i = last then .words (x :: acc).reverse else scanFrom n rd h (i + 1) last (x :: acc)
/-- R163 steps 1 and 2. -/
def scan (rd : Nat → Except (Nat × W) W) : Scan :=
  match rd 0 with
  | .error (c, a) => .fault c a
  | .ok h =>
    if W.bits h 0 16 ≠ 0x4C47 then .status 1
    else if badHeader h then .status 2
    else scanFrom 511 rd h 1 (1 + hNcell h + hNwire h + 129 * hNtab h) [h]

/-- The wires into a port. -/
def Graph.into (g : Graph) (k p : Nat) : List Wire := g.wires.filter fun x => x.dst == k && x.port == p
/-- A port is wired. -/
def Graph.wired (g : Graph) (k p : Nat) : Bool := !(g.into k p).isEmpty
/-- The ports of cell k. -/
def portsOf (c : Cell) : List Nat := List.range ((opPorts c.op).getD 0)

/-- R155: the K rule of one cell. -/
def kOk (g : Graph) (k : Nat) (c : Cell) : Bool :=
  c.k == 0 || (portsOf c).isEmpty || c.op == 0x01 || (portsOf c).any fun p => !g.wired k p
/-- R156: the wiring rules of one cell. -/
def cellOk (g : Graph) (k : Nat) (c : Cell) : Bool :=
  (portsOf c).all (fun p => decide ((g.into k p).length ≤ 1))
    && decide (((portsOf c).filter fun p => !g.wired k p).length ≤ 1)
    && ((c.op != 0x01 && c.op != 0x30) || g.wired k 0)
    && (c.op != 0x30 || g.tabs.any fun t => t.1 == c.tbl)
/-- R156: the ranges of one wire. -/
def wireOk (g : Graph) (x : Wire) : Bool :=
  (if x.src < 0x40 then decide (x.src < g.cells.length) else decide (x.src - 0x40 < g.nsrc))
    && (x.dst == 0xFF || (match g.cells[x.dst]? with
      | some c => decide (x.port < (opPorts c.op).getD 0)
      | none => false))
/-- Cells with their numbers. -/
def Graph.numbered (g : Graph) : List (Nat × Cell) := (List.range g.cells.length).zip g.cells
/-- R156: the wiring rules. -/
def wiringOk (g : Graph) : Bool :=
  g.wires.all (wireOk g) && g.numbered.all (fun x => cellOk g x.1 x.2)
    && (g.wires.filter (·.dst == 0xFF)).length == 1 && (g.tabs.map (·.1)).Nodup

/-- The cells that feed cell k. -/
def Graph.feeds (g : Graph) (k : Nat) : List Nat := (g.wires.filter fun x => x.dst == k && decide (x.src < 0x40)).map (·.src)
/-- One round of R156's depths: a cell whose feeding cells have theirs takes its own. -/
def depthRound (g : Graph) (d : List (Nat × Nat)) : List (Nat × Nat) :=
  g.numbered.foldl (fun d x =>
    if (lookup d x.1).isSome then d
    else if x.2.op ≤ 1 then insert d x.1 0
    else
      let f := (g.feeds x.1).map (lookup d)
      if f.all Option.isSome then insert d x.1 (1 + f.foldl (fun n y => Nat.max n (y.getD 0)) 0) else d) d
/-- The rounds. -/
def depthRounds (g : Graph) (n : Nat) (d : List (Nat × Nat)) : List (Nat × Nat) :=
  match n with
  | 0 => d
  | k + 1 => depthRounds g k (depthRound g d)
/-- R156: the depth of each cell that no cycle outside REG holds. -/
def depths (g : Graph) : List (Nat × Nat) := depthRounds g 64 []
/-- The wire that carries the result. -/
def Graph.result (g : Graph) : Nat := ((g.wires.find? (·.dst == 0xFF)).map (·.src)).getD 0
/-- R156: the depth of the graph. -/
def Graph.depth (g : Graph) : Nat := if g.result < 0x40 then (lookup (depths g) g.result).getD 0 else 0

/-- R163 steps 3 to 5. -/
def graphCheck (g : Graph) : Nat :=
  if !g.numbered.all (fun x => kOk g x.1 x.2) then 4
  else if !wiringOk g then 5
  else if (depths g).length < g.cells.length then 7
  else if g.lat < g.depth then 8
  else 0

/-- R163: an image from its words: a fault, a failing status, or the words. -/
def checkImage (rd : Nat → Except (Nat × W) W) : Scan :=
  match scan rd with
  | .words l => if graphCheck (graphOf l) = 0 then .words l else .status (graphCheck (graphOf l))
  | x => x

/-! ### What a graph computes (R153, R157) -/

/-- The rounding state of a cell: its MODE, with the core's LFSR and flags. -/
def cellFp (mode : Nat) (fp : Fp) : Fp := { fp with mode := if mode ≤ 1 then 0 else mode, sat := mode == 1 }
/-- The core's rounding state after a cell. -/
def afterCell (fp : Fp) (r : Nat × Fp) : Nat × Fp := (r.1, { fp with seed := r.2.seed, flags := r.2.flags })
/-- R153: a truth value of 32 bits. -/
def truth32 (b : Bool) : Nat := if b then 2 ^ 32 - 1 else 0

/-- R153: the output of one cell from its ports. -/
def cellOut (g : Graph) (c : Cell) (x0 x1 x2 : Nat) (fp : Fp) : Nat × Fp :=
  let f := cellFp c.mode fp
  let i := intOf true 32
  let add := fun y => let (e, fl) := fadd f.down (fval 8 x0) y; afterCell fp (roundF 8 (f.raise fl) e)
  match c.op with
  | 0x00 => (c.k, fp)
  | 0x10 => add (fval 8 x1)
  | 0x11 => add (fneg (fval 8 x1))
  | 0x12 => let (e, fl) := fmul (fval 8 x0) (fval 8 x1); afterCell fp (roundF 8 (f.raise fl) e)
  | 0x13 => afterCell fp (fma 8 false x0 x1 x2 f)
  | 0x14 => (pick 8 false x0 x1, fp)
  | 0x15 => (pick 8 true x0 x1, fp)
  | 0x16 => (truth32 (vcompare 0 8 x0 x1), fp)
  | 0x17 => (truth32 (vcompare 2 8 x0 x1), fp)
  | 0x18 => (truth32 (vcompare 3 8 x0 x1), fp)
  | 0x19 => (if x0 ≠ 0 then x1 else x2, fp)
  | 0x20 => ((x0 + x1) % 2 ^ 32, fp)
  | 0x21 => ((x0 + 2 ^ 32 - x1) % 2 ^ 32, fp)
  | 0x22 => (x0 * x1 % 2 ^ 32, fp)
  | 0x23 => (vshift 0 32 x0 x1, fp)
  | 0x24 => (vshift 1 32 x0 x1, fp)
  | 0x25 => (vshift 2 32 x0 x1, fp)
  | 0x26 => (x0 &&& x1, fp)
  | 0x27 => (x0 ||| x1, fp)
  | 0x28 => (x0 ^^^ x1, fp)
  | 0x29 => (truth32 (x0 == x1), fp)
  | 0x2A => (truth32 (decide (i x0 < i x1)), fp)
  | 0x2B => (truth32 (decide (x0 < x1)), fp)
  | 0x30 => ((((g.tabs.find? (·.1 == c.tbl)).map (·.2)).getD []).getD (x0 % 256) 0, fp)
  | _ => (0, fp)

/-- The value that a wire's source carries. -/
def carried (vals : List (Nat × Nat)) (xs : List Nat) (src : Nat) : Nat :=
  if src < 0x40 then (lookup vals src).getD 0 else xs.getD (src - 0x40) 0
/-- The value at a port: K where it has no wire. -/
def portVal (g : Graph) (vals : List (Nat × Nat)) (xs : List Nat) (k : Nat) (c : Cell) (p : Nat) : Nat :=
  match g.into k p with
  | x :: _ => carried vals xs x.src
  | [] => c.k

/-- R157: the cells in order of depth, then of number. -/
def Graph.order (g : Graph) : List (Nat × Cell) :=
  let d := depths g
  (List.range 65).flatMap fun n => g.numbered.filter fun x => lookup d x.1 == some n

/-- R157: one lane: its result, what the REG cells hold after it, and the rounding state. -/
def laneRun (g : Graph) (order : List (Nat × Cell)) (held : List (Nat × Nat)) (xs : List Nat) (fp : Fp) :
    Nat × List (Nat × Nat) × Fp :=
  let (vals, fp) := order.foldl (fun (acc : List (Nat × Nat) × Fp) x =>
    if x.2.op = 0x01 then (insert acc.1 x.1 ((lookup held x.1).getD x.2.k), acc.2)
    else
      let v := portVal g acc.1 xs x.1 x.2
      let (y, fp) := cellOut g x.2 (v 0) (v 1) (v 2) acc.2
      (insert acc.1 x.1 y, fp)) ([], fp)
  let held' := (g.numbered.filter fun x => x.2.op == 0x01).map fun x => (x.1, portVal g vals xs x.1 x.2 0)
  (carried vals xs g.result, held', fp)

/-- R165: CX on its lanes, ascending. -/
def cxRun (g : Graph) (p : W) (b c a : V) (fp : Fp) : V × Fp :=
  let wd := if g.wide then 16 else 32
  let order := g.order
  let src := fun (x : V) (i : Nat) => if g.wide then lane x 16 i * 2 ^ 16 else lane x 32 i
  let r := (List.range (512 / wd)).foldl (fun (acc : List Nat × List (Nat × Nat) × Fp) i =>
    if p.getLsbD i then
      let (y, held, fp) := laneRun g order acc.2.1 [src b i, src c i, src a i] acc.2.2
      ((if g.wide then y / 2 ^ 16 else y) :: acc.1, held, fp)
    else (lane a wd i :: acc.1, acc.2)) ([], [], fp)
  (BitVec.ofNat 512 (r.1.foldl (fun n x => n * 2 ^ wd + x % 2 ^ wd) 0), r.2.2)

/-! ### Slots and residencies (R158, R159) -/

/-- A queued CX of a core uses a slice. -/
def usesSlice (v : VEntry) (n : Nat) : Bool :=
  match v.i with
  | .cxOneSource _ | .cxTwoSources _ | .cxThreeSources _ => v.slice == n
  | _ => false
/-- A slice has an open CX. -/
def Tile.openCx (t : Tile) (n : Nat) : Bool := kinds.any fun k => (t.core k).vq.any (usesSlice · n)
/-- A core's slot entries name a slice. -/
def Core.namesSlice (c : Core) (n : Nat) : Bool := c.slots.toList.any fun (x : Slot) => x.resident && x.slice == n
/-- A slot entry of some core names a slice. -/
def Tile.namesSlice (t : Tile) (n : Nat) : Bool := kinds.any fun k => (t.core k).namesSlice n
/-- A core has pinned a slice. -/
def Tile.pinned (t : Tile) (n : Nat) : Bool := kinds.any fun k => (t.core k).pin == some n

/-- No slot entry names slice n any more; BOUND and ADDR are kept. -/
def Core.unname (c : Core) (n : Nat) : Core :=
  { c with slots := c.slots.map fun x => if x.resident && x.slice == n then { x with resident := false, slice := 0 } else x
           pin := if c.pin == some n then none else c.pin }
/-- R382: a slice whose residency goes is no longer one that the core's LREST under way has placed. -/
def Core.unshield (c : Core) (n : Nat) : Core :=
  { c with restore := c.restore.map fun x => { x with placed := x.placed.filter (· != n) } }
/-- Take the residency out of a slice. -/
def Tile.emptySlice (t : Tile) (n : Nat) : Tile :=
  { (t.mapCores fun k => (k.unname n).unshield n) with slices := vset t.slices n none }
/-- R159: free the residencies that no slot entry names and no open CX uses. -/
def Tile.freeSlices (t : Tile) : Tile :=
  (List.range 4).foldl (fun t n =>
    if (vget t.slices n).isSome && !t.namesSlice n && !t.openCx n then t.emptySlice n else t) t

/-- R159: the residency that may be evicted first; `keep` are slices shielded by an LREST (R382). -/
def Tile.victim (t : Tile) (keep : List Nat) : Option Nat :=
  let l := (List.range 4).filter fun n => !t.openCx n && !t.pinned n && !keep.contains n
  let last := fun n => ((vget t.slices n).bind (·.lastCx))
  match l.find? fun n => (last n).isNone with
  | some n => some n
  | none => l.foldl (fun b n => match b with
      | none => some n
      | some m => if (last n).getD 0 < (last m).getD 0 then some n else some m) none
/-- The slice of a residency of an address with no CBSYNC since (R159). -/
def Tile.resident (t : Tile) (addr : Nat) : Option Nat :=
  (List.range 4).find? fun n => (vget t.slices n).any fun r => r.addr == addr && !r.synced
/-- The slice that a graph would be placed in, emptied; none while it waits. -/
def Tile.placeGraph (t : Tile) (addr : Nat) (image : List W) (keep : List Nat) : Option (Nat × Tile) :=
  match (List.range 4).find? fun n => (vget t.slices n).isNone with
  | some n => some (n, { t with slices := vset t.slices n (some ⟨addr, image, none, false⟩) })
  | none => (t.victim keep).map fun n =>
      (n, { (t.emptySlice n) with slices := vset t.slices n (some ⟨addr, image, none, false⟩) })
/-- Bind slots of the running core to a slice, which becomes its one pin (R159). -/
def bindSlots (s : State) (slots : List Nat) (addr n : Nat) : State :=
  s.modMe fun k => { k with
    pin := some n
    slots := slots.foldl (fun l i => vset l i ⟨true, addr, true, n⟩) k.slots }

/-! ### LLOAD, LUNLOAD, LQUERY (R162 to R164) and CBSYNC (R206) -/

/-- Word i of an image at an address, read as R162 says. -/
def imageWord (s : State) (a : W) (i : Nat) : Except (Nat × W) W :=
  let x := a + w (8 * i)
  if 0x00300000 ≤ x.toNat then .error (0x0A, x)
  else match place s s.cur ⟨false, false⟩ x with
    | .error c => .error (c, x)
    | .ok _ => if s.here.bad x.toNat then .error (0x19, x) else .ok (s.here.word x.toNat)

/-- R159, R382: bind or place the graphs left, each with the slots that name it, in their order; those that it has placed are shielded, those
that it has only bound are not. Where one finds no slice the load waits with the images it has latched (R167). -/
def restoreLoop (a L : Nat) (s : State) (l : List (Nat × List W × List Nat)) (placed : List Nat) : Eff :=
  match l with
  | [] => .ok (s.modMe fun k => k.writeW L .g a 0)
  | (addr, img, slots) :: r =>
    let s := s.modHere Tile.freeSlices
    match s.here.resident addr with
    | some n => restoreLoop a L (bindSlots s slots addr n) r placed
    | none =>
      match s.here.placeGraph addr img placed with
      | none => .wait 0 0 (s.modMe fun k => { k with restore := some ⟨(addr, img, slots) :: r, placed⟩ })
      | some (n, t) => restoreLoop a L (bindSlots (s.setTile s.cur.site t) slots addr n) r (placed ++ [n])
/-- LLOAD, R162, R163; its lookahead has no effect. One that waits goes on with the image it latched when it issued. -/
def execLload (e : Enc) (s : State) : Out State :=
  issue (.lload e) {} (fun _ e s =>
    let a := s.me.g e.b
    match s.me.restore with
    | some x => restoreLoop e.a 0 s x.left x.placed
    | none =>
      if a.toNat % 8 ≠ 0 then .trap 0x09 a s
      else if ramoHits s s.cur s.here.name a.toNat 4096 then .remote s.here.name s
      else
        let s := s.modHere Tile.freeSlices
        let load := fun (img : List W) => restoreLoop e.a 0 s [(a.toNat, img, [(graphOf img).slot])] []
        match (s.here.resident a.toNat).bind fun n => vget s.here.slices n with
        | some r => load r.image
        | none =>
          match checkImage (imageWord s a) with
          | .fault c d => .trap c d s
          | .status x => .ok (s.modMe fun k => k.writeW 0 .g e.a (w x))
          | .words l => load l) s

/-- R164: the slot that g[b] gives, or the trap. -/
def withSlot (e : Enc) (s : State) (body : Nat → Eff) : Eff :=
  let n := (s.me.g e.b).toNat
  if 15 < n then .trap 0x03 0 s else body n
/-- LUNLOAD, R164. -/
def execLunload (e : Enc) (s : State) : Out State :=
  issue (.lunload e) {} (fun _ e s =>
    withSlot e s fun n => .ok (s.modMe fun k => { k with slots := vset k.slots n ⟨false, 0, false, 0⟩ })) s

/-- R164: what LQUERY writes. -/
def slotWord (s : State) (n : Nat) : W :=
  let x := vget s.me.slots n
  let others := (kinds.map fun k => ((s.here.core k).slots.toList.filter fun (y : Slot) => y.resident && y.slice == x.slice).length).sum
  match (if x.resident then vget s.here.slices x.slice else none) with
  | none => w (b01 x.bound + (if x.bound then x.addr % 2 ^ 32 * 2 ^ 32 else 0))
  | some r =>
    let g := graphOf r.image
    w (b01 x.bound + 2 + b01 (decide (1 < others)) * 2 ^ 2 + g.nsrc % 4 * 2 ^ 4 + b01 g.wide * 2 ^ 6 + g.lat % 128 * 2 ^ 8
      + x.slice % 4 * 2 ^ 16 + x.addr % 2 ^ 32 * 2 ^ 32)
/-- LQUERY, R162, R164. -/
def execLquery (e : Enc) (s : State) : Out State :=
  issue (.lquery e) {} (fun _ e s => withSlot e s fun n => .ok (s.modMe fun k => k.writeW 0 .g e.a (slotWord s n))) s

/-- R206: drop every cached copy on a tile whose block begins at an address: of a collective descriptor, and of a graph image, whose
residency no slot entry names any more (R159). A join request under way keeps what it has latched, of which no copy is cached. -/
def cbsync (t : Tile) (a : Nat) : Tile :=
  let t := { t with cbCache := t.cbCache.filter fun x => x.addr != a }
  let t := t.mapCores fun k => { k with req := k.req.map fun
    | .join d l b keep => .join d l b (keep && b != a)
    | r => r }
  (List.range 4).foldl (fun t n =>
    match vget t.slices n with
    | some r =>
      if r.addr = a then { (t.mapCores (Core.unname · n)) with slices := vset t.slices n (some { r with synced := true }) } else t
    | none => t) t
/-- CBSYNC, R206: after every earlier write of its core. -/
def execCbsync (e : Enc) (s : State) : Out State :=
  issue (.cbsync e) {} (fun _ e s =>
    if !earlierDone s s.cur 2 then .wait 0 0 s else .ok (s.modHere fun t => cbsync t (s.me.g e.b).toNat)) s

/-! ### CX (R165, R166) -/

/-- R165: a CX of `n` sources at issue. One with no active lane names no residency: it ends no pin and is no CX issue of R159; a bound v[a]
traps before the causes of R166 (log 100). -/
def cxBody (i : Instr) (e : Enc) (nsrc : Nat) (s : State) : Eff :=
  let k := s.me
  let n := e.op - 2
  let x := vget k.slots n
  let res := if x.resident then vget s.here.slices x.slice else none
  let lanes := match res with
    | some r => if (graphOf r.image).wide then 32 else 16
    | none => 32
  if !anyActive (k.pred e) lanes then vpush i e 0 0 0 none 4 s
  else if k.streamBound e.a then .trap 0x03 0 s
  else match res with
    | none => .trap 0x13 (w n) s
    | some r =>
      if nsrc ≠ (graphOf r.image).nsrc then .trap 0x14 (w n) s
      else if 16 ≤ k.vq.length then .wait 0 0 s
      else
        let now := s.here.cycle.toNat
        let s := s.modHere fun t => { t with slices := vset t.slices x.slice (some { r with lastCx := some now }) }
        let s := s.modMe fun k => { k with pin := if k.pin == some x.slice then none else k.pin }
        vpush i e 0 0 0 none x.slice s
/-- CXn of one source, R165. -/
def execCxOneSource (e : Enc) (s : State) : Out State := issue (.cxOneSource e) {} (fun _ e s => cxBody (.cxOneSource e) e 1 s) s
/-- CXn of two sources, R165. -/
def execCxTwoSources (e : Enc) (s : State) : Out State := issue (.cxTwoSources e) {} (fun _ e s => cxBody (.cxTwoSources e) e 2 s) s
/-- CXn of three sources, R165. -/
def execCxThreeSources (e : Enc) (s : State) : Out State :=
  issue (.cxThreeSources e) {} (fun _ e s => cxBody (.cxThreeSources e) e 3 s) s

/-! ### LSAVE and LREST (R382) -/

/-- R382: the base of a residency area whose words pass the checks of R171. -/
def areaBase (s : State) (write : Bool) (a : W) : Except (Nat × W) Nat :=
  if a.toNat % 64 ≠ 0 then .error (0x09, a)
  else match (List.range (0x4100 / 8)).findSome? fun i =>
      let x := a + w (8 * i)
      if 0x00300000 ≤ x.toNat then some (0x0A, x)
      else match place s s.cur ⟨write, false⟩ x with
        | .error c => some (c, x)
        | .ok _ => none with
    | some x => .error x
    | none => .ok a.toNat

/-- The slices that a core's resident entries name, each once, in the order of the slots. -/
def slicesNamed (k : Core) : List Nat :=
  k.slots.toList.foldl (fun l (x : Slot) => if x.resident && !l.contains x.slice then l ++ [x.slice] else l) []
/-- LSAVE, R382. -/
def execLsave (e : Enc) (s : State) : Out State :=
  issue (.lsave e) {} (fun _ e s =>
    match areaBase s true (s.me.g e.b) with
    | .error (c, d) => .trap c d s
    | .ok a =>
      if ramoHits s s.cur s.here.name a 0x4100 then .remote s.here.name s else
      let k := s.me
      let named := slicesNamed k
      let slots := k.slots.toList
      let mask := ((List.range 16).map fun i => b01 (vget k.slots i).resident * 2 ^ i).sum
      let head := w (0x4C53 + mask * 2 ^ 16 + named.length * 2 ^ 32)
      let words := slots.map fun (x : Slot) =>
        if x.resident then w (x.addr % 2 ^ 32 * 2 ^ 32 + named.findIdx (· == x.slice) + 8) else w 0
      let t := (s.here.setWord a head).store (a + 0x40) (words.flatMap fun x => leBytes 8 x.toNat)
      let t := ((List.range 4).zip named).foldl (fun t x =>
        let img := ((vget t.slices x.2).map (·.image)).getD []
        t.store (a + 0x100 + 0x1000 * x.1) ((img ++ List.replicate (512 - img.length) 0).flatMap fun (y : W) => leBytes 8 y.toNat)) t
      .ok ((s.setTile s.cur.site t).modMe fun k => k.writeW e.L .g e.a (w named.length))) s

/-- What an area's header and images give (R382): a poisoned word, a status, or the residencies with their slots. -/
inductive Area where
  | bad (addr : Nat)
  | status (n : Nat)
  | ok (l : List (Nat × List W × List Nat))
deriving DecidableEq, Repr

/-- R382: saved residency j of an area. -/
def readResidency (t : Tile) (a j : Nat) : Area :=
  let slot := fun i => t.word (a + 0x40 + 8 * i)
  let at_ := a + 0x100 + 0x1000 * j
  match checkImage (fun i => if t.bad (at_ + 8 * i) then .error (0x19, w (at_ + 8 * i)) else .ok (t.word (at_ + 8 * i))) with
  | .status x => .status x
  | .fault _ x => .bad x.toNat
  | .words img =>
    let mine := (List.range 16).filter fun i => (slot i).getLsbD 3 && W.bits (slot i) 0 3 == j
    .ok (match mine with
      | [] => []
      | i :: _ => [(W.bits (slot i) 32 32, img, mine)])
/-- R382: the header, and then every saved image. -/
def readArea (t : Tile) (a : Nat) : Area :=
  let h := t.word a
  let r := W.bits h 32 3
  match ([0, 8, 9, 10, 11, 12, 13, 14, 15, 16, 17, 18, 19, 20, 21, 22, 23] : List Nat).find? fun i => t.bad (a + 8 * i) with
  | some i => .bad (a + 8 * i)
  | none =>
    if W.bits h 0 16 ≠ 0x4C53 then .status 1
    else if 4 < r ∨ W.bits h 35 29 ≠ 0 then .status 2
    else (List.range r).foldl (fun acc j =>
      match acc with
      | .ok l =>
        match readResidency t a j with
        | .ok x => .ok (l ++ x)
        | y => y
      | y => y) (.ok [])

/-- LREST, R382. -/
def execLrest (e : Enc) (s : State) : Out State :=
  issue (.lrest e) {} (fun _ e s =>
    match s.me.restore with
    | some x => restoreLoop e.a e.L s x.left x.placed
    | none =>
      match areaBase s false (s.me.g e.b) with
      | .error (c, d) => .trap c d s
      | .ok a =>
        if ramoHits s s.cur s.here.name a 0x4100 then .remote s.here.name s else
        match readArea s.here a with
        | .bad x => .trap 0x19 (w x) s
        | .status x => .ok (s.modMe fun k => k.writeW e.L .g e.a (w x))
        | .ok l => restoreLoop e.a e.L s l []) s

end Sys2Proof.Machine
end

