-- ==== Sys2Proof/Machine/MlDsa.lean ====
section
/-! DEFINITION. ML-DSA-87 of FIPS 204, which the spec names for route bundles, firmware and attestation (R393, R405, R407), written from that
standard (log 7): key generation from a seed, signing, verification. Its sampling loops run on a bounded stretch of output, as appendix C of
the standard permits. -/

namespace Sys2Proof.Machine

/-! ### SHAKE -/

/-- Blocks squeezed from a sponge state, each followed by a permutation. -/
def squeezeMany (n rate : Nat) (a : List W) : List Byte :=
  match n with
  | 0 => []
  | k + 1 => (a.flatMap fun (x : W) => leBytes 8 x.toNat).take rate ++ squeezeMany k rate (keccakF a)
/-- SHAKE128 and SHAKE256 of FIPS 202, with an output of so many bytes. -/
def shake128 (m : List Byte) (out : Nat) : List Byte := (squeezeMany (ceilDiv out 168) 168 (absorb 168 0x1F m)).take out
def shake256 (m : List Byte) (out : Nat) : List Byte := (squeezeMany (ceilDiv out 136) 136 (absorb 136 0x1F m)).take out

/-! ### The ring: 256 coefficients modulo q, and the number-theoretic transform -/

/-- The modulus. -/
def mlQ : Nat := 8380417
/-- A polynomial, or its transform: 256 numbers below q. -/
abbrev Poly := List Nat
/-- The parameters of ML-DSA-87: rows k and columns l of the matrix, gamma1, gamma2, beta, tau, omega. -/
def mlK : Nat := 8
def mlL : Nat := 7
def mlGamma1 : Nat := 2 ^ 19
def mlGamma2 : Nat := 261888
def mlBeta : Nat := 120
def mlTau : Nat := 60
def mlOmega : Nat := 75

def polyAdd (a b : Poly) : Poly := List.zipWith (fun x y => (x + y) % mlQ) a b
def polySub (a b : Poly) : Poly := List.zipWith (fun x y => (x + mlQ - y) % mlQ) a b
def polyScale (z : Nat) (a : Poly) : Poly := a.map fun x => z * x % mlQ
/-- The product of two transforms. -/
def polyMul (a b : Poly) : Poly := List.zipWith (fun x y => x * y % mlQ) a b
def polyZero : Poly := List.replicate 256 0
/-- A number in the range of q from a signed one. -/
def ofSigned (x : Int) : Nat := (x % (mlQ : Int)).toNat

/-- Powers of the 512th root of unity 1753. -/
def rootPow : Nat → Nat
  | 0 => 1
  | n + 1 => rootPow n * 1753 % mlQ
/-- The eight bits of a number in the opposite order. -/
def bitRev8 (m : Nat) : Nat := ((List.range 8).map fun i => b01 (m.testBit i) * 2 ^ (7 - i)).sum
/-- NTT of 2^k numbers; `m` is the place of its butterflies in the tree of the transform. -/
def nttAt (k m : Nat) (l : Poly) : Poly :=
  match k with
  | 0 => l
  | n + 1 =>
    let lo := l.take (2 ^ n)
    let t := polyScale (rootPow (bitRev8 m)) (l.drop (2 ^ n))
    nttAt n (2 * m) (polyAdd lo t) ++ nttAt n (2 * m + 1) (polySub lo t)
/-- The inverse, but for the factor 256. -/
def inttAt (k m : Nat) (l : Poly) : Poly :=
  match k with
  | 0 => l
  | n + 1 =>
    let a := inttAt n (2 * m) (l.take (2 ^ n))
    let b := inttAt n (2 * m + 1) (l.drop (2 ^ n))
    polyAdd a b ++ polyScale (rootPow (512 - bitRev8 m)) (polySub a b)
def ntt (l : Poly) : Poly := nttAt 8 1 l
def intt (l : Poly) : Poly := polyScale 8347681 (inttAt 8 1 l)
/-- A matrix of transforms applied to a vector of them. -/
def matVec (a : List (List Poly)) (v : List Poly) : List Poly :=
  a.map fun row => (List.zipWith polyMul row v).foldl polyAdd polyZero

/-! ### Numbers in bytes -/

/-- Numbers of `n` bits each, the first in the lowest bits. -/
def packBits (n : Nat) (l : List Nat) : List Byte := leBytes (ceilDiv (n * l.length) 8) (l.foldr (fun x acc => x % 2 ^ n + 2 ^ n * acc) 0)
/-- Its inverse, for 256 numbers. -/
def unpackBits (n : Nat) (b : List Byte) : List Nat := let v := leNat b; (List.range 256).map fun i => v / 2 ^ (n * i) % 2 ^ n
/-- The parts of so many bytes each that a string starts with. -/
def parts (count size : Nat) (b : List Byte) : List (List Byte) := (List.range count).map fun i => (b.drop (size * i)).take size
/-- A polynomial whose coefficients are at most gamma1 in 20 bits each. -/
def packZ (p : Poly) : List Byte := packBits 20 (p.map fun x => (mlGamma1 + mlQ - x) % mlQ)
def unpackZ (b : List Byte) : Poly := (unpackBits 20 b).map fun x => (mlGamma1 + mlQ - x) % mlQ
/-- The high parts in four bits each. -/
def packW1 (w1 : List (List Nat)) : List Byte := w1.flatMap (packBits 4)

/-! ### Sampling -/

/-- RejNTTPoly: three bytes a try. -/
def rejNtt (b : List Byte) : Poly :=
  match b with
  | x :: y :: z :: r =>
    let v := x.toNat + 2 ^ 8 * y.toNat + 2 ^ 16 * (z.toNat % 128)
    if v < mlQ then v :: rejNtt r else rejNtt r
  | _ => []
/-- ExpandA. -/
def expandA (rho : List Byte) : List (List Poly) :=
  (List.range mlK).map fun r => (List.range mlL).map fun s =>
    (rejNtt (shake128 (rho ++ [BitVec.ofNat 8 s, BitVec.ofNat 8 r]) 1344)).take 256
/-- RejBoundedPoly, for eta 2: half a byte a try. -/
def rejBounded (b : List Byte) : Poly :=
  ((b.flatMap fun x => [x.toNat % 16, x.toNat / 16]).filter (· < 15)).map fun x => ofSigned (2 - ((x % 5 : Nat) : Int))
/-- ExpandS: polynomial `r` of the two secret vectors. -/
def expandS (rho : List Byte) (r : Nat) : Poly := (rejBounded (shake256 (rho ++ leBytes 2 r) 544)).take 256
/-- ExpandMask. -/
def expandMask (rho : List Byte) (kappa : Nat) : List Poly :=
  (List.range mlL).map fun r => unpackZ (shake256 (rho ++ leBytes 2 (kappa + r)) 640)
/-- SampleInBall: the places left, with the signs still to use and the bytes still to read. -/
def ballFrom (b : List Byte) (i signs : Nat) (c : Poly) : Poly :=
  match b with
  | [] => c
  | x :: r =>
    if 256 ≤ i then c
    else if i < x.toNat then ballFrom r i signs c
    else
      let c := (c.set i (c.getD x.toNat 0)).set x.toNat (if signs % 2 = 1 then mlQ - 1 else 1)
      ballFrom r (i + 1) (signs / 2) c
def sampleInBall (seed : List Byte) : Poly :=
  let b := shake256 seed 272
  ballFrom (b.drop 8) (256 - mlTau) (leNat (b.take 8)) polyZero

/-! ### Rounding and hints -/

/-- The least representative modulo an even number, in absolute value. -/
def centred (x m : Nat) : Int := if m / 2 < x % m then (x % m : Int) - m else (x % m : Nat)
/-- Power2Round. -/
def power2Round (r : Nat) : Nat × Int := let r0 := centred r 8192; ((((r : Int) - r0) / 8192).toNat, r0)
/-- Decompose. -/
def decompose (r : Nat) : Nat × Int :=
  let r0 := centred r (2 * mlGamma2)
  if (r : Int) - r0 = (mlQ : Int) - 1 then (0, r0 - 1) else ((((r : Int) - r0) / (2 * mlGamma2 : Nat)).toNat, r0)
def highBits (r : Nat) : Nat := (decompose r).1
/-- UseHint. -/
def useHint (h : Bool) (r : Nat) : Nat :=
  let (r1, r0) := decompose r
  if !h then r1 else if 0 < r0 then (r1 + 1) % 16 else (r1 + 15) % 16
/-- Every coefficient is below a bound in absolute value. -/
def normBelow (bound : Nat) (v : List Poly) : Bool := v.all fun p => p.all fun x => decide (Nat.min x (mlQ - x) < bound)

/-- HintBitPack. -/
def packHint (h : List (List Bool)) : List Byte :=
  let ones := h.map fun p => (List.range 256).filter fun j => p.getD j false
  let idx := (ones.flatMap id).map fun j => (BitVec.ofNat 8 j : Byte)
  let ends := (List.range mlK).map fun i => BitVec.ofNat 8 ((ones.take (i + 1)).map List.length).sum
  idx ++ List.replicate (mlOmega - idx.length) 0 ++ ends
/-- HintBitUnpack; none where the packing is not the one that HintBitPack makes. -/
def unpackHint (y : List Byte) : Option (List (List Bool)) :=
  let n := fun i => (y.getD i 0).toNat
  let ends := (List.range mlK).map fun i => n (mlOmega + i)
  let spans := (0 :: ends).zip ends
  let rising := spans.all fun (a, b) => decide (a ≤ b ∧ b ≤ mlOmega) && (List.range (b - a - 1)).all fun i => decide (n (a + i) < n (a + i + 1))
  let rest := (List.range mlOmega).all fun i => decide (i < ends.getLastD 0) || n i == 0
  if rising && rest then
    some (spans.map fun (a, b) => (List.range 256).map fun j => (List.range (b - a)).any fun i => n (a + i) == j)
  else none

/-! ### Keys, signing, verification -/

/-- A private key. -/
structure MlKey where
  rho : List Byte
  secret : List Byte
  tr : List Byte
  s1 : List Poly
  s2 : List Poly
  t0 : List Poly
deriving DecidableEq, Repr

/-- ML-DSA.KeyGen_internal: the public key, of 2,592 bytes, and the private key of a seed. -/
def mlKeyGen (seed : List Byte) : List Byte × MlKey :=
  let x := shake256 (seed ++ [BitVec.ofNat 8 mlK, BitVec.ofNat 8 mlL]) 128
  let rho := x.take 32
  let s1 := (List.range mlL).map (expandS ((x.drop 32).take 64))
  let s2 := (List.range mlK).map fun r => expandS ((x.drop 32).take 64) (mlL + r)
  let t := List.zipWith polyAdd ((matVec (expandA rho) (s1.map ntt)).map intt) s2
  let pk := rho ++ t.flatMap fun p => packBits 10 (p.map fun r => (power2Round r).1)
  (pk, { rho := rho, secret := x.drop 96, tr := shake256 pk 64, s1 := s1, s2 := s2,
         t0 := t.map fun p => p.map fun r => ofSigned (power2Round r).2 })

/-- The message with its context string, as both sides hash it. -/
def mlMessage (context m : List Byte) : List Byte := [0, BitVec.ofNat 8 context.length] ++ context ++ m
/-- One try of ML-DSA.Sign_internal; none where it is rejected. -/
def signTry (k : MlKey) (a : List (List Poly)) (mu rho : List Byte) (kappa : Nat) : Option (List Byte) :=
  let y := expandMask rho kappa
  let w := (matVec a (y.map ntt)).map intt
  let ct := shake256 (mu ++ packW1 (w.map fun p => p.map highBits)) 64
  let c := ntt (sampleInBall ct)
  let times := fun (v : List Poly) => v.map fun p => intt (polyMul c (ntt p))
  let z := List.zipWith polyAdd y (times k.s1)
  let r := List.zipWith polySub w (times k.s2)
  let ct0 := times k.t0
  let h := List.zipWith (fun p q => List.zipWith (fun x y => highBits (( x + y) % mlQ) != highBits x) p q) r ct0
  if normBelow (mlGamma1 - mlBeta) z && normBelow (mlGamma2 - mlBeta) (r.map fun p => p.map fun x => ofSigned (decompose x).2)
      && normBelow mlGamma2 ct0 && decide ((h.map fun p => p.countP id).sum ≤ mlOmega) then
    some (ct ++ z.flatMap packZ ++ packHint h)
  else none
/-- ML-DSA.Sign with a private key and 32 random bytes: a signature of 4,627 bytes. -/
def mlSign (k : MlKey) (context m random : List Byte) : List Byte :=
  let mu := shake256 (k.tr ++ mlMessage context m) 64
  let rho := shake256 (k.secret ++ random ++ mu) 64
  let a := expandA k.rho
  ((List.range 814).findSome? fun i => signTry k a mu rho (mlL * i)).getD []

/-- ML-DSA.Verify. -/
def mlVerify (pk context m sig : List Byte) : Bool :=
  let mu := shake256 (shake256 pk 64 ++ mlMessage context m) 64
  let t1 := (parts mlK 320 (pk.drop 32)).map (unpackBits 10)
  let ct := sig.take 64
  let z := (parts mlL 640 (sig.drop 64)).map unpackZ
  match unpackHint (sig.drop 4544) with
  | none => false
  | some h =>
    let c := ntt (sampleInBall ct)
    let w := List.zipWith (fun x t => intt (polySub x (polyMul c (ntt (polyScale 8192 t))))) (matVec (expandA (pk.take 32)) (z.map ntt)) t1
    let w1 := List.zipWith (fun p h => List.zipWith useHint h p) w h
    decide (context.length ≤ 255 ∧ pk.length = 2592 ∧ sig.length = 4627) && normBelow (mlGamma1 - mlBeta) z
      && ct == shake256 (mu ++ packW1 w1) 64

end Sys2Proof.Machine
end

