-- ==== Sys2Proof/Machine/Services.lean ====
section
/-! DEFINITION. Island services: ECALL, clock plans, storage, attestation, temperature and cooling, host link training (R7, R321 to R325, R374,
R375, R406, R407). -/

namespace Sys2Proof.Machine

/-! ### ECALL (R374) -/

/-- The ECALL of a core that is not yet answered: service and argument. -/
def ecallOf (k : Core) : Option (Nat × W) :=
  match k.req with
  | some (.ecall n a) => if k.ans.isNone then some (n, a) else none
  | _ => none
/-- The island has the answer to a core's request. -/
def setAns (s : State) (c : CoreId) (x : W) : State := s.modCore c fun k => { k with ans := some x }
/-- The step of one service: `f` gives the answer and the state. -/
def serveEcall (c : CoreId) (svc : Nat) (s : State) (f : W → State → Option (W × State)) : Out State :=
  .next (match ecallOf (s.core c) with
    | some (n, a) =>
      if n ≠ svc then s
      else match f a s with
        | some (x, s) => setAns s c x
        | none => s
    | none => s)
/-- R374: a block of `n` bytes at a tile address that its issuer may use. -/
def blockOk (s : State) (c : CoreId) (a : W) (n : Nat) : Bool :=
  decide (a.toNat % 64 = 0 ∧ a.toNat + n ≤ (if (s.core c).sup then 0x00300000 else 0x002C0000))
/-- The answer for a block address that breaks its rules, and for an unknown service. -/
def badBlock : W := 0xFFFFFFFFFFFFFFFE
def badService : W := 0xFFFFFFFFFFFFFFFF
/-- The service numbers. -/
def services : List Nat := [0x000, 0x001, 0x002, 0x010, 0x020, 0x040]

/-- ECALL_ANSWER: the answer reaches the core. -/
def execEcallAnswer (c : CoreId) (s : State) : Out State :=
  .next (match (s.core c).req, (s.core c).ans with
    | some (.ecall _ _), some x => answered s c x
    | some (.ecall n _), none => if services.contains n then s else answered s c badService
    | _, _ => s)
/-- ECALL_VERSION. -/
def execEcallVersion (c : CoreId) (s : State) : Out State := serveEcall c 0x000 s fun _ s => some (Config.firmwareLevel, s)

/-! ### Clock plans (R322, R323, R375) -/

/-- R323: a frequency, in MHz, is forbidden by a list of bands in kHz. -/
def forbidden (bands : List (Nat × Nat)) (f : Nat) : Bool :=
  (List.range 8).any fun k => bands.any fun b => decide (b.1 ≤ (k + 1) * f * 1000 ∧ (k + 1) * f * 1000 ≤ b.2)
/-- The highest permitted frequency of `n` steps down from one. -/
def highest (bands : List (Nat × Nat)) (f : Nat) : Nat → Option Nat
  | 0 => none
  | n + 1 => if forbidden bands f then highest bands (f - 1) n else some f
/-- The plan for a list of targets, or the first domain with none, counted from `i`. -/
def planFor (bands : List (Nat × Nat)) (i : Nat) (l : List Nat) : Except Nat (List Nat) :=
  match l with
  | [] => .ok []
  | t :: r =>
    match highest bands t (t + 1 - 1600) with
    | none => .error i
    | some f => match planFor bands (i + 1) r with
      | .error e => .error e
      | .ok p => .ok (f :: p)
/-- A clock-plan block: band count word, targets, bands. -/
def readBands (t : Tile) (a n : Nat) : List (Nat × Nat) :=
  (List.range n).map fun i => let x := t.word (a + 0x100 + 8 * i); (W.bits x 0 32, W.bits x 32 32)
def readTargets (t : Tile) (a : Nat) : List Nat := (List.range 83).map fun i => Mem.load t.mem (a + 8 + 2 * i) 2
def freqBytes (l : List Nat) : List Byte := l.flatMap fun f => leBytes 2 f
/-- R406: extend a measurement register. -/
def extend (s : State) (n : Nat) (d : BitVec 512) : State :=
  let m := vget s.meas n
  { s with meas := vset s.meas n (BitVec.ofNat 512 (leNat (sha3_512 (leBytes 64 m.toNat ++ leBytes 64 d.toNat)))) }
/-- R323: the status of a clock-plan request, and the plan on OK. The bad list is found first, then the fixed clocks, then a domain
with no permitted frequency. -/
def clockStatus (nband : W) (targets : List Nat) (bands : List (Nat × Nat)) : W × Option (List Nat) :=
  if 64 < nband.toNat ∨ (bands.any fun b => decide (b.2 < b.1)) = true ∨ (targets.any fun f => decide (f < 1600 ∨ 1800 < f)) = true then (3, none)
  else if forbidden bands 100 || forbidden bands 2400 then (2, none)
  else match planFor bands 0 targets with
    | .error i => (w (1 + i * 2 ^ 16), none)
    | .ok p => (0, some p)
/-- ECALL_CLOCK_SET: on OK the plan and its list are in force, the block holds the chosen frequencies, and register 5 is extended; the
fields' relock stalls change no result. -/
def execEcallClockSet (c : CoreId) (s : State) : Out State :=
  serveEcall c 0x001 s fun a s =>
    if !blockOk s c a 768 then some (badBlock, s)
    else
      let t := s.tile c.site
      let n := t.word a.toNat
      let bands := readBands t a.toNat (Nat.min n.toNat 64)
      match clockStatus n (readTargets t a.toNat) bands with
      | (x, none) => some (x, s)
      | (x, some p) =>
        let s := extend { s with plan := p, bands := bands, throttled := [], duty := [] } 5 (Config.planDigest p bands)
        some (x, s.modTile c.site fun t => t.store (a.toNat + 8) (freqBytes p))
/-- ECALL_CLOCK_GET: the block receives the plan and the list in force. -/
def execEcallClockGet (c : CoreId) (s : State) : Out State :=
  serveEcall c 0x002 s fun a s =>
    if !blockOk s c a 768 then some (badBlock, s)
    else some (0, s.modTile c.site fun t =>
      ((t.setWord a.toNat (w s.bands.length)).store (a.toNat + 8) (freqBytes s.plan)).store (a.toNat + 0x100)
        (s.bands.flatMap fun b => leBytes 4 b.1 ++ leBytes 4 b.2))

/-! ### Gateways and storage (R374, R375) -/

/-- The virtual device of a core's region; 1024 where it has none. -/
def vdevNo (s : State) (c : CoreId) : Nat := ((s.vdevOf (s.tile c.site).vni).map (·.num)).getD 1024
/-- The capability of a port's gateway. -/
def gatewayCap (key : BitVec 256) (port : Nat) : Cap :=
  let low := (Config.gatewayRange port).toNat * 2 ^ 10 + (0xFF00 + port) * 2 ^ 24
  let r := (Config.gatewayRights port).toNat % 16
  BitVec.ofNat 128 (low + (r + (Config.gatewayRights port).toNat / 16 * 16 + sealOf key (low + r * 2 ^ 64) * 2 ^ 8) * 2 ^ 64)
/-- ECALL_GATEWAY: the capability of a port of the virtual device; the gateway tables of the region's tiles hold its name. -/
def execEcallGateway (c : CoreId) (s : State) : Out State :=
  serveEcall c 0x010 s fun a s =>
    if !blockOk s c a 32 then some (badBlock, s)
    else
      let t := s.tile c.site
      let n := Mem.load t.mem a.toNat 1
      if !((s.port n).any fun p => p.vdev == vdevNo s c) then some (1, s)
      else
        let s := s.modTile c.site fun t => t.store (a.toNat + 16) (leBytes 16 (gatewayCap s.serviceKey n).toNat)
        some (0, (s.tilesOf t.vni).foldl (fun s u => s.modTile u fun x => { x with gate := insert x.gate n n }) s)

/-- The queue context of the launch that runs on a core's tile. -/
def ctxOf (s : State) (c : CoreId) : Option QCtx :=
  let ctx := match (s.core c).launch with
    | some x => some x
    | none => (s.places.find? fun (p : Place) => p.admitted.isSome && (s.placeTiles p).contains c.site).bind fun (p : Place) => p.admitted
  ctx.bind s.qctx
/-- The parts of a range that lie in one page of 4 KiB each: offset and length. -/
def pageParts (va n : Nat) : List (Nat × Nat) :=
  (List.range (n / 4096 + 2)).filterMap fun i =>
    let lo := Nat.max va ((va / 4096 + i) * 4096)
    let hi := Nat.min (va + n) ((va / 4096 + i + 1) * 4096)
    if lo < hi then some (lo - va, hi - lo) else none
/-- The same with their physical places; none where one does not translate. -/
def partPlaces (s : State) (pasid va n : Nat) (write : Bool) : Option (List (Nat × Nat × Nat × Bool)) :=
  (pageParts va n).foldr (fun x l => match translate s pasid (va + x.1) write, l with
    | some p, some l => some ((x.1, x.2, p) :: l)
    | _, _ => none) (some [])
/-- The 8-byte words that some poisoned words, by address in edge memory, come to lie in where `a` goes to `b`. -/
def shifted (l : List Nat) (a b : Nat) : List Nat :=
  (l.flatMap fun x => let y := b + x - a; if y % 8 = 0 then [y] else [y / 8 * 8, y / 8 * 8 + 8]).eraseDups
/-- The poisoned words that hold a byte of a part. -/
def partBad (s : State) (n : Nat) (p : Nat × Bool) : List Nat :=
  if p.2 then [] else s.edgePoison.filter fun x => decide (x < p.1 + n ∧ p.1 < x + 8)
/-- R375: what a transfer into an object does with one part: the island's read reports poisoned words, which the object keeps (R400). -/
def storePart (s : State) (o : Storage) (off : Nat) (x : Nat × Nat × Nat × Bool) : State × Storage :=
  let bad := partBad s x.2.1 x.2.2
  ({ s with reports := s.reports ++ bad.map .edgePoison },
   { o with bytes := Mem.store o.bytes (off + x.1) (s.ebytes x.2.2 x.2.1)
            bad := keepPoison o.bad (off + x.1) x.2.1 ++ shifted bad x.2.2.1 (off + x.1) })
/-- R375: what a transfer out of an object does with one part. -/
def fetchPart (s : State) (o : Storage) (off : Nat) (x : Nat × Nat × Nat × Bool) : State :=
  let bad := o.bad.filter fun y => decide (y < off + x.1 + x.2.1 ∧ off + x.1 < y + 8)
  let s := s.estore x.2.2 (Mem.bytes o.bytes (off + x.1) x.2.1)
  if x.2.2.2 then s
  else
    let l := shifted bad (off + x.1) x.2.2.1
    { s with edgePoison := l.filter (fun y => !s.edgePoison.contains y) ++ s.edgePoison }
/-- R375: a storage transfer; none while an owner transfer must come first. Where the object's device fails, nothing is moved (log 60). -/
def storageMove (s : State) (c : CoreId) (blk : List W) : Option (W × State) :=
  let x0 := blk.getD 0 0
  let off := (blk.getD 1 0).toNat
  let va := (blk.getD 2 0).toNat
  let len := (blk.getD 3 0).toNat
  let write := x0.getLsbD 0
  match s.storage.find? (·.num == W.bits x0 16 16) with
  | none => some (1, s)
  | some o =>
    if off % 4096 ≠ 0 ∨ len % 4096 ≠ 0 ∨ o.size < off + len then some (2, s)
    else match (ctxOf s c).bind fun q => (partPlaces s q.pasid va len (!write)).map fun ps => (q.pasid, ps) with
      | none => some (3, s)
      | some (pasid, ps) =>
        match access s (.storage c) false (ps.flatMap fun x => regionsOf x.2.2 x.2.1) with
        | (false, _) => none
        | (true, s) =>
          if o.fails then some (4, s)
          else
            let s := touchPages s pasid (ps.map fun x => va + x.1) (!write)
            if write then
              let r := ps.foldl (fun (r : State × Storage) x => storePart r.1 r.2 off x) (s, o)
              some (0, { r.1 with storage := mapIf r.1.storage (·.num == o.num) fun _ => r.2 })
            else some (0, ps.foldl (fun s x => fetchPart s o off x) s)
/-- ECALL_STORAGE: read moves an object's bytes to edge or host memory, write the other way. While a region must change its owner only
that begins. -/
def execEcallStorage (c : CoreId) (s : State) : Out State :=
  match ecallOf (s.core c) with
  | some (0x020, a) =>
    if !blockOk s c a 64 then .next (setAns s c badBlock)
    else
      let t := s.tile c.site
      let blk := (List.range 4).map fun i => t.word (a.toNat + 8 * i)
      match storageMove s c blk with
      | some (x, s) => .next (setAns s c x)
      | none =>
        let ps := ((ctxOf s c).bind fun q => partPlaces s q.pasid (blk.getD 2 0).toNat (blk.getD 3 0).toNat (!(blk.getD 0 0).getLsbD 0)).getD []
        .next (access s (.storage c) false (ps.flatMap fun x => regionsOf x.2.2 x.2.1)).2
  | _ => .next s

/-! ### Attestation (R407) -/

/-- R407: the module's identity key pair. -/
def identityPair : List Byte × MlKey := mlKeyGen (leBytes 32 Config.identitySeed.toNat)
/-- The first 0x0EC0 bytes of the report. -/
def reportBytes (s : State) (nonce : List Byte) : List Byte :=
  leBytes 8 (0x4154 + 2 ^ 16 + b01 s.floorFail * 2 ^ 24 + s.working % 2 ^ 32 * 2 ^ 32) ++ leBytes 8 s.fwVersion ++ List.replicate 48 0
    ++ nonce ++ s.meas.toList.flatMap (fun (m : BitVec 512) => leBytes 64 m.toNat)
    ++ (identityPair.1 ++ List.replicate 2624 0).take 2624
/-- "MW9ATTEST". -/
def attestContext : List Byte := [0x4D, 0x57, 0x39, 0x41, 0x54, 0x54, 0x45, 0x53, 0x54]
/-- ECALL_ATTEST. -/
def execEcallAttest (c : CoreId) (s : State) : Out State :=
  serveEcall c 0x040 s fun a s =>
    if a.toNat % 64 ≠ 0 then some (badBlock, s)
    else if !blockOk s c a 8448 then some (2, s)
    else
      let nonce := Mem.bytes (s.tile c.site).mem (a.toNat + 0x40) 64
      let body := reportBytes s nonce
      let sig := (mlSign identityPair.2 attestContext body (leBytes 32 (Config.freeRandom s.fresh).toNat) ++ List.replicate 4672 0).take 4672
      some (0, { s with fresh := s.fresh + 1 }.modTile c.site fun t => t.store a.toNat (body ++ sig))

/-! ### Temperature and cooling (R324, R325) -/

/-- The frequency a field runs at. -/
def fieldFreq (s : State) (f : Nat) : Nat := (lookup s.throttled f).getD (s.plan.getD f 1800)
/-- R325: a field steps down to its next lower permitted frequency, or withholds matrix issue. -/
def stepDown (s : State) (f : Nat) : State :=
  let now := fieldFreq s f
  match highest s.bands (now - 1) (now - 1600) with
  | some g => { s with throttled := insert s.throttled f g }
  | none => { s with duty := if s.duty.contains f then s.duty else s.duty ++ [f] }
/-- Management sets the power cap, 24 kW at most. -/
def setPowerCap (s : State) (watts : Nat) : State := { s with powerCap := Nat.min watts 24000 }
/-- THERMAL_THROTTLE: the field's hottest sensor, in °C, or the module's power, in W, exceeds its limit. -/
def execThermalThrottle (field temp power : Nat) (s : State) : Out State :=
  .next (if field < 81 ∧ (95 < temp ∨ s.powerCap < power) then stepDown s field else s)
/-- THERMAL_RECOVERY: below 90 °C for 1 ms; `waited` in microseconds. -/
def execThermalRecovery (field temp waited : Nat) (s : State) : Out State :=
  .next (if temp < 90 ∧ 1000 ≤ waited then { s with throttled := s.throttled.filter (·.1 != field), duty := s.duty.filter (· != field) } else s)
/-- OVERTEMP_HALT: at 110 °C the root island halts every tile. -/
def execOvertempHalt (temp : Nat) (s : State) : Out State :=
  .next (if temp < 110 then s
    else
      let s := { s with reports := s.reports ++ [Report.overTemp temp] }
      { s with tiles := s.tiles.map fun (x : Nat × Tile) =>
        let t := x.2.mapCores fun (k : Core) => Core.block { k with halted := true } 2 0 0xFFFF
        (x.1, { t with stopped := true }) })
/-- COOLANT_LIMIT_REPORT: inlet in °C and flow in L/min outside their limits are reported, and every field throttles. -/
def execCoolantLimitReport (inlet flow : Nat) (s : State) : Out State :=
  .next (if 20 ≤ inlet ∧ inlet ≤ 35 ∧ 40 ≤ flow then s
    else (List.range 81).foldl stepDown { s with reports := s.reports ++ [Report.coolant inlet flow] })

/-- LINK_TRAINING, R7: whatever a host asks, it is offered CXL.io and CXL.mem only: no CXL.cache. -/
def execLinkTraining (link : Nat) (asksCache : Bool) (s : State) : Out State :=
  .next (if link < 4 then { s with hostLinks := insert s.hostLinks link (asksCache && false) } else s)

end Sys2Proof.Machine
end

