-- ==== Sys2Proof/Machine/Move.lean ====
section
/-! DEFINITION. Pre-emption, swap-in, and live migration of tiles (R160, R299, R383 to R386). -/

namespace Sys2Proof.Machine

/-! ### Saving a tile (R383 steps 1 to 5) -/

/-- No activation, send, wait or trap of a tile is left, and everything its cores sent is acknowledged. -/
def tileQuiet (s : State) (t : Site) : Bool :=
  kinds.all fun k =>
    let x := (s.tile t).core k
    x.lo.act.isNone && x.hi.act.isNone && x.lo.sends.isEmpty && x.hi.sends.isEmpty && x.held.isNone && x.req.isNone && x.wait.isNone
      && x.ptrap.isNone && quietCore s ⟨t, k⟩ && !(s.tile t).owes ⟨t, k⟩
/-- R299: no exchange entry of a tile has started and not completed. -/
def xQuiet (s : State) (t : Site) : Bool := (s.tile t).xif.all fun (i : XIf) => !i.started
/-- The image of a core, written where the island puts it, with every result that a window of an ended activation still held. -/
def saveCore (t : Tile) (k : CoreKind) : Tile :=
  let t := t.setCore k ((t.core k).release fun _ => true)
  t.storePoison (0x002F8000 + 0x2000 * k.code) ((contextWords t k).flatMap fun (x : W) => leBytes 8 x.toNat)
    ((t.core k).regPoison.filterMap poisonWord)
/-- R299, R383 step 4: the save actions of R377, and the tile leaves its chain; its calendar starts no entry until its next XNEXT. -/
def saveActions (s : State) (t : Site) : State :=
  let s := kinds.foldl (fun s k => preemptAll s ⟨t, k⟩) s
  (chainLeave s t).modTile t fun x => (kinds.foldl saveCore (settled x)).pauseXif .flow
/-- R160: a core resumes with no residency named. -/
def unresident (k : Core) : Core :=
  { k with slots := Vector.ofFn fun i => { vget k.slots i.val with resident := false }, pin := none, restore := none }
/-- A saved tile at a site whose tile record was `d`. What belongs to the site stays; the residencies survive on the same tile. -/
def restoreTile (x d : Tile) (same : Bool) : Tile :=
  { x.mapCores unresident with
    cycle := d.cycle, slices := if same then d.slices else Vector.replicate 4 none, cbCache := [], blist := [], eccCount := d.eccCount
    router := d.router, stopped := false, hold := false, moving := false, fwd := none, viaOnly := none, activity := true }

/-! ### Moving a name (R384 step 4) -/

/-- A tile's record is at a site that works, at which the region may put a tile, and which no launch or move uses. -/
def freeTile (s : State) (vni : Nat) (t : Site) : Bool :=
  let x := s.tile t
  !s.gone t && inVdev s vni t
    && (!x.bound || (x.vni == vni && !inUse s t && !x.stopped && !x.hold && !x.moving && x.fwd.isNone && x.viaOnly.isNone))
/-- R299: a migrated rank's exchange is taken over by its own arbiter. -/
def takeOverAt (s : State) (t : Site) (f : Option XIf) : State :=
  { s with exchs := s.exchs.map fun x =>
      if x.planned && (x.posts.any fun p => p.site == t) && f.any fun i => x.has i && i.isOpen then takeOver x x.serving x.hasStandby else x }
/-- R384 step 4: the record `x` of a name goes to tile `d` (R384: names and capabilities find it there); the tile that held the name
before, where it is another of the region, forwards to it until closure. -/
def putAt (s : State) (vni name : Nat) (x : Tile) (from_ d : Site) : State :=
  let same := from_ == d
  let old := (s.tile d).name
  let other := (s.tile d).bound && !same
  let leave := !same && (s.tile from_).bound && (s.tile from_).vni == vni && (s.tile from_).name == name
  let lost := s.engines.filter fun e => other && e.site == d && e.away.isNone
  let s := { lost.foldl (fun s e => unwait s (ofEngine e.num)) s with engines := s.engines.filter fun e => !lost.contains e }
  let s := rebind s vni fun s =>
    let s := s.modTile d fun y =>
      { restoreTile x y same with bound := true, vni := vni, name := name, viaOnly := if leave then some from_ else none }
    let s := setNames s vni fun l => insert (if other && old != name then l.filter (·.1 != old) else l) name d
    if !leave then s
    else s.modTile from_ fun y => { resetTile y with bound := true, vni := vni, name := name, stopped := true, fwd := some d }
  let s := { s with engines := s.engines.map fun e =>
    if e.away == some (vni, name) then { e with away := none, site := d }
    else if !same && e.site == from_ && e.away.isNone then { e with site := d } else e }
  let s := xonSweep (if same then s else rehome (reseat (takeOverAt s from_ x.xif) from_ d) d)
  if !leave then s
  else setEntry (s.modTile from_ fun y => y.writeMap (mapBytes s vni)) from_ name (d.x + d.y * 2 ^ 7 + 3 * 2 ^ 14)

/-! ### Swapping a placement (R383) -/

/-- R183: the 2 MiB regions of edge memory that the image of tile `k` of a placement lies in: two for each (log 81). -/
def areaOf (p : Place) (k : Nat) : List Nat := [regionOf p.area + 2 * k, regionOf p.area + 2 * k + 1]
/-- The accessor that stands for the saving or the restoring of a placement. -/
def areaKey (p : Place) : Accessor := .image p.vni (65536 + p.num) (4 * p.num + 3)
/-- PREEMPTION_SWAP_OUT: dispatch stops; once every tile of the placement is quiet they are saved, and their names are SWAPPED. The images go
to edge memory as accesses of the FABRIC side. -/
def execPreemptionSwapOut (place island : Nat) (s : State) : Out State :=
  .next (match s.placeNo place with
    | none => s
    | some p =>
      let ts := s.placeTiles p
      if p.swapped ∨ 64 ≤ island
          ∨ (ts.any fun t => (s.tile t).moving || (s.tile t).hold || (s.tile t).fwd.isSome || (s.tile t).viaOnly.isSome) = true then s
      else
        let s := ts.foldl (fun s t => s.modTile t fun x => { x with stopped := true }) s
        if !(ts.all fun t => tileQuiet s t && xQuiet s t) then s
        else match access s (areaKey p) true ((List.range ts.length).flatMap (areaOf p)) with
        | (false, s) => s
        | (true, s) =>
          let s := ts.foldl saveActions s
          rebind (s.modPlace p fun x => { x with swapped := true }) p.vni fun s =>
            ((List.range ts.length).zip ts).foldl (fun s (k, t) =>
              let x := s.tile t
              let kept : Saved := { place := p.num, vni := p.vni, name := x.name, island := island, regs := areaOf p k, tile := x }
              let s := { s with
                saved := s.saved ++ [kept]
                engines := mapIf s.engines (fun e => e.site == t && e.away.isNone) fun e => { e with away := some (p.vni, x.name) } }
              s.modTile t fun y => { y with hold := true }) s)
/-- One tile of a placement comes back. -/
def swapOne (s : State) (p : Place) (name : Nat) (old d : Site) : State :=
  match s.image p.vni name with
  | none => s
  | some x =>
    let s := { unwait s (ofImage p.vni name) with saved := s.saved.filter fun y => !(y.vni == p.vni && y.name == name) }
    putAt s p.vni name x.tile old d
/-- A site can take a saved tile: the one it left, still kept for it, or a free one. -/
def takes (s : State) (vni name : Nat) (old d : Site) : Bool :=
  let x := s.tile d
  if old = d ∧ x.bound = true ∧ x.vni = vni ∧ x.name = name then x.hold && !s.gone d else freeTile s vni d
/-- The names of a placement with the sites they stood at. -/
def placeNames (s : State) (p : Place) : List (Nat × Site) :=
  (p.clusters.flatMap id).filterMap fun x => if (s.image p.vni x.1).isSome then (s.siteOfName p.vni x.1).map fun t => (x.1, t) else none
/-- SWAP_IN: `sites` gives each name of the placement its tile, in the placement's order. -/
def execSwapIn (place : Nat) (sites : List Site) (s : State) : Out State :=
  .next (match s.placeNo place with
    | none => s
    | some p =>
      let l := (placeNames s p).zip sites
      if !p.swapped || sites.length != (placeNames s p).length || !sites.Nodup || !(l.all fun x => takes s p.vni x.1.1 x.1.2 x.2)
          || !ctxRoom s p.vni (fun n e => e.away == some (p.vni, n)) (l.map fun x => (x.1.1, x.2)) then s
      else match access s (areaKey p) true (l.flatMap fun x => ((s.image p.vni x.1.1).map (·.regs)).getD []) with
      | (false, s) => s
      | (true, s) => (l.foldl (fun s x => swapOne s p x.1.1 x.1.2 x.2) s).modPlace p fun x => { x with swapped := false })

/-! ### Migration (R384 to R386) -/

/-- MIGRATION: the first step makes the name MOVING and stops dispatch; the next, once the tile is quiet, saves it, and it returns packets
from then on; the last puts it at `d`. -/
def execMigration (t d : Site) (s : State) : Out State :=
  .next (let x := s.tile t
    let v := x.vni
    if !x.bound || x.fwd.isSome || x.viaOnly.isSome || (s.image v x.name).isSome || s.gone t || t == d || !freeTile s v d
        || (s.region v).any (·.stalled) then s
    else if !x.moving then
      rebind s v fun s => s.modTile t fun x => { x with moving := true, stopped := true }
    else if !x.hold then
      if tileQuiet s t && xQuiet s t then (saveActions s t).modTile t fun x => { x with hold := true } else s
    else if !ctxRoom s v (fun _ e => e.site == t && e.away.isNone) [(x.name, d)] then s
    else putAt s v x.name x t d)
/-- FORWARDING_CLOSED, R384: no packet injected for the old site is unacknowledged (one in its sender's bounce area is to be injected anew,
log 72); the new site takes packets from all, and the old one is unbound. -/
def execForwardingClosed (t : Site) (s : State) : Out State :=
  .next (let x := s.tile t
    match x.fwd with
    | none => s
    | some d =>
      if s.pkts.any fun p => p.vni == x.vni && !isReply p.body && p.name == x.name && p.state != 1 && (p.dst == t || p.fwd) then s
      else xonSweep <| (s.modTile t resetTile).modTile d fun y => { y with viaOnly := if y.viaOnly == some t then none else y.viaOnly })

/-- A core has asked for its tile's migration and has no answer. -/
def asksMigr (k : Core) : Bool := k.req == some .migr && k.ans.isNone
/-- MIGR_REQUEST, R386: the island's answer; `policy` says that system policy permits the move. -/
def execMigrRequest (c : CoreId) (policy : Bool) (s : State) : Out State :=
  .next (if !asksMigr (s.core c) then s
    else
      let t := s.tile c.site
      let free := (List.range (126 * 126)).any fun n => siteOf n != c.site && freeTile s t.vni (siteOf n)
      let busy := t.stopped || t.moving || t.hold || t.fwd.isSome || t.viaOnly.isSome || (s.region t.vni).any (·.stalled)
      setAns s c (if !free then 1 else if busy then 2 else if !policy then 3 else 0))
/-- MIGR_ANSWER. -/
def execMigrAnswer (c : CoreId) (s : State) : Out State :=
  .next (match (s.core c).req, (s.core c).ans with
    | some .migr, some x => answered s c x
    | _, _ => s)

end Sys2Proof.Machine
end

