-- ==== Sys2Proof/Machine/Scalar.lean ====
section
/-! DEFINITION. The scalar, predicate and control-transfer instructions (R79 to R97). -/

namespace Sys2Proof.Machine

/-! ### Shared computations -/

/-- Number of leading zero bits (R92). -/
def clz (x : W) : Nat := if x = 0 then 64 else 63 - x.toNat.log2
/-- Index of the lowest one bit, 64 where there is none (R88, R92). -/
def ctz (x : W) : Nat := ((List.range 64).find? fun i => x.getLsbD i).getD 64
/-- Number of one bits (R88, R92). -/
def popc (x : W) : Nat := (List.range 64).countP fun i => x.getLsbD i
/-- Bit i moved to bit 63 − i (R92). -/
def brev (x : W) : W := w ((List.range 64).foldl (fun n i => 2 * n + b01 (x.getLsbD i)) 0)

/-- R90: the quotient and remainder forms with their corner results. -/
def divS (x y : W) : W := if y = 0 then BitVec.allOnes 64 else x.sdiv y
def remS (x y : W) : W := if y = 0 then x else x.srem y
def divU (x y : W) : W := if y = 0 then BitVec.allOnes 64 else x.udiv y
def remU (x y : W) : W := if y = 0 then x else x.umod y
/-- R89: the upper half of a product. -/
def mulhS (x y : W) : W := BitVec.ofInt 64 (x.toInt * y.toInt / 2 ^ 64)
def mulhU (x y : W) : W := w (x.toNat * y.toNat / 2 ^ 64)

/-- R94: the width that f selects. -/
def widthOf (f : Nat) : Nat := if f = 0 then 8 else if f = 1 then 16 else 32
/-- Sext(x, n) and Zext(x, n) of the low n bits. -/
def sextN (x : W) (n : Nat) : W := (x.setWidth n).signExtend 64
def zextN (x : W) (n : Nat) : W := (x.setWidth n).setWidth 64

/-- R93: a field specification that traps. -/
def specBad (n : Nat) : Bool :=
  decide (65536 ≤ n) || decide (63 < n % 256) || n / 256 % 256 == 0 || decide (64 < n / 256 % 256)
    || decide (64 < n % 256 + n / 256 % 256)
/-- R93: the field of `len` bits at `pos`. -/
def fieldOf (x : W) (n : Nat) : W := w (W.bits x (n % 256) (n / 256))
/-- R93: BINS. -/
def insField (old x : W) (n : Nat) : W :=
  let mask := w ((2 ^ (n / 256) - 1) * 2 ^ (n % 256))
  (old &&& ~~~mask) ||| ((x <<< (n % 256)) &&& mask)
/-- R87: what a compare writes. -/
def truth (b : Bool) : W := if b then BitVec.allOnes 64 else 0

/-! ### Operand forms -/

/-- g[a] receives a function of g[b] and g[c]. -/
def ggg (f : W → W → W) (e : Enc) (s : State) : Eff :=
  .ok (s.modMe fun k => k.writeW e.L .g e.a (f (k.g e.b) (k.g e.c)))
/-- g[a] receives a function of g[b]. -/
def gg (f : W → W) (e : Enc) (s : State) : Eff :=
  .ok (s.modMe fun k => k.writeW e.L .g e.a (f (k.g e.b)))
/-- g[a] receives a function of g[b] and the sign-extended RI immediate (R84). -/
def ggi (f : W → W → W) (e : Enc) (s : State) : Eff :=
  .ok (s.modMe fun k => k.writeW e.L .g e.a (f (k.g e.b) (BitVec.ofInt 64 (e.immS .ri))))
/-- g[a] receives g[b] shifted by the unsigned RI immediate (R84). -/
def ggs (f : W → Nat → W) (e : Enc) (s : State) : Eff :=
  .ok (s.modMe fun k => k.writeW e.L .g e.a (f (k.g e.b) (e.immU .ri)))
/-- p[a] receives all ones or zero as g[b] and g[c] compare (R87). -/
def pgg (f : W → W → Bool) (e : Enc) (s : State) : Eff :=
  .ok (s.modMe fun k => k.writeW e.L .p e.a (truth (f (k.g e.b) (k.g e.c))))
/-- p[a] receives all ones or zero as g[b] and the RI immediate compare (R87). -/
def pgi (f : W → W → Bool) (e : Enc) (s : State) : Eff :=
  .ok (s.modMe fun k => k.writeW e.L .p e.a (truth (f (k.g e.b) (BitVec.ofInt 64 (e.immS .ri)))))
/-- p[a] receives a function of p[b] and p[c] (R88). -/
def ppp (f : W → W → W) (e : Enc) (s : State) : Eff :=
  .ok (s.modMe fun k => k.writeW e.L .p e.a (f (k.p e.b) (k.p e.c)))
/-- g[a] receives a function of p[b] (R88). -/
def gp (f : W → W) (e : Enc) (s : State) : Eff :=
  .ok (s.modMe fun k => k.writeW e.L .g e.a (f (k.p e.b)))

/-- R93: the check of a specification that PX.IMM supplies. -/
def specCk (e : Enc) : Ck := { bad := !e.imms.isEmpty && specBad e.immHigh }
/-- R93: g[a] receives a function of g[b], g[a] and the specification. -/
def spec (f : W → W → Nat → W) (e : Enc) (s : State) : Eff :=
  let k := s.me
  let n := if e.imms.isEmpty then (k.g e.c).toNat else e.immHigh
  if specBad n then .trap 0x03 0 s
  else .ok (s.modMe fun k => k.writeW e.L .g e.a (f (k.g e.b) (k.g e.a) n))

/-- R95: the target of a relative transfer. -/
def relTarget (e : Enc) (fmt : Fmt) (pc : W) : W := pc + BitVec.ofInt 64 (2 * e.immS fmt)
/-- R95: BT and BF. -/
def branch (sense : Bool) (e : Enc) (s : State) : Eff :=
  if (s.me.p e.fa).getLsbD 0 == sense then .jump (relTarget e .i8 s.me.pc) s else .ok s
/-- R95, R96: transfer to a target, with NPC written to a link register where one is named. -/
def transfer (e : Enc) (link : Option Nat) (target : W) (s : State) : Eff :=
  match link with
  | some n => .jump target (s.modMe fun k => k.writeW e.L .g n (npc k.pc e))
  | none => .jump target s

/-! ### The instructions -/

/-- ADD, R83: g[a] receives x + y. -/
def execAdd (e : Enc) (s : State) : Out State :=
  issue (.add e) {} (fun _ e s => ggg (· + ·) e s) s
/-- SUB, R83: g[a] receives x − y. -/
def execSub (e : Enc) (s : State) : Out State :=
  issue (.sub e) {} (fun _ e s => ggg (· - ·) e s) s
/-- AND, R83: g[a] receives x AND y. -/
def execAnd (e : Enc) (s : State) : Out State :=
  issue (.and e) {} (fun _ e s => ggg (· &&& ·) e s) s
/-- OR, R83: g[a] receives x OR y. -/
def execOr (e : Enc) (s : State) : Out State :=
  issue (.or e) {} (fun _ e s => ggg (· ||| ·) e s) s
/-- XOR, R83: g[a] receives x XOR y. -/
def execXor (e : Enc) (s : State) : Out State :=
  issue (.xor e) {} (fun _ e s => ggg (· ^^^ ·) e s) s
/-- SLL, R83: g[a] receives x shifted left by y[5:0]. -/
def execSll (e : Enc) (s : State) : Out State :=
  issue (.sll e) {} (fun _ e s => ggg (fun x y => x <<< (y.toNat % 64)) e s) s
/-- SRL, R83: g[a] receives x shifted right by y[5:0], zeros entering. -/
def execSrl (e : Enc) (s : State) : Out State :=
  issue (.srl e) {} (fun _ e s => ggg (fun x y => x >>> (y.toNat % 64)) e s) s
/-- SRA, R83: g[a] receives x shifted right by y[5:0], signs entering. -/
def execSra (e : Enc) (s : State) : Out State :=
  issue (.sra e) {} (fun _ e s => ggg (fun x y => x.sshiftRight (y.toNat % 64)) e s) s
/-- ADDI, R84: as ADD with the signed immediate. -/
def execAddi (e : Enc) (s : State) : Out State :=
  issue (.addi e) {} (fun _ e s => ggi (· + ·) e s) s
/-- ANDI, R84: as AND with the signed immediate. -/
def execAndi (e : Enc) (s : State) : Out State :=
  issue (.andi e) {} (fun _ e s => ggi (· &&& ·) e s) s
/-- ORI, R84: as OR with the signed immediate. -/
def execOri (e : Enc) (s : State) : Out State :=
  issue (.ori e) {} (fun _ e s => ggi (· ||| ·) e s) s
/-- XORI, R84: as XOR with the signed immediate. -/
def execXori (e : Enc) (s : State) : Out State :=
  issue (.xori e) {} (fun _ e s => ggi (· ^^^ ·) e s) s
/-- SLLI, R84: shift by the unsigned immediate; 64 or more traps from the encoding alone. -/
def execSlli (e : Enc) (s : State) : Out State :=
  issue (.slli e) { bad := decide (64 ≤ e.immU .ri) } (fun _ e s => ggs (· <<< ·) e s) s
/-- SRLI, R84: shift by the unsigned immediate; 64 or more traps from the encoding alone. -/
def execSrli (e : Enc) (s : State) : Out State :=
  issue (.srli e) { bad := decide (64 ≤ e.immU .ri) } (fun _ e s => ggs (· >>> ·) e s) s
/-- SRAI, R84: shift by the unsigned immediate; 64 or more traps from the encoding alone. -/
def execSrai (e : Enc) (s : State) : Out State :=
  issue (.srai e) { bad := decide (64 ≤ e.immU .ri) } (fun _ e s => ggs (fun x n => x.sshiftRight n) e s) s
/-- LI, R85: g[a] receives the signed immediate. -/
def execLi (e : Enc) (s : State) : Out State :=
  issue (.li e) {} (fun _ e s => .ok (s.modMe fun k => k.writeW e.L .g e.a (BitVec.ofInt 64 (e.immS .i8)))) s
/-- LIH, R85: bits [63:32] of g[a] receive the immediate; 2^32 or more traps from the encoding alone. -/
def execLih (e : Enc) (s : State) : Out State :=
  issue (.lih e) { bad := decide (2 ^ 32 ≤ e.immU .i8), info := w (e.immU .i8) } (fun _ e s => .ok (s.modMe fun k => k.writeW e.L .g e.a (w (e.immU .i8 * 2 ^ 32 + (k.g e.a).toNat % 2 ^ 32)))) s
/-- MOV, R83: g[a] receives g[b]. -/
def execMov (e : Enc) (s : State) : Out State :=
  issue (.mov e) {} (fun _ e s => gg (fun x => x) e s) s
/-- SLT, R83: 1 if g[b] < g[c] as signed integers, else 0. -/
def execSlt (e : Enc) (s : State) : Out State :=
  issue (.slt e) {} (fun _ e s => ggg (fun x y => w (b01 (x.slt y))) e s) s
/-- SLTU, R83: 1 if g[b] < g[c] as unsigned integers, else 0. -/
def execSltu (e : Enc) (s : State) : Out State :=
  issue (.sltu e) {} (fun _ e s => ggg (fun x y => w (b01 (x.ult y))) e s) s
/-- SEQ, R83: 1 if g[b] = g[c], else 0. -/
def execSeq (e : Enc) (s : State) : Out State :=
  issue (.seq e) {} (fun _ e s => ggg (fun x y => w (b01 (x == y))) e s) s
/-- BT, R95: transfer if p[a][0] is 1. -/
def execBt (e : Enc) (s : State) : Out State :=
  issue (.bt e) {} (fun _ e s => branch true e s) s
/-- BF, R95: transfer if p[a][0] is 0. -/
def execBf (e : Enc) (s : State) : Out State :=
  issue (.bf e) {} (fun _ e s => branch false e s) s
/-- J, R95. -/
def execJ (e : Enc) (s : State) : Out State :=
  issue (.j e) {} (fun _ e s => transfer e none (relTarget e .j s.me.pc) s) s
/-- JAL, R95: lr receives NPC. -/
def execJal (e : Enc) (s : State) : Out State :=
  issue (.jal e) {} (fun _ e s => transfer e (some 31) (relTarget e .j s.me.pc) s) s
/-- JR, R96. -/
def execJr (e : Enc) (s : State) : Out State :=
  issue (.jr e) {} (fun _ e s => transfer e none (s.me.g e.b) s) s
/-- JALR, R96: the target is read before the link is written. -/
def execJalr (e : Enc) (s : State) : Out State :=
  issue (.jalr e) {} (fun _ e s => transfer e (some e.a) (s.me.g e.b) s) s
/-- RET, R96: transfer to lr. -/
def execRet (e : Enc) (s : State) : Out State :=
  issue (.ret e) {} (fun _ e s => transfer e none (s.me.g 31) s) s
/-- LEA, R86: g[b] + (g[c] shifted left by f). -/
def execLea (e : Enc) (s : State) : Out State :=
  issue (.lea e) {} (fun _ e s => ggg (fun x y => x + (y <<< e.f)) e s) s
/-- CSEL, R86: g[b] if bit 0 of p[f] is 1, else g[c]. -/
def execCsel (e : Enc) (s : State) : Out State :=
  issue (.csel e) {} (fun _ e s => .ok (s.modMe fun k => k.writeW e.L .g e.a (if (k.p e.f).getLsbD 0 then k.g e.b else k.g e.c))) s
/-- CMPEQ, R87. -/
def execCmpeq (e : Enc) (s : State) : Out State :=
  issue (.cmpeq e) {} (fun _ e s => pgg (· == ·) e s) s
/-- CMPNE, R87. -/
def execCmpne (e : Enc) (s : State) : Out State :=
  issue (.cmpne e) {} (fun _ e s => pgg (· != ·) e s) s
/-- CMPLT, R87. -/
def execCmplt (e : Enc) (s : State) : Out State :=
  issue (.cmplt e) {} (fun _ e s => pgg BitVec.slt e s) s
/-- CMPLTU, R87. -/
def execCmpltu (e : Enc) (s : State) : Out State :=
  issue (.cmpltu e) {} (fun _ e s => pgg BitVec.ult e s) s
/-- CMPIEQ, R87. -/
def execCmpieq (e : Enc) (s : State) : Out State :=
  issue (.cmpieq e) {} (fun _ e s => pgi (· == ·) e s) s
/-- CMPILT, R87. -/
def execCmpilt (e : Enc) (s : State) : Out State :=
  issue (.cmpilt e) {} (fun _ e s => pgi BitVec.slt e s) s
/-- MUL, R89. -/
def execMul (e : Enc) (s : State) : Out State :=
  issue (.mul e) {} (fun _ e s => ggg (· * ·) e s) s
/-- MULH, R89. -/
def execMulh (e : Enc) (s : State) : Out State :=
  issue (.mulh e) {} (fun _ e s => ggg mulhS e s) s
/-- MULHU, R89. -/
def execMulhu (e : Enc) (s : State) : Out State :=
  issue (.mulhu e) {} (fun _ e s => ggg mulhU e s) s
/-- DIV, R90. -/
def execDiv (e : Enc) (s : State) : Out State :=
  issue (.div e) {} (fun _ e s => ggg divS e s) s
/-- DIVU, R90. -/
def execDivu (e : Enc) (s : State) : Out State :=
  issue (.divu e) {} (fun _ e s => ggg divU e s) s
/-- REM, R90. -/
def execRem (e : Enc) (s : State) : Out State :=
  issue (.rem e) {} (fun _ e s => ggg remS e s) s
/-- REMU, R90. -/
def execRemu (e : Enc) (s : State) : Out State :=
  issue (.remu e) {} (fun _ e s => ggg remU e s) s
/-- MIN, R91. -/
def execMin (e : Enc) (s : State) : Out State :=
  issue (.min e) {} (fun _ e s => ggg (fun x y => if x.slt y then x else y) e s) s
/-- MAX, R91. -/
def execMax (e : Enc) (s : State) : Out State :=
  issue (.max e) {} (fun _ e s => ggg (fun x y => if x.slt y then y else x) e s) s
/-- MINU, R91. -/
def execMinu (e : Enc) (s : State) : Out State :=
  issue (.minu e) {} (fun _ e s => ggg (fun x y => if x.ult y then x else y) e s) s
/-- MAXU, R91. -/
def execMaxu (e : Enc) (s : State) : Out State :=
  issue (.maxu e) {} (fun _ e s => ggg (fun x y => if x.ult y then y else x) e s) s
/-- CLZ, R92. -/
def execClz (e : Enc) (s : State) : Out State :=
  issue (.clz e) {} (fun _ e s => gg (fun x => w (clz x)) e s) s
/-- CTZ, R92. -/
def execCtz (e : Enc) (s : State) : Out State :=
  issue (.ctz e) {} (fun _ e s => gg (fun x => w (ctz x)) e s) s
/-- POPC, R92. -/
def execPopc (e : Enc) (s : State) : Out State :=
  issue (.popc e) {} (fun _ e s => gg (fun x => w (popc x)) e s) s
/-- BREV, R92. -/
def execBrev (e : Enc) (s : State) : Out State :=
  issue (.brev e) {} (fun _ e s => gg brev e s) s
/-- BEXT, R93. -/
def execBext (e : Enc) (s : State) : Out State :=
  issue (.bext e) (specCk e) (fun _ e s => spec (fun x _ n => fieldOf x n) e s) s
/-- BEXTS, R93. -/
def execBexts (e : Enc) (s : State) : Out State :=
  issue (.bexts e) (specCk e) (fun _ e s => spec (fun x _ n => sextN (fieldOf x n) (n / 256)) e s) s
/-- BINS, R93. -/
def execBins (e : Enc) (s : State) : Out State :=
  issue (.bins e) (specCk e) (fun _ e s => spec (fun x old n => insField old x n) e s) s
/-- SEXT, R94. -/
def execSext (e : Enc) (s : State) : Out State :=
  issue (.sext e) {} (fun _ e s => gg (fun x => sextN x (widthOf e.f)) e s) s
/-- ZEXT, R94. -/
def execZext (e : Enc) (s : State) : Out State :=
  issue (.zext e) {} (fun _ e s => gg (fun x => zextN x (widthOf e.f)) e s) s
/-- PAND, R88. -/
def execPand (e : Enc) (s : State) : Out State :=
  issue (.pand e) {} (fun _ e s => ppp (· &&& ·) e s) s
/-- POR, R88. -/
def execPor (e : Enc) (s : State) : Out State :=
  issue (.por e) {} (fun _ e s => ppp (· ||| ·) e s) s
/-- PXOR, R88. -/
def execPxor (e : Enc) (s : State) : Out State :=
  issue (.pxor e) {} (fun _ e s => ppp (· ^^^ ·) e s) s
/-- PNOT, R88. -/
def execPnot (e : Enc) (s : State) : Out State :=
  issue (.pnot e) {} (fun _ e s => .ok (s.modMe fun k => k.writeW e.L .p e.a (~~~ k.p e.b))) s
/-- PFROMG, R88. -/
def execPfromg (e : Enc) (s : State) : Out State :=
  issue (.pfromg e) {} (fun _ e s => .ok (s.modMe fun k => k.writeW e.L .p e.a (k.g e.b))) s
/-- PTOG, R88. -/
def execPtog (e : Enc) (s : State) : Out State :=
  issue (.ptog e) {} (fun _ e s => gp (fun x => x) e s) s
/-- PCNT, R88. -/
def execPcnt (e : Enc) (s : State) : Out State :=
  issue (.pcnt e) {} (fun _ e s => gp (fun x => w (popc x)) e s) s
/-- PFIRST, R88. -/
def execPfirst (e : Enc) (s : State) : Out State :=
  issue (.pfirst e) {} (fun _ e s => gp (fun x => w (ctz x)) e s) s
/-- CYC, R99: the tile's cycle count. -/
def execCyc (e : Enc) (s : State) : Out State :=
  issue (.cyc e) {} (fun _ e s => .ok (s.modMe fun k => k.writeW e.L .g e.a s.here.cycle)) s
/-- LATRD, R100: LAT_LAST of the bank. -/
def execLatrd (e : Enc) (s : State) : Out State :=
  issue (.latrd e) {} (fun _ e s => .ok (s.modMe fun k => k.writeW e.L .g e.a k.cbank.lat)) s

end Sys2Proof.Machine
end

