-- ==== Sys2Proof/Machine/VQueue.lean ====
section
/-! DEFINITION. VECTOR_QUEUE_EXECUTE: a core's vector queue performs its oldest entry (R104, R106, R165, R227). -/

namespace Sys2Proof.Machine

/-- What reading a list of v registers as sources, in order, gives. -/
inductive Taken where
  | ok (l : List (V × List (Nat × W))) (s : State)
  | empty
  | gone (chan : Nat)
deriving DecidableEq, Repr

/-- R25: read sources in order, each popping its stream. -/
def takeAll (s : State) (c : CoreId) (l : List Nat) : Taken :=
  match l with
  | [] => .ok [] s
  | n :: r =>
    match takeV s c n with
    | .empty => .empty
    | .gone ch => .gone ch
    | .ok x m s =>
      match takeAll s c r with
      | .ok xs s => .ok ((x, m) :: xs) s
      | y => y

/-- The graph that a queued CX names; none where no lane of it is active. -/
def cxGraph (t : Tile) (q : VEntry) : Option Graph :=
  if q.slice < 4 then (vget t.slices q.slice).map fun r => graphOf r.image else none

/-- R104, R165: the computation of an entry. -/
def entryRun (t : Tile) (q : VEntry) (b c a a1 : V) (fp : Fp) : VRun :=
  match q.i with
  | .cxOneSource _ | .cxTwoSources _ | .cxThreeSources _ =>
    match cxGraph t q with
    | none => { fp := fp }
    | some g =>
      let (x, fp) := cxRun g q.p b c a fp
      { v := some x, fp := fp }
  | _ => vcompute q b c a a1 fp
/-- The words of b, c and a that an entry consumes. -/
def entryUsed (t : Tile) (q : VEntry) (c : V) : List Nat × List Nat × List Nat :=
  match q.i with
  | .cxOneSource _ | .cxTwoSources _ | .cxThreeSources _ =>
    match cxGraph t q with
    | none => ([], [], [])
    | some g =>
      let wd := if g.wide then 16 else 32
      let l := wordsOf wd (512 / wd) fun i => q.p.getLsbD i
      (l, l, if g.nsrc = 3 then l else [])
  | _ => vused q c
/-- Word j of the destination is wholly replaced. -/
def entryWhole (t : Tile) (q : VEntry) (second : Bool) (j : Nat) : Bool :=
  match q.i with
  | .cxOneSource _ | .cxTwoSources _ | .cxThreeSources _ =>
    match cxGraph t q with
    | none => false
    | some g =>
      let wd := if g.wide then 16 else 32
      (List.range (64 / wd)).all fun i => q.p.getLsbD (64 / wd * j + i)
  | _ => vwhole q second j

/-- Some lane of v[a] (of v[a + 1], `second`) is written. -/
def entryWrites (t : Tile) (q : VEntry) (second : Bool) : Bool :=
  match q.i with
  | .cxOneSource _ | .cxTwoSources _ | .cxThreeSources _ =>
    (cxGraph t q).any fun g => anyActive q.p (if g.wide then 32 else 16)
  | _ => vwrites q second

/-- The first of some words that carries poison. -/
def firstBad (marks : List (Nat × W)) (l : List Nat) : Option W := l.findSome? (lookup marks)

/-- R104: the results of an entry reach the core: its register results under their windows, flags and LFSR. A register of which no lane
is written keeps the results still to come to it (R37); a write of some lanes discards them, and the others stay as they were before
(log 77). -/
def writeRun (t : Tile) (q : VEntry) (e : Enc) (r : VRun) (k : Core) : Core :=
  let keep := fun (n : Nat) (second : Bool) => (k.vmarks n).filter fun m => !entryWhole t q second m.1
  let put := fun (k : Core) (n : Nat) (x : Option V) (second : Bool) =>
    match x with
    | some x => if entryWrites t q second then k.writeAt false q.pos e.L .v n x (keep n second) else k
    | none => k
  let k' := put (put k e.a r.v false) (e.a + 1) r.v2 true
  let k' := match q.out, r.r with
    | some id, some x => k'.deliver id (x.setWidth 512) []
    | _, _ => k'
  { k' with ctl := { k'.ctl with seed := w r.fp.seed, fpFlags := k'.ctl.fpFlags ||| w r.fp.flags } }

/-- A trap that the vector unit found waits for the core's boundary (R106; log 17: it aborts the low activation that runs then). -/
def vtrap (s : State) (c : CoreId) (q : VEntry) (cause : Nat) (d : W) : State :=
  s.modCore c fun k => { k with ptrap := some ⟨cause, d, q.pc, 0, false⟩ }

/-- R104: perform one entry: it waits while a stream it reads is empty; a poisoned lane it consumes traps, and so does a stream whose
ring is disabled (R227). DETAIL names the first poisoned word in the order of log 106. -/
def perform (s : State) (c : CoreId) (q : VEntry) (e : Enc) : State :=
  let s1 := s.modCore c fun k => k.settleV (some q.pos)
  match takeAll s1 c (queuedSources q.i) with
  | .empty => s
  | .gone ch => vtrap (s1.modCore c fun k => { k with vq := k.vq.drop 1 }) c q 0x10 (w ch)
  | .ok srcs s2 =>
    let s2 := s2.modCore c fun k => { k with vq := k.vq.drop 1 }
    let k := s2.core c
    let t := s2.tile c.site
    let b := srcs.getD 0 (0, [])
    let x := srcs.getD 1 (0, [])
    let u := entryUsed t q x.1
    match (firstBad b.2 u.1 <|> firstBad x.2 u.2.1) <|> firstBad (k.vmarks e.a) u.2.2 with
    | some d => vtrap s2 c q 0x19 d
    | none =>
      let r := entryRun t q b.1 x.1 (vget k.v e.a) (vget k.v (e.a + 1)) (Fp.of e.mod q.fpMode k.ctl.seed)
      s2.modCore c (writeRun t q e r)

/-! ### Arbitration (R265) -/

/-- The head of a core's vector queue waits for a lane group, and a CX for its slice: there is one, no trap of an earlier instruction
waits for its boundary, and the streams that it reads have an entry. -/
def headWaits (s : State) (c : CoreId) : Bool :=
  let k := s.core c
  match k.vq with
  | [] => false
  | q :: _ => k.ptrap.isNone && (match takeAll (s.modCore c fun k => k.settleV (some q.pos)) c (queuedSources q.i) with
    | .empty => false
    | _ => true)
/-- R265: of the waiting heads of a tile, the one whose core has the largest deficit, the lowest core kind among equals. -/
def laneWinner (s : State) (t : Site) : Option CoreKind :=
  let l := kinds.filter fun k => headWaits s ⟨t, k⟩
  l.find? fun k => l.all fun j => decide ((s.core ⟨t, j⟩).deficit ≤ (s.core ⟨t, k⟩).deficit)
/-- R265: a unit cycle goes to a core: the deficit of each core with a head waiting is refilled by its weight, and the core served pays
what was refilled (log 79). -/
def chargeLane (s : State) (c : CoreId) : State :=
  let l := kinds.filter fun k => headWaits s ⟨c.site, k⟩
  let weight := fun (k : CoreKind) => (s.core ⟨c.site, k⟩).ctl.varbWeight.toNat
  let paid := (l.map weight).sum
  l.foldl (fun s k => s.modCore ⟨c.site, k⟩ fun x =>
    { x with deficit := x.deficit + weight k - (if k = c.kind then paid else 0) }) s

/-- VECTOR_QUEUE_EXECUTE, R104: the head that the arbitration serves is performed. -/
def execVectorQueueExecute (c : CoreId) (s : State) : Out State :=
  .next (if laneWinner s c.site ≠ some c.kind then s
    else
      let s := chargeLane s c
      let k := s.core c
      match k.vq with
      | [] => s
      | q :: _ =>
        match q.i with
        | .vsbind e => settleRing (s.modCore c fun k => { (bindStream k (e.a - 12) q.x.toNat) with vq := k.vq.drop 1 }) c q.x.toNat
        | .vsunbind e => s.modCore c fun k => { (unbindStream k (e.a - 12)) with vq := k.vq.drop 1 }
        | i => match encOf i with
          | some e => perform s c q e
          | none => s)

end Sys2Proof.Machine
end

