-- ==== Sys2Proof/Machine/Wafer.lean ====
section
/-! DEFINITION. Power-on, sites that fail, routing bundles, the scrubber, and the links (R388 to R406, R360). -/

namespace Sys2Proof.Machine

/-! ### Power-on (R388, R389, R405, R406) -/

/-- R405: the checks of one stage. -/
def stageOk (f : FwStage) : Bool :=
  sha3_512 f.pubKey == Config.fusedDigest && mlVerify f.pubKey [] (sha3_512 f.image) f.signature && decide (Config.fuseCounter ≤ f.version)
/-- The first stage that fails, counted from `i`. -/
def badStage (i : Nat) (l : List FwStage) : Option Nat :=
  match l with
  | [] => none
  | f :: r => if stageOk f then badStage (i + 1) r else some i
/-- R389: fewer tiles work than the shipped floor, or the whole-grid chain is smaller than 120 by 112. -/
def belowFloor (s : State) : Bool :=
  decide (s.working < Config.floorTiles) || match chainGeom s 0 0 with
    | some g => decide (g.cols.length < 120 ∨ g.rows.length < 112)
    | none => true
/-- R406: what registers 0 to 3 measure of the stages that have booted, the first stage's firmware first and the island operating system
second (log 62): their digests, and for register 2 the route-signing key. -/
def bootParts (fw : List FwStage) (n : Nat) : List (List Byte) :=
  match n with
  | 0 => (fw.take 1).map fun f => sha3_512 f.image
  | 1 => ((fw.drop 1).take 1).map fun f => sha3_512 f.image
  | 2 => [Config.routeKey]
  | _ => (fw.drop 2).map fun f => sha3_512 f.image
/-- R406: the island operating system supplies a value for one of registers 6 to 15. -/
def measure (s : State) (n : Nat) (d : BitVec 512) : State := if 6 ≤ n ∧ n ≤ 15 then extend s n d else s
/-- What power-on leaves: what is outside the wafer. -/
def powered (s : State) : State :=
  { State.reset with moves := s.moves, fresh := s.fresh, reports := s.reports, hostMem := s.hostMem, storage := s.storage }
/-- POWER_ON: sites that the fuses record or that fail self-test are dead; the firmware is checked and measured. -/
def execPowerOn (fused failed : List Site) (fw : List FwStage) (key : BitVec 256) (s : State) : Out State :=
  .next (let s := { powered s with dead := (fused ++ failed).eraseDups.filter fun t => decide (t.x < 126 ∧ t.y < 126) }
    match (if fw.isEmpty then some 0 else badStage 0 fw) with
    | some i => { s with reports := s.reports ++ [Report.bootStopped i] }
    | none =>
      let s := { s with booted := true, floorFail := belowFloor s, fwVersion := (fw.head?.map (·.version)).getD 0, serviceKey := key }
      let s := (List.range 4).foldl (fun s n => extend s n (Config.bootDigest n (bootParts fw n))) s
      extend s 4 (Config.mapDigest (s.dead.map fun t => (t.x, t.y))))

/-! ### Sites that fail in service (R390) -/

/-- The tiles whose chain's rectangle contains a site. -/
def chainsOver (s : State) (t : Site) : List Site :=
  (s.tiles.filter fun z => z.2.chain.state != 0 && inVdev s z.2.vni t && (match chainRect s z.2.vni z.2.chain.desc with
    | some r => let p := s.coords z.2.vni t; r.has p.1 p.2
    | none => false)).map fun z => siteOf z.1
/-- R353, R390: the packets of a site that has failed are gone, and what was sent to it returns. -/
def losePackets (s : State) (t : Site) : State :=
  { s with pkts := (s.pkts.filter fun p => (p.src.site != t || isReply p.body) && !(p.dst == t && isReply p.body)).map fun p =>
      if p.state = 0 ∧ p.dst = t ∧ p.to_ = .tile then { p with state := 2 } else p }
/-- A tile after the failure of a site: no window onto it, and no move to or from it. -/
def forgetSite (t : Site) (vni name : Nat) (x : Tile) : Tile :=
  if x.fwd = some t then resetTile x
  else { x with cluster := if x.bound && x.vni == vni then x.cluster.filter (·.2 != name) else x.cluster
                viaOnly := if x.viaOnly = some t then none else x.viaOnly }
/-- R390: the launches of the placements that have a tile bound are to be torn down. -/
def doom (s : State) (vni name : Nat) : State :=
  { s with launches := mapIf s.launches (fun l => (s.placeOf l).any fun p =>
      p.admitted == some l.ctx && !p.swapped && p.vni == vni && p.clusters.any fun cl => cl.any (·.1 == name)) fun l => { l with doomed := true } }
/-- R390: a site becomes a hole. -/
def failSite (s : State) (t : Site) : State :=
  if s.gone t then s
  else
    let x := s.tile t
    let s := if x.bound && s.siteOfName x.vni x.name == some t then doom s x.vni x.name else s
    let s := modChains s (chainsOver s t) Chain.break'
    let s := park s t
    let lost := s.engines.filter fun e => e.site == t && e.away.isNone
    let s := { lost.foldl (fun s e => unwait s (ofEngine e.num)) s with
                      engines := s.engines.filter fun e => !lost.contains e
                      regions := s.regions.map fun r => { r with revoking := r.revoking.filter fun c => c.site != t, late := r.late.filter (· != t) } }
    let gone := fun (s : State) => xonSweep ((losePackets { s with holes := s.holes ++ [t] } t).modTile t resetTile)
    if !x.bound then gone s
    else
      let s := rebind s x.vni fun s => setNames (gone s) x.vni fun l => l.filter (·.2 != t)
      { s with tiles := s.tiles.map fun z => (z.1, forgetSite t x.vni x.name z.2) }
/-- SITE_FAILURE. -/
def execSiteFailure (t : Site) (s : State) : Out State := .next (if t.x < 126 ∧ t.y < 126 then failSite s t else s)
/-- R396: a router declared dead; what stands at it goes back, and its tile is a hole. -/
def routerDies (s : State) (t : Site) : State :=
  let s := s.modTile t fun x => { x with router := { x.router with dead := true } }
  failSite ((s.pkts.filter fun p => p.state = 0 ∧ p.at_ = t ∧ p.to_ = .tile ∧ p.dst ≠ t).foldl bounce s) t

/-! ### Routing bundles (R393 to R396) -/

/-- A little-endian field of a bundle. -/
def lget (b : List Byte) (o n : Nat) : Nat := leNat ((b.drop o).take n)
/-- The parts of a header: VNIs, and the offset of the records and of the signature. -/
def hVnis (h : List Byte) : Nat := lget h 0x12 2
def hSecs (h : List Byte) : Nat := lget h 0x10 2
def hRecs (h : List Byte) : Nat := 0x18 + roundUp (2 * hVnis h) 8
def hSig (h : List Byte) : Nat := hRecs h + 72 * hSecs h
def hEpoch (h : List Byte) : Nat := lget h 8 8
/-- "MW9ROUTE". -/
def routeContext : List Byte := [0x4D, 0x57, 0x39, 0x52, 0x4F, 0x55, 0x54, 0x45]
/-- X and Y of a router word. -/
def isAt (t : Site) (x : Nat) : Bool := bits x 0 7 == t.x && bits x 7 7 == t.y
/-- The header's record for a router: its digest. -/
def recordOf (h : List Byte) (t : Site) : Option (List Byte) :=
  ((List.range (hSecs h)).find? fun i => isAt t (lget h (hRecs h + 72 * i) 8)).map fun i => (h.drop (hRecs h + 72 * i + 8)).take 64
/-- The VNIs and the routers that a header lists. -/
def headVnis (h : List Byte) : List Nat := (List.range (hVnis h)).map fun i => lget h (0x18 + 2 * i) 2
def headRouters (h : List Byte) : List Site :=
  (List.range (hSecs h)).map fun i => let x := lget h (hRecs h + 72 * i) 8; ⟨bits x 0 7, bits x 7 7⟩
/-- Every field of the header is in range and its zero fields are zero. -/
def headerOk (h : List Byte) : Bool :=
  lget h 0 2 == 0x5254 && lget h 2 1 == 1 && lget h 3 5 == 0 && decide (1 ≤ hSecs h ∧ hSecs h ≤ 16384) && decide (1 ≤ hVnis h ∧ hVnis h ≤ 4095)
    && lget h 0x14 4 == 0 && ((h.drop (0x18 + 2 * hVnis h)).take (hRecs h - (0x18 + 2 * hVnis h))).all (· == 0)
    && ((List.range (hSecs h)).all fun i => lget h (hRecs h + 72 * i) 8 / 2 ^ 14 == 0)
    && ((List.range (hVnis h)).all fun i => let v := lget h (0x18 + 2 * i) 2; decide (1 ≤ v ∧ v ≤ 4095))
    && decide (h.length = hSig h + 4627)
/-- The entries of a section. -/
def sectEntries (b : List Byte) : List W := (List.range (lget b 0 8 / 2 ^ 16)).map fun i => w (lget b (8 + 8 * i) 8)
/-- An entry's fields are in range. -/
def entryOk (e : W) : Bool :=
  W.bits e 37 27 == 0 && decide (W.bits e 0 7 ≤ W.bits e 7 7 ∧ W.bits e 7 7 < 126) && decide (W.bits e 14 7 ≤ W.bits e 21 7 ∧ W.bits e 21 7 < 126)
    && deMask e != 0 && decide (1 ≤ deOut e ∧ deOut e ≤ 4)
/-- A section's fields are in range. -/
def sectOk (t : Site) (b : List Byte) : Bool :=
  let x := lget b 0 8
  isAt t x && bits x 14 2 == 0 && decide (x / 2 ^ 16 ≤ 64) && decide (b.length = 8 + 8 * (x / 2 ^ 16)) && (sectEntries b).all entryOk
/-- R263, R394: the turn from travelling in direction `i` to `o` in a column; 0 is injected here. -/
def turnOk (col i o : Nat) : Bool :=
  if i = 0 then true
  else if (i = 1 ∧ o = 3) ∨ (i = 3 ∧ o = 1) ∨ (i = 2 ∧ o = 4) ∨ (i = 4 ∧ o = 2) then false
  else if i = 1 ∧ (o = 2 ∨ o = 4) then decide (col % 2 = 1)
  else if (i = 2 ∨ i = 4) ∧ o = 3 then decide (col % 2 = 0)
  else true
/-- Every turn of an entry is legal. -/
def entryTurns (col : Nat) (e : W) : Bool := (List.range 5).all fun i => !(deMask e).testBit i || turnOk col i (deOut e)
/-- R394: the bank that no bound region's VNI selects, true for bank 1; none while both are selected. -/
def idleBank (s : State) (r : Router) : Option Bool :=
  if s.regions.all fun v => !r.sel.contains v.vni then some true
  else if s.regions.all fun v => r.sel.contains v.vni then some false
  else none
/-- R394: the first check that fails; 0 where none does. -/
def stageReason (s : State) (t : Site) (r : Router) (bank1 : Bool) (h b : List Byte) : Nat :=
  if !mlVerify Config.routeKey routeContext (h.take (hSig h)) (h.drop (hSig h)) then 1
  else if hEpoch h ≤ (if bank1 then r.epoch0 else r.epoch1) then 2
  else if recordOf h t ≠ some (sha3_512 b) then 3
  else if !headerOk h || !sectOk t b then 4
  else if !(sectEntries b).all (entryTurns t.x) then 5
  else if (sectEntries b).any fun e => (neighbour t (deOut e)).isNone || s.planeDown 0 t (deOut e) || s.planeDown 1 t (deOut e) then 6
  else 0
/-- A router's idle bank filled. -/
def Router.setBank (r : Router) (bank1 : Bool) (epoch : Nat) (l : List W) : Router :=
  if bank1 then { r with epoch1 := epoch, bank1 := l } else { r with epoch0 := epoch, bank0 := l }
/-- ROUTE_BUNDLE_STAGE, R394, R396. -/
def execRouteBundleStage (t : Site) (header sect : List Byte) (s : State) : Out State :=
  .next (let r := (s.tile t).router
    match idleBank s r with
    | none => s
    | some b =>
      if r.dead || (r.staged && s.regions.any (·.stalled)) then s
      else
        let put := fun (s : State) (r : Router) => s.modTile t fun x => { x with router := r }
        match stageReason s t r b header sect with
        | 0 => put s { r.setBank b (hEpoch header) (sectEntries sect) with
                    staged := true, vnis := headVnis header, routers := headRouters header, fails := 0 }
        | n =>
          let s := put { s with reports := s.reports ++ [Report.stageFailed t n] } { r.setBank b 0 [] with staged := false, fails := r.fails + 1 }
          if r.fails + 1 < 3 then s else routerDies s t)
/-- A router that works holds in its idle bank the bundle of an epoch, whose header lists some VNIs and routers. -/
def stagedWith (s : State) (r : Router) (epoch : Nat) (vnis : List Nat) (routers : List Site) : Bool :=
  r.staged && !r.dead && r.vnis == vnis && r.routers == routers && match idleBank s r with
    | some b => (if b then r.epoch1 else r.epoch0) == epoch
    | none => false
/-- R395: the VNIs of a bundle select the bank that holds it, bank 1 where `bank1`. -/
def Router.flip (r : Router) (bank1 : Bool) (vnis : List Nat) : Router :=
  let rest := r.sel.filter fun v => !vnis.contains v
  { r with staged := false, sel := if bank1 then rest ++ vnis else rest }
/-- The regions of a list of VNIs stall or go on. -/
def stallAll (s : State) (vnis : List Nat) (b : Bool) : State :=
  { s with regions := mapIf s.regions (fun r => vnis.contains r.vni) fun r => { r with stalled := b } }
/-- ROUTE_FLIP, R360, R395: of the bundle whose header lists these VNIs and routers, and only when every listed router has staged it; the
regions' injections stall until no packet of theirs is held, and then the banks flip together. -/
def execRouteFlip (epoch : Nat) (vnis : List Nat) (routers : List Site) (s : State) : Out State :=
  .next (if !(routers.any fun t => (s.tile t).router.vnis == vnis && (s.tile t).router.routers == routers) then s
    else if !(routers.all fun t => stagedWith s (s.tile t).router epoch vnis routers) then stallAll s vnis false
    else if s.regions.any fun r => vnis.contains r.vni && !r.stalled then stallAll s vnis true
    else if s.pkts.any fun p => vnis.contains p.vni then s
    else stallAll (routers.eraseDups.foldl (fun s t => s.modTile t fun x => { x with router := x.router.flip ((idleBank s x.router).getD false) vnis }) s) vnis false)

/-! ### The scrubber (R397, R400) -/

/-- The bytes of tile memory, and of the data, scale and metadata planes and the accumulator slots. -/
def scrubSize (plane : Nat) : Nat := [0x00300000, 0x6000, 0x1800, 0x6000, 0x18000].getD plane 0
/-- A word of tile memory (plane 0) or of a matrix plane poisoned. -/
def scrubPoison (t : Tile) (plane a : Nat) : Tile :=
  if plane = 0 then t.poisonAt [a]
  else
    let bad := (List.range 8).map fun i => (plane - 1, a + i, w a)
    { t with mpoison := (t.mpoison.filter fun y => !(y.1 == plane - 1 && decide (a ≤ y.2.1 ∧ y.2.1 < a + 8))) ++ bad }
/-- There is such a word at a site. A spare site that no row uses is powered down (R9). -/
def hasWord (s : State) (t : Site) (plane a : Nat) : Bool := !s.gone t && (logOf s.dead t).isSome && decide (a < scrubSize plane)
/-- R397: a read finds an error in a word: one bit is corrected and counted, two poison the word. -/
def readError (s : State) (t : Site) (plane addr : Nat) (double : Bool) : State :=
  let a := addr / 8 * 8
  if !hasWord s t plane a then s
  else s.modTile t fun x => if double then scrubPoison x plane a else { x with eccCount := x.eccCount + 1 }
/-- SCRUB_PASS: the scrubber's read of a word finds an error; what it poisons it also reports, and records against the flow core. -/
def execScrubPass (t : Site) (plane addr : Nat) (double : Bool) (s : State) : Out State :=
  .next (let a := addr / 8 * 8
    let s1 := readError s t plane addr double
    if !double || !hasWord s t plane a then s1
    else { s1 with reports := s.reports ++ [Report.poison t a] }.modCore ⟨t, .flow⟩ fun k => k.recordAsync 0x19 (w a))
/-- R399: the number of a register file in DETAIL, and the registers of it that hold a value and their 64-bit words. -/
def fileOf (f : RFile) : Option (Nat × Nat × Nat × Nat) :=
  match f with
  | .g => some (0, 1, 32, 1)
  | .p => some (1, 1, 8, 1)
  | .v => some (2, 0, 16, 8)
  | .c => some (3, 0, 16, 2)
  | .q => some (4, 0, 4, 2)
  | _ => none
/-- R399: a bit error in a register: one bit is corrected, two poison the register. -/
def registerError (s : State) (c : CoreId) (f : RFile) (hi : Bool) (n : Nat) (double : Bool) : State :=
  match fileOf f with
  | none => s
  | some (code, lo, cnt, words) =>
    if !double || n < lo || cnt ≤ n || s.gone c.site || (logOf s.dead c.site).isNone then s
    else s.modCore c fun k =>
      let h := isBanked f && hi
      { k with regPoison := k.regPoison.filter (fun r => !(r.file == f && r.hi == h && r.num == n)) ++
          (List.range words).map fun i => ⟨f, h, n, i, w (0x80000000000000 + 0x100 * code + n)⟩ }
/-- R400: an uncorrectable word of edge memory. -/
def edgeError (s : State) (addr : Nat) : State := if addr < edgeEnd then s.epoison (addr / 8 * 8, false) [0] else s

/-! ### Links (R401 to R404) -/

/-- The plane of a link by number: 0 packet, 1 circuit, 2 neighbour operands, 3 the Aster tree (R14). -/
def planeOf (n : Nat) : Nat := Nat.min (n / 31752) 3
/-- The two ends of a link between tiles. -/
def linkEnds (n : Nat) : Option (Site × Site) :=
  let a := siteOf (n % 31752 / 2)
  if planeOf n < 3 then (neighbour a (n % 2 + 1)).map fun b => (a, b) else none
/-- R402: the island whose node a tree link leads upward from: the two links of each node but the root's (R11, log 86). -/
def treeLinkOf (n : Nat) : Option Nat :=
  let i := (n - 3 * 31752) / 2
  if planeOf n = 3 ∧ i < 64 ∧ i ≠ rootIsland then some i else none
/-- R396: every link of a router is down, on both mesh planes. -/
def allDown (s : State) (t : Site) : Bool :=
  [1, 2, 3, 4].all fun d => (neighbour t d).isNone
    || (s.link (planeLink 0 (linkNo t d))).down && (s.link (planeLink 1 (linkNo t d))).down
/-- Two routers stand next to each other in a circuit. -/
def adjacent (a b : Nat) (l : List Nat) : Bool := (l.zip (l.drop 1)).any fun x => x == (a, b) || x == (b, a)
/-- R402: the exchanges with a grant still to come whose circuit crosses a link are planned again. -/
def replanOver (s : State) (a b : Nat) : State :=
  { s with exchs := s.exchs.map fun x =>
      if x.planned && x.grants.any fun g => !g.done && adjacent a b g.via then takeOver x x.serving x.hasStandby else x }
/-- R402: the members below a tree link: those whose home island is that of its node. -/
def belowLink (island : Nat) (l : List CoreId) : List Nat :=
  (List.range l.length).filter fun r => ((l[r]?).map fun c => homeNum c.site) == some island
/-- R402: the instances and barrier generations with a contribution lost on a tree link abort with cause TIMEOUT, naming the lowest rank below
it; which contributions on their way were lost is free. -/
def treeLoses (s : State) (island : Nat) : State :=
  let fate := fun (s : State) => (Config.freeBit s.fresh, { s with fresh := s.fresh + 1 })
  let s := s.insts.foldl (fun s x =>
    match (belowLink island x.members).head? with
    | none => s
    | some r =>
      if (belowLink island x.members).any fun r => !(x.contrib.getD r []).isEmpty then
        let (lost, s) := fate s
        if lost then rootAbort s x 1 r else s
      else s) s
  s.barGens.foldl (fun s b =>
    match (belowLink island b.members).head? with
    | none => s
    | some r =>
      if b.status.isNone && (belowLink island b.members).any fun r => (b.members[r]?).any b.arrived.contains then
        let (lost, s) := fate s
        if lost then overAll s b 1 r else s
      else s) s
/-- The upward tree links of an island's node, the first and the second. -/
def treeLink (island : Nat) (second : Bool) : Nat := 3 * 31752 + 2 * island + b01 second
/-- A tree link is the one that carries its node's traffic. -/
def treeCarries (s : State) (n : Nat) : Bool := (treeLinkOf n).any fun i => n == treeLink i (s.treeAlt.contains i)
/-- R402: a node's traffic moves to the other of its upward links, where that is up. -/
def treeMoves (s : State) (island : Nat) : State :=
  let second := s.treeAlt.contains island
  if (s.link (treeLink island (!second))).down then s
  else { s with treeAlt := if second then s.treeAlt.filter (· != island) else s.treeAlt ++ [island] }
/-- An instance or a barrier generation has a contribution in flight on the tree link that carries an island's traffic. -/
def treeBusy (s : State) (island : Nat) : Bool :=
  (s.insts.any fun x => !x.ended && x.state != 5 && x.state != 6 && (belowLink island x.members).any fun r => !(x.contrib.getD r []).isEmpty)
    || s.barGens.any fun b => b.status.isNone && (belowLink island b.members).any fun r => (b.members[r]?).any b.arrived.contains
/-- R403: a node takes its traffic back to its first upward link, which is up, at a moment when nothing is in flight on the second. -/
def treeReturns (s : State) (island : Nat) : State :=
  if (s.link (treeLink island false)).down || treeBusy s island then s else { s with treeAlt := s.treeAlt.filter (· != island) }
/-- R401, R402: a link is declared down and reported. On the circuit plane the exchanges over it are planned again; on the tree contributions
are lost; a chain over an operand link breaks (log 86). A router with no link left is dead. -/
def linkFails (s : State) (n : Nat) : State :=
  let l := s.link n
  let s := s.setLink { l with
    down := true, fore := { l.fore with replays := 0 }, back := { l.back with replays := 0 }, tries := 0, returned := false
    barred := l.barred || l.returned }
  let s := { s with reports := s.reports ++ [Report.linkDown n] }
  match linkEnds n with
  | none =>
    match treeLinkOf n with
    | some i => if treeCarries s n then treeMoves (treeLoses s i) i else s
    | none => s
  | some (a, b) =>
    let s := match planeOf n with
      | 1 => replanOver s (Site.num a) (Site.num b)
      | 2 => modChains s ((chainsOver s a).filter (chainsOver s b).contains) Chain.break'
      | _ => s
    let die := fun (s : State) (t : Site) => if allDown s t && !(s.tile t).router.dead then routerDies s t else s
    die (die s a) b
/-- R401: CRC-32C of a flit. -/
def crc32c (l : List Byte) : BitVec 32 := BitVec.ofNat 32 (crcBytes 0x82F63B78 0xFFFFFFFF l ^^^ 0xFFFFFFFF)
/-- The flits of one direction of a link. -/
def LinkSt.dir (l : LinkSt) (back : Bool) : LinkDir := if back then l.back else l.fore
def LinkSt.setDir (l : LinkSt) (back : Bool) (x : LinkDir) : LinkSt := if back then { l with back := x } else { l with fore := x }
/-- A flit's link, and whether it goes toward the link's lower end: the numbers from 131072 on are those of that direction (log 114). -/
def flitLink (n : Nat) : Nat × Bool := (n % 131072, decide (131072 ≤ n))
/-- FLIT_RECEIVE: a good flit in sequence is delivered; a ninth failure of one declares the link down. -/
def execFlitReceive (link seq : Nat) (bytes : List Byte) (crc : BitVec 32) (s : State) : Out State :=
  .next (let n := (flitLink link).1
    let back := (flitLink link).2
    if (linkEnds n).isNone && (treeLinkOf n).isNone then s
    else
      let l := s.link n
      let x := l.dir back
      if l.down then s
      else if crc32c bytes = crc ∧ seq = x.next then
        s.setLink (l.setDir back ⟨x.next + 1, 0, x.delivered ++ [bytes]⟩)
      else if x.replays < 8 then s.setLink (l.setDir back { x with replays := x.replays + 1 })
      else linkFails s n)
/-- LINK_RETRAIN, R403, R404: `waited` in milliseconds counts from the declaration, from the last try or, for a link that is up again,
from its return; `ok` says that training and self-test succeed at both ends. -/
def execLinkRetrain (link waited : Nat) (ok : Bool) (s : State) : Out State :=
  .next (if (linkEnds link).isNone && (treeLinkOf link).isNone then s
    else
      let l := s.link link
      if !l.down then (if l.returned && decide (1000 ≤ waited) then s.setLink { l with returned := false } else s)
      else if l.barred || (linkEnds link).any (fun x => (s.tile x.1).router.dead || (s.tile x.2).router.dead)
          || decide (waited < if l.tries = 0 then 100 else 10000) then s
      else if ok then
        let s := { s.setLink { l with down := false, tries := 0, returned := true } with reports := s.reports ++ [Report.linkUp link] }
        match treeLinkOf link with
        | some i => if (s.link (treeLink i (s.treeAlt.contains i))).down then treeMoves s i else s
        | none => s
      else s.setLink { l with tries := l.tries + 1 })

end Sys2Proof.Machine
end

