-- ==== Sys2Proof/Machine/Dispatch.lean ====
section
/-! DEFINITION. One arm for each constructor of `Instr`: a call of its meaning. -/

namespace Sys2Proof.Machine

/-- The meaning of a step of the module: each arm calls that of one row of spec/opcode_table.json. -/
def exec (i : Instr) (s : State) : Host.Outcome State Fault Refusal :=
    match i with
    | .add e => Sys2Proof.Machine.execAdd e s
    | .sub e => Sys2Proof.Machine.execSub e s
    | .and e => Sys2Proof.Machine.execAnd e s
    | .or e => Sys2Proof.Machine.execOr e s
    | .xor e => Sys2Proof.Machine.execXor e s
    | .sll e => Sys2Proof.Machine.execSll e s
    | .srl e => Sys2Proof.Machine.execSrl e s
    | .sra e => Sys2Proof.Machine.execSra e s
    | .addi e => Sys2Proof.Machine.execAddi e s
    | .andi e => Sys2Proof.Machine.execAndi e s
    | .ori e => Sys2Proof.Machine.execOri e s
    | .xori e => Sys2Proof.Machine.execXori e s
    | .slli e => Sys2Proof.Machine.execSlli e s
    | .srli e => Sys2Proof.Machine.execSrli e s
    | .srai e => Sys2Proof.Machine.execSrai e s
    | .li e => Sys2Proof.Machine.execLi e s
    | .lih e => Sys2Proof.Machine.execLih e s
    | .mov e => Sys2Proof.Machine.execMov e s
    | .slt e => Sys2Proof.Machine.execSlt e s
    | .sltu e => Sys2Proof.Machine.execSltu e s
    | .seq e => Sys2Proof.Machine.execSeq e s
    | .ld e => Sys2Proof.Machine.execLd e s
    | .ldn e => Sys2Proof.Machine.execLdn e s
    | .st e => Sys2Proof.Machine.execSt e s
    | .stn e => Sys2Proof.Machine.execStn e s
    | .bt e => Sys2Proof.Machine.execBt e s
    | .bf e => Sys2Proof.Machine.execBf e s
    | .j e => Sys2Proof.Machine.execJ e s
    | .jal e => Sys2Proof.Machine.execJal e s
    | .jr e => Sys2Proof.Machine.execJr e s
    | .jalr e => Sys2Proof.Machine.execJalr e s
    | .ret e => Sys2Proof.Machine.execRet e s
    | .done e => Sys2Proof.Machine.execDone e s
    | .halt e => Sys2Proof.Machine.execHalt e s
    | .requeue e => Sys2Proof.Machine.execRequeue e s
    | .brk e => Sys2Proof.Machine.execBrk e s
    | .send e => Sys2Proof.Machine.execSend e s
    | .sendf e => Sys2Proof.Machine.execSendf e s
    | .put e => Sys2Proof.Machine.execPut e s
    | .get e => Sys2Proof.Machine.execGet e s
    | .qrd e => Sys2Proof.Machine.execQrd e s
    | .qwr e => Sys2Proof.Machine.execQwr e s
    | .qtry e => Sys2Proof.Machine.execQtry e s
    | .qbind e => Sys2Proof.Machine.execQbind e s
    | .lea e => Sys2Proof.Machine.execLea e s
    | .cmpeq e => Sys2Proof.Machine.execCmpeq e s
    | .cmpne e => Sys2Proof.Machine.execCmpne e s
    | .cmplt e => Sys2Proof.Machine.execCmplt e s
    | .cmpltu e => Sys2Proof.Machine.execCmpltu e s
    | .cmpieq e => Sys2Proof.Machine.execCmpieq e s
    | .cmpilt e => Sys2Proof.Machine.execCmpilt e s
    | .csel e => Sys2Proof.Machine.execCsel e s
    | .seminc e => Sys2Proof.Machine.execSeminc e s
    | .semwait e => Sys2Proof.Machine.execSemwait e s
    | .semtry e => Sys2Proof.Machine.execSemtry e s
    | .semrd e => Sys2Proof.Machine.execSemrd e s
    | .fence e => Sys2Proof.Machine.execFence e s
    | .ifence e => Sys2Proof.Machine.execIfence e s
    | .cbsync e => Sys2Proof.Machine.execCbsync e s
    | .mul e => Sys2Proof.Machine.execMul e s
    | .mulh e => Sys2Proof.Machine.execMulh e s
    | .mulhu e => Sys2Proof.Machine.execMulhu e s
    | .div e => Sys2Proof.Machine.execDiv e s
    | .divu e => Sys2Proof.Machine.execDivu e s
    | .rem e => Sys2Proof.Machine.execRem e s
    | .remu e => Sys2Proof.Machine.execRemu e s
    | .min e => Sys2Proof.Machine.execMin e s
    | .max e => Sys2Proof.Machine.execMax e s
    | .minu e => Sys2Proof.Machine.execMinu e s
    | .maxu e => Sys2Proof.Machine.execMaxu e s
    | .clz e => Sys2Proof.Machine.execClz e s
    | .ctz e => Sys2Proof.Machine.execCtz e s
    | .popc e => Sys2Proof.Machine.execPopc e s
    | .brev e => Sys2Proof.Machine.execBrev e s
    | .bext e => Sys2Proof.Machine.execBext e s
    | .bexts e => Sys2Proof.Machine.execBexts e s
    | .bins e => Sys2Proof.Machine.execBins e s
    | .sext e => Sys2Proof.Machine.execSext e s
    | .zext e => Sys2Proof.Machine.execZext e s
    | .pand e => Sys2Proof.Machine.execPand e s
    | .por e => Sys2Proof.Machine.execPor e s
    | .pxor e => Sys2Proof.Machine.execPxor e s
    | .pnot e => Sys2Proof.Machine.execPnot e s
    | .pfromg e => Sys2Proof.Machine.execPfromg e s
    | .ptog e => Sys2Proof.Machine.execPtog e s
    | .pcnt e => Sys2Proof.Machine.execPcnt e s
    | .pfirst e => Sys2Proof.Machine.execPfirst e s
    | .amo e => Sys2Proof.Machine.execAmo e s
    | .amow e => Sys2Proof.Machine.execAmow e s
    | .cas e => Sys2Proof.Machine.execCas e s
    | .casw e => Sys2Proof.Machine.execCasw e s
    | .bop e => Sys2Proof.Machine.execBop e s
    | .bopw e => Sys2Proof.Machine.execBopw e s
    | .ramo e => Sys2Proof.Machine.execRamo e s
    | .ramow e => Sys2Proof.Machine.execRamow e s
    | .tlrd e => Sys2Proof.Machine.execTlrd e s
    | .tlwait e => Sys2Proof.Machine.execTlwait e s
    | .joinset e => Sys2Proof.Machine.execJoinset e s
    | .joinarr e => Sys2Proof.Machine.execJoinarr e s
    | .crrd e => Sys2Proof.Machine.execCrrd e s
    | .crwr e => Sys2Proof.Machine.execCrwr e s
    | .hmask e => Sys2Proof.Machine.execHmask e s
    | .hunmask e => Sys2Proof.Machine.execHunmask e s
    | .hret e => Sys2Proof.Machine.execHret e s
    | .cyc e => Sys2Proof.Machine.execCyc e s
    | .latrd e => Sys2Proof.Machine.execLatrd e s
    | .vadd e => Sys2Proof.Machine.execVadd e s
    | .vsub e => Sys2Proof.Machine.execVsub e s
    | .vmul e => Sys2Proof.Machine.execVmul e s
    | .vfma e => Sys2Proof.Machine.execVfma e s
    | .vfms e => Sys2Proof.Machine.execVfms e s
    | .vdiv e => Sys2Proof.Machine.execVdiv e s
    | .vsqrt e => Sys2Proof.Machine.execVsqrt e s
    | .vmin e => Sys2Proof.Machine.execVmin e s
    | .vmax e => Sys2Proof.Machine.execVmax e s
    | .vabs e => Sys2Proof.Machine.execVabs e s
    | .vneg e => Sys2Proof.Machine.execVneg e s
    | .vand e => Sys2Proof.Machine.execVand e s
    | .vor e => Sys2Proof.Machine.execVor e s
    | .vxor e => Sys2Proof.Machine.execVxor e s
    | .vnot e => Sys2Proof.Machine.execVnot e s
    | .vshl e => Sys2Proof.Machine.execVshl e s
    | .vshr e => Sys2Proof.Machine.execVshr e s
    | .vsra e => Sys2Proof.Machine.execVsra e s
    | .vcmpeq e => Sys2Proof.Machine.execVcmpeq e s
    | .vcmpne e => Sys2Proof.Machine.execVcmpne e s
    | .vcmplt e => Sys2Proof.Machine.execVcmplt e s
    | .vcmple e => Sys2Proof.Machine.execVcmple e s
    | .vsel e => Sys2Proof.Machine.execVsel e s
    | .vcvt e => Sys2Proof.Machine.execVcvt e s
    | .vquant e => Sys2Proof.Machine.execVquant e s
    | .vdeq e => Sys2Proof.Machine.execVdeq e s
    | .vredsum e => Sys2Proof.Machine.execVredsum e s
    | .vredmax e => Sys2Proof.Machine.execVredmax e s
    | .vredmin e => Sys2Proof.Machine.execVredmin e s
    | .vredsumw e => Sys2Proof.Machine.execVredsumw e s
    | .vdot e => Sys2Proof.Machine.execVdot e s
    | .vdotc e => Sys2Proof.Machine.execVdotc e s
    | .vcmul e => Sys2Proof.Machine.execVcmul e s
    | .vcmulc e => Sys2Proof.Machine.execVcmulc e s
    | .vexp2 e => Sys2Proof.Machine.execVexp2 e s
    | .vlog2 e => Sys2Proof.Machine.execVlog2 e s
    | .vrcp e => Sys2Proof.Machine.execVrcp e s
    | .vrsq e => Sys2Proof.Machine.execVrsq e s
    | .vsinpi e => Sys2Proof.Machine.execVsinpi e s
    | .vcospi e => Sys2Proof.Machine.execVcospi e s
    | .viota e => Sys2Proof.Machine.execViota e s
    | .vbcast e => Sys2Proof.Machine.execVbcast e s
    | .vins e => Sys2Proof.Machine.execVins e s
    | .vextr e => Sys2Proof.Machine.execVextr e s
    | .vperm e => Sys2Proof.Machine.execVperm e s
    | .vslup e => Sys2Proof.Machine.execVslup e s
    | .vsldn e => Sys2Proof.Machine.execVsldn e s
    | .vsbind e => Sys2Proof.Machine.execVsbind e s
    | .vsunbind e => Sys2Proof.Machine.execVsunbind e s
    | .vmov e => Sys2Proof.Machine.execVmov e s
    | .vld e => Sys2Proof.Machine.execVld e s
    | .vst e => Sys2Proof.Machine.execVst e s
    | .vlds e => Sys2Proof.Machine.execVlds e s
    | .vsts e => Sys2Proof.Machine.execVsts e s
    | .vgath e => Sys2Proof.Machine.execVgath e s
    | .vscat e => Sys2Proof.Machine.execVscat e s
    | .vldb e => Sys2Proof.Machine.execVldb e s
    | .vbred e => Sys2Proof.Machine.execVbred e s
    | .vsend e => Sys2Proof.Machine.execVsend e s
    | .mcfg e => Sys2Proof.Machine.execMcfg e s
    | .mld e => Sys2Proof.Machine.execMld e s
    | .mldc e => Sys2Proof.Machine.execMldc e s
    | .mlds e => Sys2Proof.Machine.execMlds e s
    | .mldm e => Sys2Proof.Machine.execMldm e s
    | .mst e => Sys2Proof.Machine.execMst e s
    | .mstc e => Sys2Proof.Machine.execMstc e s
    | .mma e => Sys2Proof.Machine.execMma e s
    | .mmax e => Sys2Proof.Machine.execMmax e s
    | .mmas e => Sys2Proof.Machine.execMmas e s
    | .mmac e => Sys2Proof.Machine.execMmac e s
    | .zclr e => Sys2Proof.Machine.execZclr e s
    | .zld e => Sys2Proof.Machine.execZld e s
    | .zst e => Sys2Proof.Machine.execZst e s
    | .zout e => Sys2Proof.Machine.execZout e s
    | .mchjoin e => Sys2Proof.Machine.execMchjoin e s
    | .mchleave e => Sys2Proof.Machine.execMchleave e s
    | .mchmma e => Sys2Proof.Machine.execMchmma e s
    | .mchdim e => Sys2Proof.Machine.execMchdim e s
    | .mdep e => Sys2Proof.Machine.execMdep e s
    | .mwait e => Sys2Proof.Machine.execMwait e s
    | .mid e => Sys2Proof.Machine.execMid e s
    | .mfence e => Sys2Proof.Machine.execMfence e s
    | .mclaim e => Sys2Proof.Machine.execMclaim e s
    | .mrelease e => Sys2Proof.Machine.execMrelease e s
    | .mtr e => Sys2Proof.Machine.execMtr e s
    | .lload e => Sys2Proof.Machine.execLload e s
    | .lunload e => Sys2Proof.Machine.execLunload e s
    | .lquery e => Sys2Proof.Machine.execLquery e s
    | .lsave e => Sys2Proof.Machine.execLsave e s
    | .lrest e => Sys2Proof.Machine.execLrest e s
    | .cxOneSource e => Sys2Proof.Machine.execCxOneSource e s
    | .cxTwoSources e => Sys2Proof.Machine.execCxTwoSources e s
    | .cxThreeSources e => Sys2Proof.Machine.execCxThreeSources e s
    | .cbegin e => Sys2Proof.Machine.execCbegin e s
    | .cwait e => Sys2Proof.Machine.execCwait e s
    | .cabort e => Sys2Proof.Machine.execCabort e s
    | .cstat e => Sys2Proof.Machine.execCstat e s
    | .dpost e => Sys2Proof.Machine.execDpost e s
    | .xnext e => Sys2Proof.Machine.execXnext e s
    | .xend e => Sys2Proof.Machine.execXend e s
    | .xstat e => Sys2Proof.Machine.execXstat e s
    | .cpy e => Sys2Proof.Machine.execCpy e s
    | .cpy2d e => Sys2Proof.Machine.execCpy2d e s
    | .cpycan e => Sys2Proof.Machine.execCpycan e s
    | .bararr e => Sys2Proof.Machine.execBararr e s
    | .barwait e => Sys2Proof.Machine.execBarwait e s
    | .barsync e => Sys2Proof.Machine.execBarsync e s
    | .bartry e => Sys2Proof.Machine.execBartry e s
    | .capmov e => Sys2Proof.Machine.execCapmov e s
    | .caprest e => Sys2Proof.Machine.execCaprest e s
    | .capld e => Sys2Proof.Machine.execCapld e s
    | .capst e => Sys2Proof.Machine.execCapst e s
    | .capmint e => Sys2Proof.Machine.execCapmint e s
    | .capinfo e => Sys2Proof.Machine.execCapinfo e s
    | .caprevoke e => Sys2Proof.Machine.execCaprevoke e s
    | .wake e => Sys2Proof.Machine.execWake e s
    | .haltc e => Sys2Proof.Machine.execHaltc e s
    | .inspect e => Sys2Proof.Machine.execInspect e s
    | .trap e => Sys2Proof.Machine.execTrap e s
    | .ecall e => Sys2Proof.Machine.execEcall e s
    | .sretResume e => Sys2Proof.Machine.execSretResume e s
    | .sretRedeliver e => Sys2Proof.Machine.execSretRedeliver e s
    | .sretDrop e => Sys2Proof.Machine.execSretDrop e s
    | .sretHalt e => Sys2Proof.Machine.execSretHalt e s
    | .ovlret e => Sys2Proof.Machine.execOvlret e s
    | .ctxsave e => Sys2Proof.Machine.execCtxsave e s
    | .ctxload e => Sys2Proof.Machine.execCtxload e s
    | .xbound e => Sys2Proof.Machine.execXbound e s
    | .migr e => Sys2Proof.Machine.execMigr e s
    | .fpModeWrite v => Sys2Proof.Machine.execFpModeWrite v s
    | .fpFlagsClear v => Sys2Proof.Machine.execFpFlagsClear v s
    | .sroundSeedWrite v => Sys2Proof.Machine.execSroundSeedWrite v s
    | .codeWindowWrite upper v => Sys2Proof.Machine.execCodeWindowWrite upper v s
    | .mcfgRegisterWrite n v => Sys2Proof.Machine.execMcfgRegisterWrite n v s
    | .taskEntryWrite n v => Sys2Proof.Machine.execTaskEntryWrite n v s
    | .ringEnable n v => Sys2Proof.Machine.execRingEnable n v s
    | .ringDisable n v => Sys2Proof.Machine.execRingDisable n v s
    | .ringConsWrite n v => Sys2Proof.Machine.execRingConsWrite n v s
    | .engctxWrite n v => Sys2Proof.Machine.execEngctxWrite n v s
    | .vectorQueueExecute c => Sys2Proof.Machine.execVectorQueueExecute c s
    | .matrixCommandStart t => Sys2Proof.Machine.execMatrixCommandStart t s
    | .matrixCommandRetire t id => Sys2Proof.Machine.execMatrixCommandRetire t id s
    | .chainFormed t => Sys2Proof.Machine.execChainFormed t s
    | .overlayEntry addr => Sys2Proof.Machine.execOverlayEntry addr s
    | .bankRmw t idx => Sys2Proof.Machine.execBankRmw t idx s
    | .packetHop p waited => Sys2Proof.Machine.execPacketHop p waited s
    | .packetArrival p => Sys2Proof.Machine.execPacketArrival p s
    | .ackArrival p => Sys2Proof.Machine.execAckArrival p s
    | .unreachableReturn p => Sys2Proof.Machine.execUnreachableReturn p s
    | .reinjection p waited => Sys2Proof.Machine.execReinjection p waited s
    | .reservationLapse c chan waited => Sys2Proof.Machine.execReservationLapse c chan waited s
    | .putArrival p => Sys2Proof.Machine.execPutArrival p s
    | .getRequestArrival p => Sys2Proof.Machine.execGetRequestArrival p s
    | .getReplyArrival p => Sys2Proof.Machine.execGetReplyArrival p s
    | .ramoRequestArrival p => Sys2Proof.Machine.execRamoRequestArrival p s
    | .ramoResultArrival p => Sys2Proof.Machine.execRamoResultArrival p s
    | .clusterAccess p => Sys2Proof.Machine.execClusterAccess p s
    | .clusterAccessReply p => Sys2Proof.Machine.execClusterAccessReply p s
    | .handlerDispatch c => Sys2Proof.Machine.execHandlerDispatch c s
    | .hpPreemption c => Sys2Proof.Machine.execHpPreemption c s
    | .watchdog c => Sys2Proof.Machine.execWatchdog c s
    | .maskOverrun c => Sys2Proof.Machine.execMaskOverrun c s
    | .wakeRequest p => Sys2Proof.Machine.execWakeRequest p s
    | .haltcRequest p => Sys2Proof.Machine.execHaltcRequest p s
    | .inspectRequest p => Sys2Proof.Machine.execInspectRequest p s
    | .inspectReply p => Sys2Proof.Machine.execInspectReply p s
    | .engineOperationStart n => Sys2Proof.Machine.execEngineOperationStart n s
    | .engineBurst n => Sys2Proof.Machine.execEngineBurst n s
    | .translationResolved n pasid va pa len r w => Sys2Proof.Machine.execTranslationResolved n pasid va pa len r w s
    | .engineOperationComplete n => Sys2Proof.Machine.execEngineOperationComplete n s
    | .engineContextBind n pasid t slot count => Sys2Proof.Machine.execEngineContextBind n pasid t slot count s
    | .ownerTransferStart region fabric => Sys2Proof.Machine.execOwnerTransferStart region fabric s
    | .ownerTransferComplete region => Sys2Proof.Machine.execOwnerTransferComplete region s
    | .qdoorWrite ctx v => Sys2Proof.Machine.execQdoorWrite ctx v s
    | .qinfoVenWrite ctx ven => Sys2Proof.Machine.execQinfoVenWrite ctx ven s
    | .launchPacketTake ctx => Sys2Proof.Machine.execLaunchPacketTake ctx s
    | .placementAdmission ctx => Sys2Proof.Machine.execPlacementAdmission ctx s
    | .launchMessageDelivery ctx t => Sys2Proof.Machine.execLaunchMessageDelivery ctx t s
    | .launchMessageWrite c => Sys2Proof.Machine.execLaunchMessageWrite c s
    | .clusterLeave place cluster => Sys2Proof.Machine.execClusterLeave place cluster s
    | .launchStatusWord ctx t => Sys2Proof.Machine.execLaunchStatusWord ctx t s
    | .regionBind t vni name key prev => Sys2Proof.Machine.execRegionBind t vni name key prev s
    | .regionUnbind t => Sys2Proof.Machine.execRegionUnbind t s
    | .transitTableWrite t vni permit => Sys2Proof.Machine.execTransitTableWrite t vni permit s
    | .bindingMapWrite t name entry => Sys2Proof.Machine.execBindingMapWrite t name entry s
    | .quiescenceEvaluation vni threshold => Sys2Proof.Machine.execQuiescenceEvaluation vni threshold s
    | .trapDelivery c => Sys2Proof.Machine.execTrapDelivery c s
    | .islandTrapAnswer c mode status => Sys2Proof.Machine.execIslandTrapAnswer c mode status s
    | .asyncTrapTake c => Sys2Proof.Machine.execAsyncTrapTake c s
    | .placementTeardown place => Sys2Proof.Machine.execPlacementTeardown place s
    | .preemptionSwapOut place island => Sys2Proof.Machine.execPreemptionSwapOut place island s
    | .swapIn place sites => Sys2Proof.Machine.execSwapIn place sites s
    | .swappedTargetService p => Sys2Proof.Machine.execSwappedTargetService p s
    | .migration t d => Sys2Proof.Machine.execMigration t d s
    | .forwardingClosed t => Sys2Proof.Machine.execForwardingClosed t s
    | .collectiveJoinRequest cs => Sys2Proof.Machine.execCollectiveJoinRequest cs s
    | .collectiveJoinAnswer c => Sys2Proof.Machine.execCollectiveJoinAnswer c s
    | .collectiveResult vni group seq rank => Sys2Proof.Machine.execCollectiveResult vni group seq rank s
    | .rootJoinTimeout vni group seq waited => Sys2Proof.Machine.execRootJoinTimeout vni group seq waited s
    | .nodeTimeout vni group seq waited => Sys2Proof.Machine.execNodeTimeout vni group seq waited s
    | .collectiveAbortRequest c => Sys2Proof.Machine.execCollectiveAbortRequest c s
    | .abortReceipt vni group seq rank => Sys2Proof.Machine.execAbortReceipt vni group seq rank s
    | .barrierArrival c => Sys2Proof.Machine.execBarrierArrival c s
    | .demandPostReceipt c => Sys2Proof.Machine.execDemandPostReceipt c s
    | .dpostAnswer c => Sys2Proof.Machine.execDpostAnswer c s
    | .mainEndReport t => Sys2Proof.Machine.execMainEndReport t s
    | .labelAssign xid vdev => Sys2Proof.Machine.execLabelAssign xid vdev s
    | .calendarEntryDelivery xid vdev rank => Sys2Proof.Machine.execCalendarEntryDelivery xid vdev rank s
    | .exchangePhaseStart t => Sys2Proof.Machine.execExchangePhaseStart t s
    | .readyReceipt t => Sys2Proof.Machine.execReadyReceipt t s
    | .endMarkerArrival t => Sys2Proof.Machine.execEndMarkerArrival t s
    | .phaseCompletionReport t => Sys2Proof.Machine.execPhaseCompletionReport t s
    | .heartbeat xid vdev => Sys2Proof.Machine.execHeartbeat xid vdev s
    | .takeover xid vdev waited => Sys2Proof.Machine.execTakeover xid vdev waited s
    | .takeoverReceipt xid vdev rank => Sys2Proof.Machine.execTakeoverReceipt xid vdev rank s
    | .lostEntryWrite t => Sys2Proof.Machine.execLostEntryWrite t s
    | .frameReceive port frame fcs => Sys2Proof.Machine.execFrameReceive port frame fcs s
    | .xoffRepeat port rule waited => Sys2Proof.Machine.execXoffRepeat port rule waited s
    | .consumeWordReread port rule => Sys2Proof.Machine.execConsumeWordReread port rule s
    | .ingruleEnable port rule w0 cap w3 e0 e1 e2 => Sys2Proof.Machine.execIngruleEnable port rule w0 cap w3 e0 e1 e2 s
    | .peerPauseReceive port prio quanta => Sys2Proof.Machine.execPeerPauseReceive port prio quanta s
    | .egressTransmit port prio => Sys2Proof.Machine.execEgressTransmit port prio s
    | .linkTraining link asksCache => Sys2Proof.Machine.execLinkTraining link asksCache s
    | .keyChange vni k1 k2 => Sys2Proof.Machine.execKeyChange vni k1 k2 s
    | .caprevokeAnswer c => Sys2Proof.Machine.execCaprevokeAnswer c s
    | .ecallAnswer c => Sys2Proof.Machine.execEcallAnswer c s
    | .ecallVersion c => Sys2Proof.Machine.execEcallVersion c s
    | .ecallClockSet c => Sys2Proof.Machine.execEcallClockSet c s
    | .ecallClockGet c => Sys2Proof.Machine.execEcallClockGet c s
    | .ecallGateway c => Sys2Proof.Machine.execEcallGateway c s
    | .ecallStorage c => Sys2Proof.Machine.execEcallStorage c s
    | .ecallAttest c => Sys2Proof.Machine.execEcallAttest c s
    | .thermalThrottle field temp power => Sys2Proof.Machine.execThermalThrottle field temp power s
    | .thermalRecovery field temp waited => Sys2Proof.Machine.execThermalRecovery field temp waited s
    | .overtempHalt temp => Sys2Proof.Machine.execOvertempHalt temp s
    | .coolantLimitReport inlet flow => Sys2Proof.Machine.execCoolantLimitReport inlet flow s
    | .powerOn fused failed fw key => Sys2Proof.Machine.execPowerOn fused failed fw key s
    | .siteFailure t => Sys2Proof.Machine.execSiteFailure t s
    | .routeBundleStage t header sect => Sys2Proof.Machine.execRouteBundleStage t header sect s
    | .routeFlip epoch vnis routers => Sys2Proof.Machine.execRouteFlip epoch vnis routers s
    | .scrubPass t plane addr double => Sys2Proof.Machine.execScrubPass t plane addr double s
    | .flitReceive link seq bytes crc => Sys2Proof.Machine.execFlitReceive link seq bytes crc s
    | .linkRetrain link waited ok => Sys2Proof.Machine.execLinkRetrain link waited ok s
    | .cabortDecision c => Sys2Proof.Machine.execCabortDecision c s
    | .migrRequest c policy => Sys2Proof.Machine.execMigrRequest c policy s
    | .migrAnswer c => Sys2Proof.Machine.execMigrAnswer c s
    | .virtualDeviceBind vf x0 y0 cols rows vnis ctxs pasids engines quotas xquota => Sys2Proof.Machine.execVirtualDeviceBind vf x0 y0 cols rows vnis ctxs pasids engines quotas xquota s
    | .grantReport xid vdev rank => Sys2Proof.Machine.execGrantReport xid vdev rank s

end Sys2Proof.Machine
end

