-- ==== Sys2Proof/Machine/Outside.lean ====
section
/-! DEFINITION. What hosts, system software on the islands and management do to the module (R13, R182, R183, R255, R256, R298, R308, R316, R319
to R321, R325), and the choice of the next turn. -/

namespace Sys2Proof.Machine

/-! ### CXL.mem windows (R13, R183, R319) -/

/-- A range of edge memory lies in the window of a function. -/
def HostFn.reaches (f : HostFn) (addr len : Nat) : Bool := f.windows.any fun x => decide (x.1 ≤ addr ∧ addr + len ≤ x.1 + x.2)
/-- An access of a function through its window, one of the ISLAND side: none where it does not lie there; else whether it is performed, no
transfer having to come first. -/
def cxlAccess (s : State) (link fn addr len : Nat) : Option (Bool × State) :=
  if (s.func link fn).reaches addr len then some (access s (.host link fn addr) false (regionsOf (addr, false) len)) else none
/-- A host's read: what it answers. -/
def cxlRead (s : State) (link fn addr len : Nat) : State :=
  match cxlAccess s link fn addr len with
  | some (true, s) => { s with hostOut := s.hostOut ++ [(link, fn, s.ebytes (addr, false) len)] }
  | some (false, s) => s
  | none => s
/-- A host's write. -/
def cxlWrite (s : State) (link fn addr : Nat) (bytes : List Byte) : State :=
  match cxlAccess s link fn addr bytes.length with
  | some (true, s) => s.estore (addr, false) bytes
  | some (false, s) => s
  | none => s

/-! ### BAR 0 (R320, R321) -/

/-- The queue contexts of a function, in the order in which they were bound. -/
def State.fnCtxs (s : State) (link fn : Nat) : List QCtx := s.qctxs.filter fun q => q.link == link && q.fn == fn
/-- FNINFO, QINFO and QDOOR. -/
def fnInfo (s : State) (f : HostFn) : W :=
  w ((s.fnCtxs f.link f.fn).length % 2 ^ 14 + f.fn % 512 * 2 ^ 16 + f.link % 4 * 2 ^ 25)
def QCtx.info (q : QCtx) : W := w (q.k % 16 + q.vec % 2048 * 2 ^ 16 + b01 q.ven * 2 ^ 27)
def QCtx.door (q : QCtx) : W := w (q.tail.toNat + q.head.toNat * 2 ^ 16 + b01 q.err * 2 ^ 32)
/-- Where an 8-byte word of BAR 0 belongs. -/
inductive BarAt where
  | fnInfo
  | info (n : Nat)
  | door (n : Nat)
  | table (vec : Nat) (high : Bool)
  | pending (i : Nat)
  | reserved
deriving DecidableEq, Repr
/-- The layout of R321, by the number of the word. -/
def barAt (i : Nat) : BarAt :=
  if i = 0 then .fnInfo
  else if 0x2000 ≤ i ∧ i < 0x4000 then .info (i - 0x2000)
  else if 0x4000 ≤ i ∧ i < 0x6000 then .door (i - 0x4000)
  else if 0x6000 ≤ i ∧ i < 0x7000 then .table ((i - 0x6000) / 2) (i % 2 == 1)
  else if 0x7000 ≤ i ∧ i < 0x7020 then .pending (i - 0x7000)
  else .reserved
/-- A word of BAR 0 as it reads: zero for a context, a vector or an offset that is not there. -/
def bar0Word (s : State) (f : HostFn) (i : Nat) : W :=
  match barAt i with
  | .fnInfo => fnInfo s f
  | .info n => (((s.fnCtxs f.link f.fn)[n]?).map QCtx.info).getD 0
  | .door n => (((s.fnCtxs f.link f.fn)[n]?).map QCtx.door).getD 0
  | .table v high => if f.vectors ≤ v then 0 else if high then (f.entry v).2 else (f.entry v).1
  | .pending j => w (((List.range 64).map fun b => if f.pending.contains (64 * j + b) then 2 ^ b else 0).sum)
  | .reserved => 0
/-- A read of `len` bytes of BAR 0. -/
def barRead (s : State) (link fn off len : Nat) : State :=
  let f := s.func link fn
  let byte := fun (a : Nat) => if a < 0x40000 then BitVec.ofNat 8 ((bar0Word s f (a / 8)).toNat / 256 ^ (a % 8)) else 0
  { s with hostOut := s.hostOut ++ [(link, fn, (List.range len).map fun i => byte (off + i))] }
/-- A vector that is pending and no more masked is sent. -/
def unmask (s : State) (f : HostFn) (vec : Nat) : State :=
  if !f.pending.contains vec || f.masked vec then s.setFunc f
  else
    let from_ := (((s.fnCtxs f.link f.fn).find? (·.vec == vec)).map (·.num)).getD 0
    { s.setFunc { f with pending := f.pending.filter (· != vec) } with reports := s.reports ++ [.msix from_ vec] }
/-- R321: the MSI-X capability of a function in the layout of the PCI Express Base specification: its number, no next capability, the table size
less one, and BAR 0 with the offsets of table and pending bits (log 112). A function with no vector has none. -/
def msixCap (s : State) (link fn : Nat) : State :=
  let f := s.func link fn
  { s with hostOut := s.hostOut ++ [(link, fn, if f.vectors = 0 then [] else
      [0x11, 0] ++ leBytes 2 (f.vectors - 1) ++ leBytes 4 0x30000 ++ leBytes 4 0x38000)] }
/-- A word with 4 or 8 bytes of it written at an offset. -/
def merge (old : W) (off : Nat) (bytes : List Byte) : W :=
  setBits old (8 * off) (8 * bytes.length) (leNat bytes)
/-- A write of an aligned 4 or 8 bytes of BAR 0; read-only words and fields ignore it. Half a QDOOR writes what that half holds. -/
def barWrite (s : State) (link fn off : Nat) (bytes : List Byte) : State :=
  let f := s.func link fn
  let ctx := fun (n : Nat) => ((s.fnCtxs link fn)[n]?).map (·.num)
  let o := off % 8
  let n := bytes.length
  let v := merge 0 o bytes
  if (n ≠ 4 ∧ n ≠ 8) ∨ off % n ≠ 0 then s
  else match barAt (off / 8) with
    | .info i => ((ctx i).map fun c => if o = 0 then s.modQctx c fun q => { q with ven := v.getLsbD 27 } else s).getD s
    | .door i => ((ctx i).map fun c => if o = 0 then qdoorWrite s c v else s.modQctx c fun q => { q with err := q.err && !v.getLsbD 32 }).getD s
    | .table vec high =>
      if f.vectors ≤ vec then s
      else
        let x := f.entry vec
        unmask s { f with table := insert f.table vec (if high then (x.1, merge x.2 o bytes) else (merge x.1 o bytes, x.2)) } vec
    | _ => s

/-! ### Programs on the islands (R13, R182, R400) -/

/-- An island's read of edge memory: poisoned words are reported to its operating system. -/
def islandRead (s : State) (island addr len : Nat) : State :=
  match access s (.island island addr) false (regionsOf (addr, false) len) with
  | (true, s) => { s with reports := s.reports ++ (s.ebad (addr / 8 * 8, false) (addr % 8 + len + 7)).map fun i => .edgePoison (addr / 8 * 8 + 8 * i) }
  | (false, s) => s
/-- An island's write. -/
def islandWrite (s : State) (island addr : Nat) (bytes : List Byte) : State :=
  match access s (.island island addr) false (regionsOf (addr, false) bytes.length) with
  | (true, s) => s.estore (addr, false) bytes
  | (false, s) => s
/-- R182: an island's atomic, the operation `fn` of R216 or, with a value expected, a compare and swap; a missing W fails it before
anything else. -/
def islandAtomic (s : State) (island pasid va fn width : Nat) (x : W) (expected : Option W) : State :=
  match translate s pasid va true with
  | none => { s with reports := s.reports ++ [.atomicFault island pasid va] }
  | some p =>
    match access s (.island island va) false (regionsOf p width) with
    | (false, s) => s
    | (true, s) =>
      let s := touchPage s pasid va true
      let old := leNat (s.ebytes p width)
      let new := match expected with
        | some y => if old = y.toNat % 256 ^ width then x.toNat % 256 ^ width else old
        | none => oper fn (8 * width) old (x.toNat % 256 ^ width)
      if expected.isSome && new == old then s else s.estore p (leBytes width new)

/-! ### What system software sets up (R182, R255, R256, R319 to R321, R375) -/

/-- A function of a host link with its vectors and its window, which lies in its own device's edge memory (R358). -/
def bindFunction (s : State) (link fn vectors : Nat) (windows : List (Nat × Nat)) : State :=
  if link < 4 ∧ fn ≤ 256 ∧ vectors ≤ 2048 ∧ (windows.all fun x => decide (x.1 + x.2 ≤ edgeEnd)) = true then
    keepApart s (s.setFunc { link := link, fn := fn, vectors := vectors, table := [], pending := [], windows := windows })
  else s
/-- R356, R358: a queue context and its PASID are those of the device they are bound for, which its function is; with no such device, no
device's. -/
def queueOwned (s : State) (ctx vdev link fn pasid : Nat) : Bool :=
  match s.vdevs.find? (·.num == vdev) with
  | some d => d.ctxs.contains ctx && d.pasids.contains pasid && d.isFn link fn
  | none => !s.vdevs.any fun d => d.ctxs.contains ctx || d.pasids.contains pasid
/-- R320, R321: a queue context bound to a function: its ring, its vector, and the island that takes its packets. -/
def bindQueue (s : State) (ctx vdev link fn island pasid k base vec : Nat) : State :=
  if link < 4 ∧ fn ≤ 256 ∧ island < 64 ∧ 4 ≤ k ∧ k ≤ 12 ∧ vec < 2048 ∧ (s.qctx ctx).isNone = true ∧ s.qctxs.length < 8192
      ∧ queueOwned s ctx vdev link fn pasid = true then
    { s with qctxs := s.qctxs ++ [{ num := ctx, vdev := vdev, link := link, fn := fn, island := island, pasid := pasid, k := k, base := base,
                                    tail := 0, head := 0, err := false, vec := vec, ven := false }] }
  else s
/-- A placement of a virtual device (R256), not while it holds its tiles or is saved. -/
def setPlacement (s : State) (p : Place) : State :=
  if s.places.any fun x => x.vdev == p.vdev && x.num == p.num && (x.admitted.isSome || x.swapped) then s
  else { s with places := s.places.filter (fun x => !(x.vdev == p.vdev && x.num == p.num)) ++ [p] }

/-- One event from outside. -/
def outside (x : Outside) (s : State) : State :=
  match x with
  | .cxlRead link fn addr len => cxlRead s link fn addr len
  | .cxlWrite link fn addr bytes => cxlWrite s link fn addr bytes
  | .barRead link fn off len => barRead s link fn off len
  | .barWrite link fn off bytes => barWrite s link fn off bytes
  | .msixCap link fn => msixCap s link fn
  | .islandRead island addr len => islandRead s island addr len
  | .islandWrite island addr bytes => islandWrite s island addr bytes
  | .islandAtomic island pasid va fn width x expected => islandAtomic s island pasid va fn width x expected
  | .setPasid pasid sv57 root => keepApart s { s with pasids := s.pasids.filter (·.pasid != pasid) ++ [⟨pasid, sv57, root⟩] }
  | .writeTables entries => keepApart s (writeTables s entries)
  | .bindFunction link fn vectors windows => bindFunction s link fn vectors windows
  | .bindQueue ctx vdev link fn island pasid k base vec => bindQueue s ctx vdev link fn island pasid k base vec
  | .bindPort port vdev => s.modPort port fun p => { p with vdev := vdev }
  | .setPlacement num vdev vni area clusters images =>
    setPlacement s { num := num, vdev := vdev, vni := vni, clusters := clusters, images := images, admitted := none, swapped := false,
                     area := area }
  | .bindStorage num size => { s with storage := s.storage.filter (·.num != num) ++ [⟨num, size, [], [], false⟩] }
  | .setPowerCap watts => setPowerCap s watts
  | .arbiterFails island => { s with arbitersDown := s.arbitersDown.filter (· != island) ++ [island] }
  | .phaseWords t words => phaseWords s t words
  | .lastBeat port frame => lastBeat s port frame
  | .readError t plane addr double => readError s t plane addr double
  | .registerError c file hi num double => registerError s c file hi num double
  | .edgeError addr => edgeError s addr
  | .storageFails num fails => { s with storage := mapIf s.storage (·.num == num) fun o => { o with fails := fails } }
  | .keysTaken vni t => keysTaken s vni t
  | .treeReturns island => treeReturns s island
  | .measure reg value => measure s reg value

/-! ### The next turn -/

/-- The next turn: of the first entry of the schedule, or of the current core where it is empty (log 1). -/
def nextTurn (s : State) : Turned :=
  match s.moves with
  | [] => coreTurn (s.tick s.cur.site 1)
  | m :: r =>
    let s := { s with moves := r }
    match m.turn with
    | .core c => coreTurn ({ s with cur := c }.tick c.site (1 + m.dt))
    | .agent i => if (encOf i).isSome then .nobody else .run i s
    | .outside x => .settled (outside x s)

end Sys2Proof.Machine
end

