-- ==== Sys2Proof/Machine/Step.lean ====
section
/-! DEFINITION. One step of the module. -/

namespace Sys2Proof.Machine

/-- One step: the next turn, with the meaning of the instruction it fetches or of the agent's step it names. -/
def step (s : State) : Host.Outcome State Fault Refusal :=
  match nextTurn s with
  | .settled s' => .next s'
  | .run i s' => exec i s'
  | .nobody => .fault .notAnAgentStep

/-- The instruction of an opcode-table row, placed where the next step fetches; the words above `nbits` are zero up to five. -/
def State.withFetchWord (s : State) (nbits w : Nat) : State :=
  placeWords s ((tableWords nbits w ++ [0, 0, 0, 0]).take 5)

end Sys2Proof.Machine
end

