-- ==== Sys2Proof/Safety.lean ====
section
/-! DEFINITION. The terms in which claims are stated: what a safe run is, when nothing stops an instruction from having its effect, how the
state moves past it, and the canonical form of the memories. -/

namespace Sys2Proof

open Machine

/-- A step from this state answers a next state. -/
def Safe (s : State) : Prop := ∃ s', step s = .next s'

/-- The state as the body of an instruction sees it: results whose lookahead windows have closed are readable (R38). -/
def seen (s : State) : State := s.modMe Core.settle

/-- The checks of R43 steps 5 to 9 that every form shares find nothing against an instruction of the core whose turn it is, and an
activation of that core runs. -/
def mayIssue (i : Instr) (s : State) : Bool :=
  match rowOf i, encOf i with
  | some r, some e => s.me.act.isSome && (issueFault i r e {} s).isNone
  | _, _ => false

/-- The registers an instruction reads hold their values: none waits for a result still to come (R38), none is poisoned (R40). -/
def operandsReady (i : Instr) (s : State) : Bool :=
  match rowOf i, encOf i with
  | some r, some e => (reads i r e).all fun x => !(seen s).me.mustWait x.1 x.2 && ((seen s).me.poisonOf x.1 x.2).isNone
  | _, _ => false

/-- The predicate lets the instruction have its effect (R37): bit 0 of P is 1, or the form applies P lane by lane. -/
def predicated (i : Instr) (s : State) : Bool :=
  match rowOf i, encOf i with
  | some r, some e => byLane i r || ((seen s).me.pred e).getLsbD 0
  | _, _ => false

/-- Nothing stands between an instruction and its own effect. -/
def clear (i : Instr) (s : State) : Bool := mayIssue i s && operandsReady i s && predicated i s

/-- A state in which the current core's instruction of these words has completed, after its effect `t`: the next one follows it. -/
def past (e : Enc) (s t : State) : State := advance t s.cur s.me.mask.isSome (npc s.me.pc e)
/-- The same where the next instruction is at a target. -/
def wentTo (target : W) (s t : State) : State := advance t s.cur s.me.mask.isSome target

/-- The bytes of one tile and of its matrix unit are in canonical form. -/
def TileWf (t : Tile) : Prop :=
  Mem.wf t.mem = true ∧ Mem.wf t.mdata = true ∧ Mem.wf t.mscale = true ∧ Mem.wf t.mmeta = true ∧ Mem.wf t.z = true

/-- Every memory of the module is in canonical form: those of its tiles and of saved tile images, edge memory, host memory and the
storage objects. -/
def MemsWf (s : State) : Prop :=
  (∀ x ∈ s.tiles, TileWf x.2) ∧ (∀ x ∈ s.saved, TileWf x.tile) ∧ Mem.wf s.edge = true ∧ Mem.wf s.hostMem = true ∧
    ∀ x ∈ s.storage, Mem.wf x.bytes = true

end Sys2Proof
end

