-- ==== Sys2Proof/Certificates/Slice0/Obligations.lean ====
section
/-! DEFINITION. The statements for the provers. Each formalises what the numbered rules of spec/ say an instruction or the module does; its
docstring names the rules. A statement about an instruction gives its own effect under `clear` (Safety.lean: nothing of R37 to R43 stands
between it and that effect) and the conditions on its operands that the rule names; what the checks of R43 do is stated once, by
`Obligations.IssueChecks` and its neighbours. -/

namespace Sys2Proof

open Machine

/-! ### Turns and fetching -/

/-- The state in which the core acts whose turn is next: the schedule names it, or the current core goes on. -/
def turnOf (s : State) : Option State :=
  match s.moves with
  | [] => some (s.tick s.cur.site 1)
  | m :: r => match m.turn with
    | .core c => some ({ s with moves := r, cur := c }.tick c.site (1 + m.dt))
    | _ => none

/-- Nothing is due at the instruction boundary of the current core, and an activation of it runs. -/
def boundaryQuiet (s : State) : Bool :=
  let k := s.me
  k.wait.isNone && k.req.isNone && k.held.isNone && !k.halted && !k.trapDue && (k.async.isEmpty || k.active) && !k.overBudget
    && !hpReady s s.cur && k.act.isSome && !k.maskFull

/-- R30, R43: the bytes at a core's PC hold an instruction, all within its code window and none poisoned, and no write to them is one that
the core's fetches may miss (R204). -/
def holdsInstr (s : State) (i : Instr) : Prop :=
  s.me.roomAt 10 = true ∧ (∀ j, j < 10 → s.here.bad (s.me.pc.toNat + j) = false ∧ staleWords s.here s.me (s.me.pc.toNat + j) = []) ∧
    decode (Mem.bytes s.here.mem s.me.pc.toNat 10) = .ok i

/-! ### Scalar forms -/

/-- 1 or 0, as a word. -/
def flag (b : Bool) : W := if b then 1 else 0
/-- All ones or all zeros (R87). -/
def allOr0 (b : Bool) : W := if b then BitVec.allOnes 64 else 0

/-- R93: the specification of a field form. -/
def fieldSpec (e : Enc) (k : Core) : Nat := if e.imms.isEmpty then (k.g e.c).toNat else e.immHigh
/-- R93: pos and len of a specification that does not trap. -/
def specPos (n : Nat) : Nat := n % 256
def specLen (n : Nat) : Nat := n / 256
def specOk (n : Nat) : Bool := decide (specPos n ≤ 63 ∧ 1 ≤ specLen n ∧ specLen n ≤ 64 ∧ specPos n + specLen n ≤ 64)
/-- The low `n` bits of a word, as a number. -/
def low (n : Nat) (x : W) : Nat := x.toNat % 2 ^ n
/-- The low `n` bits of a word, as a signed number. -/
def lowS (n : Nat) (x : W) : Int := if low n x < 2 ^ (n - 1) then (low n x : Int) else (low n x : Int) - 2 ^ n

/-- R83 to R94, R99, R100: the register file that a scalar form writes in field a, and the value, where the form traps on no operand. The
core `k` is the issuing one and `t` its tile as the instruction sees them. -/
def scalarValue (i : Instr) (k : Core) (t : Tile) : Option (RFile × W) :=
  match i with
  | .add e => some (.g, k.g e.b + k.g e.c)
  | .sub e => some (.g, k.g e.b - k.g e.c)
  | .and e => some (.g, k.g e.b &&& k.g e.c)
  | .or e => some (.g, k.g e.b ||| k.g e.c)
  | .xor e => some (.g, k.g e.b ^^^ k.g e.c)
  | .sll e => some (.g, k.g e.b <<< low 6 (k.g e.c))
  | .srl e => some (.g, k.g e.b >>> low 6 (k.g e.c))
  | .sra e => some (.g, (k.g e.b).sshiftRight (low 6 (k.g e.c)))
  | .addi e => some (.g, k.g e.b + BitVec.ofInt 64 (e.immS .ri))
  | .andi e => some (.g, k.g e.b &&& BitVec.ofInt 64 (e.immS .ri))
  | .ori e => some (.g, k.g e.b ||| BitVec.ofInt 64 (e.immS .ri))
  | .xori e => some (.g, k.g e.b ^^^ BitVec.ofInt 64 (e.immS .ri))
  | .slli e => if e.immU .ri < 64 then some (.g, k.g e.b <<< e.immU .ri) else none
  | .srli e => if e.immU .ri < 64 then some (.g, k.g e.b >>> e.immU .ri) else none
  | .srai e => if e.immU .ri < 64 then some (.g, (k.g e.b).sshiftRight (e.immU .ri)) else none
  | .li e => some (.g, BitVec.ofInt 64 (e.immS .i8))
  | .lih e => if e.immU .i8 < 2 ^ 32 then some (.g, BitVec.ofNat 64 (e.immU .i8 * 2 ^ 32 + low 32 (k.g e.a))) else none
  | .mov e => some (.g, k.g e.b)
  | .slt e => some (.g, flag (decide ((k.g e.b).toInt < (k.g e.c).toInt)))
  | .sltu e => some (.g, flag (decide ((k.g e.b).toNat < (k.g e.c).toNat)))
  | .seq e => some (.g, flag (decide (k.g e.b = k.g e.c)))
  | .lea e => some (.g, k.g e.b + k.g e.c <<< e.f)
  | .csel e => some (.g, if (k.p e.f).getLsbD 0 then k.g e.b else k.g e.c)
  | .cmpeq e => some (.p, allOr0 (decide (k.g e.b = k.g e.c)))
  | .cmpne e => some (.p, allOr0 (decide (k.g e.b ≠ k.g e.c)))
  | .cmplt e => some (.p, allOr0 (decide ((k.g e.b).toInt < (k.g e.c).toInt)))
  | .cmpltu e => some (.p, allOr0 (decide ((k.g e.b).toNat < (k.g e.c).toNat)))
  | .cmpieq e => some (.p, allOr0 (decide (k.g e.b = BitVec.ofInt 64 (e.immS .ri))))
  | .cmpilt e => some (.p, allOr0 (decide ((k.g e.b).toInt < (BitVec.ofInt 64 (e.immS .ri)).toInt)))
  | .mul e => some (.g, BitVec.ofInt 64 ((k.g e.b).toInt * (k.g e.c).toInt))
  | .mulh e => some (.g, BitVec.ofInt 64 ((k.g e.b).toInt * (k.g e.c).toInt / 2 ^ 64))
  | .mulhu e => some (.g, BitVec.ofNat 64 ((k.g e.b).toNat * (k.g e.c).toNat / 2 ^ 64))
  | .div e => some (.g, if k.g e.c = 0 then BitVec.allOnes 64 else BitVec.ofInt 64 ((k.g e.b).toInt.tdiv (k.g e.c).toInt))
  | .divu e => some (.g, if k.g e.c = 0 then BitVec.allOnes 64 else BitVec.ofNat 64 ((k.g e.b).toNat / (k.g e.c).toNat))
  | .rem e => some (.g, if k.g e.c = 0 then k.g e.b else BitVec.ofInt 64 ((k.g e.b).toInt.tmod (k.g e.c).toInt))
  | .remu e => some (.g, if k.g e.c = 0 then k.g e.b else BitVec.ofNat 64 ((k.g e.b).toNat % (k.g e.c).toNat))
  | .min e => some (.g, if (k.g e.b).toInt < (k.g e.c).toInt then k.g e.b else k.g e.c)
  | .max e => some (.g, if (k.g e.b).toInt < (k.g e.c).toInt then k.g e.c else k.g e.b)
  | .minu e => some (.g, if (k.g e.b).toNat < (k.g e.c).toNat then k.g e.b else k.g e.c)
  | .maxu e => some (.g, if (k.g e.b).toNat < (k.g e.c).toNat then k.g e.c else k.g e.b)
  | .clz e => some (.g, BitVec.ofNat 64 (clz (k.g e.b)))
  | .ctz e => some (.g, BitVec.ofNat 64 (ctz (k.g e.b)))
  | .popc e => some (.g, BitVec.ofNat 64 (popc (k.g e.b)))
  | .brev e => some (.g, brev (k.g e.b))
  | .bext e =>
    let n := fieldSpec e k
    if specOk n then some (.g, BitVec.ofNat 64 (low (specLen n) (k.g e.b >>> specPos n))) else none
  | .bexts e =>
    let n := fieldSpec e k
    if specOk n then some (.g, BitVec.ofInt 64 (lowS (specLen n) (k.g e.b >>> specPos n))) else none
  | .sext e => some (.g, BitVec.ofInt 64 (lowS (widthOf e.f) (k.g e.b)))
  | .zext e => some (.g, BitVec.ofNat 64 (low (widthOf e.f) (k.g e.b)))
  | .pand e => some (.p, k.p e.b &&& k.p e.c)
  | .por e => some (.p, k.p e.b ||| k.p e.c)
  | .pxor e => some (.p, k.p e.b ^^^ k.p e.c)
  | .pnot e => some (.p, ~~~ k.p e.b)
  | .pfromg e => some (.p, k.g e.b)
  | .ptog e => some (.g, k.p e.b)
  | .pcnt e => some (.g, BitVec.ofNat 64 (popc (k.p e.b)))
  | .pfirst e => some (.g, BitVec.ofNat 64 (ctz (k.p e.b)))
  | .cyc e => some (.g, t.cycle)
  | .latrd e => some (.g, k.cbank.lat)
  | _ => none

/-- R95, R96: where a control transfer goes, and the link register that receives NPC; none where it does not transfer. -/
def transferTo (i : Instr) (k : Core) : Option (W × Option Nat) :=
  match i with
  | .bt e => if (k.p e.fa).getLsbD 0 then some (k.pc + BitVec.ofInt 64 (2 * e.immS .i8), none) else none
  | .bf e => if (k.p e.fa).getLsbD 0 then none else some (k.pc + BitVec.ofInt 64 (2 * e.immS .i8), none)
  | .j e => some (k.pc + BitVec.ofInt 64 (2 * e.immS .j), none)
  | .jal e => some (k.pc + BitVec.ofInt 64 (2 * e.immS .j), some 31)
  | .jr e => some (k.g e.b, none)
  | .jalr e => some (k.g e.b, some e.a)
  | .ret _ => some (k.g 31, none)
  | _ => none
/-- The two conditional transfers. -/
def isBranch : Instr → Bool
  | .bt _ | .bf _ => true
  | _ => false

end Sys2Proof

open Sys2Proof Sys2Proof.Machine

/-! ### Encoding and fetching -/

/-- R30 to R44: decoding the words of any well-formed instruction gives the instruction back and leaves the words that follow it, so no bit of
an encoding is dropped, for every form and every operand value. -/
def Obligations.DecodeOfEncode : Prop :=
  ∀ (i : Instr) (rest : List (BitVec 16)), wellFormed i = true → decodeWords (encode i ++ rest) = .ok (i, rest)

/-- R34, R36, R38, R42, R43: what the decoder accepts is well-formed, so a reserved encoding never falls through to an instruction. -/
def Sys2Proof.DecodedIsWellFormed : Prop :=
  ∀ (ws : List (BitVec 16)) (i : Instr) (rest : List (BitVec 16)), decodeWords ws = .ok (i, rest) → wellFormed i = true

/-- R30, R33, R35, R44: words written out from the spec's encodings decode to the instructions they stand for, one of each page. -/
def Obligations.SpecWordsDecode : Prop :=
  decodeWords [0b0000000101001100] = .ok (.add (.plain 0x014C), []) ∧
  decodeWords [0xFA10, 0x0394] = .ok (.mul (.paged 0x0394), []) ∧
  decodeWords [0xFA10, 0xF808, 0xF828, 0x2380] = .ok (.bext { Enc.paged 0x2380 with imms := [0x08, 0x28] }, []) ∧
  decodeWords [0xFA10, 0xF810, 0x7D00] = .ok (.crrd { Enc.paged 0x7D00 with imms := [0x10] }, []) ∧
  decodeWords [0xFA22, 0xFD40, 0xFB08, 0x05DC] =
    .ok (.vadd ⟨true, 2, some 4, none, some 0x08, none, [], 0x05DC⟩, []) ∧
  decodeWords [0xFA23, 0xFB49, 0xF940, 0x094C] =
    .ok (.vfma ⟨true, 3, none, none, some 0x49, some 0b010000, [], 0x094C⟩, []) ∧
  decodeWords [0xFA30, 0x09A0] = .ok (.vst (.paged 0x09A0), []) ∧
  decodeWords [0xFA40, 0xF980, 0x1C04] = .ok (.mma { Enc.paged 0x1C04 with reg := some 0b100000 }, []) ∧
  decodeWords [0xFA56, 0x2A20] = .ok (.cxOneSource { Enc.paged 0x2A20 with look := 6 }, []) ∧
  decodeWords [0xFA60, 0x06A9] = .ok (.cwait (.paged 0x06A9), []) ∧
  decodeWords [0xFA60, 0xF803, 0x1D82] = .ok (.barsync { Enc.paged 0x1D82 with imms := [3] }, []) ∧
  decodeWords [0xFA60, 0x161C] = .ok (.cpy (.paged 0x161C), []) ∧
  decodeWords [0xFA70, 0x0140] = .ok (.capmov (.paged 0x0140), []) ∧
  decodeWords [0xFA10, 0x9000] = .error (.opcode 0x9000 1)

/-- R44: the cells of the opcode map that name no form: all of pages 8 to 15, the ops beyond the last of each page, and the f values that
a row marks "—" or leaves out. -/
def Sys2Proof.emptyCell (page op f : Nat) : Bool :=
  decide (8 ≤ page) || decide ([0x1F, 0x12, 0x12, 0x09, 0x09, 0x12, 0x04, 0x05].getD page 0 ≤ op) ||
  (if (page, op) ∈ [(0, 0x14), (0, 0x1E), (1, 0x00), (1, 0x04), (1, 0x05), (1, 0x06), (1, 0x10), (2, 0x00), (2, 0x04), (2, 0x0F), (5, 0x00),
      (6, 0x02), (7, 0x01), (7, 0x02)] then decide (f = 3)
   else if (page, op) ∈ [(1, 0x09), (1, 0x0A), (1, 0x0B), (1, 0x0C), (1, 0x0D), (1, 0x0E), (1, 0x0F), (1, 0x11), (2, 0x08), (2, 0x09), (2, 0x0D),
      (2, 0x10), (4, 0x02), (4, 0x07), (5, 0x01)] then decide (2 ≤ f)
   else if (page, op) ∈ [(2, 0x11), (3, 0x02), (3, 0x03), (3, 0x04), (3, 0x05), (3, 0x07), (3, 0x08), (4, 0x00), (4, 0x08)] then decide (f ≠ 0)
   else decide (page = 5 ∧ 2 ≤ op ∧ f = 3))

/-- R43 step 3, R44: an op of a page that the opcode map leaves empty, or an f value that its row marks "—", names no form and raises
ILLEGAL_OPCODE, and every other cell names one; no page above 7 names an instruction, whatever its op and f. -/
def Sys2Proof.EmptyCellsRejected : Prop :=
  (∀ page op f, 8 ≤ page → Sys2Proof.rowAt page op f = none) ∧
  (∀ page op f, f < 4 → ((Sys2Proof.rowAt page op f).isNone = true ↔ Sys2Proof.emptyCell page op f = true)) ∧
  (∀ (p : BitVec 4) (L : BitVec 4) (base : BitVec 16) (rest : List (BitVec 16)), isHead base = false →
    Sys2Proof.emptyCell p.toNat (Enc.plain base).op (Enc.plain base).f = true →
    decodeWords (headWord 2 (p ++ L) :: base :: rest) = .error (.opcode base p.toNat)) ∧
  (∀ (base : BitVec 16) (rest : List (BitVec 16)), isHead base = false →
    Sys2Proof.emptyCell 0 (Enc.plain base).op (Enc.plain base).f = true → decodeWords (base :: rest) = .error (.opcode base 0))

/-- One turn of the module. Where the core whose turn it is has nothing due at its boundary and the bytes at its PC hold a well-formed
instruction, the step is that instruction's meaning, in the state in which the cycles of the turn have passed; so it is for the instruction that the core fetches
where it may miss writes to its code (R204), and then each word it fetches is one that a write not ordered ahead of the fetch found there, or
the present one; which of them is a free value of the model (log 90). A step that the schedule gives to another agent is that step's meaning,
and an event from outside has its effect. A schedule entry that names a core instruction as an agent's step stops the module. The schedule of
turns is the model's choice (log 1), and so is the form in which agent steps and outside events reach the module (log 96). -/
def Obligations.StepRunsTheDecodedInstruction : Prop :=
  (∀ s u i, turnOf s = some u → boundaryQuiet u = true → holdsInstr u i → step s = exec i u) ∧
  (∀ s u i, turnOf s = some u → boundaryQuiet u = true → fetch u.here u.me u.fresh = .ok i → step s = exec i u) ∧
  (∀ (t : Tile) (c : Core) (no a : Nat), (staleWords t c a).any (·.torn) = false →
    fetchWord t c no a ∈ (staleWords t c a).map (·.val) ++ [BitVec.ofNat 16 (Mem.load t.mem a 2)]) ∧
  (∀ s x dt r, s.moves = ⟨.outside x, dt⟩ :: r → step s = .next (outside x { s with moves := r })) ∧
  (∀ s i dt r, s.moves = ⟨.agent i, dt⟩ :: r → encOf i = none → step s = exec i { s with moves := r }) ∧
  (∀ s i dt r, s.moves = ⟨.agent i, dt⟩ :: r → (encOf i).isSome = true → step s = .fault .notAnAgentStep)

/-! ### Scalar forms -/

/-- R83 to R94, R99, R100: every scalar and predicate form completes: field a's register of the file it names takes the value the rules
give, with the lookahead of its words (R38), and the next instruction follows it. The forms that trap on an operand (an immediate shift of 64
or more, an LIH immediate of 2^32 or more, a bad field specification) are `Sys2Proof.ScalarTraps`. -/
def Sys2Proof.ScalarFormsComplete : Prop :=
  ∀ (i : Instr) (e : Enc) (s : State) (f : RFile) (x : W), encOf i = some e → clear i s = true →
    scalarValue i (seen s).me (seen s).here = some (f, x) →
    exec i s = .next (past e (seen s) ((seen s).modMe fun k => k.writeW e.L f e.a x))

/-- R93: BINS completes: bits [pos + len − 1 : pos] of g[a] take the low len bits of g[b] and the others stay. -/
def Sys2Proof.BinsCompletes : Prop :=
  ∀ (e : Enc) (s : State), clear (.bins e) s = true → specOk (fieldSpec e (seen s).me) = true →
    ∃ x : W, exec (.bins e) s = .next (past e (seen s) ((seen s).modMe fun k => k.writeW e.L .g e.a x)) ∧
      ∀ j, j < 64 → x.getLsbD j =
        if specPos (fieldSpec e (seen s).me) ≤ j ∧ j < specPos (fieldSpec e (seen s).me) + specLen (fieldSpec e (seen s).me)
        then ((seen s).me.g e.b).getLsbD (j - specPos (fieldSpec e (seen s).me)) else ((seen s).me.g e.a).getLsbD j

/-- R84, R85, R93: the scalar forms that trap on an operand take ILLEGAL_OPERAND (cause 0x03) and have no other effect: an immediate shift
of 64 or more, an LIH immediate of 2^32 or more (the immediate is the DETAIL), and for BEXT, BEXTS and BINS a field specification outside its
limits, whether it comes from PX.IMM or from g[c]. -/
def Sys2Proof.ScalarTraps : Prop :=
  (∀ e s, mayIssue (.slli e) s = true → 64 ≤ e.immU .ri → exec (.slli e) s = .next (takeTrap s s.cur 0x03 0 s.me.pc)) ∧
  (∀ e s, mayIssue (.srli e) s = true → 64 ≤ e.immU .ri → exec (.srli e) s = .next (takeTrap s s.cur 0x03 0 s.me.pc)) ∧
  (∀ e s, mayIssue (.srai e) s = true → 64 ≤ e.immU .ri → exec (.srai e) s = .next (takeTrap s s.cur 0x03 0 s.me.pc)) ∧
  (∀ e s, mayIssue (.lih e) s = true → 2 ^ 32 ≤ e.immU .i8 →
    exec (.lih e) s = .next (takeTrap s s.cur 0x03 (BitVec.ofNat 64 (e.immU .i8)) s.me.pc)) ∧
  (∀ i e s, (i = .bext e ∨ i = .bexts e ∨ i = .bins e) → mayIssue i s = true → e.imms.isEmpty = false → specOk e.immHigh = false →
    exec i s = .next (takeTrap s s.cur 0x03 0 s.me.pc)) ∧
  (∀ i e s, (i = .bext e ∨ i = .bexts e ∨ i = .bins e) → clear i s = true → e.imms.isEmpty = true →
    specOk ((seen s).me.g e.c).toNat = false → exec i s = .next (takeTrap (seen s) s.cur 0x03 0 s.me.pc))

/-- R92, R88: the bits that CLZ, CTZ, POPC, PCNT, PFIRST and BREV count and move: CLZ and CTZ give the number of zero bits above the highest
and below the lowest one bit (64 for zero), POPC the number of one bits, and BREV moves bit i to bit 63 − i. -/
def Obligations.BitCounts : Prop :=
  (∀ x : W, clz x ≤ 64 ∧ (∀ i, 64 - clz x ≤ i → x.getLsbD i = false) ∧ (clz x < 64 → x.getLsbD (63 - clz x) = true)) ∧
  (∀ x : W, ctz x ≤ 64 ∧ (∀ i, i < ctz x → x.getLsbD i = false) ∧ (ctz x < 64 → x.getLsbD (ctz x) = true)) ∧
  (∀ x : W, popc x + popc (~~~x) = 64 ∧ popc 0 = 0 ∧ ∀ i, i < 64 → x.getLsbD i = false → popc (x ||| 1#64 <<< i) = popc x + 1) ∧
  (∀ x : W, ∀ i, i < 64 → (brev x).getLsbD i = x.getLsbD (63 - i))

/-- R32, R95, R96: every control transfer: to an even target it goes there, the link register it names receiving NPC (the target read
before the link is written); to an odd target it traps with ALIGN (cause 0x09, DETAIL the target) and has no other effect; a branch that is not
taken goes on to the next instruction. -/
def Obligations.ControlTransfers : Prop :=
  ∀ (i : Instr) (e : Enc) (s : State), encOf i = some e → clear i s = true →
    (∀ target link, transferTo i (seen s).me = some (target, link) →
      (target.getLsbD 0 = false → exec i s = .next (wentTo target (seen s) (match link with
        | some n => (seen s).modMe fun k => k.writeW e.L .g n (npc k.pc e)
        | none => seen s))) ∧
      (target.getLsbD 0 = true → exec i s = .next (takeTrap (seen s) s.cur 0x09 target s.me.pc))) ∧
    (isBranch i = true → transferTo i (seen s).me = none → exec i s = .next (past e (seen s) (seen s)))

/-! ### What every form shares -/

namespace Sys2Proof

/-- The instruction completes with the effect `t`, and the next one follows it. -/
def Completes (i : Instr) (e : Enc) (s t : State) : Prop := exec i s = .next (past e (seen s) t)
/-- The instruction traps with no other effect; TRAP_PC gets its own PC. -/
def Traps (i : Instr) (s : State) (cause : Nat) (detail : W) : Prop := exec i s = .next (takeTrap (seen s) s.cur cause detail s.me.pc)
/-- The instruction waits, with a blocked-on record of this kind and object, and issues again on the core's next turn. -/
def Waits (i : Instr) (s : State) (kind obj : Nat) : Prop := exec i s = .next ((seen s).modMe fun k => k.block kind obj 0xFFFF)

/-- R102: the type classes. -/
def inF (t : Nat) : Bool := t == 8 || t == 9 || t == 10
def inI (t : Nat) : Bool := decide (t < 8)
def inC (t : Nat) : Bool := decide (18 ≤ t ∧ t ≤ 21)
def inB (t : Nat) : Bool := inF t || inI t || inC t || t == 11 || t == 12 || t == 22
/-- R103: the modifiers of a form: all for the float types and 000 and 001 for the others; 000, and 001 too for types that are no float;
000 only. -/
def modsAll (t m : Nat) : Bool := if inF t then decide (m < 7) else decide (m < 2)
def modsSat (t m : Nat) : Bool := m == 0 || (!inF t && m == 1)

/-- R43 step 9: what a form asks of its field values, from the encoding alone, beyond what its row of the encoding tables says. -/
def formOk : Instr → Bool
  | .slli e | .srli e | .srai e => decide (e.immU .ri < 64)
  | .lih e => decide (e.immU .i8 < 2 ^ 32)
  | .bext e | .bexts e | .bins e => e.imms.isEmpty || specOk e.immHigh
  | .ldn e => decide (e.fnv ≤ 5)
  | .stn e => decide (e.fnv ≤ 2)
  | .amo e | .bop e | .ramo e => decide (e.fnv ≤ 8)
  | .amow e | .bopw e | .ramow e => decide (e.fnv ≤ 9)
  | .send e => e.imms.isEmpty || !badSend e.immHigh
  | .sendf e | .vsend e => e.imms.isEmpty || !badFast e.immHigh
  | .put e | .get e => e.imms.isEmpty || !badPut e.immHigh
  | .qbind e => e.imms.isEmpty || !badPort e.immHigh
  | .vsbind e => decide (12 ≤ e.a) && (e.imms.isEmpty || decide (e.immHigh ≤ 63))
  | .vsunbind e => decide (12 ≤ e.a)
  | .joinset e => e.imms.isEmpty || !badJoin e.immHigh
  | .vadd e | .vsub e => (inF e.ty || inI e.ty || inC e.ty) && modsAll e.ty e.mod
  | .vmul e => (inF e.ty || inI e.ty) && modsAll e.ty e.mod
  | .vfma e | .vfms e | .vdiv e | .vsqrt e | .vexp2 e | .vlog2 e | .vrcp e | .vrsq e | .vsinpi e | .vcospi e =>
    inF e.ty && decide (e.mod < 7)
  | .vmin e | .vmax e | .vredsum e | .vredmax e | .vredmin e | .vredsumw e | .vcmplt e | .vcmple e => (inF e.ty || inI e.ty) && e.mod == 0
  | .vabs e => (inF e.ty || inI e.ty) && modsSat e.ty e.mod
  | .vneg e => (inF e.ty || inI e.ty || inC e.ty) && modsSat e.ty e.mod
  | .vand e | .vor e | .vxor e | .vnot e | .vsel e | .vbcast e | .vins e | .vextr e | .vperm e | .vslup e | .vsldn e =>
    inB e.ty && e.mod == 0
  | .vshl e | .vshr e | .vsra e | .viota e => inI e.ty && e.mod == 0
  | .vcmpeq e | .vcmpne e => (inF e.ty || inI e.ty || inC e.ty) && e.mod == 0
  | .vcmul e | .vcmulc e => inC e.ty && decide (e.mod < 2)
  | .vcvt e => !(cvtCk e).bad
  | .vquant e => !(quantCk e).bad
  | .vdeq e => !(deqCk e).bad
  | .vdot e => !(dotCk e).bad
  | .vdotc e => (e.ty == 18 || e.ty == 19 || e.ty == 20) && decide (e.mod < 2)
  | .vlds e | .vsts e | .vldb e => inB e.ty && e.mod == 0
  | .vgath e | .vscat e => inB e.ty && decide (32 ≤ laneBits e.ty) && e.mod == 0
  | .vbred e => (e.ty == 2 || e.ty == 3 || e.ty == 6 || e.ty == 7 || e.ty == 8) && e.mod == 0
  | .mcfg e => e.imms.isEmpty || e.b == 0
  | .mmac e => e.a % 2 == 0
  | .zout e => !(zoutCk e).bad
  | .bararr e | .barwait e | .barsync e | .bartry e => decide (e.immHigh ≤ 63)
  | _ => true
/-- CRRD and CRWR, whose index decides which checks they meet (R27). -/
def byIndex : Instr → Bool
  | .crrd _ | .crwr _ => true
  | _ => false

end Sys2Proof

/-- R43, steps 5 to 9: the checks that every form makes before it executes, in their order, whatever its predicate: a supervisor form at user
level, a form of another core's unit, a unit that a high-priority handler may not use, a matrix unit that is owned otherwise, and field values
that the form refuses. The first that applies traps, with the base word and page as DETAIL of the first three and the base word of the
fourth, and the instruction has no other effect. -/
def Obligations.IssueChecks : Prop :=
  ∀ (i : Instr) (r : Row) (e : Enc) (s : State), rowOf i = some r → encOf i = some e → s.me.act.isSome = true →
    let word := BitVec.ofNat 64 (e.base.toNat + r.page * 2 ^ 16)
    let traps := fun cause d => exec i s = .next (takeTrap s s.cur cause d s.me.pc)
    let level := r.sv = true ∧ s.me.sup = false
    let unit := ∃ k, r.rights = some k ∧ k ≠ s.cur.kind
    let prio := s.me.lev = true ∧ 2 ≤ r.page ∧ r.page ≤ 5
    let owned := r.page = 4 ∧ ((s.me.sup = true ∧ s.here.claimed = false ∧ isClaim i = false) ∨ (s.me.sup = false ∧ s.here.claimed = true))
    (level → traps 0x04 word) ∧
    (¬level → unit → traps 0x05 word) ∧
    (byIndex i = false → ¬level → ¬unit → prio → traps 0x06 word) ∧
    (byIndex i = false → ¬level → ¬unit → ¬prio → owned → traps 0x12 (BitVec.ofNat 64 e.base.toNat)) ∧
    (byIndex i = false → ¬level → ¬unit → ¬prio → ¬owned → (rowBad r e = true ∨ formOk i = false) → ∃ d, traps 0x03 d)

/-- R89: MUL gives the low 64 bits of the product, MULH bits [127:64] of the exact signed product and MULHU those of the unsigned one. -/
def Obligations.Products : Prop :=
  ∀ (e : Enc) (s : State), let x := (seen s).me.g e.b
    let y := (seen s).me.g e.c
    let gives := fun (i : Instr) (z : W) => clear i s = true → Completes i e s ((seen s).modMe fun k => k.writeW e.L .g e.a z)
    gives (.mul e) ((x.zeroExtend 128 * y.zeroExtend 128).extractLsb' 0 64) ∧
    gives (.mulh e) ((x.signExtend 128 * y.signExtend 128).extractLsb' 64 64) ∧
    gives (.mulhu e) ((x.zeroExtend 128 * y.zeroExtend 128).extractLsb' 64 64)

/-- R90: DIV and REM divide as signed integers and DIVU and REMU as unsigned; the quotient is truncated toward zero, the remainder takes the sign of the dividend, and
dividend = quotient × divisor + remainder. None of them traps. A divisor of 0 gives all ones and the dividend, and −2^63 divided by −1 gives −2^63 and 0. -/
def Obligations.Division : Prop :=
  ∀ (e : Enc) (s : State), let x := (seen s).me.g e.b
    let y := (seen s).me.g e.c
    let gives := fun (i : Instr) (z : W) => clear i s = true → Completes i e s ((seen s).modMe fun k => k.writeW e.L .g e.a z)
    let least : W := 0x8000000000000000
    ∃ q r qu ru : W, gives (.div e) q ∧ gives (.rem e) r ∧ gives (.divu e) qu ∧ gives (.remu e) ru ∧
      (y ≠ 0 → ¬(x = least ∧ y = BitVec.allOnes 64) → q.toInt = x.toInt.tdiv y.toInt ∧ q.toInt * y.toInt + r.toInt = x.toInt ∧
        r.toInt.natAbs < y.toInt.natAbs ∧ (r.toInt = 0 ∨ (r.toInt < 0 ↔ x.toInt < 0))) ∧
      (y ≠ 0 → qu.toNat * y.toNat + ru.toNat = x.toNat ∧ ru.toNat < y.toNat) ∧
      (y = 0 → q = BitVec.allOnes 64 ∧ r = x ∧ qu = BitVec.allOnes 64 ∧ ru = x) ∧
      (x = least → y = BitVec.allOnes 64 → q = least ∧ r = 0)

/-- R91: MIN and MAX compare as signed 64-bit integers and MINU and MAXU as unsigned ones, and each writes the selected operand unchanged. -/
def Obligations.MinAndMax : Prop :=
  ∀ (e : Enc) (s : State), let x := (seen s).me.g e.b
    let y := (seen s).me.g e.c
    let gives := fun (i : Instr) (P : W → Prop) => clear i s = true → ∃ z, (z = x ∨ z = y) ∧ P z ∧
      Completes i e s ((seen s).modMe fun k => k.writeW e.L .g e.a z)
    gives (.min e) (fun z => z.toInt ≤ x.toInt ∧ z.toInt ≤ y.toInt) ∧ gives (.max e) (fun z => x.toInt ≤ z.toInt ∧ y.toInt ≤ z.toInt) ∧
    gives (.minu e) (fun z => z.toNat ≤ x.toNat ∧ z.toNat ≤ y.toNat) ∧ gives (.maxu e) (fun z => x.toNat ≤ z.toNat ∧ y.toNat ≤ z.toNat)

/-- A register holds its value: no result of it is still to come, and it is not poisoned. -/
def Sys2Proof.readable (k : Core) (x : RFile × Nat) : Bool := (k.awaited x.1 x.2).isNone && (k.poisonOf x.1 x.2).isNone

/-- R37, R40, R43: an instruction whose predicate is false, other than one that applies P lane by lane, has no effect beyond those checks,
whatever its sources hold: the next one follows it. -/
def Sys2Proof.PredicateFalse : Prop :=
  ∀ (i : Instr) (r : Row) (e : Enc) (s : State), rowOf i = some r → encOf i = some e → mayIssue i s = true →
    (readsP e).all (readable (seen s).me) = true → formOk i = true → byIndex i = false → byLane i r = false →
    ((seen s).me.pred e).getLsbD 0 = false → Completes i e s (seen s)

/-- R38, R40, R268, R398: the first register that an instruction needs and that does not hold its value decides: where its result is still to come,
outside its lookahead window, the instruction waits, with blocked-on kind 11 and the tile's name as PEER where the result is a RAMO's; where it is poisoned the
instruction traps with ECC_POISON (0x19), with the poisoned word's address as DETAIL. Neither has any other effect. The predicate is read
first, and the sources only where the instruction executes and some lane is active; VEXTR reads its index in any case (R119). That a wait for a
result of another unit of the tile has blocked-on kind 0 is the model's choice (log 28). -/
def Sys2Proof.OperandsNotReady : Prop :=
  ∀ (i : Instr) (r : Row) (e : Enc) (s : State) (l rest : List (RFile × Nat)) (x : RFile × Nat), rowOf i = some r → encOf i = some e →
    mayIssue i s = true → formOk i = true → byIndex i = false →
    let k := (seen s).me
    reads i r e = l ++ x :: rest → l.all (readable k) = true →
    (l.length < (readsP e).length ∨ (executes i r e k = true ∧ idle i r e k = false)) →
    (∀ o, k.awaited x.1 x.2 = some o → o.far = none → Waits i s 0 0) ∧
    (∀ o peer, k.awaited x.1 x.2 = some o → o.far = some peer → exec i s = .next ((seen s).modMe fun k => k.block 11 0 peer)) ∧
    (∀ d, k.awaited x.1 x.2 = none → k.poisonOf x.1 x.2 = some d → Traps i s 0x19 d)

namespace Sys2Proof

/-- The registers of a file, the value of one in 512 bits, and what of a written value it holds. -/
def regCount : RFile → Nat
  | .g => 32
  | .p => 8
  | _ => 16
def regValue (k : Core) (f : RFile) (n : Nat) : V :=
  match f with
  | .g => (k.g n).setWidth 512
  | .p => (k.p n).setWidth 512
  | .v => vget k.v n
  | .c => (vget k.c n).setWidth 512
  | _ => 0
def regHolds (f : RFile) (x : V) : V :=
  match f with
  | .v => x
  | .c => (x.setWidth 128).setWidth 512
  | _ => (x.setWidth 64).setWidth 512
/-- The core as an instruction at a position sees the registers of a file: results whose windows have closed are readable (R38, R104). -/
def readyFor (f : RFile) (k : Core) : Core := if f = .v then k.settleV (some k.pos) else k.settle

end Sys2Proof

/-- R38: a result with lookahead n, in the g, p, v or c file, is not seen by the next n instructions of the activation, which read the register's
value without it, and is seen by every later one; a write of the register inside the window wins, and the late result is discarded. A result
of an earlier instruction that is still held for the register is discarded too, so that inside the later window the register reads as it did before both:
the model's choice (log 77). -/
def Obligations.LookaheadWindow : Prop :=
  ∀ (k : Core) (a : Act) (p : Nat) (rest : List Nat) (f : RFile) (L n : Nat) (x y : V) (later : Nat), k.act = some a → a.pos = p :: rest →
    f ∈ [RFile.g, .p, .v, .c] → (isBanked f = true → 1 ≤ n) → n < regCount f → L ≤ 15 →
    (∀ z ∈ k.pend, z.file = f → z.num < regCount f ∧ (isBanked f = false → z.hi = false)) →
    let at_ := fun (k : Core) (m : Nat) => readyFor f (k.modAct fun a => { a with pos := (p + m) :: rest })
    let k0 := readyFor f k
    let k1 := k0.write L f n x
    (1 ≤ later → regValue (at_ k1 later) f n = if later ≤ L then regValue k0 f n else regHolds f x) ∧
    (∀ m, 1 ≤ m → m ≤ L → m ≤ later → regValue (at_ ((at_ k1 m).write 0 f n y) later) f n = regHolds f y)

/-- R364, R366, R362: a synchronous trap of an Abort cause that neither the overlay handler, the loader nor an open matrix command keeps waiting.
Delegated (its bit of TRAP_DELEG is 1, TRAP_VEC is armed and ACTIVE is 0) it enters the tile supervisor handler: TRAP_CAUSE holds the cause,
ACTIVE and the class and level of the trapped code, TRAP_PC the PC with bit 0 zero, TRAP_INFO the DETAIL, TRAP_MSGID the descriptor of the
activation's message; the level becomes supervisor, the masked window closes, and fetch goes on at TRAP_VEC. Otherwise the core is held for
its home island, blocked-on kind 2 with the cause as object. Either way a 64-byte record is written to the core's part of the trap record area. -/
def Obligations.TrapEntry : Prop :=
  ∀ (s : State) (c : CoreId) (cause : Nat) (detail pc : W) (a : Act),
    (s.core c).act = some a → a.noMsg = false → abortCause cause false = true → cause ≠ 0x07 → cause ≠ 0x13 → cause < 0x1E →
    mustDrain s c = false →
    let k := s.core c
    let t := takeTrap s c cause detail pc
    let m := t.core c
    let taken := k.ctl.trapDeleg.getLsbD cause = true ∧ k.ctl.trapVec.toNat % 2 ^ 22 / 2 ≠ 0 ∧ k.active = false
    let at_ := 0x002FE000 + 0x800 * c.kind.code + 64 * (k.trapCount % 32)
    m.ctl.trapCause.toNat % 64 = cause ∧ m.ctl.trapCause.getLsbD 6 = false ∧ m.ctl.trapCause.getLsbD 7 = false ∧
    m.ctl.trapCause.getLsbD 9 = k.active ∧ m.ctl.trapCause.getLsbD 10 = k.lev ∧ m.ctl.trapCause.getLsbD 11 = a.sup ∧
    m.ctl.trapPc.toNat = pc.toNat % 2 ^ 22 / 2 * 2 ∧ m.ctl.trapInfo.toNat / 256 = detail.toNat % 2 ^ 56 ∧
    m.ctl.trapMsgid = a.desc ∧ m.mask = none ∧ m.trapCount = k.trapCount + 1 ∧
    (Mem.wf (s.tile c.site).mem = true → (t.tile c.site).word at_ = m.ctl.trapCause ∧ (t.tile c.site).word (at_ + 8) = m.ctl.trapPc ∧
    (t.tile c.site).word (at_ + 16) = m.ctl.trapInfo ∧ (t.tile c.site).word (at_ + 24) = m.ctl.trapMsgid ∧
    (t.tile c.site).word (at_ + 32) = BitVec.ofNat 64 (k.trapCount % 2 ^ 32)) ∧
    (Mem.wf (s.tile c.site).mem = true → ∀ j, j < at_ ∨ at_ + 64 ≤ j →
      Mem.byteAt (t.tile c.site).mem j = Mem.byteAt (s.tile c.site).mem j) ∧
    (taken → m.active = true ∧ m.sup = true ∧ m.pc.toNat = k.ctl.trapVec.toNat % 2 ^ 22 / 2 * 2 ∧ m.held = k.held ∧ m.lev = k.lev) ∧
    (¬taken → m.held = some cause ∧ m.blocked.kind = 2 ∧ m.blocked.obj = cause)

/-- R37, R38, R83 to R94: the frame of the scalar and predicate forms. Beside the PC, which goes to the next instruction, nothing of the module
changes but the destination register: no other register of either bank, no vector, capability or port register, no binding, no control
register, no memory byte, no other core and no other tile. -/
def Obligations.ScalarFrame : Prop :=
  ∀ (i : Instr) (e : Enc) (s t : State) (f : RFile) (x : W), encOf i = some e → clear i s = true →
    scalarValue i (seen s).me (seen s).here = some (f, x) → exec i s = .next t →
    let u := seen s
    t.me.pc = npc s.me.pc e ∧
    (∀ n, ¬(f = .g ∧ n % 32 = e.a % 32) → t.me.g n = u.me.g n) ∧ (∀ n, ¬(f = .p ∧ n % 8 = e.a % 8) → t.me.p n = u.me.p n) ∧
    t.me.bank (!u.me.lev) = u.me.bank (!u.me.lev) ∧ t.me.lev = u.me.lev ∧ t.me.cbank.sends = u.me.cbank.sends ∧
    t.me.v = u.me.v ∧ t.me.c = u.me.c ∧ t.me.q = u.me.q ∧ t.me.streams = u.me.streams ∧ t.me.ctl = u.me.ctl ∧ t.me.vq = u.me.vq ∧
    t.me.recs = u.me.recs ∧ t.me.joins = u.me.joins ∧ t.me.slots = u.me.slots ∧
    (∀ a, Mem.byteAt t.here.mem a = Mem.byteAt s.here.mem a) ∧ t.here.poison = s.here.poison ∧ t.here.sems = s.here.sems ∧
    (∀ k, k ≠ s.cur.kind → t.here.core k = s.here.core k) ∧
    (∀ site, Site.num site ≠ Site.num s.cur.site → t.tile site = s.tile site) ∧ { t with tiles := s.tiles } = s

/-- Every step of the module answers a next state, but for a schedule entry that names a core instruction as an agent's step: no instruction
stops the module, and none is refused. That the turns, agent steps and outside events come from a schedule, and that a step whose condition
does not hold changes nothing, is the model's choice (log 1, log 96). -/
def Obligations.EveryTurnCompletes : Prop :=
  (∀ (i : Instr) (s : State), ∃ t, exec i s = .next t) ∧
  (∀ s : State, (∀ m r, s.moves = m :: r → ∀ i, m.turn = .agent i → encOf i = none) → ∃ t, step s = .next t)

/-! ### Reset -/

/-- R257, and the reset columns of R62, R66, R67, R100, R147, R241, R242, R253, R254 and R363: what reset leaves of a tile: its memory, planes and
slots zero and no word poisoned, semaphores zero, no identifier given and no command open, no chain, cycle count zero, the control registers
at their reset values, every task and ring entry disabled, every join counter disarmed, every slot table empty, every port and stream
unbound, and no residency. -/
def Obligations.ResetOfATile : Prop :=
  ∀ (site : Site), let t := State.reset.tile site
    (∀ a, Mem.byteAt t.mem a = 0 ∧ Mem.byteAt t.mdata a = 0 ∧ Mem.byteAt t.mscale a = 0 ∧ Mem.byteAt t.mmeta a = 0 ∧ Mem.byteAt t.z a = 0) ∧
    (∀ a, t.bad a = false) ∧ (∀ n, t.sem n = 0) ∧ t.lastId = 0 ∧ t.mwin = [] ∧ t.chain.state = 0 ∧ t.cycle = 0 ∧
    (∀ n, vget t.slices n = none) ∧
    ∀ kind, let k := t.core kind
      k.ctl.fpMode = 0 ∧ k.ctl.fpFlags = 0 ∧ k.ctl.seed = 0x13579BDF ∧ k.ctl.trapCause = 0 ∧ k.ctl.trapPc = 0 ∧ k.ctl.trapInfo = 0 ∧
      k.ctl.trapMsgid = 0 ∧ k.ctl.trapVec = 0 ∧ k.ctl.trapDeleg = 0 ∧ k.ctl.ovlVec = 0 ∧ k.ctl.loaderVec = 0 ∧ k.ctl.trapScratch = 0 ∧
      k.ctl.wdogBudget = 0x01000000 ∧ k.ctl.hpLimit = 8 ∧ k.ctl.varbWeight = 5 ∧ k.ctl.maskLimit = 256 ∧ k.cbank.lat = 0 ∧
      (∀ n, ringEn (k.ring n) = false ∧ taskEn (k.task n) = false) ∧ (∀ n, (vget k.joins n).armed = false) ∧
      (∀ n, (vget k.slots n).bound = false) ∧ (∀ n, (vget k.q n).bound = false ∧ (vget k.streams n).chan = none) ∧
      k.act = none ∧ k.halted = false

/-- Every memory of the module is in canonical form after reset. -/
def Obligations.MemoriesCanonicalAtReset : Prop := MemsWf State.reset

/-- Every step of the module keeps its memories in canonical form, so that equal contents are equal data: from every state whose memories are
canonical, whatever the turn. -/
def Obligations.MemoriesStayCanonical : Prop := ∀ s s' : State, MemsWf s → step s = .next s' → MemsWf s'

/-! ### Control registers -/

namespace Sys2Proof

/-- Bits [lo + len − 1 : lo] of a written value, in their place. -/
def bitsOf (x : W) (lo len : Nat) : W := x &&& (BitVec.ofNat 64 (2 ^ len - 1) <<< lo)
/-- R4, R98, R176, R241, R253, R363: what a CRWR of `x` makes of a register that holds plain values and held `old`; none for an index of another kind. -/
def stored (n : Nat) (x old : W) : Option W :=
  if n = 0x022 ∨ n = 0x023 then some (boundOf x)
  else if n = 0x030 then some ((old &&& ~~~0x3F) ||| bitsOf x 0 6)
  else if n = 0x031 ∨ n = 0x034 ∨ n = 0x036 ∨ n = 0x038 then some (bitsOf x 1 21)
  else if n = 0x035 then some (bitsOf x 1 29)
  else if n = 0x039 then some x
  else if n = 0x040 then some (bitsOf x 0 32)
  else if n = 0x041 then some (if bitsOf x 0 8 = 0 then 1 else bitsOf x 0 8)
  else if n = 0x042 then some (if bitsOf x 0 4 = 0 then 1 else bitsOf x 0 4)
  else if n = 0x043 then some (if bitsOf x 0 16 = 0 then 1 else bitsOf x 0 16)
  else if 0x100 ≤ n ∧ n < 0x140 then some (bitsOf x 1 21 ||| bitsOf x 32 5)
  else none
/-- R27: the indexes whose writes are ignored. -/
def readOnlyIndex (n : Nat) : Bool := n ≤ 4 || n == 0x032 || n == 0x033 || n == 0x037 || n == 0x050 || n == 0x070 || n == 0x090
/-- R27: the level and the core let an access of this index through. -/
def indexAllowed (s : State) (n : Nat) : Bool := (!crSv n || s.me.sup) && (!crMath n || s.cur.kind == .math)

end Sys2Proof

/-- R27, R28, R98: CRRD completes for every index of the table: g[a] receives the register, FP_FLAGS and SROUND_SEED with the flags and draws of
every earlier instruction. An index that is not in the table, an SV register read at user level and MCFGn read off the math core trap. -/
def Sys2Proof.CrrdReads : Prop :=
  ∀ (e : Enc) (s : State),
    (∀ x, clear (.crrd e) s = true → indexAllowed s e.immHigh = true → crGet (seen s) s.cur e.immHigh = some x →
      (e.immHigh = 0x011 → flagsDone (seen s) s.cur = true) → (e.immHigh = 0x012 → drawsDone (seen s) s.cur = true) →
      Completes (.crrd e) e s ((seen s).modMe fun k => k.writeW e.L .g e.a x)) ∧
    (mayIssue (.crrd e) s = true → indexAllowed s e.immHigh = true → crGet s s.cur e.immHigh = none →
      exec (.crrd e) s = .next (takeTrap s s.cur 0x03 0 s.me.pc)) ∧
    (mayIssue (.crrd e) s = true → crSv e.immHigh = true → s.me.sup = false →
      exec (.crrd e) s = .next (takeTrap s s.cur 0x04 (BitVec.ofNat 64 (e.base.toNat + 2 ^ 16)) s.me.pc)) ∧
    (mayIssue (.crrd e) s = true → (crSv e.immHigh = false ∨ s.me.sup = true) → crMath e.immHigh = true → s.cur.kind ≠ .math →
      exec (.crrd e) s = .next (takeTrap s s.cur 0x05 (BitVec.ofNat 64 (e.base.toNat + 2 ^ 16)) s.me.pc))

namespace Sys2Proof

/-- R27: the indexes of the table of control registers. -/
def listedIndex (n : Nat) : Bool :=
  decide (n ≤ 0x004 ∨ (0x010 ≤ n ∧ n ≤ 0x012) ∨ (0x020 ≤ n ∧ n ≤ 0x023) ∨ (0x030 ≤ n ∧ n ≤ 0x039) ∨ (0x040 ≤ n ∧ n ≤ 0x043) ∨ n = 0x050 ∨
    (0x060 ≤ n ∧ n ≤ 0x067) ∨ n = 0x070 ∨ (0x080 ≤ n ∧ n ≤ 0x083) ∨ n = 0x090 ∨ (0x100 ≤ n ∧ n ≤ 0x17F))
/-- R12: the island coordinate nearest a site along one axis: its field's one interior corner at an edge of the wafer, and otherwise the corner of
its half of the field. -/
def homeCoord (x : Nat) : Nat := if x < 14 then 0 else if 112 ≤ x then 7 else if x % 14 < 7 then x / 14 - 1 else x / 14

end Sys2Proof

/-- R27, R29, R100, R147, R276: the fields of the read-only registers: CORE_ID, TILE_LOG, TILE_PHY, REGION_VNI, PRIV, LAT_LAST, CHAIN_STATE and
COLLQ_STATUS. An index names a register exactly where the table lists it. -/
def Sys2Proof.IdentityRegisters : Prop :=
  ∀ (s : State) (c : CoreId), let t := s.tile c.site
    let k := s.core c
    (∃ x : W, crGet s c 0x000 = some x ∧ x.toNat % 4 = c.kind.code ∧ x.toNat / 256 = 1) ∧
    (∃ x : W, crGet s c 0x001 = some x ∧ x.toNat % 256 = t.logX % 256 ∧ x.toNat / 2 ^ 16 % 256 = t.logY % 256 ∧ x.toNat / 2 ^ 32 = t.name % 65536) ∧
    (c.site.x < 126 → c.site.y < 126 → ∃ x : W, crGet s c 0x002 = some x ∧ x.toNat % 256 = c.site.x ∧ x.toNat / 2 ^ 16 % 256 = c.site.y ∧
      x.toNat / 2 ^ 32 % 16 = c.site.x / 14 ∧ x.toNat / 2 ^ 36 % 16 = c.site.y / 14 ∧ x.toNat / 2 ^ 40 % 8 = homeCoord c.site.x ∧
      x.toNat / 2 ^ 44 % 8 = homeCoord c.site.y ∧ x.getLsbD 48 = decide (c.site.y % 14 = 13) ∧ x.toNat < 2 ^ 49) ∧
    (∃ x : W, crGet s c 0x003 = some x ∧ x.toNat = t.vni % 4096) ∧
    (∃ x : W, crGet s c 0x004 = some x ∧ x.getLsbD 0 = k.sup ∧ x.getLsbD 1 = k.lev ∧ x.getLsbD 2 = k.mask.isSome ∧ x.getLsbD 3 = k.resumable ∧
      x.toNat < 16) ∧
    crGet s c 0x050 = some k.cbank.lat ∧
    (t.chain.state < 4 → ∃ x : W, crGet s c 0x070 = some x ∧ x.toNat % 4 = t.chain.state ∧ x.getLsbD 2 = (s.bypass c.site).isSome ∧
      x.toNat / 2 ^ 8 % 2 ^ 8 = t.chain.cpos % 2 ^ 8 ∧ x.toNat / 2 ^ 16 % 2 ^ 8 = t.chain.rpos % 2 ^ 8 ∧
      x.toNat / 2 ^ 24 % 2 ^ 8 = t.chain.ceff % 2 ^ 8 ∧ x.toNat / 2 ^ 32 % 2 ^ 8 = t.chain.reff % 2 ^ 8 ∧
      x.toNat / 2 ^ 48 = t.chain.chainId % 2 ^ 16) ∧
    (k.inj.length ≤ 64 → k.ext.length ≤ 64 → ∃ x : W, crGet s c 0x090 = some x ∧ x.toNat % 2 ^ 8 = k.inj.length ∧
      x.toNat / 2 ^ 8 % 2 ^ 8 = k.ext.length ∧ ((∀ y, k.coll = some y → y.shown = false) → x.toNat < 2 ^ 16) ∧
      ∀ y, k.coll = some y → y.shown = true → x.toNat / 2 ^ 16 % 2 ^ 16 = y.seq % 2 ^ 16 ∧ x.toNat / 2 ^ 32 % 8 = y.state % 8 ∧
        x.getLsbD 35 = (y.usable && decide (y.consumed = y.inWords)) ∧ x.getLsbD 36 = (y.usable && decide (y.delivered = y.outWords)) ∧
        x.getLsbD 37 = y.abrt ∧ x.getLsbD 38 = y.norerun ∧ x.toNat < 2 ^ 39) ∧
    (∀ n, (crGet s c n).isSome = listedIndex n)

/-- R4, R27, R98: CRWR completes for every register that holds plain values: it stores the bits the register has, and no other register of the
core changes; a write of a read-only register is ignored. A write of a TASKn is ordered after the core's earlier accesses (R28). -/
def Sys2Proof.CrwrWrites : Prop :=
  ∀ (e : Enc) (s : State), clear (.crwr e) s = true → indexAllowed s e.immHigh = true →
    (e.immHigh < 0x100 ∨ earlierDone (seen s) s.cur 1 = true) →
    (∀ old x, crGet (seen s) s.cur e.immHigh = some old → stored e.immHigh ((seen s).me.g e.b) old = some x →
      ∃ t, Completes (.crwr e) e s t ∧ crGet t s.cur e.immHigh = some x ∧
        (∀ n, n ≠ e.immHigh → crGet t s.cur n = crGet (seen s) s.cur n) ∧ (∀ n, t.me.g n = (seen s).me.g n) ∧
        t.here.mem = s.here.mem ∧ { t with tiles := s.tiles } = s) ∧
    (readOnlyIndex e.immHigh = true → Completes (.crwr e) e s (seen s))

/-- R62, R66, R67, R98, R125, R175, R230, R241, R242, R251: the writes of the registers that do more than store, each as the step of its name. FP_MODE
takes a rounding mode other than 1 and 7; FP_FLAGS loses the bits written as one once every earlier instruction's flags are in; the seed is
never 0; a code window bound is clamped, and one that would cover an enabled ring traps; MCFGn takes 23 bits once no open command names m[n];
TASKn takes its fields, after HPCOUNT has gone to 0 where no low-priority work is left (R251); ENGCTXn of the flow core takes its fields and keeps those that binding sets.
The steps FP_MODE_WRITE, FP_FLAGS_CLEAR, SROUND_SEED_WRITE, CODE_WINDOW_WRITE, MCFG_REGISTER_WRITE, TASK_ENTRY_WRITE and ENGCTX_WRITE complete. -/
def Sys2Proof.RegisterWriteSteps : Prop :=
  (∀ v s, bits v.toNat 0 3 ≠ 1 → bits v.toNat 0 3 ≠ 7 → exec (.fpModeWrite v) s = .next (s.modCtl s.cur fun r => { r with fpMode := v &&& 0xF })) ∧
  (∀ v s, (bits v.toNat 0 3 = 1 ∨ bits v.toNat 0 3 = 7) → s.me.act.isSome = true →
    exec (.fpModeWrite v) s = .next (takeTrap s s.cur 0x03 0 s.me.pc)) ∧
  (∀ v s, ringsOverlap s.here (boundOf v).toNat s.me.ctl.xbound.toNat = true → s.me.act.isSome = true →
    exec (.codeWindowWrite false v) s = .next (takeTrap s s.cur 0x03 0 s.me.pc)) ∧
  (∀ v s, flagsDone s s.cur = true → exec (.fpFlagsClear v) s = .next (s.modCtl s.cur fun r => { r with fpFlags := r.fpFlags &&& ~~~v })) ∧
  (∀ v s, drawsDone s s.cur = true →
    exec (.sroundSeedWrite v) s = .next (s.modCtl s.cur fun r => { r with seed := if v &&& 0xFFFFFFFF = 0 then 1 else v &&& 0xFFFFFFFF })) ∧
  (∀ v s, ringsOverlap s.here (boundOf v).toNat s.me.ctl.xbound.toNat = false →
    exec (.codeWindowWrite false v) s = .next (s.modCtl s.cur fun r => { r with codeBase := boundOf v })) ∧
  (∀ v s, ringsOverlap s.here s.me.ctl.codeBase.toNat (boundOf v).toNat = false →
    exec (.codeWindowWrite true v) s = .next (s.modCtl s.cur fun r => { r with xbound := boundOf v })) ∧
  (∀ v s, ringsOverlap s.here s.me.ctl.codeBase.toNat (boundOf v).toNat = true → s.me.act.isSome = true →
    exec (.codeWindowWrite true v) s = .next (takeTrap s s.cur 0x03 0 s.me.pc)) ∧
  (∀ n v s, s.cur.kind = .math → s.here.namesM n = false →
    exec (.mcfgRegisterWrite n v) s = .next (s.modHere fun t => { t with mcfg := vset t.mcfg n (v &&& 0x7FFFFF) })) ∧
  (∀ n v s, exec (.taskEntryWrite n v) s = .next (s.modMe fun k =>
    { k with hpCount := if k.lo.act.isNone && !k.anyPending false then 0 else k.hpCount }.setTask n (bitsOf v 1 21 ||| bitsOf v 32 5))) ∧
  (∀ n v s, s.cur.kind = .flow → ∃ t, exec (.engctxWrite n v) s = .next t ∧
    let x := vget t.me.ctl.engctx n
    let old := vget s.me.ctl.engctx n
    W.bits x 0 4 = Nat.min (W.bits v 0 4) 12 ∧ W.bits x 6 16 = W.bits v 6 16 ∧ W.bits x 22 12 = W.bits old 22 12 ∧ x.getLsbD 63 = old.getLsbD 63 ∧
    (∀ m, m % 4 ≠ n % 4 → vget t.me.ctl.engctx m = vget s.me.ctl.engctx m)) ∧
  (∀ n v s, s.cur.kind ≠ .flow → exec (.engctxWrite n v) s = .next s)

/-- R27, R28, R62, R98, R175, R180, R241, R242: a CRWR of one of these registers completes with the step of that register's write, by the core that
issues it; at supervisor level that of a RINGn enables or disables the ring, or moves CONS of one that stays enabled. An FP_MODE of 1 or 7, a
code window that would cover an enabled ring, a ring that may not stand where it is put and a new place for one that is enabled trap with
ILLEGAL_OPERAND. -/
def Sys2Proof.CrwrIsTheWriteStep : Prop :=
  ∀ (e : Enc) (s : State), clear (.crwr e) s = true → indexAllowed s e.immHigh = true →
    (e.immHigh < 0x100 ∨ earlierDone (seen s) s.cur 1 = true) →
    let u := seen s
    let x := u.me.g e.b
    let same := fun (i : Instr) => ∃ t, exec i u = .next t ∧ Completes (.crwr e) e s t
    (e.immHigh = 0x010 → bits x.toNat 0 3 ≠ 1 → bits x.toNat 0 3 ≠ 7 → same (.fpModeWrite x)) ∧
    (e.immHigh = 0x011 → flagsDone u s.cur = true → same (.fpFlagsClear x)) ∧
    (e.immHigh = 0x012 → drawsDone u s.cur = true → same (.sroundSeedWrite x)) ∧
    (e.immHigh = 0x020 → ringsOverlap u.here (boundOf x).toNat u.me.ctl.xbound.toNat = false → same (.codeWindowWrite false x)) ∧
    (e.immHigh = 0x021 → ringsOverlap u.here u.me.ctl.codeBase.toNat (boundOf x).toNat = false → same (.codeWindowWrite true x)) ∧
    (∀ n, n < 8 → e.immHigh = 0x060 + n → u.here.namesM n = false → same (.mcfgRegisterWrite n x)) ∧
    (∀ n, n < 4 → e.immHigh = 0x080 + n → same (.engctxWrite n x)) ∧
    (∀ n, n < 64 → e.immHigh = 0x100 + n → same (.taskEntryWrite n x)) ∧
    (∀ n, n < 64 → e.immHigh = 0x140 + n → u.me.sup = false → same (.ringConsWrite n x)) ∧
    (e.immHigh = 0x010 → (bits x.toNat 0 3 = 1 ∨ bits x.toNat 0 3 = 7) → Traps (.crwr e) s 0x03 0) ∧
    (e.immHigh = 0x020 → ringsOverlap u.here (boundOf x).toNat u.me.ctl.xbound.toNat = true → Traps (.crwr e) s 0x03 0) ∧
    (e.immHigh = 0x021 → ringsOverlap u.here u.me.ctl.codeBase.toNat (boundOf x).toNat = true → Traps (.crwr e) s 0x03 0) ∧
    (∀ n, n < 64 → e.immHigh = 0x140 + n → u.me.sup = true →
      let old := u.me.ring n
      let moved := W.bits x 0 16 ≠ W.bits old 0 16 ∨ Nat.min (W.bits x 16 4) 11 ≠ W.bits old 16 4
      (ringEn old = false → x.getLsbD 20 = true → ringPlaced u.here (ringValue (W.bits x 0 16) (Nat.min (W.bits x 16 4) 11) true 0 0) = true →
        same (.ringEnable n x)) ∧
      (ringEn old = false → x.getLsbD 20 = true → ringPlaced u.here (ringValue (W.bits x 0 16) (Nat.min (W.bits x 16 4) 11) true 0 0) = false →
        Traps (.crwr e) s 0x03 0) ∧
      (ringEn old = true → ¬moved → x.getLsbD 20 = false → same (.ringDisable n x)) ∧
      (ringEn old = true → ¬moved → x.getLsbD 20 = true → ringPlaced u.here old = true → same (.ringConsWrite n x)) ∧
      (ringEn old = true → moved → Traps (.crwr e) s 0x03 0))

/-- R180, R242, R243: the writes of a ring entry. Enabling a ring whose range lies in user memory and outside every code window sets EN with both
indices 0, and one that lies elsewhere traps; disabling one clears EN and drops its records, and keeps its indices, which is the model's choice
(log 32); a new place for an enabled ring traps; a write of CONS of a polled ring moves CONS to the value written,
and only within what has been produced: any other is ignored.
The steps RING_ENABLE, RING_DISABLE and RING_CONS_WRITE complete. -/
def Sys2Proof.RingWrites : Prop :=
  (∀ n v s, v.getLsbD 20 = true → ringEn (s.me.ring n) = false →
    ringPlaced s.here (ringValue (W.bits v 0 16) (Nat.min (W.bits v 16 4) 11) true 0 0) = true →
    ∃ t, exec (.ringEnable n v) s = .next t ∧ ringEn (t.me.ring n) = true ∧ ringCons (t.me.ring n) = 0 ∧ ringProd (t.me.ring n) = 0 ∧
      ringBase (t.me.ring n) = W.bits v 0 16 * 64 ∧ ringGran (t.me.ring n) = 2 ^ (Nat.min (W.bits v 16 4) 11 + 3) ∧
      (∀ m, m % 64 ≠ n % 64 → t.me.ring m = s.me.ring m) ∧ t.here.mem = s.here.mem) ∧
  (∀ n v s, n < 64 → v.getLsbD 20 = false → ringEn (s.me.ring n) = true → W.bits v 0 16 = W.bits (s.me.ring n) 0 16 →
    Nat.min (W.bits v 16 4) 11 = W.bits (s.me.ring n) 16 4 →
    ∃ t, exec (.ringDisable n v) s = .next t ∧ ringEn (t.me.ring n) = false ∧ ringCons (t.me.ring n) = ringCons (s.me.ring n) ∧
      ringProd (t.me.ring n) = ringProd (s.me.ring n) ∧ t.me.recsOf n = [] ∧ (∀ m, m % 64 ≠ n % 64 → t.me.ring m = s.me.ring m)) ∧
  (∀ n v s, v.getLsbD 20 = true → ringEn (s.me.ring n) = false → s.me.act.isSome = true →
    ringPlaced s.here (ringValue (W.bits v 0 16) (Nat.min (W.bits v 16 4) 11) true 0 0) = false →
    exec (.ringEnable n v) s = .next (takeTrap s s.cur 0x03 0 s.me.pc)) ∧
  (∀ n v s, v.getLsbD 20 = false → ringEn (s.me.ring n) = true → s.me.act.isSome = true →
    (W.bits v 0 16 ≠ W.bits (s.me.ring n) 0 16 ∨ Nat.min (W.bits v 16 4) 11 ≠ W.bits (s.me.ring n) 16 4) →
    exec (.ringDisable n v) s = .next (takeTrap s s.cur 0x03 0 s.me.pc)) ∧
  (∀ n v s, s.me.isPolled n = true →
    (W.bits v 24 16 + 65536 - ringCons (s.me.ring n)) % 65536 ≤ (ringProd (s.me.ring n) + 65536 - ringCons (s.me.ring n)) % 65536 →
    ∃ t, exec (.ringConsWrite n v) s = .next t ∧ ringCons (t.me.ring n) = W.bits v 24 16 ∧ ringProd (t.me.ring n) = ringProd (s.me.ring n) ∧
      ringEn (t.me.ring n) = true) ∧
  (∀ n v s, (s.me.isPolled n = false ∨
      (ringProd (s.me.ring n) + 65536 - ringCons (s.me.ring n)) % 65536 < (W.bits v 24 16 + 65536 - ringCons (s.me.ring n)) % 65536) →
    exec (.ringConsWrite n v) s = .next s)

/-! ### Loads, stores and atomics -/

namespace Sys2Proof

/-- R177: the member number of a cluster-window address and the name it stands for. -/
def memberAt (t : Tile) (a : Nat) : Option (Nat × Nat) :=
  if 0x10000000 ≤ a ∧ a < 0x14000000 ∧ a % 0x00400000 < 0x002C0000 then
    (lookup t.cluster ((a - 0x10000000) / 0x00400000)).map fun name => ((a - 0x10000000) / 0x00400000, name)
  else none
/-- R171: the first fault that an access of `n` bytes meets. -/
def addrFault (s : State) (a n : Nat) (write queue : Bool) : Option Nat :=
  if a % n ≠ 0 then some 0x09
  else if a < 0x00300000 then
    if 0x002C0000 ≤ a ∧ s.me.sup = false then some 0x0B
    else if s.me.ctl.codeBase.toNat ≤ a ∧ a < s.me.ctl.xbound.toNat then some 0x08
    else if write = true ∧ s.me.ctl.rowinLo.toNat ≤ a ∧ a < s.me.ctl.rowinHi.toNat then some 0x0B
    else none
  else if (a = 0x00300000 ∧ queue = true ∧ write = true) ∨ (a = 0x00300800 ∧ queue = true ∧ write = false) then none
  else match memberAt s.here a with
    | none => some 0x0A
    | some (k, _) => if k ∈ s.here.left then some 0x0C else none
/-- R177, R178: the tile of another cluster member: the one at which the core's request has found it, while it stands there. -/
def siteFor (s : State) (name : Nat) : Option Site :=
  (s.me.wait.bind fun x => lookup x.sites name).filter fun t =>
    let x := s.tile t
    x.bound && x.vni == s.here.vni && x.name == name && !x.hold && x.fwd.isNone
/-- R170, R177: the tile and byte that an address means; none for a queue and for a member that the core's request has not found. -/
def target (s : State) (a : Nat) : Option (Site × Nat) :=
  if a < 0x00300000 then some (s.cur.site, a)
  else match memberAt s.here a with
    | none => none
    | some (_, name) =>
      if name = s.here.name then some (s.cur.site, a % 0x00400000) else (siteFor s name).map fun t => (t, a % 0x00400000)
/-- The name of the tile that an address lies in. -/
def nameOf (s : State) (a : Nat) : Nat := if a < 0x00300000 then s.here.name else ((memberAt s.here a).map (·.2)).getD s.here.name
/-- R191, R218: a RAMO of the core to one of `n` bytes at an address has not been performed. -/
def ramoPending (s : State) (a n : Nat) : Bool := ramoHits s s.cur (nameOf s a) (a % 0x00400000) n
/-- The address lies in the window of another member. -/
def isRemote (s : State) (a : Nat) : Bool := decide (0x00300000 ≤ a) && (memberAt s.here a).any fun m => m.2 != s.here.name

/-- R212, R217: the address, the width in bytes, whether it writes, and whether it may reach a queue (R170). -/
def memAccess (i : Instr) (k : Core) : Option (W × Nat × Bool × Bool) :=
  match i with
  | .ld e => some (k.g e.b + BitVec.ofInt 64 (8 * e.immS .ri), 8, false, e.pred.isNone)
  | .ldn e =>
    let n : Nat := if e.fnv < 2 then 4 else if e.fnv < 4 then 2 else 1
    some (k.g e.b + BitVec.ofInt 64 (n * e.immS .ri), n, false, false)
  | .st e => some (k.g e.b + BitVec.ofInt 64 (8 * e.immS .ri), 8, true, e.pred.isNone)
  | .stn e =>
    let n : Nat := if e.fnv = 0 then 4 else if e.fnv = 1 then 2 else 1
    some (k.g e.b + BitVec.ofInt 64 (n * e.immS .ri), n, true, false)
  | .amo e | .cas e | .bop e => some (k.g e.b, 8, true, false)
  | .amow e | .casw e | .bopw e => some (k.g e.b, 4, true, false)
  | _ => none
/-- The two loads. -/
def isLoad : Instr → Bool
  | .ld _ | .ldn _ => true
  | _ => false
/-- The forms that a bank performs later (R217). -/
def isBop : Instr → Bool
  | .bop _ | .bopw _ => true
  | _ => false
/-- The low `n` bytes of a number, as a signed word. -/
def signed (n x : Nat) : W := BitVec.ofInt 64 (if x % 256 ^ n < 256 ^ n / 2 then (x % 256 ^ n : Int) else (x % 256 ^ n : Int) - 256 ^ n)

/-- R212, R216, R217: the effect of an access at byte `o` of a tile: what is stored there, and what g[a] receives, a poisoned word handing on its poison
(R398). None where an atomic meets a poisoned word. -/
def accessed (i : Instr) (u : State) (t : Site) (o : Nat) (a : W) : Option State :=
  let x := u.tile t
  let k := u.me
  let marks : List (Nat × W) := if x.bad o then [(0, BitVec.ofNat 64 (a.toNat / 8 * 8))] else []
  let put := fun (e : Enc) (n y : Nat) (old : W) =>
    some ((u.modTile t fun x => x.store o (leBytes n y)).modMe fun k => k.writeW e.L .g e.a old)
  let bank := fun (e : Enc) (n : Nat) => some (u.modTile t fun x => { x with bankq := x.bankq ++ [⟨u.cur, o, n, e.fnv, k.g e.c, k.pc, k.lev⟩] })
  match i with
  | .ld e => some (u.modMe fun k => k.writeW e.L .g e.a (BitVec.ofNat 64 (Mem.load x.mem o 8)) marks)
  | .ldn e =>
    let n : Nat := if e.fnv < 2 then 4 else if e.fnv < 4 then 2 else 1
    some (u.modMe fun k => k.writeW e.L .g e.a
      (if e.fnv % 2 = 0 then signed n (Mem.load x.mem o n) else BitVec.ofNat 64 (Mem.load x.mem o n)) marks)
  | .st e => some (u.modTile t fun x => x.store o (leBytes 8 (k.g e.a).toNat))
  | .stn e =>
    let n : Nat := if e.fnv = 0 then 4 else if e.fnv = 1 then 2 else 1
    some (u.modTile t fun x => x.store o (leBytes n (k.g e.a).toNat))
  | .amo e => if x.bad o then none else put e 8 (oper e.fnv 64 (Mem.load x.mem o 8) (k.g e.c).toNat) (BitVec.ofNat 64 (Mem.load x.mem o 8))
  | .amow e =>
    if x.bad o then none
    else put e 4 (oper e.fnv 32 (Mem.load x.mem o 4) ((k.g e.c).toNat % 2 ^ 32)) (signed 4 (Mem.load x.mem o 4))
  | .cas e =>
    if x.bad o then none
    else if Mem.load x.mem o 8 = (k.g e.a).toNat then put e 8 (k.g e.c).toNat (BitVec.ofNat 64 (Mem.load x.mem o 8))
    else some (u.modMe fun k => k.writeW e.L .g e.a (BitVec.ofNat 64 (Mem.load x.mem o 8)))
  | .casw e =>
    if x.bad o then none
    else if Mem.load x.mem o 4 = (k.g e.a).toNat % 2 ^ 32 then put e 4 ((k.g e.c).toNat % 2 ^ 32) (signed 4 (Mem.load x.mem o 4))
    else some (u.modMe fun k => k.writeW e.L .g e.a (signed 4 (Mem.load x.mem o 4)))
  | .bop e => bank e 8
  | .bopw e => bank e 4
  | _ => none

end Sys2Proof

/-- R171, R175 to R178, R212, R217: the scalar loads, the stores and the atomics take the first fault of the address map, with the address as DETAIL,
and then have no effect: ALIGN, TM_PROTECT, EXEC_ONLY, TM_RANGE, CLUSTER_GONE. -/
def Sys2Proof.AddressFaults : Prop :=
  ∀ (i : Instr) (e : Enc) (s : State) (a : W) (n : Nat) (write queue : Bool) (cause : Nat), encOf i = some e → clear i s = true →
    formOk i = true → memAccess i (seen s).me = some (a, n, write, queue) → addrFault (seen s) a.toNat n write queue = some cause →
    Traps i s cause a

/-- R212, R216, R217, R177, R191: LD, LDN, ST, STN, AMO, AMOW, CAS, CASW, BOP and BOPW complete, at the issuing core's tile, or at a cluster member's once the
request has arrived there, where no earlier RAMO of the core to the same bytes is still to be performed: a load gives g[a] the little-endian bytes at the address, LDN's sign-extended or zero-extended; a store
puts the low bytes of g[a] there; an AMO or a matching CAS puts the operation's result there and every one gives g[a] the old value, the
32-bit forms sign-extended; BOP leaves its operation with the bank of the word. -/
def Obligations.AccessesComplete : Prop :=
  ∀ (i : Instr) (e : Enc) (s t : State) (a : W) (n : Nat) (write queue : Bool) (site : Site) (o : Nat), encOf i = some e →
    clear i s = true → formOk i = true → memAccess i (seen s).me = some (a, n, write, queue) →
    addrFault (seen s) a.toNat n write queue = none → (isLoad i = true ∨ mayRelease e (seen s) = true) →
    ramoPending (seen s) a.toNat n = false →
    target (seen s) a.toNat = some (site, o) → (isRemote (seen s) a.toNat = true → (seen s).me.wait.any (·.done) = true) →
    accessed i (seen s) site o a = some t → Completes i e s t

/-- R217, R398: AMO and CAS on a poisoned word trap with ECC_POISON and write nothing. -/
def Sys2Proof.AtomicOnPoison : Prop :=
  ∀ (i : Instr) (e : Enc) (s : State) (a : W) (n : Nat) (write queue : Bool) (site : Site) (o : Nat), encOf i = some e →
    clear i s = true → formOk i = true → memAccess i (seen s).me = some (a, n, write, queue) →
    addrFault (seen s) a.toNat n write queue = none → mayRelease e (seen s) = true → ramoPending (seen s) a.toNat n = false →
    target (seen s) a.toNat = some (site, o) → (isRemote (seen s) a.toNat = true → (seen s).me.wait.any (·.done) = true) →
    isLoad i = false → isBop i = false → accessed i (seen s) site o a = none →
    Traps i s 0x19 (BitVec.ofNat 64 (a.toNat / 8 * 8))

/-- A packet of the core to a name can be injected: the bounce area has room, no bounced packet of its flow is out, the region is not
stalled by a route change, and the name is not MOVING (R181, R262, R345, R360). -/
def Sys2Proof.canInject (u : State) (vc name : Nat) (kind : CoreKind) (chan : Nat) (body : Body) : Prop :=
  u.me.reserved + reserveSize body ≤ 65536 ∧
  (∀ q ∈ u.pkts, q.src = u.cur → q.name = name → q.kind = kind → q.chan = chan → q.vc = vc → q.state ≠ 1 ∧ q.reinj = 0) ∧
  (∀ r, u.region u.here.vni = some r → r.stalled = false) ∧ ∀ d, resolve u.here name ≠ .moving d

/-- R171, R177, R178, R191, R268: an access through the window of another cluster member sends a request to that member's tile and the core waits,
blocked-on kind 11, until it has been performed; it waits with kind 10 where the request cannot be sent yet (a MOVING member), and asks again where
the member has moved since its request found it. An access to bytes that an earlier RAMO of the core has still to operate on waits for it,
blocked-on kind 11, with the name of the tile. That one request packet and one answer stand for the access at each member is the model's choice
(log 26). -/
def Sys2Proof.RemoteAccessesWait : Prop :=
  ∀ (i : Instr) (e : Enc) (s : State) (a : W) (n : Nat) (write queue : Bool), encOf i = some e → clear i s = true →
    formOk i = true → memAccess i (seen s).me = some (a, n, write, queue) →
    addrFault (seen s) a.toNat n write queue = none → (isLoad i = true ∨ mayRelease e (seen s) = true) →
    (a.toNat < 0x00300000 ∨ (memberAt s.here a.toNat).isSome = true) →
    let u := seen s
    (ramoPending u a.toNat n = true → exec i s = .next (u.modMe fun k => k.block 11 0 (nameOf u a.toNat))) ∧
    (∀ k name, ramoPending u a.toNat n = false → memberAt s.here a.toNat = some (k, name) → name ≠ s.here.name →
      (u.me.wait = none → canInject u 1 name s.cur.kind 0 .cluster → ∃ u', inject u s.cur 1 name s.cur.kind 0 .cluster = some u' ∧
        exec i s = .next (u'.modMe fun c => { c with wait := some ⟨i, s.nextPkt, false, [], []⟩ }.block 11 0 name)) ∧
      (u.me.wait = none → (∃ d, resolve u.here name = .moving d) → Waits i s 10 0) ∧
      (∀ x, u.me.wait = some x → x.done = true → siteFor u name = none → canInject u 1 name s.cur.kind 0 .cluster →
        ∃ u', inject u s.cur 1 name s.cur.kind 0 .cluster = some u' ∧ exec i s = .next (u'.modMe fun c =>
          { c with wait := some ⟨i, s.nextPkt, false, x.sites.filter (·.1 != name), []⟩ }.block 11 0 name)) ∧
      (∀ x, u.me.wait = some x → x.done = false → exec i s = .next u))

/-- R172, R212, R217: the frame of the scalar loads, the stores and the atomics. Every byte of every tile outside the bytes of the access reads as
before, and for a load and a BOP every byte; every register but the g[a] that a load or an atomic names is unchanged, as are the vector,
capability and port registers and the control registers; the PC goes to the next instruction. -/
def Obligations.AccessFrame : Prop :=
  ∀ (i : Instr) (e : Enc) (s t : State) (a : W) (n : Nat) (write queue : Bool) (site : Site) (o : Nat), encOf i = some e →
    MemsWf s → clear i s = true → formOk i = true → memAccess i (seen s).me = some (a, n, write, queue) →
    addrFault (seen s) a.toNat n write queue = none → (isLoad i = true ∨ mayRelease e (seen s) = true) →
    ramoPending (seen s) a.toNat n = false →
    target (seen s) a.toNat = some (site, o) → (isRemote (seen s) a.toNat = true → (seen s).me.wait.any (·.done) = true) →
    (accessed i (seen s) site o a).isSome = true → exec i s = .next t →
    let u := seen s
    let writesG := match i with
      | .st _ | .stn _ | .bop _ | .bopw _ => false
      | _ => true
    (∀ (x : Site) (b : Nat), (Site.num x ≠ Site.num site ∨ isLoad i = true ∨ isBop i = true ∨ b < o ∨ o + n ≤ b) →
      Mem.byteAt (t.tile x).mem b = Mem.byteAt (s.tile x).mem b) ∧
    (∀ m, ¬(writesG = true ∧ m % 32 = e.a % 32) → t.me.g m = u.me.g m) ∧ (∀ m, t.me.p m = u.me.p m) ∧
    t.me.bank (!u.me.lev) = u.me.bank (!u.me.lev) ∧ t.me.v = u.me.v ∧ t.me.c = u.me.c ∧ t.me.q = u.me.q ∧ t.me.streams = u.me.streams ∧
    t.me.ctl = u.me.ctl ∧ t.me.pc = npc s.me.pc e

/-- R173, R215, R216, R398: a bank performs an operation that has reached it, no earlier one of the same core touching its word: the word takes
OPER of its old value and the operand, and no other byte changes; on a poisoned word nothing is written and the issuing core is to trap.
The step BANK_RMW completes. -/
def Sys2Proof.BankPerforms : Prop :=
  ∀ (site : Site) (i : Nat) (x : BankOp) (s : State), Mem.wf (s.tile site).mem = true → (s.tile site).bankq[i]? = some x →
    (∀ j y, j < i → (s.tile site).bankq[j]? = some y → ¬(y.addr / 8 = x.addr / 8 ∧ y.src = x.src)) →
    ((s.tile site).bad x.addr = false → ∃ t, exec (.bankRmw site i) s = .next t ∧
      (t.tile site).bankq = (s.tile site).bankq.eraseIdx i ∧
      Mem.load (t.tile site).mem x.addr x.width =
        oper x.fn (8 * x.width) (Mem.load (s.tile site).mem x.addr x.width) (x.x.toNat % 2 ^ (8 * x.width)) % 2 ^ (8 * x.width) ∧
      (∀ b, b < x.addr ∨ x.addr + x.width ≤ b → Mem.byteAt (t.tile site).mem b = Mem.byteAt (s.tile site).mem b) ∧
      (∀ c, t.core c = s.core c)) ∧
    ((s.tile site).bad x.addr = true → (s.core x.src).ptrap = none → ∃ t, exec (.bankRmw site i) s = .next t ∧
      (t.tile site).bankq = (s.tile site).bankq.eraseIdx i ∧ (t.tile site).mem = (s.tile site).mem ∧
      (t.core x.src).ptrap = some ⟨0x19, BitVec.ofNat 64 (x.addr / 8 * 8), x.pc, 0, x.hi⟩)

/-- R179, R275: an LD of the extraction queue pops one word of the current instance's results into g[a], and waits while the queue holds none; an ST to
the injection queue pushes g[a] at its end, and waits while it is full. That the two waits have OBJ 1 and 0 is the model's choice (log 28). -/
def Sys2Proof.QueueAccesses : Prop :=
  ∀ (e : Enc) (s : State) (y : Coll), (seen s).me.coll = some y → e.pred = none → y.usable = true → y.state ≠ 5 → y.state ≠ 6 →
    let u := seen s
    (∀ x rest, clear (.ld e) s = true → u.me.g e.b + BitVec.ofInt 64 (8 * e.immS .ri) = 0x00300800 → y.popped + 1 < y.outWords →
      u.me.ext = x :: rest →
      Completes (.ld e) e s (u.modMe fun k =>
        { k with ext := rest, coll := some { y with popped := y.popped + 1 } }.writeW e.L .g e.a x)) ∧
    (clear (.ld e) s = true → u.me.g e.b + BitVec.ofInt 64 (8 * e.immS .ri) = 0x00300800 → y.popped < y.outWords → u.me.ext = [] →
      Waits (.ld e) s 6 1) ∧
    (clear (.st e) s = true → u.me.g e.b + BitVec.ofInt 64 (8 * e.immS .ri) = 0x00300000 → y.pushed < y.inWords → u.me.inj.length < 64 →
      Completes (.st e) e s (u.modMe fun k =>
        { k with inj := k.inj ++ [k.g e.a], coll := some { y with pushed := y.pushed + 1 } })) ∧
    (clear (.st e) s = true → u.me.g e.b + BitVec.ofInt 64 (8 * e.immS .ri) = 0x00300000 → y.pushed < y.inWords → 64 ≤ u.me.inj.length →
      Waits (.st e) s 6 0)

/-! ### Messages, ports and semaphores -/

namespace Sys2Proof

/-- R221, R244: the send buffer of the running bank takes an entry at its end, numbered after the core's earlier sends. -/
def sendAdded (u : State) (rel : Option Nat) (x : Send) : State :=
  u.modMe fun k => { k.modBank k.lev fun b => { b with sends := b.sends ++ [⟨x, k.sendNo + 1, k.orderAt rel⟩] } with sendNo := k.sendNo + 1 }
/-- R247: the send buffer of the running bank has room. -/
def sendRoom (k : Core) : Bool := decide (k.cbank.sends.length < 32) && !k.cbank.spill
/-- R198: the scope of a send annotated release. -/
def releaseScope (e : Enc) : Option Nat := if 2 ≤ e.kind then some e.scope else none
/-- R221, R191: the words of a payload may be read, none of them in another member's window and none that an earlier RAMO of the core
has still to operate on. -/
def footOk (u : State) (a : W) (n : Nat) : Bool :=
  (List.range n).all fun j => (addrFault u (a + BitVec.ofNat 64 (8 * j)).toNat 8 false false).isNone
    && !isRemote u (a + BitVec.ofNat 64 (8 * j)).toNat && !ramoPending u (a + BitVec.ofNat 64 (8 * j)).toNat 8
/-- The bytes of `n` words from an address of the core, and which of the words are poisoned. -/
def footBytes (u : State) (a : W) (n : Nat) : List Byte :=
  (List.range n).flatMap fun j => match target u (a + BitVec.ofNat 64 (8 * j)).toNat with
    | some (t, o) => Mem.bytes (u.tile t).mem o 8
    | none => []
def footPoison (u : State) (a : W) (n : Nat) : List Nat :=
  (List.range n).filter fun j => match target u (a + BitVec.ofNat 64 (8 * j)).toNat with
    | some (t, o) => (u.tile t).bad o
    | none => false
/-- The word that PX.IMM or g[c] gives a form. -/
def wordGiven (e : Enc) (k : Core) : Nat := if e.imms.isEmpty then (k.g e.c).toNat else e.immHigh
/-- R220: the fields of a send word: LEN, CHAN, FLAGS, REMOTE. -/
def lenOf (x : Nat) : Nat := x % 2 ^ 12
def chanOf (x : Nat) : Nat := x / 2 ^ 16 % 64
def flagsOf (x : Nat) : Nat := x / 2 ^ 24 % 256
def remoteOf (x : Nat) : Nat := x / 2 ^ 32 % 2 ^ 22
/-- R344: the instruction that the core runs has passed its injection checks before it waited; they are not made again. -/
def hasPassed (k : Core) : Bool := k.checked == some (k.lev, k.pos)
/-- R251, R344: a capability of the core passes the checks of an injection. -/
def capOk (u : State) (c : Cap) (right : Nat) (chan : Option Nat) : Bool := hasPassed u.me || (capCheck u u.cur.site c right chan).isNone
/-- A request of the core to another tile that waits for its answer. -/
def asked (u : State) (i : Instr) (name : Nat) (u' : State) : State :=
  u'.modMe fun k => { k with wait := some ⟨i, u.nextPkt, true, [], []⟩ }.block 11 0 name

end Sys2Proof

/-- R220 to R222, R247, R344: SEND, SENDF, PUT and VSEND complete, where the capability's seal, its SEND right and its channel range pass, or passed
before the instruction waited, the send word is well formed and the payload is readable: the send buffer takes one entry: SEND and PUT with the LEN bytes at g[b], SENDF with g[b] and g[c],
VSEND with the 64 bytes of v[b], inactive lanes zero. -/
def Sys2Proof.SendsComplete : Prop :=
  ∀ (e : Enc) (s : State), sendRoom (seen s).me = true → mayRelease e (seen s) = true →
    let u := seen s
    let cap := u.me.capReg e.a
    let x := wordGiven e u.me
    let v := u.modMe Core.passed
    (clear (.send e) s = true → badSend x = false → capOk u cap 0 (some (chanOf x)) = true → (u.me.g e.b).toNat % 8 = 0 →
      footOk u (u.me.g e.b) (lenOf x / 8) = true →
      Completes (.send e) e s (sendAdded v (releaseScope e)
        (.message cap (chanOf x) (flagsOf x) (footBytes u (u.me.g e.b) (lenOf x / 8)) (footPoison u (u.me.g e.b) (lenOf x / 8))))) ∧
    (clear (.put e) s = true → badPut x = false → capOk u cap 0 none = true → (u.me.g e.b).toNat % 8 = 0 →
      footOk u (u.me.g e.b) (lenOf x / 8) = true →
      Completes (.put e) e s (sendAdded v (releaseScope e)
        (.put cap (remoteOf x) (footBytes u (u.me.g e.b) (lenOf x / 8)) (footPoison u (u.me.g e.b) (lenOf x / 8))))) ∧
    (clear (.sendf e) s = true → formOk (.sendf e) = true → capOk u cap 0 (some (chanOf e.immHigh)) = true →
      Completes (.sendf e) e s (sendAdded u (releaseScope e)
        (.message cap (chanOf e.immHigh) (flagsOf e.immHigh) (leBytes 8 (u.me.g e.b).toNat ++ leBytes 8 (u.me.g e.c).toNat) []))) ∧
    (clear (.vsend e) s = true → formOk (.vsend e) = true → u.me.vq = [] → u.me.pend = [] → e.b < 12 → u.me.vmarks e.b = [] →
      capOk u cap 0 (some (chanOf e.immHigh)) = true → (∃ j, j < 64 ∧ (u.me.pred e).getLsbD j = true) →
      ∃ payload, Completes (.vsend e) e s (sendAdded u (releaseScope e) (.message cap (chanOf e.immHigh) (flagsOf e.immHigh) payload [])) ∧
        payload.length = 64 ∧ ∀ j, j < 64 → payload[j]? =
          some (if (u.me.pred e).getLsbD j then (vget u.me.v e.b).extractLsb' (8 * j) 8 else 0))

/-- R220, R221, R344, R362: SEND traps on the first check that fails, in their order: the capability (CAP_SEAL or CAP_RIGHTS, with the register
and the channel as DETAIL), the send word (ILLEGAL_OPERAND), the address of the payload (ALIGN, with the address). One that has passed its
checks and waits is not checked again: `capOk` then holds. -/
def Sys2Proof.SendTraps : Prop :=
  ∀ (e : Enc) (s : State), clear (.send e) s = true → formOk (.send e) = true →
    let u := seen s
    let cap := u.me.capReg e.a
    let x := wordGiven e u.me
    (∀ cause, hasPassed u.me = false → capCheck u s.cur.site cap 0 (some (chanOf x)) = some cause →
      Traps (.send e) s cause (BitVec.ofNat 64 (e.a % 16 + chanOf x * 16))) ∧
    (capOk u cap 0 (some (chanOf x)) = true → badSend x = true → Traps (.send e) s 0x03 0) ∧
    (capOk u cap 0 (some (chanOf x)) = true → badSend x = false → (u.me.g e.b).toNat % 8 ≠ 0 → Traps (.send e) s 0x09 (u.me.g e.b))

/-- R223, R218, R191, R268: GET, RAMO and RAMOW are injected at issue, and that is their effect at the core. GET then waits for its data, blocked-on
kind 11, and a GET of length 0 completes with no effect; one whose words go to another cluster member's window first asks for that member; RAMO and RAMOW complete, their register promised to the packet's answer, and wait for it only where
they are annotated acquire or sc. A RAMO to bytes that an earlier one of the core has still to operate on waits for that one. -/
def Obligations.RemoteRequests : Prop :=
  ∀ (e : Enc) (s : State), let u := seen s
    let cap := u.me.capReg e.a
    let x := wordGiven e u.me
    (clear (.get e) s = true → badPut x = false → capOk u cap 0 none = true → (u.me.g e.b).toNat % 8 = 0 →
      (∀ j, j < lenOf x / 8 → let a := (u.me.g e.b + BitVec.ofNat 64 (8 * j)).toNat
        addrFault u a 8 true false = none ∧ ramoPending u a 8 = false) →
      let body := Body.getReq (remoteOf x) (lenOf x) (u.me.g e.b).toNat
      let v := u.modMe Core.passed
      let free := lenOf x ≠ 0 ∧ ramoHits u s.cur (cname cap) (remoteOf x) (lenOf x) = false ∧ u.me.wait = none
      let word := fun (j : Nat) => (u.me.g e.b + BitVec.ofNat 64 (8 * j)).toNat
      (lenOf x = 0 → Completes (.get e) e s v) ∧
      (free → (∀ j, j < lenOf x / 8 → isRemote u (word j) = false) → canInject u 1 (cname cap) (capKind cap) 0 body →
        ∃ u', inject v s.cur 1 (cname cap) (capKind cap) 0 body = some u' ∧ exec (.get e) s = .next (asked u (.get e) (cname cap) u')) ∧
      (∀ name v', free → 8 ≤ lenOf x → (∀ j, j < lenOf x / 8 → isRemote u (word j) = true ∧ nameOf u (word j) = name) →
        inject v s.cur 1 name s.cur.kind 0 .cluster = some v' →
        exec (.get e) s = .next (v'.modMe fun k => { k with wait := some ⟨.get e, u.nextPkt, false, [], []⟩ }.block 11 0 name))) ∧
    (∀ (i : Instr) (n : Nat), (i = .ramo e ∧ n = 8) ∨ (i = .ramow e ∧ n = 4) → clear i s = true → formOk i = true →
      capOk u (u.me.capReg e.b) 0 none = true → (u.me.g e.a).toNat % n = 0 → (u.me.g e.a).toNat + n ≤ 0x002C0000 →
      mayRelease e u = true →
      let cap := u.me.capReg e.b
      let v := u.modMe Core.passed
      let k := v.me.promise e.L .g e.a (some (cname cap))
      let body := Body.ramoReq (u.me.g e.a).toNat n e.fnv (u.me.g e.c) s.me.pc u.me.lev k.1
      (ramoHits u s.cur (cname cap) (u.me.g e.a).toNat n = false → canInject u 1 (cname cap) (capKind cap) 0 body →
        ∃ u', inject (v.setCore s.cur k.2) s.cur 1 (cname cap) (capKind cap) 0 body = some u' ∧
          ((e.kind = 0 ∨ e.kind = 2) → Completes i e s u') ∧
          ((e.kind = 1 ∨ e.kind = 3) → exec i s = .next (asked u i (cname cap) u'))) ∧
      (ramoHits u s.cur (cname cap) (u.me.g e.a).toNat n = true →
        exec i s = .next (v.modMe fun k => k.block 11 0 (cname cap))))

/-- R225, R226: QBIND, QRD, QTRY and QWR complete. QBIND binds port q[a] to an outbound channel under a capability, to an inbound channel, or to
nothing. QRD and QTRY give g[a] the next word of an inbound port's oldest message, a final partial word zero-padded, and free the message with its last
word, a release at TILE that waits for the core's earlier events there (R193, R199); QTRY also answers all ones in p[c], or all zeros where there is no message, and QRD waits there with blocked-on kind 3. QWR sends the 8 bytes of
g[b] as a message at once. On a port not so bound they trap with PORT_UNBOUND. -/
def Obligations.PortsComplete : Prop :=
  ∀ (e : Enc) (s : State), let u := seen s
    let x := wordGiven e u.me
    let inq := vget u.me.q e.b
    let outq := vget u.me.q e.a
    let body := Body.message 0 (leBytes 8 (u.me.g e.b).toNat) []
    (clear (.qbind e) s = true → x = 128 → Completes (.qbind e) e s (u.modMe fun k => { k with q := vset k.q e.a ⟨false, 0, 0, 0⟩ })) ∧
    (clear (.qbind e) s = true → 64 ≤ x → x < 128 → readable u.me (.c, e.b) = true → capOk u (u.me.capReg e.b) 0 (some (x - 64)) = true →
      Completes (.qbind e) e s (u.modMe fun k => { k with q := vset k.q e.a ⟨true, BitVec.ofNat 8 x, k.capReg e.b, 0⟩ })) ∧
    (clear (.qbind e) s = true → x < 64 → chanTaken u.me e.a x = false → (∀ r ∈ u.me.recs, 0 < r.len ∨ r.pad = true) →
      Completes (.qbind e) e s (u.modMe fun k => { k with q := vset k.q e.a ⟨true, BitVec.ofNat 8 x, 0, 0⟩ })) ∧
    (∀ i r, (i = .qrd e ∨ i = .qtry e) → clear i s = true → inbound u.me e.b = true → u.me.headRec inq.chan = some r →
      (r.len ≤ inq.read + 8 → mayFree u = true) → ∃ t, Completes i e s t ∧
        (e.L = 0 → e.a % 32 ≠ 0 → t.me.g e.a = BitVec.ofNat 64
          (Mem.load u.here.mem (ringAddr (u.me.ring inq.chan) r.at_ + 16 + inq.read) (Nat.min 8 (r.len - inq.read)))) ∧
        (i = .qtry e → e.L = 0 → t.me.p e.c = BitVec.allOnes 64) ∧
        (inq.read + 8 < r.len → vget t.me.q e.b = { inq with read := inq.read + 8 } ∧ t.me.recs = u.me.recs) ∧
        (r.len ≤ inq.read + 8 → vget t.me.q e.b = { inq with read := 0 } ∧ t.me.recs.length < u.me.recs.length)) ∧
    (∀ i r, (i = .qrd e ∨ i = .qtry e) → clear i s = true → inbound u.me e.b = true → u.me.headRec inq.chan = some r →
      r.len ≤ inq.read + 8 → mayFree u = false → Waits i s 0 0) ∧
    (clear (.qrd e) s = true → inbound u.me e.b = true → u.me.headRec inq.chan = none → Waits (.qrd e) s 3 e.b) ∧
    (clear (.qtry e) s = true → inbound u.me e.b = true → u.me.headRec inq.chan = none →
      Completes (.qtry e) e s (u.modMe fun k => k.writeW e.L .p e.c 0)) ∧
    (clear (.qwr e) s = true → outq.bound = true → outq.outbound = true → capOk u outq.cap 0 (some outq.chan) = true →
      canInject u (if u.me.lev then 5 else 0) (cname outq.cap) (capKind outq.cap) outq.chan body → (∀ p ∈ u.pkts, p.id ≠ u.nextPkt) →
      ∃ t p, Completes (.qwr e) e s t ∧ t.pkts = u.pkts ++ [p] ∧ p.src = s.cur ∧ p.name = cname outq.cap ∧ p.kind = capKind outq.cap ∧
        p.chan = outq.chan ∧ p.no = u.me.sendNo + 1 ∧ t.me.sendNo = u.me.sendNo + 1 ∧
        ∃ d : W, p.body = .message d (leBytes 8 (u.me.g e.b).toNat) []) ∧
    (∀ i, (i = .qrd e ∨ i = .qtry e) → clear i s = true → inbound u.me e.b = false → Traps i s 0x0F (BitVec.ofNat 64 e.b)) ∧
    (clear (.qwr e) s = true → (outq.bound && outq.outbound) = false → Traps (.qwr e) s 0x0F (BitVec.ofNat 64 e.a))

/-- R185, R224, R261, R345: what injecting a packet does: to a name that is BOUND or FORWARDED to a working tile it goes out to that tile; to one
that is UNBOUND it comes back at once, to be reported to its sender; while the name is MOVING, or an earlier packet of its flow is outstanding
after a bounce, or its region is stalled for a route change, or the bounce area has no room, it is not injected. How much of the bounce area a
packet takes, and that one to no tile comes back in the same step, is the model's choice (log 12). -/
def Sys2Proof.Injection : Prop :=
  ∀ (s : State) (c : CoreId) (vc name : Nat) (kind : CoreKind) (chan : Nat) (body : Body), name < 0x4000 →
    let t := s.tile c.site
    let size := reserveSize body
    let free := (s.pkts.all fun q => !(q.src == c && q.name == name && q.kind == kind && q.chan == chan && q.vc == vc
      && (q.state == 1 || q.reinj != 0))) = true ∧ (s.region t.vni).any (·.stalled) = false ∧ (size = 0 ∨ (s.core c).reserved + size ≤ 65536)
    (∀ d, resolve t name = .bound d ∨ resolve t name = .forwarded d → free → ∃ s' p, inject s c vc name kind chan body = some s' ∧
      s'.pkts = s.pkts ++ [p] ∧ p.id = s.nextPkt ∧ s'.nextPkt = s.nextPkt + 1 ∧ p.src = c ∧ p.name = name ∧ p.kind = kind ∧ p.chan = chan ∧
      p.vc = vc ∧ p.vni = t.vni ∧ p.body = body ∧ p.at_ = c.site ∧ p.to_ = .tile ∧
      (noTile s d = false → p.dst = d ∧ p.state = 0) ∧ (noTile s d = true → p.state = 2)) ∧
    ((∃ q ∈ s.pkts, q.src = c ∧ q.name = name ∧ q.kind = kind ∧ q.chan = chan ∧ q.vc = vc ∧ (q.state = 1 ∨ q.reinj ≠ 0)) →
      inject s c vc name kind chan body = none) ∧
    (∀ r, s.region t.vni = some r → r.stalled = true → inject s c vc name kind chan body = none) ∧
    (resolve t name = .unbound → free → ∃ s' p, inject s c vc name kind chan body = some s' ∧ s'.pkts = s.pkts ++ [p] ∧ p.state = 2) ∧
    (∀ d, resolve t name = .moving d → inject s c vc name kind chan body = none) ∧
    (size ≠ 0 → 65536 < (s.core c).reserved + size → inject s c vc name kind chan body = none)

/-- R228, R229, R202: SEMINC, SEMWAIT, SEMTRY and SEMRD complete. SEMINC adds to a semaphore, saturating, once the core's earlier accesses have been performed, where nobody waits for it;
SEMWAIT takes t from one that holds at least t, or joins the tile's queue and waits with blocked-on kind 4; SEMTRY takes t and answers all ones,
or answers all zeros and takes nothing; SEMRD gives the value. -/
def Sys2Proof.SemaphoresComplete : Prop :=
  ∀ (e : Enc) (s : State), let u := seen s
    let n := (u.me.g e.c).toNat % 2 ^ 32
    let v := (vget u.here.sems e.b).toNat
    let setTo := fun (x : Nat) => (u.modHere fun t => { t with sems := vset t.sems e.b (BitVec.ofNat 32 x), activity := true })
    (clear (.seminc e) s = true → earlierDone u s.cur 1 = true → u.here.semq = [] →
      Completes (.seminc e) e s (setTo (Nat.min (v + n) (2 ^ 32 - 1)))) ∧
    (clear (.semwait e) s = true → n = 0 → Completes (.semwait e) e s u) ∧
    (clear (.semwait e) s = true → 0 < n → n ≤ v → (∀ y ∈ u.here.semq, y.kind ≠ s.cur.kind) → Completes (.semwait e) e s (setTo (v - n))) ∧
    (clear (.semwait e) s = true → v < n → (∀ y ∈ u.here.semq, y.kind ≠ s.cur.kind) →
      exec (.semwait e) s = .next ((u.modHere fun t => { t with semq := t.semq ++ [⟨s.cur.kind, e.b, n, npc s.me.pc e⟩] }).modMe fun k =>
        k.block 4 e.b 0xFFFF)) ∧
    (clear (.semtry e) s = true → n ≤ v → (∀ y ∈ u.here.semq, y.sem = e.b → v < y.t) →
      Completes (.semtry e) e s ((setTo (v - n)).modMe fun k => k.writeW e.L .p e.a (BitVec.allOnes 64))) ∧
    (clear (.semtry e) s = true → (v < n ∨ ∃ y ∈ u.here.semq, y.sem = e.b ∧ y.t ≤ v) →
      Completes (.semtry e) e s (u.modMe fun k => k.writeW e.L .p e.a 0)) ∧
    (clear (.semrd e) s = true → Completes (.semrd e) e s (u.modMe fun k => k.writeW e.L .g e.a (BitVec.ofNat 64 v)))

/-- R229: raising a semaphore serves the waiter that has waited longest among those it now satisfies: it loses the waiter's t and that core's SEMWAIT
is complete, so the core goes on after it. -/
def Sys2Proof.SemaphoreServes : Prop :=
  ∀ (e : Enc) (s : State) (y : SemWaiter), clear (.seminc e) s = true → earlierDone (seen s) s.cur 1 = true → (seen s).here.semq = [y] →
    let u := seen s
    let v := Nat.min ((vget u.here.sems e.b).toNat + (u.me.g e.c).toNat % 2 ^ 32) (2 ^ 32 - 1)
    y.sem = e.b → 0 < y.t → y.t ≤ v → y.kind ≠ s.cur.kind →
    ∃ t, exec (.seminc e) s = .next t ∧ (vget t.here.sems e.b).toNat = v - y.t ∧ t.here.semq = [] ∧
      ((t.here.core y.kind).act.isSome = true → (t.here.core y.kind).pc = y.npc) ∧ (t.here.core y.kind).blocked.kind = 0

namespace Sys2Proof

/-- R194: a name within reach of an ordering at a scope: the tile, its cluster, its region, everything. -/
def inReach (t : Tile) (scope name : Nat) : Prop :=
  if scope = 1 then name = t.name
  else if scope = 2 then name = t.name ∨ ∃ x ∈ t.cluster, x.2 = name
  else if scope = 5 then True
  else name < 0xFF00
/-- R197, R218: a packet that performs an event of the core that injected it. -/
def performedLater (b : Body) : Prop :=
  (∃ d pl bad, b = .message d pl bad) ∨ (∃ a pl bad, b = .put a pl bad) ∨ ∃ a n fn x pc hi out, b = .ramoReq a n fn x pc hi out

end Sys2Proof

/-- R195, R203, R204, R206, R219: FENCE, IFENCE and CBSYNC complete. FENCE completes once what its scope covers has been performed, and until then waits;
an operation that the core has handed to a bank of its tile, or at wider scope to any tile's, a message, PUT or RAMO of it within reach that is not yet
performed, and a queued vector instruction that has still to pop a stream are such, and at CORE scope so are its vector queue and its results to come;
IFENCE completes once every earlier event of the core has been performed, and then no fetch of the core can miss a write to its tile's memory; CBSYNC
completes once the core's earlier writes have been performed, and then the tile caches no collective descriptor of the address in g[b], nor will it cache
one of a join request under way. That the waits have blocked-on kind 0 is the model's choice (log 28). -/
def Sys2Proof.FencesComplete : Prop :=
  ∀ (e : Enc) (s : State), let u := seen s
    (clear (.fence e) s = true → fenceDone e u = true → Completes (.fence e) e s (u.modMe (fenceSends e))) ∧
    (clear (.fence e) s = true → fenceDone e u = false → Waits (.fence e) s 0 0) ∧
    (∀ scope, scope = (if e.ord.isSome then e.scope else 1) → scope ≠ 0 → u.me.vq = [] → u.here.bankq = [] → u.pkts = [] →
      (∀ t ∈ u.tiles, t.2.bankq = []) → fenceDone e u = true) ∧
    (∀ scope, scope = (if e.ord.isSome then e.scope else 1) →
      (scope = 0 → (u.me.vq ≠ [] ∨ u.me.outst ≠ []) → fenceDone e u = false) ∧ (scope ≠ 0 → fenceDone e u = earlierDone u s.cur scope)) ∧
    (∀ (c : CoreId) (scope : Nat), scope ≠ 0 → scope < 8 →
      ((∃ x ∈ (u.tile c.site).bankq, x.src = c) → earlierDone u c scope = false ∧ freeReady u c = false) ∧
      (2 ≤ scope → (∃ t ∈ u.tiles, ∃ x ∈ t.2.bankq, x.src = c) → earlierDone u c scope = false) ∧
      ((∃ x ∈ (u.core c).vq, ∃ n ∈ queuedSources x.i, 12 ≤ n) → earlierDone u c scope = false ∧ freeReady u c = false) ∧
      ((∃ p ∈ u.pkts, p.src = c ∧ p.state < 2 ∧ inReach (u.tile c.site) scope p.name ∧ performedLater p.body) → earlierDone u c scope = false)) ∧
    (clear (.ifence e) s = true → earlierDone u s.cur 5 = true →
      Completes (.ifence e) e s (u.modMe fun k => { k with seen := u.here.past.length })) ∧
    (clear (.ifence e) s = true → earlierDone u s.cur 5 = false → Waits (.ifence e) s 0 0) ∧
    (∀ (t : Tile) (k : Core) (a : Nat), staleWords t { k with seen := t.past.length } a = []) ∧
    (clear (.cbsync e) s = true → earlierDone u s.cur 2 = true →
      Completes (.cbsync e) e s (u.modHere fun t => cbsync t (u.me.g e.b).toNat)) ∧
    (clear (.cbsync e) s = true → earlierDone u s.cur 2 = false → Waits (.cbsync e) s 0 0) ∧
    (∀ (t : Tile) (a : Nat) (x : CbCache), x ∈ (cbsync t a).cbCache ↔ x ∈ t.cbCache ∧ x.addr ≠ a) ∧
    (∀ (t : Tile) (a : Nat) (kind : CoreKind) (d : List W) (l : List (BitVec 32)) (b : Nat),
      ((cbsync t a).core kind).req = some (.join d l b true) → b ≠ a) ∧
    (∀ (t : Tile) (a n : Nat) (r : Resid), n < 4 → vget t.slices n = some r → r.addr = a →
      vget (cbsync t a).slices n = some { r with synced := true } ∧
      ∀ (kind : CoreKind) (m : Nat), (vget ((cbsync t a).core kind).slots m).resident = true → (vget ((cbsync t a).core kind).slots m).slice ≠ n)

/-! ### The packet plane -/

namespace Sys2Proof

/-- R261, R264, R341, R384, R198: its router has handed a packet to its destination's interface, in its turn, and that interface takes it: the tile's router permits its VNI
and the tile is bound to it; but for a reply, the tile does not hold back or forward packets, and no send that must precede it is still to come. -/
def admitted (s : State) (p : Pkt) : Bool :=
  let t := s.tile p.dst
  p.to_ == .tile && p.state == 0 && p.landed && !behind s p && t.router.transit.contains p.vni && p.vni != 0 && t.vni == p.vni
    && (isReply p.body || (!t.hold && t.fwd.isNone && (t.viaOnly.isNone || p.fwd) && !mustFollow s p))
/-- Packet `n` is `p`, and it is the only one of that number. -/
def isPkt (s : State) (n : Nat) (p : Pkt) : Prop := s.pkt n = some p
/-- The packet's record after a step. -/
def stateOf (t : State) (n : Nat) : Option Nat := (t.pkt n).map (·.state)

end Sys2Proof

/-- R263, R264, R341, R392, R401, R402: PACKET_HOP completes. A router whose output serves a packet next sends it on in the direction of its detour table or of
dimension order, counting the hop and its wait, or, at its destination, hands it to the interface of the tile; it leaves one that another precedes where
it is. One whose VNI the router does not permit, or of VNI 0 to no gateway, is removed, reported and acknowledged as quarantined; one that meets a link that is
down goes back to its sender. An output serves a packet that is alone; else the virtual channels take turns, of one channel the packet with the
greatest age goes first, and among equals the input ports take turns. Where no entry of the detour table in force names it, a packet goes along its row first and then along its
column (R263). That a packet which meets a dead link goes back in one step is the model's choice (log 12). -/
def Sys2Proof.PacketHops : Prop :=
  (∀ (r : Router) (t d : Site) (arr vni : Nat), let hit := (r.bank vni).find? fun e => deValid e && deHits e d arr
    (∀ e, hit = some e → Router.out r t d arr vni = deOut e) ∧
    (hit = none → t ≠ d → Router.out r t d arr vni = if t.x < d.x then 1 else if d.x < t.x then 3 else if t.y < d.y then 2 else 4)) ∧
  (∀ (n waited : Nat) (p : Pkt) (s : State), isPkt s n p → p.to_ = .tile → p.state = 0 → p.landed = false → behind s p = false →
    let r := (s.tile p.at_).router
    let o := if p.at_ = p.dst then 0 else Router.out r p.at_ p.dst p.arr p.vni
    let now := Nat.max r.clock (p.since + waited)
    let next := (nextServed r o now (readyAt s p.at_ o now)).map (·.id) = some n
    let permitted := p.vni ∈ r.transit ∧ (p.vni ≠ 0 ∨ 0xFF00 ≤ p.name)
    (∀ m, permitted → next → p.at_ ≠ p.dst → neighbour p.at_ o = some m → s.linkDown p.at_ o = false →
      ∃ t q, exec (.packetHop n waited) s = .next t ∧ t.pkt n = some q ∧ q.at_ = m ∧ q.arr = o ∧ q.hops = p.hops + 1 ∧
        q.stall = p.stall + (now - p.since) ∧ q.state = 0 ∧ q.landed = false ∧ q.body = p.body ∧
        ∀ x, { t.tile x with router := (s.tile x).router } = s.tile x) ∧
    (permitted → next → p.at_ = p.dst → ∃ t q, exec (.packetHop n waited) s = .next t ∧ t.pkt n = some q ∧ q.landed = true ∧
      q.at_ = p.dst ∧ q.hops = p.hops ∧ q.stall = p.stall + (now - p.since) ∧ q.state = 0 ∧ q.body = p.body) ∧
    (∀ m, permitted → next → p.at_ ≠ p.dst → neighbour p.at_ o = some m → s.linkDown p.at_ o = true →
      ∃ t, exec (.packetHop n waited) s = .next t ∧ stateOf t n = some 1) ∧
    (permitted → ¬next → exec (.packetHop n waited) s = .next s) ∧
    (p.lane < 8 → p.arr < 5 → (∀ q ∈ readyAt s p.at_ o now, q.id = n) → next) ∧
    (p.vni ∉ r.transit → ∃ t, exec (.packetHop n waited) s = .next t ∧ stateOf t n = some 3 ∧
      t.reports = s.reports ++ [.quarantine p.at_ p.head 1]) ∧
    (p.vni ∈ r.transit → p.vni = 0 → p.name < 0xFF00 → ∃ t, exec (.packetHop n waited) s = .next t ∧ stateOf t n = some 3 ∧
      t.reports = s.reports ++ [.quarantine p.at_ p.head 3])) ∧
  (∀ (r : Router) (o now : Nat) (l : List Pkt) (q : Pkt), nextServed r o now l = some q →
    let last := (lookup r.turns o).getD (7, 4)
    let laneTurn := fun (q : Pkt) => (q.lane + 7 * last.1 + 7) % 8
    let portTurn := fun (q : Pkt) => (q.arr + 4 * last.2 + 4) % 5
    q ∈ l ∧ (∀ y ∈ l, y.lane < 8 → laneTurn q ≤ laneTurn y) ∧ (∀ y ∈ l, y.lane = q.lane → y.age now ≤ q.age now) ∧
      ∀ y ∈ l, y.lane = q.lane → y.age now = q.age now → y.arr < 5 → portTurn q ≤ portTurn y)

/-- R100, R181, R240, R243, R244, R262: a message at its destination. Where its ring is enabled, no packet of its flow is before it, no space is kept for
another sender and its record fits, the record is written at PROD: descriptor, latency word, payload; PROD moves on and the packet is accepted. Where it
does not fit, or comes out of turn, or space is kept for another sender, it is bounced, its head and payload going to its sender's bounce area; where the
ring is disabled or could never hold it, it is returned, whatever else of its flow is outstanding. PACKET_ARRIVAL completes in each case. Which blocks of the
bounce area a packet holds, and that its head there is a free value, is the model's choice (log 12). -/
def Obligations.MessageArrives : Prop :=
  ∀ (n : Nat) (p : Pkt) (s : State) (d : W) (pl : List Byte) (bad : List Nat), isPkt s n p → p.body = .message d pl bad → admitted s p = true →
    let x := s.tile p.dst
    let k := x.core p.kind
    let r := k.ring p.chan
    let need := ceilDiv (16 + pl.length) 64
    let pad := if ringProd r % ringGran r + need > ringGran r then ringGran r - ringProd r % ringGran r else 0
    let a := ringAddr r (ringProd r + pad)
    (ringEn r = true → Mem.wf x.mem = true → olderOut s p = false → (x.blOf p.kind p.chan).reserved = none → k.isBound p.chan = false →
      need ≤ ringGran r → pad + need ≤ ringFree r →
      ∃ t, exec (.packetArrival n) s = .next t ∧ stateOf t n = some 3 ∧
        (t.tile p.dst).word a = d ∧
        (let lat := ((t.tile p.dst).word (a + 8)).toNat;
          lat % 2 ^ 8 = Nat.min p.hops 255 ∧ lat / 2 ^ 8 % 2 ^ 24 = Nat.min p.stall 0xFFFFFF ∧ lat / 2 ^ 32 % 2 ^ 8 = Nat.min p.reinj 255 ∧
          lat / 2 ^ 40 % 2 ^ 6 = p.chan % 2 ^ 6 ∧ lat / 2 ^ 46 = (if p.fwd then 3 else 2)) ∧
        (∀ j, j < pl.length → Mem.byteAt (t.tile p.dst).mem (a + 16 + j) = pl.getD j 0) ∧
        ringProd (((t.tile p.dst).core p.kind).ring p.chan) = (ringProd r + pad + need) % 65536 ∧
        ringCons (((t.tile p.dst).core p.kind).ring p.chan) = ringCons r ∧
        (∃ l, ((t.tile p.dst).core p.kind).recs = k.recs ++ l ++ [⟨p.chan, (ringProd r + pad) % 65536, need, false, pl.length, 0, false⟩])) ∧
    (ringEn r = true → need ≤ ringGran r →
        (ringFree r < pad + need ∨ olderOut s p = true ∨ ∃ y, (x.blOf p.kind p.chan).reserved = some y ∧ y.1 ≠ p.src) →
      ∃ t, exec (.packetArrival n) s = .next t ∧ stateOf t n = some 1 ∧
        (Site.num p.src.site ≠ Site.num p.dst → (t.tile p.dst).mem = x.mem) ∧ ((t.tile p.dst).core p.kind).recs = k.recs ∧
        (let blocks := (s.core p.src).blocks p.src.kind n;
          Mem.wf (s.tile p.src.site).mem = true → blocks.Nodup → 16 + pl.length ≤ 64 * blocks.length →
          (∀ i b j, blocks[i]? = some b → j < 64 → 16 ≤ 64 * i + j → 64 * i + j < 16 + pl.length →
            Mem.byteAt (t.tile p.src.site).mem (b + j) = pl.getD (64 * i + j - 16) 0) ∧
          ∀ y, (∀ b ∈ blocks, y < b ∨ b + 64 ≤ y) → Mem.byteAt (t.tile p.src.site).mem y = Mem.byteAt (s.tile p.src.site).mem y)) ∧
    ((ringEn r = false ∨ ringGran r < need) →
      ∃ t, exec (.packetArrival n) s = .next t ∧ stateOf t n = some 2 ∧ (t.tile p.dst).mem = x.mem)

/-- R218, R222, R223, R354, R355, R398: requests at their destination tile: PUT_ARRIVAL, GET_REQUEST_ARRIVAL, RAMO_REQUEST_ARRIVAL, WAKE_REQUEST,
HALTC_REQUEST and INSPECT_REQUEST complete. A PUT stores its payload with its poison; a GET's words and a RAMO's old
value go back to the asker as a reply, the RAMO's operation performed; WAKE ends a halted core's halt or withdraws a pending halt request, HALTC
requests one, or halts at once a core that is idle with no activation suspended, INSPECT answers on VC4 with an item of the core's state. A WAKE, HALTC
or INSPECT that an earlier one of its sender to the core, not accepted yet, must precede goes back to its sender.
The step INSPECT_REPLY completes. -/
def Sys2Proof.RequestsServed : Prop :=
  ∀ (n : Nat) (p : Pkt) (s : State), isPkt s n p → admitted s p = true → p.dst.y < 126 →
    let x := s.tile p.dst
    let k := x.core p.kind
    let inTurn := olderOut s p = false
    let idle := k.lo.act = none ∧ k.hi.act = none ∧ k.held = none
    let back := fun (t : State) (b : Body) => ∃ q, t.pkt n = some q ∧ q.body = b ∧
      q.vc = (match p.body with | .inspect _ => 4 | _ => 3) ∧ q.dst = p.src.site ∧ q.kind = p.src.kind ∧
      q.state = 0 ∧ q.at_ = p.dst
    (∀ a pl bad, p.body = .put a pl bad → Mem.wf x.mem = true → ∃ t, exec (.putArrival n) s = .next t ∧ stateOf t n = some 3 ∧
      (∀ b, Mem.byteAt (t.tile p.dst).mem b = if a ≤ b ∧ b < a + pl.length then pl.getD (b - a) 0 else Mem.byteAt x.mem b) ∧
      (a % 8 = 0 → (∀ j ∈ bad, 8 * j < pl.length) →
        (∀ j, 8 * j + 8 ≤ pl.length → ((t.tile p.dst).bad (a + 8 * j) = true ↔ j ∈ bad)) ∧
        ∀ b, (b / 8 * 8 + 8 ≤ a ∨ a + pl.length ≤ b / 8 * 8) → (t.tile p.dst).bad b = x.bad b)) ∧
    (∀ a len loc, p.body = .getReq a len loc → ∃ t, exec (.getRequestArrival n) s = .next t ∧
      back t (.getReply loc (Mem.bytes x.mem a len) (x.badWords a len)) ∧ (t.tile p.dst).mem = x.mem) ∧
    (∀ a width fn y pc hi out, p.body = .ramoReq a width fn y pc hi out → width = 4 ∨ width = 8 → x.bad a = false → ∃ t, exec (.ramoRequestArrival n) s = .next t ∧
      back t (.ramoReply out (signed width (Mem.load x.mem a width)) none) ∧
      (t.tile p.dst).mem = Mem.store x.mem a (leBytes width (oper fn (8 * width) (Mem.load x.mem a width) (y.toNat % 2 ^ (8 * width))))) ∧
    (∀ a width fn y pc hi out, p.body = .ramoReq a width fn y pc hi out → x.bad a = true → ∃ t, exec (.ramoRequestArrival n) s = .next t ∧
      back t (.ramoReply out 0 (some (BitVec.ofNat 64 (a / 8 * 8), pc, hi))) ∧ (t.tile p.dst).mem = x.mem) ∧
    (p.body = .wake → inTurn → ∃ t, exec (.wakeRequest n) s = .next t ∧ stateOf t n = some 3 ∧ (t.core ⟨p.dst, p.kind⟩).halted = false ∧
      (t.core ⟨p.dst, p.kind⟩).haltReq = false) ∧
    (∀ st, p.body = .haltc st → inTurn → ∃ t, exec (.haltcRequest n) s = .next t ∧ stateOf t n = some 3 ∧
      (k.halted = false → ¬idle → (t.core ⟨p.dst, p.kind⟩).haltReq = true ∧ (t.core ⟨p.dst, p.kind⟩).hstatus = st ∧
        (t.core ⟨p.dst, p.kind⟩).halted = false) ∧
      (k.halted = false → idle → (t.core ⟨p.dst, p.kind⟩).halted = true ∧ (t.core ⟨p.dst, p.kind⟩).haltReq = false ∧
        (t.core ⟨p.dst, p.kind⟩).hstatus = st ∧ (t.core ⟨p.dst, p.kind⟩).launch = none) ∧
      (k.halted = true → t.core ⟨p.dst, p.kind⟩ = k)) ∧
    (∀ i, olderOut s p = true → (i = .wakeRequest n ∧ p.body = .wake) ∨ (i = .haltcRequest n ∧ ∃ st, p.body = .haltc st) ∨
        (i = .inspectRequest n ∧ ∃ item, p.body = .inspect item) → ∃ t, exec i s = .next t ∧ stateOf t n = some 1) ∧
    (∀ item, p.body = .inspect item → inTurn → ∃ t, exec (.inspectRequest n) s = .next t ∧ back t (.inspectReply (inspectItem k item)))

/-- R218, R223, R355, R177: replies at the core that asked: GET_REPLY_ARRIVAL, RAMO_RESULT_ARRIVAL, INSPECT_REPLY and CLUSTER_ACCESS_REPLY complete. A GET's words are stored at its local address and a RAMO's old value is delivered to its
register; GET, INSPECT and, with its last answer, an access through cluster windows are then complete, and the core goes on after them; INSPECT's g[a] takes the answer. A
poisoned RAMO traps its issuer at its next boundary, and an access through a cluster window that met a trap takes it. -/
def Sys2Proof.RepliesArrive : Prop :=
  ∀ (n : Nat) (p : Pkt) (s : State) (e : Enc) (i : Instr), isPkt s n p → admitted s p = true → encOf i = some e →
    let c : CoreId := ⟨p.dst, p.kind⟩
    let k := s.core c
    let waits := ∃ x, k.wait = some x ∧ x.i = i ∧ x.tag = n ∧ x.more = []
    let goesOn := fun (t : State) => (t.core c).wait = none ∧ ((s.core c).act.isSome = true → (t.core c).pc = npc k.pc e)
    (∀ a pl, p.body = .getReply a pl [] → waits → a % 8 = 0 → pl.length % 8 = 0 → a + pl.length ≤ 0x002C0000 →
      (∀ b, a ≤ b → b < a + pl.length → k.inCode b = false ∧ k.inRowin b = false) → Mem.wf (s.tile p.dst).mem = true →
      ∃ t, exec (.getReplyArrival n) s = .next t ∧ t.pkt n = none ∧ goesOn t ∧
        (∀ b, Mem.byteAt (t.tile p.dst).mem b = if a ≤ b ∧ b < a + pl.length then pl.getD (b - a) 0 else Mem.byteAt (s.tile p.dst).mem b)) ∧
    (∀ out old, p.body = .ramoReply out old none → k.wait = none →
      exec (.ramoResultArrival n) s = .next ((doneWith s c n).modCore c fun k => k.deliver out (old.setWidth 512) [])) ∧
    (∀ out old d pc hi, p.body = .ramoReply out old (some (d, pc, hi)) → k.wait = none → k.ptrap = none →
      ∃ t, exec (.ramoResultArrival n) s = .next t ∧ (t.core c).ptrap = some ⟨0x19, d, pc, 0, hi⟩ ∧ ∀ o ∈ (t.core c).outst, o.id ≠ out) ∧
    (∀ x, p.body = .inspectReply x → waits → ∃ t, exec (.inspectReply n) s = .next t ∧ t.pkt n = none ∧ goesOn t ∧
      (e.L = 0 → 1 ≤ e.a → e.a < 32 → (t.core c).g e.a = x)) ∧
    (p.body = .clusterReply none → waits → ∃ t, exec (.clusterAccessReply n) s = .next t ∧ t.pkt n = none ∧ goesOn t) ∧
    (∀ x m l, p.body = .clusterReply none → k.wait = some x → x.tag = n → x.more = m :: l → n ∉ x.more →
      exec (.clusterAccessReply n) s = .next ((doneWith s c n).modCore c fun k => { k with wait := some { x with tag := m, more := l } })) ∧
    (∀ cause d, p.body = .clusterReply (some (cause, d)) → waits →
      exec (.clusterAccessReply n) s = .next
        (takeTrap ((doneWith s c n).modCore c fun k => { k with wait := none }.unblock) c cause d k.pc))

/-- R177, R178: the request of a core that waits for an access through a cluster window, at the member's tile: CLUSTER_ACCESS completes, the access is performed there, and the answer goes
back to the core. The effect is that of the instruction itself (`Obligations.AccessesComplete`). That the request performs the access in one step, and
that one answer stands for it, is the model's choice (log 26). -/
def Sys2Proof.ClusterAccessPerformed : Prop :=
  ∀ (n : Nat) (p : Pkt) (s u t : State) (i : Instr) (e : Enc) (a : W) (width : Nat) (write queue : Bool) (site : Site) (o : Nat) (l : List (Nat × Site)),
    isPkt s n p → admitted s p = true → p.body = .cluster → encOf i = some e →
    u = ({ s.active p.dst with cur := p.src }).modCore p.src (fun k => { k with wait := some ⟨i, n, true, insert l p.name p.dst, []⟩ }) →
    (s.core p.src).wait = some ⟨i, n, false, l, []⟩ → ramoPending u a.toNat width = false →
    memAccess i u.me = some (a, width, write, queue) → addrFault u a.toNat width write queue = none →
    (isLoad i = true ∨ mayRelease e u = true) → isRemote u a.toNat = true → target u a.toNat = some (site, o) → accessed i u site o a = some t →
    exec (.clusterAccess n) s =
      .next (reply (({ t with cur := s.cur } : State).modCore p.src fun k => k.block 11 0 p.name) p p.dst (.clusterReply none))

/-- R181, R224, R262, R341, R345: the sender's side: ACK_ARRIVAL, UNREACHABLE_RETURN and REINJECTION complete. An ACK frees the bounce reservation of its packet; a packet returned UNREACHABLE frees it too and
records SEND_UNREACHABLE against the sending core, with the name, core and channel as DETAIL; a bounced packet goes out again after its backoff,
to what its name then stands for, with what stands in its place in the bounce area, its backoff doubled up to 4,096. -/
def Sys2Proof.SenderSide : Prop :=
  ∀ (n waited : Nat) (p : Pkt) (s : State), isPkt s n p →
    let k := s.core p.src
    (∀ d pl bad, p.body = .message d pl bad → p.state = 3 → ∃ t, exec (.ackArrival n) s = .next t ∧ t.pkt n = none ∧
      (t.core p.src).resv = k.resv.filter (·.1 != n) ∧ (t.core p.src).async = k.async) ∧
    (∀ d pl bad, p.body = .message d pl bad → p.state = 2 → (∀ x ∈ k.async, x.cause ≠ 0x16) → ∃ t, exec (.unreachableReturn n) s = .next t ∧
      t.pkt n = none ∧ (t.core p.src).resv = k.resv.filter (·.1 != n) ∧
      (t.core p.src).async = k.async ++ [⟨0x16, BitVec.ofNat 64 ((if p.name ≥ 0xFF00 then 0xFFFF else p.name) + p.kind.code * 2 ^ 16
        + p.chan % 64 * 2 ^ 18), false⟩]) ∧
    (∀ x, p.state = 1 → isReply p.body = false → p.backoff ≤ waited → olderOut s p = false →
      resolve (s.tile p.src.site) p.name = .bound x → noTile s x = false →
      ∃ t q, exec (.reinjection n waited) s = .next t ∧ t.pkt n = some q ∧ q.state = 0 ∧ q.dst = x ∧ q.at_ = p.src.site ∧ q.reinj = p.reinj + 1 ∧
        q.backoff = Nat.min 4096 (2 * p.backoff) ∧ q.hops = 0 ∧
        q.body = p.body.withData ((s.tile p.src.site).readBounce p.src.kind p).1 ((s.tile p.src.site).readBounce p.src.kind p).2)

/-- R262: RESERVATION_LAPSE completes: a reservation that no packet has used within 4,096 cycles lapses. -/
def Sys2Proof.ReservationLapses : Prop :=
  ∀ (c : CoreId) (chan waited : Nat) (s : State), 4096 ≤ waited → ∃ t, exec (.reservationLapse c chan waited) s = .next t ∧
    ((t.tile c.site).blOf c.kind chan).reserved = none ∧ ((t.tile c.site).blOf c.kind chan).pairs = ((s.tile c.site).blOf c.kind chan).pairs ∧
    (t.tile c.site).mem = (s.tile c.site).mem

/-- R183, R340, R345: SWAPPED_TARGET_SERVICE completes: what is sent to the name of a tile that is swapped out is performed on its saved image, once the fabric
owns the edge memory that holds it: a message joins its ring there where it fits, is bounced where it does not and returned where the ring is disabled; a PUT
is stored, a GET's words and a RAMO's old value go back as a reply, WAKE, HALTC and INSPECT act on the image's core. Until then the packet stays where it
is. One that the sender's router does not permit is quarantined. Once the image is gone the packet goes back to its sender, to be sent to where the name
then is. Which regions of edge memory hold an image (log 81), what a bounced packet leaves in the bounce area (log 12), and that the packet is performed
in one step are the model's choices. -/
def Sys2Proof.SwappedTargets : Prop :=
  ∀ (n island : Nat) (p : Pkt) (s : State), isPkt s n p → p.to_ = .island island → p.state = 0 → behind s p = false → mustFollow s p = false →
    let owned := fun (x : Saved) => ∀ r ∈ x.regs, (s.own r).owner = .fabric ∧ (s.own r).waiting = []
    (p.vni ∉ (s.tile p.at_).router.transit → ∃ t, exec (.swappedTargetService n) s = .next t ∧ stateOf t n = some 3 ∧
      t.reports = s.reports ++ [.quarantine p.at_ p.head 1]) ∧
    (p.vni ∈ (s.tile p.at_).router.transit →
    (∀ x, s.image p.vni p.name = some x → owned x → olderOut s p = false →
      let k := x.tile.core p.kind
      let gives := fun (P : State → Saved → Prop) => ∃ t y, exec (.swappedTargetService n) s = .next t ∧ t.image p.vni p.name = some y ∧ P t y
      let back := fun (t : State) (b : Body) => ∃ q, t.pkt n = some q ∧ q.body = b ∧ q.dst = p.src.site ∧ q.kind = p.src.kind ∧ q.state = 0
      let idle := k.lo.act = none ∧ k.hi.act = none ∧ k.held = none
      (∀ a pl bad, p.body = .put a pl bad → Mem.wf x.tile.mem = true → gives fun t y => stateOf t n = some 3 ∧
        ∀ b, Mem.byteAt y.tile.mem b = if a ≤ b ∧ b < a + pl.length then pl.getD (b - a) 0 else Mem.byteAt x.tile.mem b) ∧
      (∀ a len loc, p.body = .getReq a len loc → gives fun t y =>
        back t (.getReply loc (Mem.bytes x.tile.mem a len) (x.tile.badWords a len)) ∧ y.tile.mem = x.tile.mem) ∧
      (∀ a width fn v pc hi out, p.body = .ramoReq a width fn v pc hi out → width = 4 ∨ width = 8 → x.tile.bad a = false → gives fun t y =>
        back t (.ramoReply out (signed width (Mem.load x.tile.mem a width)) none) ∧
        y.tile.mem = Mem.store x.tile.mem a (leBytes width (oper fn (8 * width) (Mem.load x.tile.mem a width) (v.toNat % 2 ^ (8 * width))))) ∧
      (p.body = .wake → gives fun t y => stateOf t n = some 3 ∧ (y.tile.core p.kind).halted = false ∧ (y.tile.core p.kind).haltReq = false) ∧
      (∀ st, p.body = .haltc st → k.halted = false →
        (¬idle → gives fun t y => stateOf t n = some 3 ∧ (y.tile.core p.kind).haltReq = true ∧ (y.tile.core p.kind).hstatus = st ∧
          (y.tile.core p.kind).halted = false) ∧
        (idle → s.live ((s.siteOfName p.vni p.name).getD p.dst) = .image p.vni p.name → gives fun t y => stateOf t n = some 3 ∧
          (y.tile.core p.kind).halted = true ∧ (y.tile.core p.kind).haltReq = false)) ∧
      (∀ item, p.body = .inspect item → gives fun t y => back t (.inspectReply (inspectItem k item)) ∧ y.tile = x.tile)) ∧
    (∀ x d pl bad, s.image p.vni p.name = some x → owned x → p.body = .message d pl bad →
      let k := x.tile.core p.kind
      let r := k.ring p.chan
      let need := ceilDiv (16 + pl.length) 64
      let pad := if ringProd r % ringGran r + need > ringGran r then ringGran r - ringProd r % ringGran r else 0
      let a := ringAddr r (ringProd r + pad)
      (ringEn r = true → Mem.wf x.tile.mem = true → olderOut s p = false → (x.tile.blOf p.kind p.chan).reserved = none → k.isBound p.chan = false →
        need ≤ ringGran r → pad + need ≤ ringFree r →
        ∃ t y, exec (.swappedTargetService n) s = .next t ∧ stateOf t n = some 3 ∧ t.image p.vni p.name = some y ∧ y.tile.word a = d ∧
          (∀ j, j < pl.length → Mem.byteAt y.tile.mem (a + 16 + j) = pl.getD j 0) ∧
          ringProd ((y.tile.core p.kind).ring p.chan) = (ringProd r + pad + need) % 65536) ∧
      (ringEn r = true → need ≤ ringGran r →
          (ringFree r < pad + need ∨ olderOut s p = true ∨ ∃ y, (x.tile.blOf p.kind p.chan).reserved = some y ∧ y.1 ≠ p.src) →
        ∃ t y, exec (.swappedTargetService n) s = .next t ∧ stateOf t n = some 1 ∧ t.image p.vni p.name = some y ∧ (y.tile.core p.kind).recs = k.recs) ∧
      ((ringEn r = false ∨ ringGran r < need) → ∃ t, exec (.swappedTargetService n) s = .next t ∧ stateOf t n = some 2)) ∧
    (∀ x, s.image p.vni p.name = some x → (∃ r ∈ x.regs, (s.own r).owner ≠ .fabric) →
      ∃ t, exec (.swappedTargetService n) s = .next t ∧ t.pkts = s.pkts ∧ t.saved = s.saved ∧ t.tiles = s.tiles) ∧
    (s.image p.vni p.name = none → ∃ t, exec (.swappedTargetService n) s = .next t ∧ stateOf t n = some 1))

/-! ### Handlers, joins and traps -/

namespace Sys2Proof

/-- R38, R248: the activation of a level has ended: its windows have closed, so the g, p and c registers hold every result of it that has come,
and no register changes otherwise. -/
def ended (u t : State) : Prop :=
  let hi := u.me.lev
  let k := u.me.settleEnd hi
  (t.me.bank hi).act = none ∧ t.me.bank (!hi) = k.bank (!hi) ∧ (t.me.bank hi).g = (k.bank hi).g ∧ (t.me.bank hi).p = (k.bank hi).p ∧
    t.me.v = u.me.v ∧ t.me.c = k.c ∧ (t.me.bank hi).sends = [] ∧ ∀ x ∈ t.me.pend, x.hiAct = hi → x.file = .v
/-- R243: the record of an activation has been freed from its ring, with the pads around it; where it holds none, nothing is freed. -/
def recordFreed (a : Act) (v t : State) : Prop :=
  if a.noMsg = true ∨ a.recLen = 0 then t.me.recs = v.me.recs ∧ t.me.ctl.ring = v.me.ctl.ring
  else t.me.recs = (v.me.freeHead a.chan).recs ∧ t.me.ctl.ring = (v.me.freeHead a.chan).ctl.ring
/-- R366: the trap handler that takes a cause. -/
def toSupervisor (k : Core) (cause : Nat) : Prop :=
  k.ctl.trapDeleg.getLsbD cause = true ∧ k.ctl.trapVec.toNat % 2 ^ 22 / 2 ≠ 0 ∧ k.active = false
/-- A trap of a core has been delivered: its cause, whether it is asynchronous and resumable, TRAP_PC and the DETAIL; fetch goes on at TRAP_VEC at
supervisor level, or the core is held for its home island. -/
def delivered (k m : Core) (cause : Nat) (async resumable : Bool) (detail pc : W) : Prop :=
  m.ctl.trapCause.toNat % 64 = cause ∧ m.ctl.trapCause.getLsbD 6 = async ∧ m.ctl.trapCause.getLsbD 7 = resumable ∧
  m.ctl.trapPc.toNat = pc.toNat % 2 ^ 22 / 2 * 2 ∧ m.ctl.trapInfo.toNat / 256 = detail.toNat % 2 ^ 56 ∧ m.mask = none ∧
  m.trapCount = k.trapCount + 1 ∧
  (toSupervisor k cause → m.active = true ∧ m.sup = true ∧ m.pc.toNat = k.ctl.trapVec.toNat % 2 ^ 22 / 2 * 2) ∧
  (¬toSupervisor k cause → m.held = some cause ∧ m.blocked.kind = 2 ∧ m.blocked.obj = cause)

end Sys2Proof

/-- R247, R248, R251: DONE, HALT, REQUEUE and HRET complete: each ends the activation once its sends have been committed: DONE and HRET free the message record; HRET also sets
HPCOUNT to HP_LIMIT; HALT, once the core's vector queue, commands and packets are done, halts the core and ends its part of a launch with the low
half of g[b]; REQUEUE writes the record as it stands at the tail of its ring as a new message. While a commit is held up they wait. -/
def Sys2Proof.HandlerEnds : Prop :=
  ∀ (e : Enc) (s : State) (a : Act), (seen s).me.act = some a →
    let u := seen s
    let v := closeOut u
    let hi := u.me.lev
    (clear (.done e) s = true → committed v = true → mayFree v = true →
      ∃ t, exec (.done e) s = .next t ∧ ended u t ∧ recordFreed a v t ∧ t.pkts = v.pkts) ∧
    (clear (.hret e) s = true → hi = true → committed v = true → mayFree v = true →
      ∃ t, exec (.hret e) s = .next t ∧ ended u t ∧ recordFreed a v t ∧ t.me.hpCount = u.me.ctl.hpLimit.toNat % 256) ∧
    (clear (.hret e) s = true → hi = false → Traps (.hret e) s 0x03 0) ∧
    (clear (.halt e) s = true → hi = false → committed v = true → mayFree v = true → quietCore v s.cur = true →
      ∃ t, exec (.halt e) s = .next t ∧ ended u t ∧ recordFreed a v t ∧ t.me.halted = true ∧ t.me.blocked.kind = 2 ∧ t.me.launch = none ∧
        ∀ ctx, u.me.launch = some ctx → t.launches = mapIf s.launches (fun x => x.ctx == ctx && !x.ends.contains s.cur) fun x =>
          { x with ends := x.ends ++ [s.cur], count := Nat.min 0xFFFFFF (x.count + (u.me.g e.b).toNat % 2 ^ 24),
                   err := x.err ||| (u.me.g e.b).toNat % 2 ^ 32 / 2 ^ 24 }) ∧
    (clear (.halt e) s = true → hi = true → Traps (.halt e) s 0x03 0) ∧
    (clear (.requeue e) s = true → committed v = true → mayFree v = true → (a.noMsg = true ∨ a.recLen = 0) →
      ∃ t, exec (.requeue e) s = .next t ∧ ended u t ∧ t.me.recs = v.me.recs) ∧
    (∀ r w', clear (.requeue e) s = true → committed v = true → mayFree v = true → a.noMsg = false → a.recLen ≠ 0 →
      v.me.headRec a.chan = some r →
      let x := ringAddr (v.me.ring a.chan) r.at_ + 16
      requeue (v.modMe fun k => k.freeHead a.chan) { a with resumable := false } (Mem.bytes v.here.mem x r.len) (v.here.badWords x r.len)
        = some w' →
      ∃ t, exec (.requeue e) s = .next t ∧ ended u t ∧ t.pkts = w'.pkts ∧ t.here.mem = w'.here.mem ∧ t.me.recs = w'.me.recs) ∧
    (∀ i, (i = .done e ∨ i = .requeue e) → clear i s = true → committed v = false → exec i s = .next (v.modMe fun k => k.block 10 0 0xFFFF))

/-- R247, R248: a record that a REQUEUE finds room for stands at the tail of its ring as a new message with the same descriptor and payload. -/
def Sys2Proof.RequeuedRecord : Prop :=
  ∀ (s : State) (a : Act) (pl : List Byte),
    let k := s.me
    let r := k.ring a.chan
    let need := ceilDiv (16 + pl.length) 64
    ringEn r = true → Mem.wf s.here.mem = true → (s.here.blOf s.cur.kind a.chan).reserved = none → k.isBound a.chan = false →
    (∀ q ∈ s.pkts, q.src ≠ s.cur) → ringProd r % ringGran r + need ≤ ringGran r → need ≤ ringFree r →
    ∃ t, requeue s a pl [] = some t ∧ t.here.word (ringAddr r (ringProd r)) = a.desc ∧
      (∀ j, j < pl.length → Mem.byteAt t.here.mem (ringAddr r (ringProd r) + 16 + j) = pl.getD j 0) ∧
      t.me.recs = k.recs ++ [⟨a.chan, ringProd r % 65536, need, false, pl.length, 0, false⟩] ∧ t.pkts = s.pkts

/-- R252: HMASK and HUNMASK complete: HMASK opens a masked window, counting from the next instruction, and HUNMASK closes it; in a high-priority handler neither has an effect, nor has
HMASK in an open window. -/
def Sys2Proof.MaskForms : Prop :=
  ∀ (e : Enc) (s : State), let u := seen s
    (clear (.hmask e) s = true → u.me.lev = false → u.me.mask = none → Completes (.hmask e) e s (u.modMe fun k => { k with mask := some 0 })) ∧
    (clear (.hmask e) s = true → (u.me.lev = true ∨ u.me.mask.isSome = true) → Completes (.hmask e) e s u) ∧
    (clear (.hunmask e) s = true → u.me.lev = false → Completes (.hunmask e) e s (u.modMe fun k => { k with mask := none })) ∧
    (clear (.hunmask e) s = true → u.me.lev = true → Completes (.hunmask e) e s u)

/-- R254: JOINSET and JOINARR complete: JOINSET arms a join counter with a count and a word, or disarms it where the count is 0; JOINARR puts an arrival in the send buffer, with the
amount that PX.IMM or g[b] gives, or 1; a join word with bits [7:6] set traps. A committed arrival lowers the count of an armed counter, and
the one that brings it to 0 disarms it and posts a message with JOIN set to the core's own channel of the join word, or stalls as an injection stalls. -/
def Sys2Proof.JoinForms : Prop :=
  ∀ (e : Enc) (s : State), let u := seen s
    let word := if e.imms.isEmpty then (u.me.g e.c).toNat else e.immHigh
    let n := (u.me.g e.b).toNat % 2 ^ 32
    (clear (.joinset e) s = true → word / 64 % 4 = 0 → n ≠ 0 →
      Completes (.joinset e) e s (u.modMe fun k => { k with joins := vset k.joins e.fa ⟨true, BitVec.ofNat 32 n, BitVec.ofNat 64 word⟩ })) ∧
    (clear (.joinset e) s = true → word / 64 % 4 = 0 → n = 0 →
      Completes (.joinset e) e s (u.modMe fun k => { k with joins := vset k.joins e.fa { vget k.joins e.fa with armed := false } })) ∧
    (clear (.joinset e) s = true → formOk (.joinset e) = true → word / 64 % 4 ≠ 0 → Traps (.joinset e) s 0x03 0) ∧
    (clear (.joinarr e) s = true → sendRoom u.me = true →
      Completes (.joinarr e) e s (sendAdded u none (.join e.fa
        (if !e.imms.isEmpty then e.immHigh else if e.b ≠ 0 then (u.me.g e.b).toNat % 2 ^ 32 else 1)))) ∧
    (∀ (c : CoreId) (hi : Bool) (j m : Nat), (vget (s.core c).joins j).armed = true → 0 < m → m < (vget (s.core c).joins j).count.toNat →
      ∃ t, commitOne s c hi (.join j m) = some t ∧
        vget (t.core c).joins j = { vget (s.core c).joins j with count := BitVec.ofNat 32 ((vget (s.core c).joins j).count.toNat - m) } ∧
        t.pkts = s.pkts) ∧
    (∀ (c : CoreId) (hi : Bool) (j m : Nat), let x := vget (s.core c).joins j
      let word := x.word.toNat
      let posted := injectMsg s c hi (s.tile c.site).name c.kind (word % 2 ^ 6) (word / 2 ^ 8 % 2 ^ 8) true
        (leBytes 8 (word / 2 ^ 16 % 2 ^ 48 + j % 8 * 2 ^ 48)) []
      x.armed = true → 0 < m → x.count.toNat ≤ m →
        (posted = none → commitOne s c hi (.join j m) = none) ∧
        (∀ u, posted = some u → commitOne s c hi (.join j m) = some (u.modCore c fun k =>
          { k with joins := vset (s.core c).joins j { x with armed := false, count := 0 } }))) ∧
    (∀ (c : CoreId) (hi : Bool) (j m : Nat), ((vget (s.core c).joins j).armed = false ∨ m = 0) → commitOne s c hi (.join j m) = some s)

/-- R364, R371, R372, R374: BRK, TRAP and ECALL complete: BRK, TRAP and a delegated ECALL of user code take their resumable traps, with the address after them in TRAP_PC
and 0, the immediate or g[b], and the service number as DETAIL; an ECALL that is not delegated asks the home island and waits, blocked-on kind 11. -/
def Sys2Proof.SoftwareTraps : Prop :=
  ∀ (e : Enc) (s : State), let u := seen s
    let after := npc s.me.pc e
    (clear (.brk e) s = true → ∃ t, exec (.brk e) s = .next t ∧ delivered u.me t.me 0x1A false true 0 after) ∧
    (clear (.trap e) s = true → ∃ t, exec (.trap e) s = .next t ∧
      delivered u.me t.me 0x1B false true (if e.imms.isEmpty then u.me.g e.b else BitVec.ofNat 64 e.immHigh) after) ∧
    (clear (.ecall e) s = true → toSupervisor u.me 0x1C → u.me.sup = false → ∃ t, exec (.ecall e) s = .next t ∧
      delivered u.me t.me 0x1C false true (BitVec.ofNat 64 e.immHigh) after) ∧
    (clear (.ecall e) s = true → (¬toSupervisor u.me 0x1C ∨ u.me.sup = true) →
      exec (.ecall e) s = .next (u.modMe fun k =>
        { k with req := some (.ecall e.immHigh (u.me.g e.b)), ans := none, wait := some ⟨.ecall e, 0, true, [], []⟩ }.block 11 0 0xFFFF))

/-- R365, R373: SRET RESUME, REDELIVER, DROP and HALT, the returns from the tile supervisor handler, complete. With ACTIVE 0, or RESUME of a cause that is not
resumable, SRET traps. RESUME goes on at TRAP_PC at the recorded level. REDELIVER, DROP and HALT end the activation once the handler's sends are
committed: REDELIVER leaves the message record where it is, the others free it, and HALT halts the core with bit 31 of its status set. Where the cause is
resumable they first abort the interrupted activation. All of them clear ACTIVE. Each mode of the word is one constructor; that a word with mode 4 to 7, which traps with
ILLEGAL_OPERAND, is one of `sretResume` is the model's choice (log 11). -/
def Sys2Proof.SretForms : Prop :=
  ∀ (e : Enc) (s : State) (a : Act), (seen s).me.act = some a →
    let u := seen s
    let w := if u.me.ctl.trapCause.getLsbD 7 then abortUnder u else u
    let v := commit w s.cur u.me.lev
    let drained := u.me.ctl.trapCause.getLsbD 7 = true → mustDrain u s.cur = false
    (clear (.sretResume e) s = true → u.me.active = true → u.me.ctl.trapCause.getLsbD 7 = true → (a.noMsg = false ∨ 2 ≤ a.pos.length) →
      ∃ t, exec (.sretResume e) s = .next t ∧ t.me.active = false ∧ t.me.pc.toNat = u.me.ctl.trapPc.toNat % 2 ^ 22 / 2 * 2 ∧
        t.me.sup = u.me.ctl.trapCause.getLsbD 11 ∧ (∀ n, t.me.g n = u.me.g n) ∧ t.me.recs = u.me.recs) ∧
    (clear (.sretResume e) s = true → u.me.active = true → u.me.ctl.trapCause.getLsbD 7 = true → a.noMsg = true → a.pos.length ≤ 1 →
      u.me.lev = false → ∃ t, exec (.sretResume e) s = .next t ∧ t.me.active = false ∧ t.me.act = none) ∧
    (clear (.sretRedeliver e) s = true → u.me.active = true → drained → (v.me.bank u.me.lev).sends = [] →
      ∃ t, exec (.sretRedeliver e) s = .next t ∧ ended w t ∧ t.me.active = false ∧ t.pkts = v.pkts ∧ t.me.recs = v.me.recs) ∧
    (clear (.sretDrop e) s = true → u.me.active = true → drained → (v.me.bank u.me.lev).sends = [] → mayFree v = true →
      ∃ t, exec (.sretDrop e) s = .next t ∧ ended w t ∧ t.me.active = false ∧ t.pkts = v.pkts ∧ recordFreed a v t) ∧
    (clear (.sretHalt e) s = true → u.me.active = true → drained → (v.me.bank u.me.lev).sends = [] → mayFree v = true → quietCore v s.cur = true →
      ∃ t, exec (.sretHalt e) s = .next t ∧ ended w t ∧ t.me.active = false ∧ t.me.halted = true ∧ recordFreed a v t ∧ t.me.launch = none ∧
        ∀ ctx, u.me.launch = some ctx → t.launches = mapIf s.launches (fun x => x.ctx == ctx && !x.ends.contains s.cur) fun x =>
          { x with ends := x.ends ++ [s.cur], count := Nat.min 0xFFFFFF (x.count + (w.me.g e.b).toNat % 2 ^ 24),
                   err := x.err ||| ((w.me.g e.b).toNat % 2 ^ 32 / 2 ^ 24 ||| 0x80) }) ∧
    (∀ i, (i = .sretResume e ∨ i = .sretRedeliver e ∨ i = .sretDrop e ∨ i = .sretHalt e) → clear i s = true → u.me.active = false →
      Traps i s 0x03 0) ∧
    (clear (.sretResume e) s = true → u.me.ctl.trapCause.getLsbD 7 = false → Traps (.sretResume e) s 0x03 0)

/-- R203, R369, R370: OVERLAY_ENTRY and OVLRET complete: entry to the overlay handler and its return. Where the core's next fetch is due and faults outside the code window at user level, with OVL_VEC armed and neither an overlay
handler nor a supervisor handler running, the core goes on at OVL_VEC: OVL_ADDR takes the address and the bank's resume PC the instruction's, and no trap register
changes; where it does not fault there, nothing happens. OVLRET, once its IFENCE is over, goes back there, and traps where there is nothing to return from. That
OVLRET waits with blocked-on kind 0 (log 28) and how its IFENCE waits (log 23) are the model's choices. -/
def Sys2Proof.OverlayEntryAndReturn : Prop :=
  (∀ (addr : W) (s : State), (fetchDue s = false ∨ fetch s.here s.me s.fresh ≠ .error (0x07, addr)) → exec (.overlayEntry addr) s = .next s) ∧
  (∀ (addr : W) (s : State), fetchDue s = true → fetch s.here s.me s.fresh = .error (0x07, addr) →
    s.me.sup = false → s.me.ctl.ovlVec.toNat % 2 ^ 22 / 2 ≠ 0 → s.me.resumable = false → s.me.active = false →
    ∃ t, exec (.overlayEntry addr) s = .next t ∧ t.me.pc.toNat = s.me.ctl.ovlVec.toNat % 2 ^ 22 / 2 * 2 ∧ t.me.cbank.ovlAddr = addr ∧
      t.me.cbank.resume = s.me.pc ∧ t.me.resumable = true ∧ t.me.sup = false ∧ t.me.ctl = s.me.ctl ∧ t.me.mask = s.me.mask ∧
      t.me.trapCount = s.me.trapCount ∧ (∀ n, t.me.g n = s.me.g n) ∧ (s.cur.kind = .math → s.me.lev = false → t.here.mdep = [])) ∧
  (∀ (e : Enc) (s : State), clear (.ovlret e) s = true → (seen s).me.resumable = true → (seen s).me.active = false → earlierDone (seen s) s.cur 5 = true →
    ∃ t, exec (.ovlret e) s = .next t ∧ t.me.pc = (seen s).me.cbank.resume ∧ t.me.resumable = false ∧ t.me.sup = (seen s).me.sup ∧
      t.me.ctl = (seen s).me.ctl ∧ t.me.seen = s.here.past.length ∧ (∀ n, t.me.g n = (seen s).me.g n)) ∧
  (∀ (e : Enc) (s : State), clear (.ovlret e) s = true → (seen s).me.resumable = true → (seen s).me.active = false →
    earlierDone (seen s) s.cur 5 = false → Waits (.ovlret e) s 0 0) ∧
  (∀ (e : Enc) (s : State), clear (.ovlret e) s = true → ((seen s).me.resumable = false ∨ (seen s).me.active = true) → Traps (.ovlret e) s 0x03 0)

/-- R245, R246, R250, R251: HANDLER_DISPATCH and HP_PREEMPTION complete. At a dispatch point a pending high-priority message that is not held back starts
first, then a suspended activation goes on, then a low-priority message starts; a pending high-priority message suspends a running low-priority
activation and starts on the shadow bank. Of the pending channels of a level the current one goes on while it has credit, else the next in ascending
order takes a credit of its weight. The activation starts at the entry of its TASK register, at its level, with the descriptor in g1, the payload
address in g2 and the latency word of the record, VALID set and its reserved bits 0 whatever has been stored there (R100); g1 is poisoned where the descriptor's word is (R398). -/
def Sys2Proof.HandlersStart : Prop :=
  (∀ (k : Core) (hi : Bool), let sel := if hi then k.hiSel else k.lowSel
    (k.pending hi sel.chan = true → sel.credit ≠ 0 → k.choose hi = some (sel.chan, ⟨sel.chan, sel.credit - 1⟩)) ∧
    (∀ d, (k.pending hi sel.chan = false ∨ sel.credit = 0) → 1 ≤ d → d ≤ 64 → sel.chan < 64 →
      k.pending hi ((sel.chan + d) % 64) = true → (∀ j, 1 ≤ j → j < d → k.pending hi ((sel.chan + j) % 64) = false) →
      k.choose hi = some ((sel.chan + d) % 64, ⟨(sel.chan + d) % 64, taskWeight (k.task ((sel.chan + d) % 64)) - 1⟩))) ∧
  ∀ (c : CoreId) (s : State) (n : Nat) (sel : Select) (r : Rec), let k := s.core c
    let started := fun (hi : Bool) (t : State) =>
      let m := t.core c
      ∃ a, (m.bank hi).act = some a ∧ m.lev = hi ∧ m.act = some a ∧ a.chan = n ∧ a.record = r.at_ ∧ a.noMsg = false ∧
        a.pc = taskEntry (k.task n) ∧ a.sup = taskSup (k.task n) ∧ a.cycles = 0 ∧
        m.g 1 = (s.tile c.site).word (ringAddr (k.ring n) r.at_) ∧ m.g 2 = BitVec.ofNat 64 (ringAddr (k.ring n) r.at_ + 16) ∧
        (m.bank hi).lat.toNat = ((s.tile c.site).word (ringAddr (k.ring n) r.at_ + 8)).toNat % 2 ^ 47 + 2 ^ 47 ∧
        ((m.poisonOf .g 1).isSome = (s.tile c.site).bad (ringAddr (k.ring n) r.at_)) ∧ (m.bank hi).sends = [] ∧
        (m.bank hi).partialMark = false ∧ (∀ j, 3 ≤ j → j < 32 → vget (m.bank hi).g j = vget (k.bank hi).g j) ∧ a.desc = m.g 1 ∧
        m.bank (!hi) = k.bank (!hi)
    (atEvent k = true → k.trapDue = false → asyncDue k = false → canDispatch s c = true → (k.haltReq = false) → k.anyPending true = false →
      k.lo.act = none → k.hi.act = none → k.lowSusp = false → k.choose false = some (n, sel) → k.headRec n = some r →
      ∃ t, exec (.handlerDispatch c) s = .next t ∧ started false t ∧ (t.core c).lowSel = sel) ∧
    (atEvent k = true → k.trapDue = false → asyncDue k = false → canDispatch s c = true → (s.tile c.site).stopped = false → k.haltReq = false →
      k.hpCount < k.ctl.hpLimit.toNat % 256 → k.mask = none → k.active = false → k.choose true = some (n, sel) → k.headRec n = some r →
      ∃ t, exec (.handlerDispatch c) s = .next t ∧ started true t ∧ (t.core c).lowSusp = k.lo.act.isSome ∧ (t.core c).hiSel = sel) ∧
    (atEvent k = true → k.trapDue = false → asyncDue k = false → canDispatch s c = true → k.anyPending true = false → k.lo.act.isSome = true →
      ∃ t, exec (.handlerDispatch c) s = .next t ∧ (t.core c).act = k.lo.act ∧ (t.core c).lowSusp = false ∧ (t.core c).recs = k.recs) ∧
    (atEvent k = true → k.trapDue = false → asyncDue k = false → hpReady s c = true → k.choose true = some (n, sel) → k.headRec n = some r →
      ∃ t, exec (.hpPreemption c) s = .next t ∧ started true t ∧ (t.core c).lowSusp = true ∧ (t.core c).hpCount = k.hpCount + 1 ∧
        (t.core c).hiSel = sel)

/-- R106, R132, R252, R267, R364, R367: WATCHDOG, MASK_OVERRUN, TRAP_DELIVERY and ASYNC_TRAP_TAKE complete: the traps that are taken at an instruction boundary without an instruction of their own: an activation over its watchdog budget
(DETAIL the budget), the instruction that would exceed a masked window (DETAIL the limit), a trap of an earlier vector instruction or matrix command, and an
Async cause, whose resume address is the next instruction's. At a tile that is being torn down such a trap is dropped (R418). -/
def Sys2Proof.BoundaryTraps : Prop :=
  ∀ (c : CoreId) (s : State), let k := s.core c
    atEvent k = true → mustDrain s c = false →
    (k.trapDue = false → asyncDue k = false → k.overBudget = true →
      ∃ t, exec (.watchdog c) s = .next t ∧ delivered k (t.core c) 0x17 false false k.ctl.wdogBudget k.pc) ∧
    (k.trapDue = false → asyncDue k = false → k.act.isSome = true → k.maskFull = true → k.blocked.kind = 0 →
      ∃ t, exec (.maskOverrun c) s = .next t ∧ delivered k (t.core c) 0x18 false false k.ctl.maskLimit k.pc) ∧
    (∀ p, k.ptrap = some p → (s.tile c.site).torn = true → ∃ t, exec (.trapDelivery c) s = .next t ∧ (t.core c).ptrap = none ∧
      (t.core c).trapCount = k.trapCount ∧ (t.core c).pc = k.pc ∧ (t.core c).held = k.held) ∧
    (∀ p, k.ptrap = some p → (s.tile c.site).torn = false → k.trapDue = true → abortCause p.cause false = true → p.cause < 0x1E →
      ∃ t, exec (.trapDelivery c) s = .next t ∧ delivered k (t.core c) p.cause false false p.detail p.pc ∧ (t.core c).ptrap = none) ∧
    (∀ a rest, k.trapDue = false → k.async = a :: rest → asyncDue k = true → a.cause < 0x1E →
      ∃ t, exec (.asyncTrapTake c) s = .next t ∧ delivered k (t.core c) a.cause true true a.detail k.pc ∧ (t.core c).async = rest ∧
        (t.core c).ctl.trapInfo.getLsbD 1 = a.overflow)

/-- R365, R366, R371, R373: ISLAND_TRAP_ANSWER completes: the home island's answer to a held core. RESUME lets a resumable cause go on at TRAP_PC; REDELIVER ends the
activation and leaves its record; DROP ends it and frees the record; HALT halts the core besides. Where the cause is resumable the last three first abort
the activation. The core is then held no longer. -/
def Sys2Proof.IslandAnswers : Prop :=
  ∀ (c : CoreId) (s : State) (status : W) (a : Act), let k := s.core c
    let w := if k.ctl.trapCause.getLsbD 7 then abortAct s c k.lev else s
    k.held.isSome = true → k.act = some a →
    (k.ctl.trapCause.getLsbD 7 = true → ∃ t, exec (.islandTrapAnswer c 0 status) s = .next t ∧ (t.core c).held = none ∧
      (t.core c).pc.toNat = k.ctl.trapPc.toNat % 2 ^ 22 / 2 * 2 ∧ (t.core c).sup = k.ctl.trapCause.getLsbD 11 ∧ (t.core c).active = false) ∧
    (∀ mode, 1 ≤ mode → mode ≤ 3 → (k.ctl.trapCause.getLsbD 7 = true → mustDrain s c = false) → ((w.core c).bank k.lev).sends = [] →
      (mode ≠ 1 → freeReady w c = true) → (mode = 3 → quietCore w c = true) →
      ∃ t, exec (.islandTrapAnswer c mode status) s = .next t ∧ (t.core c).held = none ∧ ((t.core c).bank k.lev).act = none ∧
        (t.core c).active = false ∧ (mode = 1 → (t.core c).recs = (w.core c).recs) ∧
        (mode ≠ 1 → a.noMsg = false → a.recLen ≠ 0 → (t.core c).recs = ((w.core c).freeHead a.chan).recs) ∧
        (mode = 3 → (t.core c).halted = true))

/-! ### Vectors -/

namespace Sys2Proof

/-- R104: the operands that a page-2 form takes with it into the vector queue: g[b], g[c] and the predicate of VSEL. None for the forms that do
not write a v register and for the stream bindings. -/
def vecOperands (i : Instr) (k : Core) : Option (W × W × W) :=
  match i with
  | .viota e | .vbcast e => some (k.g e.b, 0, 0)
  | .vins e => some (k.g e.b, k.g e.c, 0)
  | .vslup e | .vsldn e => some (0, k.g e.c, 0)
  | .vsel e => some (0, 0, k.p e.f)
  | .vadd _ | .vsub _ | .vmul _ | .vfma _ | .vfms _ | .vdiv _ | .vsqrt _ | .vexp2 _ | .vlog2 _ | .vrcp _ | .vrsq _ | .vsinpi _ | .vcospi _
  | .vmin _ | .vmax _ | .vabs _ | .vneg _ | .vand _ | .vor _ | .vxor _ | .vnot _ | .vshl _ | .vshr _ | .vsra _ | .vcvt _ | .vquant _ | .vdeq _
  | .vredsum _ | .vredmax _ | .vredmin _ | .vredsumw _ | .vdot _ | .vdotc _ | .vcmul _ | .vcmulc _ | .vperm _ | .vmov _ => some (0, 0, 0)
  | _ => none
/-- The compares. -/
def isVcmp : Instr → Bool
  | .vcmpeq _ | .vcmpne _ | .vcmplt _ | .vcmple _ => true
  | _ => false
/-- The entry that an instruction leaves in the vector queue. -/
def queued (i : Instr) (e : Enc) (k : Core) (x y sel : W) (out : Option Nat) : VEntry :=
  ⟨i, k.pc, k.pos, k.pred e, x, y, sel, k.ctl.fpMode, out, 0⟩
/-- A core with one more entry in its vector queue. -/
def withEntry (k : Core) (x : VEntry) : Core := { k with vq := k.vq ++ [x] }

/-- The value of a lane of `n` bits in an integer type. -/
def laneInt (ty n x : Nat) : Int := if ty < 4 ∧ 2 ^ (n - 1) ≤ x then (x : Int) - 2 ^ n else x
/-- R61: an integer result in `n` bits, wrapped or saturated. -/
def fit (sat signed : Bool) (n : Nat) (v : Int) : Nat :=
  let v := if !sat then v else if signed then max (-2 ^ (n - 1)) (min (2 ^ (n - 1) - 1) v) else max 0 (min (2 ^ n - 1) v)
  (v % 2 ^ n).toNat
/-- R61: the two components, each of `n` bits, of a complex element, and the element that two components make. -/
def component (n x : Nat) (im : Bool) : Int := laneInt 0 n (if im then x / 2 ^ n % 2 ^ n else x % 2 ^ n)
def complexOf (sat : Bool) (n : Nat) (re im : Int) : Nat := fit sat true n re + fit sat true n im * 2 ^ n

/-- R61, R107 to R111, R118, R119: lane j of the result of an integer, complex, logic or move form, from the lanes of v[b], v[c] and the old
v[a], under modifiers 000 and 001; none for the other forms. -/
def laneSpec (q : VEntry) : Option (Nat × ((Nat → Nat) → (Nat → Nat) → (Nat → Nat) → Nat → Nat)) :=
  let parts := fun (e : Enc) (cplx : Bool) (f : Int → Int → Int) =>
    let n := laneBits e.ty
    let sat := e.mod == 1
    if inI e.ty && decide (e.mod < 2) then
      some (n, fun (b c _ : Nat → Nat) (j : Nat) => fit sat (decide (e.ty < 4)) n (f (laneInt e.ty n (b j)) (laneInt e.ty n (c j))))
    else if inC e.ty && cplx && decide (e.mod < 2) then
      let h := n / 2
      some (n, fun (b c _ : Nat → Nat) (j : Nat) =>
        complexOf sat h (f (component h (b j) false) (component h (c j) false)) (f (component h (b j) true) (component h (c j) true)))
    else none
  let product := fun (e : Enc) (conj : Bool) =>
    let n := laneBits e.ty
    let h := n / 2
    let sat := e.mod == 1
    if inC e.ty && decide (e.mod < 2) then
      some (n, fun (b c _ : Nat → Nat) (j : Nat) =>
        let br := component h (b j) false
        let bi := component h (b j) true
        let cr := component h (c j) false
        let ci := component h (c j) true
        let ci := if conj then laneInt 0 h (fit sat true h (-ci)) else ci
        complexOf sat h (br * cr - bi * ci) (br * ci + bi * cr))
    else none
  let int := fun (e : Enc) (f : Nat → Nat → Nat → Nat) =>
    let n := laneBits e.ty
    if inI e.ty && e.mod == 0 then some (n, fun (b c _ : Nat → Nat) (j : Nat) => f n (b j) (c j) % 2 ^ n) else none
  let all := fun (e : Enc) (f : Nat → (Nat → Nat) → (Nat → Nat) → (Nat → Nat) → Nat → Nat) => some (laneBits e.ty, f (laneBits e.ty))
  match q.i with
  | .vadd e => parts e true fun x y => x + y
  | .vsub e => parts e true fun x y => x - y
  | .vmul e => parts e false fun x y => x * y
  | .vcmul e => product e false
  | .vcmulc e => product e true
  | .vmin e => int e fun n x y => if laneInt e.ty n x < laneInt e.ty n y then x else y
  | .vmax e => int e fun n x y => if laneInt e.ty n x < laneInt e.ty n y then y else x
  | .vabs e => parts e false fun x _ => (x.natAbs : Int)
  | .vneg e => parts e true fun x _ => -x
  | .vand e => all e fun _ b c _ j => b j &&& c j
  | .vor e => all e fun _ b c _ j => b j ||| c j
  | .vxor e => all e fun _ b c _ j => b j ^^^ c j
  | .vnot e => all e fun n b _ _ j => 2 ^ n - 1 - b j
  | .vshl e => int e fun n x y => x * 2 ^ (y % n)
  | .vshr e => int e fun n x y => x / 2 ^ (y % n)
  | .vsra e => int e fun n x y => ((laneInt 0 n x / 2 ^ (y % n)) % 2 ^ n).toNat
  | .vsel e => all e fun _ b c _ j => if q.sel.getLsbD j then b j else c j
  | .viota e => all e fun n _ _ _ j => (q.x.toNat + j) % 2 ^ n
  | .vbcast e => all e fun n _ _ _ _ => q.x.toNat % 2 ^ n
  | .vins e => all e fun n _ _ a j => if j = q.y.toNat then q.x.toNat % 2 ^ n else a j
  | .vperm e => all e fun n b c _ j => if c j < 512 / n then b (c j) else 0
  | .vslup e => all e fun _ b _ _ j => if q.y.toNat ≤ j then b (j - q.y.toNat) else 0
  | .vsldn e => all e fun n b _ _ j => if j + q.y.toNat < 512 / n then b (j + q.y.toNat) else 0
  | .vmov _ => some (8, fun b _ _ j => b j)
  | _ => none
/-- R62: the rounding mode and saturation of an entry. -/
def modeOf (q : VEntry) (e : Enc) : Nat := if e.mod = 0 then q.fpMode.toNat % 8 else if e.mod = 1 then 0 else e.mod
def satOf (q : VEntry) (e : Enc) : Bool := e.mod == 1 || q.fpMode.getLsbD 3
/-- R68, R107: the exact value that a float form rounds, from the lanes of v[b], v[c] and the old v[a]. -/
def floatSpec (q : VEntry) (e : Enc) (x y z : Nat) : Option FVal :=
  let v := fval e.ty
  let down := modeOf q e == 3
  match q.i with
  | .vadd _ => some (fadd down (v x) (v y)).1
  | .vsub _ => some (fadd down (v x) (fneg (v y))).1
  | .vmul _ => some (fmul (v x) (v y)).1
  | .vfma _ => some (fadd down (fmul (v x) (v y)).1 (v z)).1
  | .vfms _ => some (fadd down (fneg (fmul (v x) (v y)).1) (v z)).1
  | .vdiv _ => some (fdiv (v x) (v y)).1
  | .vsqrt _ => some (fsqrt (v x)).1
  | .vexp2 _ => some (fexp2 (v x)).1
  | .vlog2 _ => some (flog2 (v x)).1
  | .vrcp _ => some (frcp (v x)).1
  | .vrsq _ => some (frsq (v x)).1
  | .vsinpi _ => some (fsinpi (v x)).1
  | .vcospi _ => some (fcospi (v x)).1
  | _ => none
/-- R110: the condition of a compare of two integers. -/
def cmpSpec (i : Instr) (x y : Int) : Bool :=
  match i with
  | .vcmpeq _ => decide (x = y)
  | .vcmpne _ => decide (x ≠ y)
  | .vcmplt _ => decide (x < y)
  | _ => decide (x ≤ y)
/-- R55: a value that is no NaN, counted in units of 2^(-149), an infinity beyond every finite value of the types of class F. -/
def num : FVal → Option Int
  | .nan => none
  | .inf a => some (if a then -2 ^ 400 else 2 ^ 400)
  | .fin a m e _ => some ((if a then -1 else 1) * (m * 2 ^ (e + 149).toNat))
/-- R108: encoding x of a float type stands below y: by value, and -0 below +0. -/
def below (ty x y : Nat) : Prop :=
  ∃ u v, num (fval ty x) = some u ∧ num (fval ty y) = some v ∧
    (u < v ∨ (u = v ∧ 2 ^ (laneBits ty - 1) ≤ x ∧ y < 2 ^ (laneBits ty - 1)))
/-- R110: the condition of a compare of two float values. -/
def fcmpSpec (i : Instr) (x y : Option Int) : Bool :=
  match x, y with
  | some u, some v => cmpSpec i u v
  | _, _ => match i with
    | .vcmpne _ => true
    | _ => false
/-- R114: EMAX. -/
def emaxSpec (t : Nat) (mx : Bool) : Int :=
  if t = 11 then 8 else if t = 12 then 15 else if t = 13 then 4 else if t = 14 ∨ t = 15 ∨ t = 16 then 2 else if t = 4 then 7
  else if t = 17 then 3 else if mx then 0 else 6
/-- R62 to R64: RoundTo for a float or an integer type. -/
def roundTo (t : Nat) (fp : Fp) (x : FVal) : Nat :=
  if isFloat t then (roundF t fp x).1 else (roundI (isSigned t) (tyBits t) fp x).1
/-- R72: the balanced tree over the lanes from `lo` on, 2^k of them; a node with one active child passes its value through. -/
def treeOf (f : Nat → Nat → Nat) (l : Nat → Option Nat) : Nat → Nat → Option Nat
  | 0, lo => l lo
  | k + 1, lo => match treeOf f l k lo, treeOf f l k (lo + 2 ^ k) with
    | some x, some y => some (f x y)
    | some x, none => some x
    | none, y => y
/-- R69, R70: the conversion of one element that is no complex one. -/
def convertSpec (src dst : Nat) (fp : Fp) (x : Nat) : Nat :=
  if src = 22 ∧ dst = 22 then x
  else if isInt src ∧ isInt dst then fit fp.sat (isSigned dst) (tyBits dst) (intOf (isSigned src) (tyBits src) x)
  else if dst = 22 then match fval src x with
    | .fin _ m e _ => if m = 0 then 0 else (max 0 (min 254 (e + m.log2 + 127))).toNat
    | _ => 0xFF
  else roundTo dst fp (elemVal src x)

/-- R213: lane width and the address of lane j of a page-3 form; `off` is the register of offsets of VGATH and VSCAT. -/
def vecAddr (i : Instr) (k : Core) (off : V) : Option (Nat × (Nat → W)) :=
  match i with
  | .vld e | .vst e => some (8, fun j => k.g e.b + BitVec.ofInt 64 (64 * e.immS .ri) + BitVec.ofNat 64 j)
  | .vlds e | .vsts e => some (laneBits e.ty, fun j => k.g e.b + BitVec.ofNat 64 j * k.g e.c)
  | .vgath e | .vscat e => some (laneBits e.ty, fun j => k.g e.b + BitVec.ofNat 64 (lane off (laneBits e.ty) j))
  | .vldb e => some (laneBits e.ty, fun _ => k.g e.b + BitVec.ofInt 64 ((laneBits e.ty / 8 : Nat) * e.immS .ri))
  | .vbred e => some (laneBits e.ty, fun j => k.g e.b + BitVec.ofNat 64 (j * (laneBits e.ty / 8)))
  | _ => none
/-- Forms whose address must be a multiple of 64. -/
def isAligned64 : Instr → Bool
  | .vld _ | .vst _ | .vbred _ => true
  | _ => false
/-- The page-3 forms that load, and those that store. -/
def isVload : Instr → Bool
  | .vld _ | .vlds _ | .vgath _ | .vldb _ => true
  | _ => false
def isVstore : Instr → Bool
  | .vst _ | .vsts _ | .vscat _ => true
  | _ => false

end Sys2Proof

/-- R104, R106, R110, R119, R227: every page-2 form, VADD to VMOV, the four compares, VEXTR, VSBIND and VSUNBIND, completes at issue once the core's vector
queue has room: it enters the queue with its predicate, its g operands and the FP_MODE in force. The forms that write v[a] ask that no stream is
bound to it (to v[a + 1] for VDEQ); a compare promises p[a], which where some lane is inactive must be readable, and one of 64 lanes none active, which
writes nothing, promises nothing; VEXTR promises g[a] unless the bit of P for its lane is 0; VSBIND names a channel whose ring is enabled and that
nothing else is bound to. The others wait at a full queue, and with a stream bound to v[a] the forms that write it trap. That the full queue's wait has
blocked-on kind 0 (log 28) and that a stream bound to v[a] traps whatever the predicate (log 77) are the model's choice. -/
def Obligations.VectorFormsIssue : Prop :=
  ∀ (i : Instr) (e : Enc) (s : State), encOf i = some e → clear i s = true → formOk i = true →
    let u := seen s
    let k := u.me
    (∀ x y sel, vecOperands i k = some (x, y, sel) → k.streamBound e.a = false → (i = .vdeq e → k.streamBound (e.a + 1) = false) →
      (k.vq.length < 16 → Completes i e s (u.modMe fun k => withEntry k (queued i e k x y sel none))) ∧
      (16 ≤ k.vq.length → Waits i s 0 0)) ∧
    (∀ x, vecOperands i k = some x → (k.streamBound e.a = true ∨ (i = .vdeq e ∧ k.streamBound (e.a + 1) = true)) → Traps i s 0x03 0) ∧
    ((isVcmp i = true ∨ i = .vextr e) → 16 ≤ k.vq.length → Waits i s 0 0) ∧
    (isVcmp i = true → k.vq.length < 16 → laneBits e.ty = 8 → (k.pred e).toNat = 0 →
      Completes i e s (u.modMe fun k => withEntry k (queued i e k 0 0 0 none))) ∧
    (isVcmp i = true → k.vq.length < 16 → (8 < laneBits e.ty ∨ (k.pred e).toNat ≠ 0) →
      ((∀ j, j < 512 / laneBits e.ty → (k.pred e).getLsbD j = true) ∨ (k.mustWait .p e.a = false ∧ k.poisonOf .p e.a = none)) →
      Completes i e s (u.modMe fun k =>
        withEntry (k.promise e.L .p e.a).2 (queued i e k 0 (k.p e.a) 0 (some (k.promise e.L .p e.a).1)))) ∧
    (i = .vextr e → k.vq.length < 16 → (∀ j, j = (k.g e.c).toNat → j < 512 / laneBits e.ty → (k.pred e).getLsbD j = true) →
      Completes i e s (u.modMe fun k =>
        withEntry (k.promise e.L .g e.a).2 (queued i e k 0 (k.g e.c) 0 (some (k.promise e.L .g e.a).1)))) ∧
    (i = .vextr e → k.vq.length < 16 → (k.g e.c).toNat < 512 / laneBits e.ty → (k.pred e).getLsbD (k.g e.c).toNat = false →
      Completes i e s (u.modMe fun k => withEntry k (queued i e k 0 (k.g e.c) 0 none))) ∧
    (∀ n, i = .vsbind e → n = (if e.imms.isEmpty then (k.g e.b).toNat else e.immHigh) → n < 64 → k.vq.length < 16 → ringEn (k.ring n) = true →
      k.portOf n = false → (∀ j, j < 4 → j ≠ e.a - 12 → k.streamsAfter.getD j none ≠ some n) →
      Completes i e s (u.modMe fun k => withEntry k (queued i e k (BitVec.ofNat 64 n) 0 0 none))) ∧
    (i = .vsunbind e → k.vq.length < 16 → Completes i e s (u.modMe fun k => withEntry k (queued i e k 0 0 0 none)))

/-- R104, R265: the heads of a tile's three vector queues compete for its lanes: a head waits for them unless a trap of an earlier instruction is
due or a stream that it reads has no entry. The one served is that of the core with the largest deficit, of the lowest kind among equals, and no other
is; that a unit cycle refills each waiting core by its weight and the core served pays the sum is the model's choice (log 79). -/
def Sys2Proof.LanesArbitrated : Prop :=
  ∀ (s : State) (t : Site), let waits := fun k => headWaits s ⟨t, k⟩ = true
    let deficit := fun k => (s.core ⟨t, k⟩).deficit
    (∀ k, laneWinner s t = some k → waits k ∧ ∀ j, waits j → deficit j ≤ deficit k ∧ (deficit j = deficit k → k.code ≤ j.code)) ∧
    (laneWinner s t = none → ∀ k, ¬waits k) ∧
    (∀ k, laneWinner s t ≠ some k → exec (.vectorQueueExecute ⟨t, k⟩) s = .next s) ∧
    (∀ k, waits k → (∀ j, j ≠ k → ¬waits j) →
      ((chargeLane s ⟨t, k⟩).core ⟨t, k⟩).deficit = deficit k) ∧
    (∀ k j, k ≠ j → waits k → waits j → (∀ l, l ≠ k → l ≠ j → ¬waits l) →
      ((chargeLane s ⟨t, k⟩).core ⟨t, k⟩).deficit = deficit k - ((s.core ⟨t, j⟩).ctl.varbWeight.toNat : Int) ∧
      ((chargeLane s ⟨t, k⟩).core ⟨t, j⟩).deficit = deficit j + ((s.core ⟨t, j⟩).ctl.varbWeight.toNat : Int))

/-- R104, R106, R107 to R119, R227: the step VECTOR_QUEUE_EXECUTE completes: the vector queue that the arbitration serves performs its oldest entry. Where its
sources are no bound streams and no v register is poisoned: an integer, logic or move form gives each active lane its value and leaves the others; a
float form gives each active lane the exact value rounded once, in the mode of R62 (stochastic rounding apart); with no active lane the register is
not written; an integer VREDSUM gives lane 0 the sum of the active lanes and zeros elsewhere; an integer compare gives its register a mask whose
inactive bits keep their value; VEXTR gives its lane extended to 64 bits. Every form gives what `entryRun` computes, with its flags and its state of
the random source. A stream with nothing to pop keeps the entry waiting; one whose ring is disabled and a poisoned active lane drop it with a trap to
come at the core's next boundary. VSBIND and VSUNBIND take effect in their turn. -/
def Sys2Proof.QueueExecutes : Prop :=
  (∀ (c : CoreId) (s : State) (q : VEntry) (rest : List VEntry) (n : Nat) (l : List Nat) (ch : Nat), (s.core c).vq = q :: rest →
    queuedSources q.i = n :: l → 12 ≤ n → (vget ((s.core c).settleV (some q.pos)).streams (n - 12)).chan = some ch →
    ringEn ((s.core c).ring ch) = true → (s.core c).headRec ch = none → exec (.vectorQueueExecute c) s = .next s) ∧
  ∀ (c : CoreId) (s0 : State) (q : VEntry) (rest : List VEntry) (e : Enc), (s0.core c).vq = q :: rest → laneWinner s0 c.site = some c.kind →
    encOf q.i = some e →
    let s := chargeLane s0 c
    let k := (s.core c).settleV (some q.pos)
    let b := vget k.v e.b
    let y := vget k.v e.c
    let a := vget k.v e.a
    let plain := (∀ n ∈ queuedSources q.i, n < 12 ∨ (vget k.streams (n - 12)).chan = none) ∧ (∀ r ∈ k.regPoison, r.file ≠ .v) ∧ q.out = none
    let becomes := fun (f : Core → Core) => ∃ t, exec (.vectorQueueExecute c) s0 = .next t ∧
      { t.core c with ctl := k.ctl } = f { k with vq := rest }
    let gives := fun (x : V) => becomes fun k => k.writeAt false q.pos e.L .v e.a x []
    let written := fun (n j : Nat) => j < 512 / n ∧ q.p.getLsbD j = true ∧ (q.i = .vins e → j = q.y.toNat)
    (∀ n f j, plain → laneSpec q = some (n, f) → written n j → ∃ x, gives x ∧ ∀ j, j < 512 / n →
      lane x n j = if q.p.getLsbD j then f (lane b n) (lane y n) (lane a n) j else lane a n j) ∧
    (∀ n f, plain → laneSpec q = some (n, f) → (∀ j, ¬written n j) → becomes fun k => k) ∧
    (plain → inF e.ty = true → (floatSpec q e 0 0 0).isSome = true → (∀ j, ¬written (laneBits e.ty) j) → becomes fun k => k) ∧
    (plain → inF e.ty = true → modeOf q e ≠ 5 → (floatSpec q e 0 0 0).isSome = true → (∃ j, written (laneBits e.ty) j) → ∃ x, gives x ∧ ∀ j, j < 512 / laneBits e.ty →
      lane x (laneBits e.ty) j = if q.p.getLsbD j
        then ((floatSpec q e (lane b (laneBits e.ty) j) (lane y (laneBits e.ty) j) (lane a (laneBits e.ty) j)).map fun v =>
          (roundF e.ty ⟨modeOf q e, satOf q e, 0, 0⟩ v).1).getD 0
        else lane a (laneBits e.ty) j) ∧
    (plain → q.i = .vredsum e → inI e.ty = true → gives (BitVec.ofNat 512 (((List.range (512 / laneBits e.ty)).foldl (fun z j =>
      if q.p.getLsbD j then z + lane b (laneBits e.ty) j else z) 0) % 2 ^ laneBits e.ty))) ∧
    (∀ id, q.out = some id → isVcmp q.i = true → inI e.ty = true →
      (∀ n ∈ queuedSources q.i, n < 12 ∨ (vget k.streams (n - 12)).chan = none) → (∀ r ∈ k.regPoison, r.file ≠ .v) →
      ∃ m : W, becomes (fun k => k.deliver id (m.setWidth 512) []) ∧ ∀ j, j < 64 → m.getLsbD j =
        if j < 512 / laneBits e.ty then
          (if q.p.getLsbD j then cmpSpec q.i (laneInt e.ty (laneBits e.ty) (lane b (laneBits e.ty) j))
            (laneInt e.ty (laneBits e.ty) (lane y (laneBits e.ty) j)) else q.y.getLsbD j)
        else false) ∧
    (∀ id, q.out = some id → q.i = .vextr e → inI e.ty = true → (∀ n ∈ queuedSources q.i, n < 12 ∨ (vget k.streams (n - 12)).chan = none) →
      (∀ r ∈ k.regPoison, r.file ≠ .v) →
      let x : Int := if q.y.toNat < 512 / laneBits e.ty then laneInt e.ty (laneBits e.ty) (lane b (laneBits e.ty) q.y.toNat) else 0
      becomes (fun k => k.deliver id ((BitVec.ofInt 64 x).setWidth 512) [])) ∧
    (∀ srcs s2, (∀ e', q.i ≠ .vsbind e' ∧ q.i ≠ .vsunbind e') → takeAll (s.modCore c fun k => k.settleV (some q.pos)) c (queuedSources q.i) =
        .ok srcs s2 → (∀ x ∈ srcs, x.2 = []) → (∀ r ∈ (s2.core c).regPoison, r.file ≠ .v) →
      let k2 : Core := { s2.core c with vq := (s2.core c).vq.drop 1 }
      let r := entryRun (s2.tile c.site) q (srcs.getD 0 (0, [])).1 (srcs.getD 1 (0, [])).1 (vget k2.v e.a) (vget k2.v (e.a + 1))
        (Fp.of e.mod q.fpMode k2.ctl.seed)
      let put := fun (second : Bool) (x : V) (k : Core) =>
        if entryWrites (s2.tile c.site) q second then k.writeAt false q.pos e.L .v (if second then e.a + 1 else e.a) x [] else k
      ∃ t, exec (.vectorQueueExecute c) s0 = .next t ∧ (t.core c).ctl.seed = BitVec.ofNat 64 r.fp.seed ∧
        (t.core c).ctl.fpFlags = k2.ctl.fpFlags ||| BitVec.ofNat 64 r.fp.flags ∧
        (∀ x, r.v = some x → r.v2 = none → q.out = none → { t.core c with ctl := k2.ctl } = put false x k2) ∧
        (∀ x x', r.v = some x → r.v2 = some x' → q.out = none → { t.core c with ctl := k2.ctl } = put true x' (put false x k2)) ∧
        (r.v = none → r.v2 = none → q.out = none → { t.core c with ctl := k2.ctl } = k2) ∧
        (∀ id x, r.v = none → r.v2 = none → q.out = some id → r.r = some x → { t.core c with ctl := k2.ctl } = k2.deliver id (x.setWidth 512) [])) ∧
    (∀ n l ch, queuedSources q.i = n :: l → 12 ≤ n → (vget k.streams (n - 12)).chan = some ch → ringEn (k.ring ch) = false →
      ∃ t, exec (.vectorQueueExecute c) s0 = .next t ∧ (t.core c).vq = rest ∧ (t.core c).v = k.v ∧
        (t.core c).ptrap = some ⟨0x10, BitVec.ofNat 64 ch, q.pc, 0, false⟩) ∧
    (∀ j d, (q.i = .vadd e ∨ q.i = .vand e ∨ q.i = .vcvt e) → (∀ n ∈ queuedSources q.i, n < 12 ∨ (vget k.streams (n - 12)).chan = none) →
      (q.i = .vcvt e → storeBits e.ty = storeBits (4 * e.fc + e.f) ∧ storeBits e.ty = laneBits e.ty) →
      j < 512 / laneBits e.ty → q.p.getLsbD j = true → (j * laneBits e.ty / 64, d) ∈ k.vmarks e.b →
      ∃ t d', exec (.vectorQueueExecute c) s0 = .next t ∧ (t.core c).vq = rest ∧ (t.core c).v = k.v ∧
        (t.core c).ptrap = some ⟨0x19, d', q.pc, 0, false⟩) ∧
    (q.i = .vsbind e → ∃ t, exec (.vectorQueueExecute c) s0 = .next t ∧ (t.core c).vq = rest ∧
      (vget (t.core c).streams (e.a - 12)).chan = some q.x.toNat) ∧
    (q.i = .vsunbind e → ∃ t, exec (.vectorQueueExecute c) s0 = .next t ∧ (t.core c).vq = rest ∧
      (vget (t.core c).streams (e.a - 12)).chan = none)

/-- R61, R69, R70, R72, R73, R108, R110, R112 to R117: what `entryRun`, the computation of a queue entry, gives by each form's own arithmetic, for every rounding
mode but the stochastic one. VMIN and VMAX of floats: the smaller or larger, -0 below +0, and the canonical NaN beside a NaN. A compare of floats: by value, a NaN
making only NE true. VCVT: each active element converted, zeros above. VQUANT: each block's scale and its elements rounded at it. VDEQ: each element's value in f32.
VREDMAX and VREDMIN: the largest or smallest active lane. VREDSUM of floats and VREDSUMW: the tree of R72, each addition to nearest even, or the wide integer sum.
VDOT and VDOTC: each lane's exact sum of products, narrowed once. A 4-bit pair without a predicate converts in all its elements by the model's choice (log 16). -/
def Sys2Proof.VectorValues : Prop :=
  ∀ (t : Tile) (q : VEntry) (e : Enc) (b c a a1 : V) (seed : W), encOf q.i = some e → formOk q.i = true →
    let run := entryRun t q b c a a1 (Fp.of e.mod q.fpMode seed)
    let fp : Fp := ⟨modeOf q e, satOf q e, 0, 0⟩
    let n := laneBits e.ty
    let act := fun j => q.p.getLsbD j = true
    let mx := decide (e.f = 1)
    let wd := storeBits e.ty
    let gives := fun (P : V → Prop) => ∃ x, run.v = some x ∧ P x
    (∀ (larger : Bool), q.i = (if larger then .vmax e else .vmin e) → inF e.ty = true → gives fun x => ∀ j, j < 512 / n →
      let y := lane b n j
      let z := lane c n j
      (¬act j → lane x n j = lane a n j) ∧
      (act j → (isNaN e.ty y || isNaN e.ty z) = true → lane x n j = nanOf e.ty) ∧
      (act j → isNaN e.ty y = false → isNaN e.ty z = false →
        (below e.ty y z → lane x n j = if larger then z else y) ∧ (below e.ty z y → lane x n j = if larger then y else z) ∧
        (y = z → lane x n j = y))) ∧
    (isVcmp q.i = true → inF e.ty = true ∨ inC e.ty = true → ∃ m : W, run.r = some m ∧ ∀ j, j < 64 → m.getLsbD j =
      if 512 / n ≤ j then false else if act j then
        (if inF e.ty then fcmpSpec q.i (num (fval e.ty (lane b n j))) (num (fval e.ty (lane c n j)))
         else cmpSpec q.i (lane b n j) (lane c n j))
      else q.y.getLsbD j) ∧
    (q.i = .vcvt e → modeOf q e ≠ 5 → gives fun x =>
      let src := 4 * e.fc + e.f
      let k := 512 / max (storeBits src) wd
      x.toNat < 2 ^ (wd * k) ∧ ∀ j, j < k → bits x.toNat (wd * j) wd =
        if e.pred.isSome ∧ ¬act j then bits a.toNat (wd * j) wd
        else
          let y := bits b.toNat (storeBits src * j) (tyBits src)
          if isCplx src then complexOf fp.sat (tyBits e.ty / 2) (component (tyBits src / 2) y false) (component (tyBits src / 2) y true)
          else convertSpec src e.ty fp y) ∧
    (q.i = .vquant e → modeOf q e ≠ 5 → gives fun x =>
      let size := if mx then 32 else 8
      let src := fun i => fval 8 (if i < 16 then lane b 32 i else lane c 32 (i - 16))
      let size' := fun i => ((num (src i)).getD 0).natAbs
      (∀ k, (4 * wd ≤ k ∧ k < 32) ∨ (36 ≤ k ∧ k < 64) ∨ (mx = true ∧ 33 ≤ k ∧ k < 36) → lane x 8 k = 0) ∧
      (∀ i, i < 32 → ¬act i → lane x wd i = lane a wd i) ∧
      (∀ blk, blk < 32 / size →
        let on := fun i => size * blk ≤ i ∧ i < size * blk + size ∧ act i
        let scale := lane x 8 (32 + blk)
        ((∀ i, ¬on i) → scale = lane a 8 (32 + blk)) ∧
        ((∃ i, on i ∧ (src i = .nan ∨ src i = .inf false ∨ src i = .inf true)) → scale = 0xFF ∧ ∀ i, on i → lane x wd i = 0) ∧
        ((∃ i, on i) → (∀ i, on i → num (src i) = some 0) →
          scale = 0x7F ∧ ∀ i, on i → lane x wd i = if isFloat e.ty = true ∧ negOf (src i) = true then 2 ^ (tyBits e.ty - 1) else 0) ∧
        (∀ top s m u r, on top → src top = .fin s m u r → m ≠ 0 →
          (∀ i, on i → (∃ s m u r, src i = .fin s m u r) ∧ size' i ≤ size' top) →
          let sc := (max 0 (min 254 (u + m.log2 - emaxSpec e.ty mx + 127))).toNat
          scale = sc ∧ ∀ i, on i → lane x wd i =
            roundTo e.ty { fp with sat := true } (fscale (src i) (127 - (sc : Int) + if mx ∧ e.ty = 0 then 6 else 0))))) ∧
    (q.i = .vdeq e → modeOf q e ≠ 5 → ∃ x y, run.v = some x ∧ run.v2 = some y ∧
      let value := fun i =>
        let s := lane b 8 (32 + if mx then 0 else i / 8)
        if s = 255 then FVal.nan
        else fscale (elemVal e.ty (bits b.toNat (wd * i) (tyBits e.ty))) ((s : Int) - 127 - if mx ∧ e.ty = 0 then 6 else 0)
      ∀ i, i < 16 → lane x 32 i = (if act i then (roundF 8 fp (value i)).1 else lane a 32 i) ∧
        lane y 32 i = (if act (i + 16) then (roundF 8 fp (value (i + 16))).1 else lane a1 32 i)) ∧
    (∀ (larger : Bool), q.i = (if larger then .vredmax e else .vredmin e) → inI e.ty = true → gives fun x =>
      let least := if decide (e.ty < 4) then 2 ^ (n - 1) else 0
      let most := if decide (e.ty < 4) then 2 ^ (n - 1) - 1 else 2 ^ n - 1
      x.toNat < 2 ^ n ∧ ((∀ j, j < 512 / n → ¬act j) → x.toNat = if larger then least else most) ∧
      ((∃ j, j < 512 / n ∧ act j) → ∃ j, j < 512 / n ∧ act j ∧ x.toNat = lane b n j ∧ ∀ i, i < 512 / n → act i →
        if larger then laneInt e.ty n (lane b n i) ≤ laneInt e.ty n (lane b n j)
        else laneInt e.ty n (lane b n j) ≤ laneInt e.ty n (lane b n i))) ∧
    (∀ (larger : Bool), q.i = (if larger then .vredmax e else .vredmin e) → inF e.ty = true → gives fun x =>
      let on := fun j => j < 512 / n ∧ act j
      (((∀ j, ¬on j) ∨ ∃ j, on j ∧ isNaN e.ty (lane b n j) = true) → x.toNat = nanOf e.ty) ∧
      ((∃ j, on j) → (∀ j, on j → isNaN e.ty (lane b n j) = false) → ∃ j, on j ∧ x.toNat = lane b n j ∧ ∀ i, on i →
        if larger then ¬below e.ty (lane b n j) (lane b n i) else ¬below e.ty (lane b n i) (lane b n j))) ∧
    (q.i = .vredsum e → inF e.ty = true → gives fun x => x.toNat = (treeOf
      (fun y z => (roundF e.ty ⟨0, false, 0, 0⟩ (fadd false (fval e.ty y) (fval e.ty z)).1).1)
      (fun j => if act j then some (lane b n j) else none) (512 / n).log2 0).getD 0) ∧
    (q.i = .vredsumw e → inF e.ty = true → gives fun x => x.toNat = (treeOf
      (fun y z => (roundF 8 ⟨0, false, 0, 0⟩ (fadd false (fval 8 y) (fval 8 z)).1).1)
      (fun j => if act j then some (roundF 8 ⟨0, false, 0, 0⟩ (fval e.ty (lane b n j))).1 else none) (512 / n).log2 0).getD 0) ∧
    (q.i = .vredsumw e → inI e.ty = true → gives fun x => (x.toNat : Int) =
      ((List.range (512 / n)).map fun j => if act j then laneInt e.ty n (lane b n j) else 0).sum % 2 ^ 64) ∧
    (∀ (conj : Bool), q.i = (if conj then .vdotc e else .vdot e) → modeOf q e ≠ 5 → gives fun x =>
      let k := (if isCplx e.ty then 64 else 32) / wd
      let at_ := fun (y : V) (j i : Nat) => bits y.toNat (wd * (k * j + i)) (tyBits e.ty)
      if isCplx e.ty then
        let h := tyBits e.ty / 2
        ∀ j, j < 8 → lane x 64 j = if ¬act j then lane a 64 j else
          let ci := fun i => let y := component h (at_ c j i) true
            if conj then laneInt 0 h (fit (e.mod == 1) true h (-y)) else y
          complexOf (e.mod == 1) 32
            (component 32 (lane a 64 j) false + ((List.range k).map fun i =>
              component h (at_ b j i) false * component h (at_ c j i) false - component h (at_ b j i) true * ci i).sum)
            (component 32 (lane a 64 j) true + ((List.range k).map fun i =>
              component h (at_ b j i) false * ci i + component h (at_ b j i) true * component h (at_ c j i) false).sum)
      else if isFloat e.ty then
        ∀ j, j < 16 → lane x 32 j = if ¬act j then lane a 32 j else
          (roundF 8 fp (sumProducts (modeOf q e == 3) [fval 8 (lane a 32 j)] ((List.range k).map fun i =>
            (fval e.ty (at_ b j i), fval e.ty (at_ c j i)))).1).1
      else
        ∀ j, j < 16 → lane x 32 j = if ¬act j then lane a 32 j else
          fit (e.mod == 1) (isSigned e.ty) 32 (intOf (isSigned e.ty) 32 (lane a 32 j) + ((List.range k).map fun i =>
            intOf (isSigned e.ty) (tyBits e.ty) (at_ b j i) * intOf (isSigned e.ty) (tyBits e.ty) (at_ c j i)).sum))

/-- R68: the special cases and the exact results of the functions that VSQRT, VRCP, VRSQ, VEXP2, VLOG2, VSINPI and VCOSPI round, with the flags that each
raises, the quotients that VRCP and VDIV round and the root that VSQRT rounds. Elsewhere the value rounded is a fixed-point evaluation, which is the model's choice (log 14). -/
def Sys2Proof.SpecialFunctions : Prop :=
  (∀ (neg : Bool) (u : Int) (r : Bool), let zero := FVal.fin neg 0 u r
    (fsqrt zero = (.fin neg 0 0 false, 0)) ∧ frsq zero = (.inf neg, DZ) ∧ frcp zero = (.inf neg, DZ) ∧ flog2 zero = (.inf true, DZ) ∧
    fexp2 zero = (.fin false 1 0 false, 0) ∧ fsinpi zero = (.fin neg 0 0 false, 0) ∧ fcospi zero = (.fin false 1 0 false, 0)) ∧
  (fsqrt (.inf false) = (.inf false, 0) ∧ frsq (.inf false) = (.fin false 0 0 false, 0) ∧ fexp2 (.inf true) = (.fin false 0 0 false, 0) ∧
    fexp2 (.inf false) = (.inf false, 0) ∧ flog2 (.inf false) = (.inf false, 0)) ∧
  (∀ f ∈ [fsqrt, frsq, flog2], f (.inf true) = (.nan, NV) ∧ ∀ m u r, m ≠ 0 → f (.fin true m u r) = (.nan, NV)) ∧
  (∀ a, frcp (.inf a) = (.fin a 0 0 false, 0) ∧ fsinpi (.inf a) = (.nan, NV) ∧ fcospi (.inf a) = (.nan, NV)) ∧
  (∀ f ∈ [fsqrt, frsq, frcp, fexp2, flog2, fsinpi, fcospi], f .nan = (.nan, 0)) ∧
  (∀ (a : Bool) (m k : Nat) (r : Bool), 0 < m → m * 2 ^ k < 4096 →
    fexp2 (.fin a m k r) = (.fin false 1 (if a then -((m * 2 ^ k : Nat) : Int) else ((m * 2 ^ k : Nat) : Int)) false, 0)) ∧
  (∀ (k : Nat) (u : Int) (r : Bool), (flog2 (.fin false (2 ^ k) u r)).2 = 0 ∧ ∃ s m, (flog2 (.fin false (2 ^ k) u r)).1 = .fin s m 0 false ∧
    (if s then -(m : Int) else (m : Int)) = u + k) ∧
  (∀ (a : Bool) (m k : Nat) (r : Bool), 0 < m → fsinpi (.fin a m k r) = (.fin a 0 0 false, 0) ∧
    fcospi (.fin a m k r) = (.fin (m * 2 ^ k % 2 == 1) 1 0 false, 0)) ∧
  (∀ (a : Bool) (m : Nat) (r : Bool), m % 2 = 1 → fcospi (.fin a m (-1) r) = (.fin false 0 0 false, 0) ∧
    fsinpi (.fin a m (-1) r) = (.fin (a != (m % 4 == 3)) 1 0 false, 0)) ∧
  (∀ (a b : Bool) (m n : Nat) (u v : Int) (r r' : Bool), m ≠ 0 → n ≠ 0 → ∃ z sh more,
    fdiv (.fin a m u r) (.fin b n v r') = (.fin (a != b) z (u - v - (sh : Nat)) more, 0) ∧
    z * n ≤ m * 2 ^ sh ∧ m * 2 ^ sh < (z + 1) * n ∧ (more = false ↔ z * n = m * 2 ^ sh) ∧ 2 ^ 255 ≤ z) ∧
  (∀ (a : Bool) (m : Nat) (u : Int) (r : Bool), m ≠ 0 → frcp (.fin a m u r) = fdiv (.fin a 1 0 false) (.fin false m u r)) ∧
  (∀ (m : Nat) (u : Int) (r : Bool), m ≠ 0 → ∃ z k more, fsqrt (.fin false m u r) = (.fin false z k more, 0) ∧
    z * z ≤ m * 2 ^ (u - 2 * k).toNat ∧ m * 2 ^ (u - 2 * k).toNat < (z + 1) * (z + 1) ∧ 2 * k ≤ u ∧
    (more = false ↔ z * z = m * 2 ^ (u - 2 * k).toNat))

/-- The vector queues: `Sys2Proof.LanesArbitrated`, `Sys2Proof.QueueExecutes`, `Sys2Proof.VectorValues`, `Sys2Proof.SpecialFunctions`. -/
def Obligations.VectorQueueExecutes : Prop :=
  Sys2Proof.LanesArbitrated ∧ Sys2Proof.QueueExecutes ∧ Sys2Proof.VectorValues ∧ Sys2Proof.SpecialFunctions

/-- R37, R102, R191, R212 to R215, R217, R25: the page-3 forms VLD, VLDS, VGATH, VLDB, VST, VSTS, VSCAT and VBRED complete once the core's vector queue is empty, every active
lane's address passes R171 and lies in the issuing tile's memory, no earlier RAMO of the core has still to operate on its bytes, and no word there
nor any v register is poisoned: a load gives each active lane the bytes at its address and leaves the others; a store writes the active lanes, lowest
first; VBRED leaves one operation with the bank of each active lane's word, integer ADD or f32 FADD; with no active lane each has no effect. VLD, VST
and VBRED trap on an address that is no multiple of 64. -/
def Obligations.VectorMemoryForms : Prop :=
  ∀ (i : Instr) (e : Enc) (s : State) (n : Nat) (addr : Nat → W), encOf i = some e → clear i s = true → formOk i = true → (seen s).me.vq = [] →
    let u := (seen s).modMe fun k => k.settleV (some k.pos)
    let k := u.me
    let write := !isVload i
    let active := fun j => (k.pred e).getLsbD j = true
    vecAddr i k (vget k.v e.c) = some (n, addr) →
    (∀ m, 12 ≤ m → (vget k.streams (m - 12)).chan = none) → (∀ r ∈ k.regPoison, r.file ≠ .v) → u.here.poison = [] →
    ((∀ j, j < 512 / n → ¬active j) → (isVload i = true ∨ mayRelease e u = true) → Completes i e s u) ∧
    ((∃ j, j < 512 / n ∧ active j) → (isAligned64 i = true → (addr 0).toNat % 64 = 0) →
      (∀ j, j < 512 / n → active j → addrFault u (addr j).toNat (n / 8) write false = none ∧ isRemote u (addr j).toNat = false ∧
        ramoPending u (addr j).toNat (n / 8) = false) →
      (isAligned64 i = true → ∀ j, j < 8 → (∃ l, l < 8 ∧ active (8 * j + l)) →
        addrFault u (addr 0 + BitVec.ofNat 64 (8 * j)).toNat 8 write false = none ∧
          isRemote u (addr 0 + BitVec.ofNat 64 (8 * j)).toNat = false ∧ ramoPending u (addr 0 + BitVec.ofNat 64 (8 * j)).toNat 8 = false) →
      (isVload i = true ∨ mayRelease e u = true) →
      (isVload i = true → ∃ x, Completes i e s (u.modMe fun k => k.write e.L .v e.a x) ∧ ∀ j, j < 512 / n →
        (¬active j → lane x n j = lane (vget k.v e.a) n j) ∧
        (active j → ∃ site o, target u (addr j).toNat = some (site, o) ∧ lane x n j = Mem.load (u.tile site).mem o (n / 8))) ∧
      (isVstore i = true → ∃ t, Completes i e s t ∧ t.me = u.me ∧ t.here.mem = (List.range (512 / n)).foldl (fun m j =>
        if (k.pred e).getLsbD j then ((target u (addr j).toNat).map fun x =>
          Mem.store m x.2 (leBytes (n / 8) (lane (vget k.v e.a) n j))).getD m else m) u.here.mem) ∧
      (i = .vbred e → ∃ t, Completes i e s t ∧ t.me = u.me ∧ t.here.mem = u.here.mem ∧
        t.here.bankq = u.here.bankq ++ (((List.range (512 / n)).filter fun j => (k.pred e).getLsbD j).map fun j =>
          (⟨s.cur, ((target u (addr j).toNat).map (·.2)).getD 0, n / 8, if e.ty = 8 then 9 else 0, BitVec.ofNat 64 (lane (vget k.v e.c) n j), k.pc, k.lev⟩ :
            BankOp)))) ∧
    (isAligned64 i = true → (∃ j, j < 512 / n ∧ active j) → (addr 0).toNat % 64 ≠ 0 → exec i s = .next (takeTrap u s.cur 0x09 (addr 0) s.me.pc))

/-! ### The matrix unit -/

namespace Sys2Proof

/-- The commands, but for MCHMMA (R128). -/
def isCommand : Instr → Bool
  | .mld _ | .mldc _ | .mlds _ | .mldm _ | .mst _ | .mstc _ | .mma _ | .mmax _ | .mmas _ | .mmac _ | .zclr _ | .zld _ | .zst _ | .zout _
  | .mtr _ => true
  | _ => false
/-- R124, R135, R136, R139, R140: the configurations that a command names are valid and suit it. -/
def cfgOk (i : Instr) (t : Tile) : Bool :=
  let m := vget t.mcfg
  let valid2 := fun (e : Enc) => mValid (m e.fb) && mValid (m e.fc)
  match i with
  | .mld e | .mldc e | .mst e | .mstc e => mValid (m e.fa)
  | .mlds e => mValid (m e.fa) && blockType (mBlk (m e.fa)) (mType (m e.fa))
  | .mldm e => mValid (m e.fa) && decide (mSparse (m e.fa) ≠ 0)
  | .mma e =>
    let a := m e.fb
    let b := m e.fc
    valid2 e && decide (mSparse a = 0 ∧ mSparse b = 0 ∧ mRows b ≤ 24 ∧ mKlen a = mKlen b) && (mSet (mType a)).isSome
      && decide (mSet (mType a) = mSet (mType b))
  | .mmax e =>
    let a := m e.fb
    let b := m e.fc
    valid2 e && decide (mSparse a = 0 ∧ mSparse b = 0 ∧ mRows b ≤ 24 ∧ mKlen a = mKlen b ∧ mWidth a = mWidth b ∧ mBlk a = mBlk b)
      && blockType (mBlk a) (mType a) && blockType (mBlk b) (mType b)
  | .mmas e =>
    let a := m e.fb
    let b := m e.fc
    valid2 e && decide (mSparse a = 0 ∧ mSparse b ≠ 0 ∧ mRows b ≤ 24 ∧ mKlen a * mN b = mKlen b * 12) && (mSet (mType a)).isSome
      && decide (mSet (mType a) = mSet (mType b))
  | .mmac e =>
    let a := m e.fb
    let b := m e.fc
    valid2 e && decide (mSparse a = 0 ∧ mSparse b = 0 ∧ mRows b ≤ 24 ∧ mKlen a = mKlen b ∧ mType a = mType b) && isCplx (mType a)
  | .mtr e =>
    let a := m e.fa
    let b := m e.fb
    mValid a && mValid b && decide (mSparse a = 0 ∧ mSparse b = 0 ∧ mWidth a = mWidth b ∧ mRows a = mKlen b ∧ mKlen a = mRows b)
  | _ => true
/-- The words of a command's footprint (R134), and whether it stores. -/
def footAddrs (i : Instr) (e : Enc) (u : State) : List W :=
  match footOf i (vget u.here.mcfg e.fa) with
  | none => []
  | some (n, len, _) => (List.range n).flatMap fun l => (List.range (ceilDiv len 8)).map fun j =>
    lineAt (mBase e u.me) (u.me.g e.c) l + BitVec.ofNat 64 (8 * j)
def footWrites (i : Instr) : Bool :=
  match i with
  | .mst _ | .mstc _ | .zst _ | .zout _ => true
  | _ => false
/-- The command accesses memory. -/
def isMemCmd (i : Instr) : Bool := (footOf i 0).isSome
/-- R66, R138: a ZOUT that draws. -/
def zoutDrawn (i : Instr) (k : Core) : Bool :=
  match i with
  | .zout e => decide (9 ≤ e.ty ∧ e.ty ≤ 12) && decide ((if e.mod = 0 then k.ctl.fpMode.toNat % 8 else e.mod) = 5)
  | _ => false
/-- R130: Id(x) for a back-distance. -/
def idOf (e : Enc) (x : Nat) : Nat := if e.immHigh < x then x - e.immHigh else 0
/-- R135: a byte of a row as a load or store leaves it: bits [7:6] of a 6-bit element are zero, and on a load so is the unused nibble of an odd
row of 4-bit elements. -/
def rowByte (ty klen len : Nat) (load : Bool) (j : Nat) (b : Byte) : Byte :=
  if tyBits ty = 6 then b &&& 0x3F else if load = true ∧ tyBits ty = 4 ∧ klen % 2 = 1 ∧ j + 1 = len then b &&& 0x0F else b
/-- The bytes of row `i` of a plane's register. -/
def rowBytes (m : Mem) (plane num i len : Nat) : List Byte := Mem.bytes m (Machine.rowAt plane num i) len
/-- A plane after rows of a register take bytes: `f i j` is byte j of row i. -/
def rowsSet (old new : Mem) (plane num rows len : Nat) (f : Nat → Nat → Byte) : Prop :=
  (∀ i j, i < rows → j < len → Mem.byteAt new (Machine.rowAt plane num i + j) = f i j) ∧
  (∀ b, (∀ i, i < rows → b < Machine.rowAt plane num i ∨ Machine.rowAt plane num i + len ≤ b) → Mem.byteAt new b = Mem.byteAt old b)
/-- A slot after its elements (i, j), i < rows and j < cols, take values of 32 bits. -/
def slotSet (old new : Mem) (n rows cols : Nat) (f : Nat → Nat → Nat) : Prop :=
  (∀ i j, i < rows → j < cols → Mem.load new (zAt n i j) 4 = f i j) ∧
  (∀ b, (∀ i j, i < rows → j < cols → b < zAt n i j ∨ zAt n i j + 4 ≤ b) → Mem.byteAt new b = Mem.byteAt old b)

end Sys2Proof

/-- R66, R124, R127, R128, R130, R131, R132, R134, R148: every command, MLD, MLDC, MLDS, MLDM, MST, MSTC, MMA, MMAX, MMAS, MMAC, ZCLR, ZLD, ZST, ZOUT, MTR and MCHMMA, completes at issue: its configurations are valid, its base, stride and footprint pass, and
the window has room. It takes the ID LASTID + 1 and enters the window with what it latches; no plane and no memory byte changes. It waits
while the window is full, a memory command also for the core's earlier accesses, and traps with MATRIX_CONFIG, ALIGN or the address map's cause, in this order, with no ID. MCHMMA issues in a chain, as
its member's next step, and traps in STATE NONE.
The DETAIL of MATRIX_CONFIG and of a stride (log 19) and blocked-on kind 0 of the waits (log 28) are the model's choice. -/
def Obligations.MatrixCommandsIssue : Prop :=
  ∀ (i : Instr) (e : Enc) (s : State), encOf i = some e → clear i s = true → formOk i = true →
    let u := seen s
    let base := mBase e u.me
    let stride := u.me.g e.c
    let aligned := isMemCmd i = true → base.toNat % 8 = 0 ∧ stride.toNat % 8 = 0
    let clean := ∀ a ∈ footAddrs i e u, addrFault u a.toNat 8 (footWrites i) false = none
    let ready := (isMemCmd i = true → accessesDone u s.cur = true) ∧ (zoutDrawn i u.me = true → u.me.vq = [])
    let entered := fun (step : Nat) (t : State) => ∃ q, Completes i e s t ∧ t.here.lastId = (u.here.lastId + 1) % 2 ^ 64 ∧ t.here.mdep = [] ∧
      t.here.mwin.map (·.id) = u.here.mwin.map (·.id) ++ [q.id] ∧ q ∈ t.here.mwin ∧ q.id = t.here.lastId ∧ q.i = i ∧ q.pc = s.me.pc ∧
      q.pos = u.me.pos ∧ q.cfgA = vget u.here.mcfg e.fa ∧ q.cfgB = vget u.here.mcfg e.fb ∧ q.cfgC = vget u.here.mcfg e.fc ∧ q.base = base ∧
      q.stride = stride ∧ q.fpMode = u.me.ctl.fpMode ∧ q.deps = u.here.mdep ∧ q.started = false ∧ q.step = step ∧
      t.here.mdata = u.here.mdata ∧ t.here.mscale = u.here.mscale ∧ t.here.mmeta = u.here.mmeta ∧ t.here.z = u.here.z ∧ t.here.mem = u.here.mem ∧
      (zoutDrawn i u.me = false → t.me = u.me) ∧
      (zoutDrawn i u.me = true → t.me = { u.me with ctl := { u.me.ctl with
        seed := BitVec.ofNat 64 ((List.range 768).foldl (fun x _ => lfsrDraw x) (u.me.ctl.seed.toNat % 2 ^ 32)) } })
    (isCommand i = true →
      (cfgOk i u.here = true → aligned → clean → ready → u.here.mwin.length < 32 → ∃ t, entered 0 t) ∧
      (cfgOk i u.here = true → aligned → clean → (32 ≤ u.here.mwin.length ∨ ¬ready) → Waits i s 0 0) ∧
      (cfgOk i u.here = false → ∃ n, Traps i s 0x11 (BitVec.ofNat 64 n)) ∧
      (cfgOk i u.here = true → isMemCmd i = true → base.toNat % 8 ≠ 0 → Traps i s 0x09 base) ∧
      (cfgOk i u.here = true → isMemCmd i = true → base.toNat % 8 = 0 → stride.toNat % 8 ≠ 0 → Traps i s 0x09 stride) ∧
      (cfgOk i u.here = true → aligned → (∃ a ∈ footAddrs i e u, (addrFault u a.toNat 8 (footWrites i) false).isSome = true) →
        ∃ a ∈ footAddrs i e u, ∃ cause, addrFault u a.toNat 8 (footWrites i) false = some cause ∧ Traps i s cause a)) ∧
    (i = .mchmma e → u.here.chain.state = 0 → Traps i s 0x11 (BitVec.ofNat 64 e.fb)) ∧
    (i = .mchmma e → u.here.chain.state ≠ 0 → u.here.mwin.length < 32 →
      (u.here.chain.cpos = 0 → mValid (vget u.here.mcfg e.fb) = true ∧ mSparse (vget u.here.mcfg e.fb) = 0 ∧
        (mSet (mType (vget u.here.mcfg e.fb))).isSome = true) →
      (u.here.chain.rpos = 0 → mValid (vget u.here.mcfg e.fc) = true ∧ mSparse (vget u.here.mcfg e.fc) = 0 ∧
        (mSet (mType (vget u.here.mcfg e.fc))).isSome = true ∧ mRows (vget u.here.mcfg e.fc) ≤ 24) →
      ∃ t, entered u.here.chain.steps t ∧ t.here.chain.steps = u.here.chain.steps + 1)

/-- R128, R129, R148, R325: the step MATRIX_COMMAND_START completes: an open command that nothing keeps waiting is started, unless its field's duty cycle withholds it
just then, which is free (log 97). One that waits for an earlier command (its register, its window, a register it reads, an explicit predecessor), or for its chain to form, is not.
A step at a chain's west edge sends its A operand along its row. A command sends one request to each other member of the cluster that its footprint lies at; that it
stands for all the command's accesses there is the model's choice (log 18). -/
def Sys2Proof.MatrixCommandStarts : Prop :=
  ∀ (site : Site) (s : State), let x := s.tile site
    let inside := fun (q : MCmd) => ∀ n len st, footOf q.i q.cfgA = some (n, len, st) →
      ∀ l, l < n → (lineAt q.base q.stride l).toNat + roundUp len 8 ≤ 0x00300000
    let outside := fun (q : MCmd) (P : Nat → Prop) => ∃ n len st l j name, footOf q.i q.cfgA = some (n, len, st) ∧ l < n ∧ 8 * j < len ∧
      mMember x (lineAt q.base q.stride l + BitVec.ofNat 64 (8 * j)) = some name ∧ P name
    (∀ q, x.mwin = [q] → q.started = false → inside q → ((∃ e, q.i = .mchmma e) → x.chain.state ≠ 1) → fieldNo site ∈ s.duty →
      ∃ t, exec (.matrixCommandStart site) s = .next t ∧
        ((t.tile site).mwin = [q] ∨ (t.tile site).mwin = [{ q with started := true, asks := [] }])) ∧
    (∀ q, x.mwin = [q] → q.started = false → inside q → ((∃ e, q.i = .mchmma e) → x.chain.state ≠ 1) → fieldNo site ∉ s.duty →
      ∃ t, exec (.matrixCommandStart site) s = .next t ∧ (t.tile site).mwin = [{ q with started := true, asks := [] }]) ∧
    (∀ q, x.mwin = [q] → q.started = false → fieldNo site ∉ s.duty → q.sites = [] → (∃ name, outside q (· = name)) →
      exec (.matrixCommandStart site) s = .next s ∨
      ∃ t ids, exec (.matrixCommandStart site) s = .next t ∧ (t.tile site).mwin = [{ q with started := true, asks := ids }] ∧
        ∀ name, outside q (· = name) → ∃ p ∈ t.pkts, p.body = .clusterCmd q.id ∧ p.name = name ∧ p.id ∈ ids) ∧
    (∀ n p id, isPkt s n p → admitted s p = true → p.body = .clusterCmd id → ∃ t, exec (.clusterAccess n) s = .next t ∧
      (t.tile p.src.site).mwin = mapIf (s.tile p.src.site).mwin (·.id == id) fun q => { q with sites := insert q.sites p.name p.dst }) ∧
    (∀ n p id, isPkt s n p → admitted s p = true → p.body = .clusterCmdReply id → ∃ t, exec (.clusterAccessReply n) s = .next t ∧
      (t.tile p.asker.site).mwin = mapIf (s.tile p.asker.site).mwin (·.id == id) fun q => { q with asks := q.asks.filter (· != p.id) }) ∧
    (∀ q y, q ∈ x.mwin → y ∈ x.mwin → y.id ≠ q.id → (∀ z ∈ x.mwin, z.id = q.id → z = q) → q.started = false →
      ((y.id < q.id ∧ y.holds q.pos = false ∧ ∃ a ∈ destsOf y.i, ∃ b ∈ readsOf q.i ++ destsOf q.i, regOf a = regOf b) ∨
        (y.id < q.id ∧ (∀ a ∈ destsOf y.i, ∀ b ∈ destsOf q.i, regOf a ≠ regOf b) ∧ ∃ a ∈ readsOf y.i, ∃ b ∈ destsOf q.i, regOf a = regOf b) ∨
        y.id ∈ q.deps) →
      ∃ t, exec (.matrixCommandStart site) s = .next t ∧ ∀ z ∈ (t.tile site).mwin, z.id = q.id → z.started = false) ∧
    (∀ q e, q ∈ x.mwin → (∀ z ∈ x.mwin, z.id = q.id → z = q) → q.started = false → q.i = .mchmma e → x.chain.state = 1 →
      ∃ t, exec (.matrixCommandStart site) s = .next t ∧ ∀ z ∈ (t.tile site).mwin, z.id = q.id → z.started = false) ∧
    (∀ q, x.mwin = [q] → q.started = true → (q.asks ≠ [] → exec (.matrixCommandRetire site q.id) s = .next s) ∧
      (q.asks = [] → outside q (fun name => ∀ y, lookup q.sites name = some y → Machine.memberAt s x.vni name y = false) →
        ∃ t, exec (.matrixCommandRetire site q.id) s = .next t ∧ (t.tile site).mwin = [{ q with started := false }])) ∧
    (∀ q e z, x.mwin = [q] → q.started = false → q.i = .mchmma e → x.chain.state = 2 → x.chain.gone = none → x.chain.cpos = 0 →
      fieldNo site ∉ s.duty → x.chain.rpos ≠ 0 → z ∈ chainMembers s x.vni x.chain.desc → (s.tile z).chain.rpos = x.chain.rpos →
      ∃ t, exec (.matrixCommandStart site) s = .next t ∧ ((t.tile z).chain.arrived true q.step).isSome = true)

/-- R132, R135 to R144, R148: the step MATRIX_COMMAND_RETIRE completes: a started command is performed, where it is the only one open, no earlier result is held back, nothing is
poisoned, its own window has closed and its footprint lies in its tile's memory, or a ZST's at one other member: the loads fill rows with the bytes of
their lines; the stores store them; ZCLR clears a slot; MTR transposes; the products give each element of the block their
sum (`Sys2Proof.ProductArithmetic`); ZOUT stores the block converted (stochastic rounding apart). MMAS with bad metadata and a command
that consumes a poisoned byte trap instead. Nothing else changes. DETAIL 0xFF of operands that do not pair (log 19), that all of a command takes place here (log 18) and
the unused nibble of a row, not stated (log 102), are the model's choice. -/
def Sys2Proof.MatrixCommandRetires : Prop :=
  ∀ (site : Site) (s : State) (q : MCmd) (e : Enc), let x := s.tile site
    let c := q.cfgA
    let line := fun (l : Nat) => (lineAt q.base q.stride l).toNat
    x.mwin = [q] → q.started = true → q.asks = [] → encOf q.i = some e → x.mpend = [] → q.dead = [] → x.poison = [] →
    winOpen (x.math.posOf false) q.pos.length q.expiry = false → TileWf x →
    (∀ name y win, q.i = .zst e → x.mpoison = [] → lookup x.cluster win = some name → name ≠ x.name → win < 8 → lookup q.sites name = some y → y ≠ site →
      Machine.memberAt s x.vni name y = true → (∀ l, l < 32 → 0x10000000 + 0x00400000 * win ≤ line l ∧ line l + 96 ≤ 0x10300000 + 0x00400000 * win) →
      ∃ t, exec (.matrixCommandRetire site q.id) s = .next t ∧ (t.tile site).mwin = [] ∧ (t.tile y).mem =
        (List.range 32).foldl (fun m l => Mem.store m (line l - 0x10000000 - 0x00400000 * win) (rowBytes x.z 3 e.a l 96)) (s.tile y).mem) ∧
    ((∀ n len st, footOf q.i c = some (n, len, st) → ∀ l, l < n → line l + roundUp len 8 ≤ 0x00300000) →
    let runs := fun (P : Tile → Prop) => ∃ t, exec (.matrixCommandRetire site q.id) s = .next t ∧ (t.tile site).mwin = [] ∧ P (t.tile site)
    let sameBut := fun (y : Tile) (p : Nat) => (p ≠ 0 → y.mdata = x.mdata) ∧ (p ≠ 1 → y.mscale = x.mscale) ∧ (p ≠ 2 → y.mmeta = x.mmeta) ∧
      (p ≠ 3 → y.z = x.z) ∧ (p ≠ 4 → y.mem = x.mem)
    let stores := fun (n : Nat) (f : Nat → List Byte) => runs fun y => sameBut y 4 ∧
      y.mem = (List.range n).foldl (fun m l => Mem.store m (line l) (f l)) x.mem
    let traps := fun (cause : Nat) (d : W) => runs fun y => sameBut y 5 ∧ y.math.ptrap = some ⟨cause, d, q.pc, q.id, false⟩
    let a : Opnd := ⟨x.mdata, x.mscale, x.mmeta, e.fb, q.cfgB⟩
    let b : Opnd := ⟨x.mdata, x.mscale, x.mmeta, e.fc, q.cfgC⟩
    let productOf := fun (kind : Prod) => runs fun y => sameBut y 3 ∧ slotSet x.z y.z e.a (mRows q.cfgB) (mRows q.cfgC) fun i j =>
      (productElem kind a b i j (Mem.load x.z (zAt e.a i j) 4) 0).1
    (x.mpoison = [] → mValid c = true →
      (q.i = .mld e → runs fun y => sameBut y 0 ∧ rowsSet x.mdata y.mdata 0 e.fa (mRows c) (mRb c) fun i j =>
        rowByte (mType c) (mKlen c) (mRb c) true j (Mem.byteAt x.mem (line i + j))) ∧
      (q.i = .mlds e → runs fun y => sameBut y 1 ∧ rowsSet x.mscale y.mscale 1 e.fa (mRows c) (ceilDiv (mKlen c) (if mBlk c then 32 else 8))
        fun i j => Mem.byteAt x.mem (line i + j)) ∧
      (q.i = .mldm e → runs fun y => sameBut y 2 ∧ rowsSet x.mmeta y.mmeta 2 e.fa (mRows c) (ceilDiv (mKlen c) 2) fun i j =>
        rowByte 16 (mKlen c) (ceilDiv (mKlen c) 2) true j (Mem.byteAt x.mem (line i + j))) ∧
      (q.i = .mldc e → runs fun y => sameBut y 0 ∧ ∀ i k, i < mRows c → k < mKlen c →
        elemIn y.mdata (Machine.rowAt 0 e.fa i) (mWidth c) k =
          maskElem (mType c) (elemOf (Mem.bytes x.mem (line k) (ceilDiv (mRows c * mWidth c) 8)) (mWidth c) i)) ∧
      (q.i = .mst e → stores (mRows c) fun i => (List.range (mRb c)).map fun j =>
        rowByte (mType c) (mKlen c) (mRb c) false j (Mem.byteAt x.mdata (Machine.rowAt 0 e.fa i + j))) ∧
      (q.i = .mstc e → stores (mKlen c) fun k => packElems (mWidth c) ((List.range (mRows c)).map fun i =>
        maskElem (mType c) (elemIn x.mdata (Machine.rowAt 0 e.fa i) (mWidth c) k))) ∧
      (q.i = .mtr e → mValid q.cfgB = true → mWidth c = mWidth q.cfgB → mRows c = mKlen q.cfgB → mKlen c = mRows q.cfgB →
        runs fun y => sameBut y 0 ∧ ∀ k i, k < mKlen q.cfgB → i < mRows q.cfgB →
          elemIn y.mdata (Machine.rowAt 0 e.fa k) (mWidth c) i =
            maskElem (mType c) (maskElem (mType q.cfgB) (elemIn x.mdata (Machine.rowAt 0 e.fb i) (mWidth c) k)))) ∧
    (x.mpoison = [] →
      (q.i = .zclr e → runs fun y => sameBut y 3 ∧ rowsSet x.z y.z 3 e.a 32 96 fun _ _ => 0) ∧
      (q.i = .zld e → runs fun y => sameBut y 3 ∧ rowsSet x.z y.z 3 e.a 32 96 fun i j => Mem.byteAt x.mem (line i + j)) ∧
      (q.i = .zst e → stores 32 fun i => rowBytes x.z 3 e.a i 96) ∧
      (q.i = .zout e → (if e.mod = 0 then q.fpMode.toNat % 8 else if e.mod = 1 then 0 else e.mod) ≠ 5 → stores 32 fun i =>
        packElems (laneBits e.ty) ((List.range 24).map fun j =>
          (zoutElem e.ty (Mem.load x.z (zAt e.a i j) 4) (Mem.load x.z (zAt (e.a + 1) i j) 4) (Fp.of e.mod q.fpMode 0)).1)) ∧
      (mRows q.cfgC ≤ 24 → (q.i = .mma e → productOf .dense) ∧ (q.i = .mmax e → productOf .scaled) ∧
        (q.i = .mmas e → ((List.range (mRows q.cfgC)).all b.indicesOk) = true → productOf .sparse)) ∧
      (q.i = .mmas e → ((List.range (mRows q.cfgC)).all b.indicesOk) = false → x.math.ptrap = none → traps 0x03 0) ∧
      (q.i = .mmac e → mRows q.cfgC ≤ 24 → runs fun y => sameBut y 3 ∧ ∀ i j, i < mRows q.cfgB → j < mRows q.cfgC →
        let z := complexElem a b i j (Mem.load x.z (zAt e.a i j) 4) (Mem.load x.z (zAt (e.a + 1) i j) 4)
        Mem.load y.z (zAt e.a i j) 4 = z.1 ∧ Mem.load y.z (zAt (e.a + 1) i j) 4 = z.2) ∧
      (∀ l r, q.i = .mchmma e → x.chain.arrived true q.step = some l → x.chain.arrived false q.step = some r → l.poison = [] → r.poison = [] →
        mValid l.cfg = true → mValid r.cfg = true → denseA l.cfg = true → denseB r.cfg = true → densePair l.cfg r.cfg = true →
        runs fun y => sameBut y 3 ∧ slotSet x.z y.z e.a (mRows l.cfg) (mRows r.cfg) fun i j =>
          (productElem .dense ⟨l.data, [], [], 0, l.cfg⟩ ⟨r.data, [], [], 0, r.cfg⟩ i j (Mem.load x.z (zAt e.a i j) 4) 0).1) ∧
      (∀ l r, q.i = .mchmma e → x.chain.arrived true q.step = some l → x.chain.arrived false q.step = some r → densePair l.cfg r.cfg = false →
        x.math.ptrap = none → traps 0x11 0xFF) ∧
      (∀ n, q.i = .mchmma e → x.chain.arrived true q.step = none → x.chain.state = 3 → x.chain.gone = some n → n ≤ q.step →
        runs fun y => sameBut y 5)) ∧
    (∀ i p d, (q.i = .mma e ∨ q.i = .mtr e) → i < mRows q.cfgB → Machine.rowAt 0 e.fb i ≤ p → p < Machine.rowAt 0 e.fb i + mRb q.cfgB → (0, p, d) ∈ x.mpoison →
      x.math.ptrap = none → ∃ d', traps 0x19 d'))

/-- R74, R75, R138, R141 to R144: an integer product adds the sum of the products, modulo 2^32;
a float product sums each group of eight products exactly and adds it with one rounding to nearest even; a scaled one multiplies each group's sum by the two
scales first; a sparse one takes zero where no entry stands; a complex one sums each component. ZOUT converts as RoundTo or narrows. Infinite products of
both signs in one group raise NV (log 77), and ZOUT to an integer saturates under FP_MODE.SAT too (log 103): the model's choice. -/
def Sys2Proof.ProductArithmetic : Prop :=
  (∀ (a b : Opnd) (i j acc flags : Nat), isFloat (mType a.cfg) = false → acc < 2 ^ 32 →
    ((productElem .dense a b i j acc flags).1 : Int) =
      ((acc : Int) + ((List.range (mKlen a.cfg)).map fun k => a.int i k * b.int j k).sum) % 2 ^ 32) ∧
  (∀ (a b : Opnd) (i j acc flags : Nat), isFloat (mType a.cfg) = true → mKlen a.cfg ≤ 8 →
    (productElem .dense a b i j acc flags).1 =
      (roundF 8 Fp.rne (fadd false (fval 8 acc)
        (sumProducts false [] ((List.range (mKlen a.cfg)).map fun k => (a.val false i k, b.val false j k))).1).1).1) ∧
  (∀ (l : List (FVal × FVal)) (g fuel acc flags : Nat) (scale : Nat → FVal → FVal), 8 < l.length →
    (accGroups (fuel + 2) g acc flags l scale).1 =
      (accGroups (fuel + 1) (g + 1) (accRound acc (scale g (sumProducts false [] (l.take 8)).1) 0).1 0 (l.drop 8) scale).1) ∧
  (∀ (l : List (FVal × FVal)), (∃ x ∈ l, (fmul x.1 x.2).1 = .inf false) → (∃ x ∈ l, (fmul x.1 x.2).1 = .inf true) →
    (sumProducts false [] l).1 = .nan ∧ (sumProducts false [] l).2 % 2 = 1) ∧
  (∀ (x : Opnd) (i g : Nat), x.scaleOf i g = (Mem.byteAt x.scale (768 * x.num + 24 * i + if mBlk x.cfg then g / 4 else g)).toNat) ∧
  (∀ (a b : Opnd) (i j acc flags : Nat), mKlen a.cfg ≤ 8 →
    let sa := a.scaleOf i 0
    let sb := b.scaleOf j 0
    let sum := (sumProducts false [] ((List.range (mKlen a.cfg)).map fun k => (a.val (mBlk a.cfg) i k, b.val (mBlk b.cfg) j k))).1
    (productElem .scaled a b i j acc flags).1 =
      (roundF 8 Fp.rne (fadd false (fval 8 acc) (if sa = 255 ∨ sb = 255 then .nan else fscale sum ((sa : Int) + sb - 254))).1).1) ∧
  (∀ (a c : Opnd) (i j acc flags : Nat), mN c.cfg ≠ 0 → mKlen c.cfg % mN c.cfg = 0 → mKlen a.cfg = mKlen c.cfg * 12 / mN c.cfg →
    c.indicesOk j = true →
    let stands := fun (e : Nat) => 12 * (e / mN c.cfg) + c.index j e
    (∀ (b : Nat → FVal), isFloat (mType a.cfg) = true → (∀ e, e < mKlen c.cfg → b (stands e) = c.val false j e) →
      (∀ k, k < mKlen a.cfg → (∀ e, e < mKlen c.cfg → stands e ≠ k) → b k = .fin false 0 0 false) →
      productElem .sparse a c i j acc flags =
        accGroups (mKlen a.cfg + 1) 0 acc flags ((List.range (mKlen a.cfg)).map fun k => (a.val false i k, b k)) fun _ x => x) ∧
    (∀ (b : Nat → Int), isFloat (mType a.cfg) = false → acc < 2 ^ 32 → (∀ e, e < mKlen c.cfg → b (stands e) = c.int j e) →
      (∀ k, k < mKlen a.cfg → (∀ e, e < mKlen c.cfg → stands e ≠ k) → b k = 0) →
      ((productElem .sparse a c i j acc flags).1 : Int) =
        ((acc : Int) + ((List.range (mKlen a.cfg)).map fun k => a.int i k * b k).sum) % 2 ^ 32)) ∧
  (∀ (ty re im : Nat) (fp : Fp),
    (isInt ty = true → (zoutElem ty re im fp).1 = fit fp.sat (isSigned ty) (tyBits ty) (intOf true 32 re)) ∧
    (isCplx ty = true → (zoutElem ty re im fp).1 = complexOf fp.sat (tyBits ty / 2) (intOf true 32 re) (intOf true 32 im)) ∧
    (8 ≤ ty → ty ≤ 12 → fp.mode ≠ 5 → (zoutElem ty re im fp).1 = (roundF ty fp (fval 8 re)).1)) ∧
  (∀ (a b : Opnd) (i j re im : Nat),
    let n := tyBits (mType a.cfg) / 2
    let re' := fun (x : Nat) => intOf true n x
    let im' := fun (x : Nat) => intOf true n (x / 2 ^ n)
    let co := fun (x : Nat) => if mConj b.cfg then laneInt 0 n (fit false true n (-im' x)) else im' x
    isCplx (mType a.cfg) = true →
    ((complexElem a b i j re im).1 : Int) = (re + ((List.range (mKlen a.cfg)).map fun k =>
      re' (a.elem i k) * re' (b.elem j k) - im' (a.elem i k) * co (b.elem j k)).sum) % 2 ^ 32 ∧
    ((complexElem a b i j re im).2 : Int) = (im + ((List.range (mKlen a.cfg)).map fun k =>
      re' (a.elem i k) * co (b.elem j k) + im' (a.elem i k) * re' (b.elem j k)).sum) % 2 ^ 32)

/-- R125, R130, R380, R381: MCFG, MID, MDEP, MWAIT, MFENCE, MCLAIM and MRELEASE, the forms of the matrix unit that are no commands, complete. MCFG sets a configuration that no open command names; MID gives LASTID less the
back-distance; MDEP sets the pending predecessors, and traps on an ID above LASTID; MWAIT and MFENCE wait, blocked-on kind 9, for what they name, and then have no
effect; MCLAIM saves the matrix state to its area and claims the unit, and MRELEASE restores it and gives the unit back.
The objects of the blocked-on records are the model's choice (log 28). -/
def Sys2Proof.MatrixControls : Prop :=
  ∀ (e : Enc) (s : State), let u := seen s
    let i1 := idOf e (u.me.g e.b).toNat
    let i2 := idOf e (u.me.g e.c).toNat
    let last := u.here.lastId
    let a := u.me.g e.b + BitVec.ofInt 64 (64 * e.immS .rr)
    let area := a.toNat % 64 = 0 ∧ a.toNat < 0x00300000 ∧
      (∀ (w : Bool) j, j < 0x4B20 → addrFault u (a + BitVec.ofNat 64 (8 * j)).toNat 8 w false = none) ∧
      ∀ j, j < 0x4B20 → ramoPending u (a + BitVec.ofNat 64 (8 * j)).toNat 8 = false
    (clear (.mcfg e) s = true → formOk (.mcfg e) = true → u.here.namesM e.fa = false →
      Completes (.mcfg e) e s (u.modHere fun t => { t with
        mcfg := vset t.mcfg e.fa ((if e.imms.isEmpty then u.me.g e.b else BitVec.ofNat 64 e.immHigh) &&& 0x7FFFFF) })) ∧
    (clear (.mcfg e) s = true → formOk (.mcfg e) = true → u.here.namesM e.fa = true → Waits (.mcfg e) s 0 0) ∧
    (clear (.mid e) s = true → Completes (.mid e) e s (u.modMe fun k => k.writeW e.L .g e.a (BitVec.ofNat 64 (idOf e last)))) ∧
    (clear (.mdep e) s = true → i1 ≤ last → i2 ≤ last →
      Completes (.mdep e) e s (u.modHere fun t => { t with mdep := [i1, i2].filter (· != 0) })) ∧
    (clear (.mdep e) s = true → last < i1 → Traps (.mdep e) s 0x03 (BitVec.ofNat 64 i1)) ∧
    (clear (.mdep e) s = true → i1 ≤ last → last < i2 → Traps (.mdep e) s 0x03 (BitVec.ofNat 64 i2)) ∧
    (clear (.mwait e) s = true → i1 ≤ last → (∀ q ∈ u.here.mwin, q.id ≠ i1) → Completes (.mwait e) e s u) ∧
    (clear (.mwait e) s = true → i1 ≤ last → (∃ q ∈ u.here.mwin, q.id = i1) → Waits (.mwait e) s 9 0) ∧
    (clear (.mwait e) s = true → last < i1 → Traps (.mwait e) s 0x03 (BitVec.ofNat 64 i1)) ∧
    (clear (.mfence e) s = true → (∀ q ∈ u.here.mwin, idOf e last < q.id) → Completes (.mfence e) e s u) ∧
    (clear (.mfence e) s = true → (∃ q ∈ u.here.mwin, q.id ≤ idOf e last) → Waits (.mfence e) s 9 0) ∧
    (clear (.mclaim e) s = true → u.here.claimed = true → Traps (.mclaim e) s 0x03 0) ∧
    (clear (.mclaim e) s = true → u.here.claimed = false → area → u.here.mwin = [] → u.here.mpend = [] → TileWf u.here →
      ∃ t, Completes (.mclaim e) e s t ∧ t.here.claimed = true ∧ t.here.chain.state = 0 ∧ t.here.word a.toNat = 0x4D41 ∧
        (∀ n, n < 8 → t.here.word (a.toNat + 0x40 + 8 * n) = vget u.here.mcfg n) ∧ t.here.word (a.toNat + 0x80) = BitVec.ofNat 64 last ∧
        (∀ j, j < 0x6000 → Mem.byteAt t.here.mem (a.toNat + 0x100 + j) = Mem.byteAt u.here.mdata j) ∧
        (∀ j, j < 0x1800 → Mem.byteAt t.here.mem (a.toNat + 0x6100 + j) = Mem.byteAt u.here.mscale j) ∧
        (∀ j, j < 0x6000 → Mem.byteAt t.here.mem (a.toNat + 0x7900 + j) = Mem.byteAt u.here.mmeta j) ∧
        (∀ j, j < 0x18000 → Mem.byteAt t.here.mem (a.toNat + 0xD900 + j) = Mem.byteAt u.here.z j) ∧
        (∀ b, b < a.toNat ∨ a.toNat + 0x25900 ≤ b → Mem.byteAt t.here.mem b = Mem.byteAt u.here.mem b)) ∧
    (clear (.mrelease e) s = true → area → u.here.poison = [] → (u.here.word a.toNat).toNat % 2 ^ 16 ≠ 0x4D41 →
      Traps (.mrelease e) s 0x03 (u.here.word a.toNat)) ∧
    (clear (.mrelease e) s = true → area → u.here.poison = [] → (u.here.word a.toNat).toNat % 2 ^ 16 = 0x4D41 → u.here.mwin = [] → TileWf u.here →
      ∃ t, Completes (.mrelease e) e s t ∧ t.here.claimed = false ∧ t.here.mem = u.here.mem ∧
        t.here.lastId = (u.here.word (a.toNat + 0x80)).toNat ∧
        (∀ n, n < 8 → vget t.here.mcfg n = u.here.word (a.toNat + 0x40 + 8 * n) &&& 0x7FFFFF) ∧
        (∀ j, j < 0x6000 → Mem.byteAt t.here.mdata j = Mem.byteAt u.here.mem (a.toNat + 0x100 + j)) ∧
        (∀ j, j < 0x1800 → Mem.byteAt t.here.mscale j = Mem.byteAt u.here.mem (a.toNat + 0x6100 + j)) ∧
        (∀ j, j < 0x6000 → Mem.byteAt t.here.mmeta j = Mem.byteAt u.here.mem (a.toNat + 0x7900 + j)) ∧
        (∀ j, j < 0x18000 → Mem.byteAt t.here.z j = Mem.byteAt u.here.mem (a.toNat + 0xD900 + j)))

/-- R145 to R150: chains. MCHJOIN, MCHDIM, MCHLEAVE and the step CHAIN_FORMED complete. MCHJOIN gives its status, the first of the table that applies: where no
tile of the rectangle is missing, 1 at a dropped row or column, also once its own chain has taken its links, and 0 elsewhere; it joins only with 0; MCHDIM gives the chain's geometry, 0 for a bad
descriptor; MCHLEAVE waits for the tile's open steps and then leaves, and frees no link that carries another chain; a chain whose members have all joined, with no dropped tile's links in use, is FORMED.
That a step beyond the fewest steps of a member that has left retires without a result is the model's choice (log 20). -/
def Sys2Proof.ChainForms : Prop :=
  (∀ (e : Enc) (s : State), let u := seen s
    let d := u.me.g e.b
    let geom := chainGeom u u.here.vni d
    (clear (.mchjoin e) s = true → ∃ x c,
      Completes (.mchjoin e) e s ((u.modHere fun t => { t with chain := c }).modMe fun k => k.writeW e.L .g e.a (BitVec.ofNat 64 x)) ∧
      (d.toNat / 2 ^ 48 ≠ 0 → x = 4) ∧ (geom = none → x = 4) ∧
      (∀ g, geom = some g → (u.here.chain.state ≠ 0 ∨ ∃ d', u.bypass u.cur.site = some d' ∧ d' ≠ d) → x = 3) ∧
      (∀ g, geom = some g → u.here.chain.state = 0 → u.bypass u.cur.site = none → g.rect.has u.here.logX u.here.logY = false → x = 2) ∧
      (∀ g, geom = some g → u.here.chain.state = 0 → g.rect.has u.here.logX u.here.logY = true → u.moved u.cur.site = false →
        (∀ a ∈ g.rect.cols, ∀ b ∈ g.rect.rows, chainHole u u.here.vni a b = false → u.inRegion u.here.vni (u.siteAt u.here.vni a b) = true) →
        ((u.bypass u.cur.site = none ∨ u.bypass u.cur.site = some d) → (u.here.logX ∉ g.cols ∨ u.here.logY ∉ g.rows) → x = 1) ∧
        (u.bypass u.cur.site = none → u.here.logX ∈ g.cols → u.here.logY ∈ g.rows → g.cols.length < 0xFF → g.rows.length < 0xFF →
          x = 0 ∧ g.cols[c.cpos]? = some u.here.logX ∧ g.rows[c.rpos]? = some u.here.logY)) ∧
      (x ≠ 0 → c = u.here.chain) ∧
      (x = 0 → c.state = 1 ∧ c.chainId = d.toNat / 2 ^ 32 % 2 ^ 16 ∧ c.steps = 0 ∧
        ∃ g, geom = some g ∧ c.ceff = g.cols.length ∧ c.reff = g.rows.length ∧ c.cpos < c.ceff ∧ c.rpos < c.reff)) ∧
    (clear (.mchdim e) s = true → ∃ x : W, Completes (.mchdim e) e s (u.modMe fun k => k.writeW e.L .g e.a x) ∧ (geom = none → x = 0) ∧
      ∀ g, geom = some g → x.toNat / 2 ^ 16 % 2 ^ 8 = g.cols.length % 2 ^ 8 ∧ x.toNat / 2 ^ 24 = g.rows.length % 2 ^ 8) ∧
    (clear (.mchleave e) s = true → (∀ q ∈ u.here.mwin, ∀ e', q.i ≠ .mchmma e') → ∃ t, Completes (.mchleave e) e s t ∧ t.here.chain.state = 0 ∧
      (u.here.chain.state = 0 → t = u) ∧
      ∀ z d', u.bypass z = some d' → d' ≠ u.here.chain.desc → t.bypass z = some d') ∧
    (clear (.mchleave e) s = true → (∃ q ∈ u.here.mwin, ∃ e', q.i = .mchmma e') → Waits (.mchleave e) s 0 0)) ∧
  (∀ (site : Site) (s : State) (g : Geom), let x := s.tile site
    let joined := fun (a b : Nat) => let y := s.tile (s.siteAt x.vni a b)
      inChain y x.vni x.chain.desc = true ∧ y.chain.state = 1
    let free := ∀ z ∈ droppedTiles s x.vni g, s.bypass z = none ∧ (s.tile z).chain.state = 0
    x.chain.state = 1 → chainGeom s x.vni x.chain.desc = some g →
    ((∀ a ∈ g.cols, ∀ b ∈ g.rows, joined a b) → free → ∃ t, exec (.chainFormed site) s = .next t ∧
      (∀ z ∈ chainMembers s x.vni x.chain.desc, (t.tile z).chain.state = 2) ∧ ∀ z ∈ droppedTiles s x.vni g, (t.bypass z).isSome = true) ∧
    ((∃ a ∈ g.cols, ∃ b ∈ g.rows, ¬joined a b) → exec (.chainFormed site) s = .next s))

/-! ### The Lupin array -/

namespace Sys2Proof

/-- The words of a local range may be accessed. -/
def localWords (u : State) (a : W) (n : Nat) (write : Bool) : Prop :=
  a.toNat + 8 * n ≤ 0x00300000 ∧ ∀ j, j < n → addrFault u (a + BitVec.ofNat 64 (8 * j)).toNat 8 write false = none
/-- A slot of the running core names slice `n`, which is pinned (R159). -/
def bound (u : State) (slot addr n : Nat) : State :=
  u.modMe fun k => { k with pin := some n, slots := vset k.slots slot ⟨true, addr, true, n⟩ }
/-- The number of sources of a CX. -/
def cxSources : Instr → Option Nat
  | .cxOneSource _ => some 1
  | .cxTwoSources _ => some 2
  | .cxThreeSources _ => some 3
  | _ => none

end Sys2Proof

/-- R158, R159, R162 to R164: LLOAD, LUNLOAD and LQUERY complete. LLOAD binds the slot that its image's header names to the image's residency: the one already loaded from that address, or, where every check
of R163 passes, a new one in the first empty slice; a failing check gives its status and loads nothing. LUNLOAD clears an entry and LQUERY gives it; both take a
slot number up to 15. A lookahead of LLOAD or LQUERY has no effect on g[a].
Blocked-on kind 0 of the waits is the model's choice (log 28). -/
def Sys2Proof.GraphSlots : Prop :=
  ∀ (e : Enc) (s : State), let u := seen s
    let f := u.modHere Tile.freeSlices
    let a := u.me.g e.b
    let status := fun (t : State) (x : Nat) => t.modMe fun k => k.writeW 0 .g e.a (BitVec.ofNat 64 x)
    let loads := clear (.lload e) s = true ∧ u.me.restore = none ∧ a.toNat % 8 = 0 ∧ ramoHits u s.cur u.here.name a.toNat 4096 = false
    (clear (.lload e) s = true → u.me.restore = none → a.toNat % 8 ≠ 0 → Traps (.lload e) s 0x09 a) ∧
    (∀ n r, loads → n < 4 → vget f.here.slices n = some r → r.addr = a.toNat → r.synced = false →
      (∀ m r', m < n → vget f.here.slices m = some r' → r'.addr = a.toNat → r'.synced = true) →
      Completes (.lload e) e s (status (bound f (graphOf r.image).slot a.toNat n) 0)) ∧
    (∀ l n, loads → f.here.resident a.toNat = none → checkImage (imageWord f a) = .words l → n < 4 →
      vget f.here.slices n = none → (∀ m, m < n → (vget f.here.slices m).isSome = true) →
      Completes (.lload e) e s (status (bound (f.modHere fun t => { t with slices := vset t.slices n (some ⟨a.toNat, l, none, false⟩) })
        (graphOf l).slot a.toNat n) 0)) ∧
    (∀ x, loads → f.here.resident a.toNat = none → checkImage (imageWord f a) = .status x →
      Completes (.lload e) e s (status f x)) ∧
    (∀ h, imageWord f a 0 = .ok h → h.toNat % 2 ^ 16 ≠ 0x4C47 → checkImage (imageWord f a) = .status 1) ∧
    (∀ cause d, loads → f.here.resident a.toNat = none → checkImage (imageWord f a) = .fault cause d →
      exec (.lload e) s = .next (takeTrap f s.cur cause d s.me.pc)) ∧
    (∀ l, checkImage (imageWord f a) = .words l → (l.headD 0).toNat % 2 ^ 16 = 0x4C47 ∧ graphCheck (graphOf l) = 0) ∧
    (∀ i, (i = .lunload e ∨ i = .lquery e) → clear i s = true → 15 < (u.me.g e.b).toNat → Traps i s 0x03 0) ∧
    (clear (.lunload e) s = true → (u.me.g e.b).toNat ≤ 15 →
      Completes (.lunload e) e s (u.modMe fun k => { k with slots := vset k.slots (u.me.g e.b).toNat ⟨false, 0, false, 0⟩ })) ∧
    (clear (.lquery e) s = true → (u.me.g e.b).toNat ≤ 15 → ∃ x : W,
      Completes (.lquery e) e s (u.modMe fun k => k.writeW 0 .g e.a x) ∧
      let slot := vget u.me.slots (u.me.g e.b).toNat
      x.getLsbD 0 = slot.bound ∧
      (slot.resident = false → x.getLsbD 1 = false ∧ x.toNat / 2 ^ 32 = (if slot.bound = true then slot.addr % 2 ^ 32 else 0)) ∧
      (∀ r, slot.resident = true → vget u.here.slices slot.slice = some r → x.getLsbD 1 = true ∧
        x.toNat / 2 ^ 4 % 4 = (graphOf r.image).nsrc % 4 ∧ x.getLsbD 6 = (graphOf r.image).wide ∧
        x.toNat / 2 ^ 8 % 2 ^ 7 = (graphOf r.image).lat % 2 ^ 7 ∧ x.toNat / 2 ^ 16 % 4 = slot.slice % 4 ∧
        x.toNat / 2 ^ 32 = slot.addr % 2 ^ 32))

/-- R25, R165, R166: CXn of one, two and three sources completes at issue. With no active lane it only enters the vector queue, whose head then pops the streams that it names, a bound
v[a] of a three-source form among them; else with a stream bound to v[a] it traps (before the causes of R166, by the model's choice, log 100); on a slot that names no residency it traps with CUSTOM_UNLOADED, which at
user level with a loader armed enters the loader; with another number of sources than its graph's it traps with CUSTOM_ARITY; otherwise it enters the
vector queue and holds its residency. -/
def Sys2Proof.GraphCalls : Prop :=
  ∀ (i : Instr) (e : Enc) (s : State) (n : Nat), encOf i = some e → cxSources i = some n → clear i s = true → 2 ≤ e.op →
    let u := seen s
    let k := u.me
    let slot := vget k.slots (e.op - 2)
    let lanes := fun (m : Nat) => ∃ j, j < m ∧ (k.pred e).getLsbD j = true
    let width := ((if slot.resident then vget u.here.slices slot.slice else none).map fun r => if (graphOf r.image).wide then 32 else 16).getD 32
    (lanes width → k.streamBound e.a = true → Traps i s 0x03 0) ∧
    (¬lanes width → 16 ≤ k.vq.length → Waits i s 0 0) ∧
    (¬lanes width → k.vq.length < 16 →
      Completes i e s (u.modMe fun k => withEntry k { queued i e k 0 0 0 none with slice := 4 })) ∧
    (k.streamBound e.a = false → slot.resident = false → lanes 32 → Traps i s 0x13 (BitVec.ofNat 64 (e.op - 2))) ∧
    (∀ r, k.streamBound e.a = false → slot.resident = true → vget u.here.slices slot.slice = some r →
      lanes (if (graphOf r.image).wide then 32 else 16) →
      (n ≠ (graphOf r.image).nsrc → Traps i s 0x14 (BitVec.ofNat 64 (e.op - 2))) ∧
      (n = (graphOf r.image).nsrc → k.vq.length < 16 → ∃ t, Completes i e s t ∧
        t.me.vq = k.vq ++ [{ queued i e k 0 0 0 none with slice := slot.slice }] ∧ t.me.pin ≠ some slot.slice ∧
        vget t.here.slices slot.slice = some { r with lastCx := some u.here.cycle.toNat } ∧ t.me.v = k.v) ∧
      (n = (graphOf r.image).nsrc → 16 ≤ k.vq.length → Waits i s 0 0)) ∧
    (∀ (t : State) (c : CoreId) (m : Nat) (pc : W), m < 16 → (t.core c).sup = false → (t.core c).ctl.loaderVec.toNat % 2 ^ 22 / 2 ≠ 0 →
      (t.core c).resumable = false → (t.core c).act.isSome = true → (vget (t.core c).slots m).addr < 2 ^ 64 →
      let t' := (takeTrap t c 0x13 (BitVec.ofNat 64 m) pc).core c
      t'.pc.toNat = (t.core c).ctl.loaderVec.toNat % 2 ^ 22 / 2 * 2 ∧ t'.resumable = true ∧ t'.sup = false ∧ t'.cbank.resume = pc ∧
        t'.ctl = (t.core c).ctl ∧ (∀ j, t'.g j = (t.core c).g j) ∧
        t'.cbank.ovlAddr.toNat = (if (vget (t.core c).slots m).bound = true then (vget (t.core c).slots m).addr else 0xFFFFFFFFFFFFFFF0 + m)) ∧
    (∀ (t : State) (c : CoreId) (q : VEntry) (rest : List VEntry) (e : Enc) (ch : Nat) (r : Rec), let k := t.core c
      let b := vget k.streams (e.a - 12)
      k.vq = q :: rest → q.i = .cxThreeSources e → q.slice = 4 → e.b < 12 → e.c < 12 → 12 ≤ e.a → laneWinner t c.site = some c.kind →
      b.chan = some ch → ringEn (k.ring ch) = true → k.headRec ch = some r → 64 * b.popped + 64 < r.len →
      ∃ t', exec (.vectorQueueExecute c) t = .next t' ∧ (t'.core c).vq = rest ∧ (t'.core c).v = (k.settleV (some q.pos)).v ∧
        vget (t'.core c).streams (e.a - 12) = { b with popped := b.popped + 1 })

/-- R382: LSAVE and LREST complete: LSAVE writes the core's residencies to an area: its header, the slot entries, and each graph's image; and LREST reads one, gives the status of a
bad header, and binds what it can.
What stands in the rest of the area (log 42), the order of LREST (log 43) and blocked-on kind 0 of its wait (log 28) are the model's choice. -/
def Sys2Proof.ResidencyAreas : Prop :=
  ∀ (e : Enc) (s : State), let u := seen s
    let a := u.me.g e.b
    let f := u.modHere Tile.freeSlices
    let status := fun (t : State) (x : Nat) => t.modMe fun k => k.writeW e.L .g e.a (BitVec.ofNat 64 x)
    (∀ i, (i = .lsave e ∨ i = .lrest e) → clear i s = true → u.me.restore = none → a.toNat % 64 ≠ 0 → Traps i s 0x09 a) ∧
    (clear (.lsave e) s = true → a.toNat % 64 = 0 → localWords u a 0x820 true → ramoHits u s.cur u.here.name a.toNat 0x4100 = false → Mem.wf u.here.mem = true →
      (∀ n r, n < 4 → vget u.here.slices n = some r → r.image.length ≤ 512) → (∀ n, n < 16 → (vget u.me.slots n).slice < 4) →
      ∃ t, Completes (.lsave e) e s t ∧ (t.here.word a.toNat).toNat % 2 ^ 16 = 0x4C53 ∧
        (t.here.word a.toNat).toNat / 2 ^ 32 = (slicesNamed u.me).length ∧
        (∀ n, n < 16 → (t.here.word a.toNat).getLsbD (16 + n) = (vget u.me.slots n).resident) ∧
        (∀ n, n < 16 → (vget u.me.slots n).resident = true →
          (t.here.word (a.toNat + 0x40 + 8 * n)).getLsbD 3 = true ∧
          (t.here.word (a.toNat + 0x40 + 8 * n)).toNat / 2 ^ 32 = (vget u.me.slots n).addr % 2 ^ 32 ∧
          (slicesNamed u.me)[(t.here.word (a.toNat + 0x40 + 8 * n)).toNat % 8]? = some (vget u.me.slots n).slice) ∧
        (∀ j n r i, (slicesNamed u.me)[j]? = some n → vget u.here.slices n = some r → i < r.image.length →
          t.here.word (a.toNat + 0x100 + 0x1000 * j + 8 * i) = r.image.getD i 0) ∧
        (∀ b, b < a.toNat ∨ a.toNat + 0x4100 ≤ b → Mem.byteAt t.here.mem b = Mem.byteAt u.here.mem b) ∧
        t.me = u.me.writeW e.L .g e.a (BitVec.ofNat 64 (slicesNamed u.me).length)) ∧
    (clear (.lrest e) s = true → u.me.restore = none → a.toNat % 64 = 0 → localWords u a 0x820 false → ramoHits u s.cur u.here.name a.toNat 0x4100 = false →
      u.here.poison = [] →
      ((u.here.word a.toNat).toNat % 2 ^ 16 ≠ 0x4C53 → Completes (.lrest e) e s (status u 1)) ∧
      ((u.here.word a.toNat).toNat % 2 ^ 16 = 0x4C53 → 4 < (u.here.word a.toNat).toNat / 2 ^ 32 % 8 → Completes (.lrest e) e s (status u 2)) ∧
      (readArea u.here a.toNat = .ok [] → Completes (.lrest e) e s (status u 0)) ∧
      (∀ addr img slot n, readArea u.here a.toNat = .ok [(addr, img, [slot])] → f.here.resident addr = none → n < 4 →
        vget f.here.slices n = none → (∀ m, m < n → (vget f.here.slices m).isSome = true) →
        Completes (.lrest e) e s (status (bound (f.modHere fun t => { t with slices := vset t.slices n (some ⟨addr, img, none, false⟩) })
          slot addr n) 0)) ∧
      (∀ addr img slot n, readArea u.here a.toNat = .ok [(addr, img, [slot])] → f.here.resident addr = some n →
        Completes (.lrest e) e s (status (bound f slot addr n) 0)))

/-! ### Copy engines -/

namespace Sys2Proof

/-- The name of a tile is not moving in its own map. -/
def ownBound (s : State) (t : Site) : Prop := ∀ d, resolve (s.tile t) (s.tile t).name ≠ .moving d

end Sys2Proof

/-- R201, R231 to R233, R237: the instructions of a timeline, TLRD, TLWAIT, CPY, CPY2D and CPYCAN, complete. TLRD gives its counter, 0 where no context is bound; TLWAIT waits until it reaches g[c]; CPY and CPY2D
latch their descriptor, take the next ticket and go on, once the core's earlier accesses to the bytes that they touch are over, for KIND 3 those of
the ring; CPYCAN ends every outstanding operation CANCELLED.
Blocked-on kind 0 of the waits for the core's own accesses is the model's choice (log 28). -/
def Sys2Proof.TimelineForms : Prop :=
  ∀ (e : Enc) (s : State), let u := seen s
    let n := (u.me.g e.c).toNat
    (clear (.tlrd e) s = true → u.here.slotValid e.fb = false → Completes (.tlrd e) e s (u.modMe fun k => k.writeW e.L .g e.a 0)) ∧
    (∀ x, clear (.tlrd e) s = true → u.engineAt s.cur.site e.fb = some x →
      Completes (.tlrd e) e s (u.modMe fun k => k.writeW e.L .g e.a (BitVec.ofNat 64 x.counter))) ∧
    (∀ x, clear (.tlwait e) s = true → u.engineAt s.cur.site e.fb = some x → n ≤ x.counter → Completes (.tlwait e) e s u) ∧
    (∀ x, clear (.tlwait e) s = true → u.engineAt s.cur.site e.fb = some x → x.counter < n → Waits (.tlwait e) s 5 e.fb) ∧
    (clear (.tlwait e) s = true → u.here.slotValid e.fb = false → n ≠ 0 → Traps (.tlwait e) s 0x03 (BitVec.ofNat 64 e.fb)) ∧
    (∀ i count, (i = .cpy e ∧ count = 3) ∨ (i = .cpy2d e ∧ count = 5) → clear i s = true →
      let a := u.me.g e.c
      let words := (List.range count).map fun j => u.here.word (a.toNat + 8 * j)
      let w2 := (u.here.word (a.toNat + 16)).toNat
      let op := fun (ticket : Nat) =>
        (⟨ticket, words, decide (count = 5), if 2 ≤ w2 / 2 ^ 32 % 4 then u.me.capReg (w2 / 2 ^ 48 % 16) else 0, 0, 0, 0, false, 0, [], []⟩ : EOp)
      let readable := a.toNat % 8 = 0 ∧ localWords u a count false ∧ u.here.poison = [] ∧
        ∀ j, j < count → ramoPending u (a + BitVec.ofNat 64 (8 * j)).toNat 8 = false
      (u.engineAt s.cur.site e.fb = none → Traps i s 0x03 0) ∧
      (∀ x, u.engineAt s.cur.site e.fb = some x → a.toNat % 8 ≠ 0 → Traps i s 0x09 a) ∧
      (∀ x, u.engineAt s.cur.site e.fb = some x → readable → x.ops.length < 32 → footBusy u (op (x.issued + 1)) = false →
        Completes i e s (({ u with engines := mapIf u.engines (·.num == x.num) fun y =>
            { y with issued := x.issued + 1, ops := y.ops ++ [op (x.issued + 1)] } } : State).modMe fun k =>
          k.writeW e.L .g e.a (BitVec.ofNat 64 (x.issued + 1)))) ∧
      (∀ x, u.engineAt s.cur.site e.fb = some x → readable → x.ops.length < 32 → footBusy u (op (x.issued + 1)) = true → Waits i s 0 0) ∧
      (∀ o, u.here.bankq = [] → u.me.vq = [] → u.pkts = [] → footBusy u o = false) ∧
      (∀ o y, y ∈ u.here.bankq → y.src = u.cur → o.kind = 3 → cname o.cap = u.here.name →
        let ring := (u.here.core (capKind o.cap)).ring o.chan
        ringBase ring < y.addr + y.width → y.addr < ringBase ring + 64 * ringGran ring → footBusy u o = true) ∧
      (∀ x, u.engineAt s.cur.site e.fb = some x → a.toNat % 8 = 0 → localWords u a count false → 32 ≤ x.ops.length → Waits i s 0 0)) ∧
    (∀ x, clear (.cpycan e) s = true → u.engineAt s.cur.site e.fb = some x →
      Completes (.cpycan e) e s (({ unwait u (ofEngine x.num) with engines := mapIf u.engines (·.num == x.num) fun y =>
          { y with fault := none, ops := y.ops.map fun o => { o with phase := 2, status := 2 } } } : State).modMe fun k =>
        k.writeW e.L .g e.a (BitVec.ofNat 64 x.issued))) ∧
    (clear (.cpycan e) s = true → u.engineAt s.cur.site e.fb = none → Traps (.cpycan e) s 0x03 0)

/-- R6, R182: a Sv48 page table: three entries, of levels 3, 2 and 1, each the pointer to the next table, and a leaf of 4 KiB at level 0; a leaf at level 1 or 2
maps 2 MiB or 1 GiB. The leaf's R or W bit permits the access; below 3 TiB the address is one of edge memory. A reserved bit set in an entry gives a fault. Whether
an entry with A clear, or for a write D, translates is the implementation's (log 80). -/
def Sys2Proof.PagesTranslate : Prop :=
  ∀ (s : State) (r : PageRoot) (va : Nat) (write : Bool) (page : Nat → Nat) (pte : Nat → W) (k : Nat),
    s.pasids.find? (·.pasid == r.pasid) = some r → r.sv57 = false → va < 2 ^ 47 → k ≤ 2 → page 3 = r.root →
    (∀ l, k ≤ l → l ≤ 3 → lookup s.tables (4096 * page l + 8 * (va / 2 ^ (12 + 9 * l) % 512)) = some (pte l)) →
    (∀ l, k < l → l ≤ 3 → (pte l).toNat % 32 = 1 ∧ (pte l).toNat / 2 ^ 6 % 4 = 0 ∧ (pte l).toNat / 2 ^ 10 = page (l - 1) ∧ page (l - 1) < 2 ^ 44) →
    let leaf := (pte k).toNat / 2 ^ 10 % 2 ^ 44
    let pa := 4096 * leaf + va % 2 ^ (12 + 9 * k)
    let used := (pte k).getLsbD 6 && (!write || (pte k).getLsbD 7)
    ((pte k).getLsbD 0 = true → (pte k).getLsbD 1 = true → (pte k).toNat / 2 ^ 54 = 0 → leaf % 2 ^ (9 * k) = 0 → pa < 0x30000000000 →
      translate s r.pasid va write =
        if (pte k).getLsbD (if write then 2 else 1) && (used || Config.setsAD) then some (pa, false) else none) ∧
    ((pte k).toNat / 2 ^ 54 ≠ 0 → translate s r.pasid va write = none)

/-- R182 to R184, R230, R234, R235, R306, R307, R340: the steps of an engine context, ENGINE_OPERATION_START, ENGINE_BURST, TRANSLATION_RESOLVED, ENGINE_OPERATION_COMPLETE,
ENGINE_CONTEXT_BIND, OWNER_TRANSFER_START and OWNER_TRANSFER_COMPLETE, complete. The oldest operation ends at once with the status of a failing check, or
with OK where it moves no byte, and otherwise starts; it waits while its tile is moving; a burst of a copy within one row and 4 KiB page, in the
context's turn, moves its bytes between edge memory and the tile, and ends it; a translation fault stops it until the island has mapped a page;
where the tables still give no permission it ends ERR_TRANSLATE and records ENGINE_FAULT; on completion the counter takes the ticket. Binding
gives a slot a context of its home island, and the regions of edge memory pass between fabric and island, each side's accesses that wait going
before a transfer back.
That a record's bytes are gathered over as many bursts as they take (log 22) and where page tables lie (log 80) are the model's choice. -/
def Sys2Proof.EngineSteps : Prop :=
  (∀ (n : Nat) (s : State) (x : Engine) (o : EOp) (r : List EOp), s.engine n = some x → x.ops = o :: r →
    let there := x.away = none ∧ ownBound s x.site ∧ (s.tile x.site).vni ∈ (s.tile x.site).router.transit
    let served := nextContext s (n / 16) = some n
    let opIs := fun (t : State) (f : EOp → EOp) => ∃ y, t.engine n = some y ∧ y.ops = f o :: r
    let starts := fun (f : EOp → EOp) => o.phase = 0 → (x.away = none → ownBound s x.site) → ∃ t, exec (.engineOperationStart n) s = .next t ∧ opIs t f
    let ends := fun (k : Nat) (o : EOp) => { o with phase := 2, status := k }
    (o.badDesc = true → starts (ends 3)) ∧
    (o.badDesc = false → (o.len = 0 ∨ o.rows = 0) → starts (ends 0)) ∧
    (o.badDesc = false → o.len ≠ 0 → o.rows ≠ 0 → (o.len % 64 ≠ 0 ∨ o.edge % 64 ≠ 0 ∨ o.local' % 64 ≠ 0) → starts (ends 1)) ∧
    let shaped := o.badDesc = false ∧ o.len ≠ 0 ∧ o.rows ≠ 0 ∧ o.len % 64 = 0 ∧ o.edge % 64 = 0 ∧ o.local' % 64 = 0 ∧ o.estride % 64 = 0 ∧
      o.lstride % 64 = 0
    let inside := o.kind < 3 → ∀ j, j < o.rows → 0 ≤ o.rowLocal j ∧ o.rowLocal j + o.len ≤ 0x002C0000
    let cap := capCheckIn s (s.getTgt (engineTile s x)).vni o.cap 0 (if o.kind = 3 then some o.chan else none) (engineTile s x).site
    (shaped → ¬inside → starts (ends 4)) ∧
    (shaped → inside → 2 ≤ o.kind → cap ≠ none → starts (ends 5)) ∧
    (shaped → inside → (2 ≤ o.kind → cap = none) → starts fun o => { o with phase := 1 }) ∧
    (∀ d, o.phase = 0 → x.away = none → resolve (s.tile x.site) (s.tile x.site).name = .moving d → exec (.engineOperationStart n) s = .next s) ∧
    (¬served → exec (.engineBurst n) s = .next s) ∧
    (∀ pa, there → served → o.phase = 1 → x.fault = none → o.moved = 0 → o.poisoned = false → o.rows = 1 → o.len % 64 = 0 →
      0 < o.len → o.edge % 64 = 0 → o.edge % 4096 + o.len ≤ 4096 → o.kind < 2 → s.edgePoison = [] → (s.tile x.site).poison = [] → MemsWf s →
      (∀ j, j < o.len / 64 → translate s x.pasid (o.edge + 64 * j) (o.kind == 1) = some (pa + 64 * j, false)) →
      (∀ g, regionOf pa ≤ g → g ≤ regionOf (pa + o.len - 1) → (s.own g).owner = .fabric ∧ (s.own g).waiting = []) →
      ∃ t, exec (.engineBurst n) s = .next t ∧ opIs t (fun o => { o with phase := 2, status := 0, moved := o.len }) ∧
        (o.kind = 0 → t.edge = s.edge ∧ ∀ b, Mem.byteAt (t.tile x.site).mem b =
          if o.local' ≤ b ∧ b < o.local' + o.len then Mem.byteAt s.edge (pa + (b - o.local')) else Mem.byteAt (s.tile x.site).mem b) ∧
        (o.kind = 1 → (t.tile x.site).mem = (s.tile x.site).mem ∧ ∀ b, Mem.byteAt t.edge b =
          if pa ≤ b ∧ b < pa + o.len then Mem.byteAt (s.tile x.site).mem (o.local' + (b - pa)) else Mem.byteAt s.edge b)) ∧
    (there → served → o.phase = 1 → x.fault = none → o.moved = 0 → o.rows = 1 → 0 < o.len → o.edge % 64 = 0 → o.kind < 2 →
      translate s x.pasid o.edge (o.kind == 1) = none →
      ∃ t y, exec (.engineBurst n) s = .next t ∧ t.engine n = some y ∧ y.fault = some o.edge ∧ y.ops = x.ops ∧ t.edge = s.edge ∧ t.tiles = s.tiles) ∧
    (∀ a pasid va page len rd wr pa, x.fault = some a → (x.away = none → ownBound s x.site) →
      apart (mapPage s pasid va page len rd wr) = true → translate (mapPage s pasid va page len rd wr) x.pasid a (o.kind == 1) = some (pa, false) →
      ∃ t y, exec (.translationResolved n pasid va page len rd wr) s = .next t ∧ t.engine n = some y ∧ y.fault = none ∧ y.ops = x.ops ∧
        t.tables = (mapPage s pasid va page len rd wr).tables ∧ t.tiles = s.tiles) ∧
    (∀ a pasid va page len rd wr, x.fault = some a → translate (keepApart s (mapPage s pasid va page len rd wr)) x.pasid a (o.kind == 1) = none →
      x.away = none → ownBound s x.site → (∀ y ∈ (s.tile x.site).flow.async, y.cause ≠ 0x1D) →
      ∃ t, exec (.translationResolved n pasid va page len rd wr) s = .next t ∧ opIs t (ends 6) ∧
        ∃ d, (t.tile x.site).flow.async = (s.tile x.site).flow.async ++ [⟨0x1D, d, false⟩]) ∧
    (x.away = none → ownBound s x.site → o.phase = 2 → o.recen = false → o.semen = false →
      ∃ t y, exec (.engineOperationComplete n) s = .next t ∧ t.engine n = some y ∧ y.counter = o.ticket ∧ y.ops = r ∧
        ∀ z, { t.tile z with activity := (s.tile z).activity } = s.tile z) ∧
    (x.away = none → ownBound s x.site → o.phase = 2 → o.recen = true → o.semen = true → (s.tile x.site).semq = [] → Mem.wf (s.tile x.site).mem = true →
      let cfg := (s.tile x.site).engctx x.slot
      let a := cfg.toNat / 2 ^ 6 % 2 ^ 16 * 64 + 16 * (o.ticket % 2 ^ (cfg.toNat % 16))
      a + 16 ≤ 0x002C0000 → ∃ t y, exec (.engineOperationComplete n) s = .next t ∧ t.engine n = some y ∧ y.counter = o.ticket ∧ y.ops = r ∧
        (t.tile x.site).word a = BitVec.ofNat 64 o.ticket ∧ Mem.load (t.tile x.site).mem (a + 8) 2 = o.status % 2 ^ 16 ∧
        Mem.load (t.tile x.site).mem (a + 12) 4 = o.moved % 2 ^ 32 ∧
        (vget (t.tile x.site).sems o.sema).toNat = Nat.min ((vget (s.tile x.site).sems o.sema).toNat + 1) (2 ^ 32 - 1))) ∧
  (∀ (n pasid : Nat) (site : Site) (slot : Nat) (count : W) (s : State), (s.tile site).bound = true → n < 4096 → n / 64 = homeNum site → slot < 4 → s.engine n = none →
    (s.tile site).slotValid slot = false →
    ((s.vdevOf (s.tile site).vni = none ∧ ∀ d ∈ s.vdevs, n ∉ d.engines ∧ pasid ∉ d.pasids) ∨
      ∃ d, s.vdevOf (s.tile site).vni = some d ∧ n ∈ d.engines ∧ pasid ∈ d.pasids) → ∃ t y, exec (.engineContextBind n pasid site slot count) s = .next t ∧ t.engine n = some y ∧
      y.site = site ∧ y.slot = slot ∧ y.pasid = pasid ∧ y.counter = count.toNat ∧ y.issued = count.toNat ∧ y.ops = [] ∧
      (t.tile site).slotValid slot = true ∧ ((t.tile site).engctx slot).toNat / 2 ^ 22 % 2 ^ 12 = n) ∧
  (∀ (r : Nat) (s : State),
    ((s.own r).owner = .island → (s.own r).waiting = [] → ∃ t, exec (.ownerTransferStart r true) s = .next t ∧ (t.own r).owner = .transit true) ∧
    ((s.own r).owner = .fabric → (s.own r).waiting = [] → ∃ t, exec (.ownerTransferStart r false) s = .next t ∧ (t.own r).owner = .transit false) ∧
    ((s.own r).owner = .fabric → (s.own r).waiting = [] → exec (.ownerTransferStart r true) s = .next s) ∧
    (∀ f, (s.own r).owner = .transit f → ((∃ k, k ≠ .other ∧ (f, k) ∈ (s.own r).waiting) ∨ ∀ x ∈ (s.own r).waiting, x.1 = f) →
      ∃ t, exec (.ownerTransferComplete r) s = .next t ∧ (t.own r).owner = (if f then .fabric else .island) ∧
        (t.own r).waiting = (s.own r).waiting.filter (· != (f, .other))) ∧
    (∀ f, (s.own r).owner = .transit f → (∀ k, (f, k) ∈ (s.own r).waiting → k = .other) → (∃ x ∈ (s.own r).waiting, x.1 = !f) →
      ∃ t, exec (.ownerTransferComplete r) s = .next t ∧ (t.own r).owner = .transit (!f)) ∧
    (∀ r', r' ≠ r → ∀ b t, exec (.ownerTransferStart r b) s = .next t → t.own r' = s.own r'))

/-! ### Collectives and barriers -/

namespace Sys2Proof

/-- R171, R177: the `n` words at an address stand at the bytes `l`: each passes the checks of an access, follows no pending RAMO of the core, and is
performed at the tile that it means, another member's once the core's request has reached it. -/
def blockAt (u : State) (a : W) (n : Nat) (write : Bool) (l : List (Site × Nat)) : Prop :=
  l.length = n ∧ ∀ j, j < n → let b := (a + BitVec.ofNat 64 (8 * j)).toNat
    addrFault u b 8 write false = none ∧ ramoPending u b 8 = false ∧ (isRemote u b = true → u.me.wait.any (·.done) = true) ∧
    (target u b).isSome = true ∧ l[j]? = target u b
/-- The word at a byte of a tile. -/
def wordOf (u : State) (p : Site × Nat) : W := (u.tile p.1).word p.2
/-- R205: the `n` words of a control block read as `ws`, none of them poisoned. -/
def blockReads (u : State) (a : W) (n : Nat) (ws : List W) : Prop :=
  ∃ l, blockAt u a n false l ∧ (∀ p ∈ l, (u.tile p.1).badWords p.2 8 = []) ∧ ws = l.map (wordOf u)
/-- Consecutive words of a tile. -/
def run (site : Site) (o n : Nat) : List (Site × Nat) := (List.range n).map fun j => (site, o + 8 * j)
/-- R205, R272: the descriptor at an address reads as `d`, with the member list `l` where its fields pass and it names one. -/
def descReads (u : State) (a : W) (barrier : Bool) (d : List W) (l : List (BitVec 32)) : Prop :=
  blockReads u a 3 d ∧
  (if descBad u u.here.vni d barrier = true ∨ dList d = false then l = []
   else ∃ ws, blockReads u (dListAddr d) (ceilDiv (dCount d) 2) ws ∧ l = entriesOf (dCount d) ws)
/-- R283: the local checks of a descriptor by a core. -/
def localCheck (u : State) (d : List W) (l : List (BitVec 32)) (barrier : Bool) : Nat :=
  if descBad u u.here.vni d barrier = true ∨ (dList d = true ∧ listBad l = true) then 3
  else if rankIn u u.cur d l = none then 4 else 0
/-- An event that answers the waiting instruction of a core: its g[a] takes the answer, and the core goes on after it. -/
def answersWith (s t : State) (c : CoreId) (e : Enc) (x : W) : Prop :=
  (t.core c).wait = none ∧ (t.core c).req = none ∧ ((s.core c).act.isSome = true → (t.core c).pc = npc (s.core c).pc e) ∧
    (e.L = 0 → 1 ≤ e.a → e.a < 32 → (t.core c).g e.a = x)
/-- The fields of the root's answer (R273, R283): sequence number, status, rank; and whether an instance gives it. -/
def answerIs (k : Core) (seq status rank : Nat) (given : Bool) : Prop :=
  ∃ x : W, k.ans = some x ∧ x.toNat % 2 ^ 16 = seq ∧ x.toNat / 2 ^ 16 % 2 ^ 8 = status ∧ x.toNat / 2 ^ 24 % 2 ^ 16 = rank % 2 ^ 16 ∧
    x.getLsbD 63 = given
/-- R273: an instance of the group that still has an answer to give to a core it names. -/
def openFor (s : State) (c : CoreId) (vni group : Nat) (x : Inst) : Prop :=
  x.vni = vni ∧ x.group = group ∧ c ∈ x.members ∧ x.members.findIdx (· == c) ∉ x.answered ∧ x.state ≠ 4 ∧
    ¬(x.state = 3 ∧ dNorerun x.desc = true) ∧
    ((x.state = 5 ∨ x.state = 6) → x.answered.length ≠ x.members.length ∧ (s.nextSeq vni group - x.seq).toNat < 16)
/-- R283: the current instance of a core is still in progress. -/
def inProgress (k : Core) : Prop :=
  ∃ y, k.coll = some y ∧ y.usable = true ∧ y.state ≠ 4 ∧ y.state ≠ 5 ∧ y.state ≠ 6 ∧ ¬(y.state = 3 ∧ y.norerun = true)

end Sys2Proof

/-- R276, R278, R283, R284: CBEGIN waits while an instance is in progress; gives the status of a failing local check; and otherwise sends the join request and
waits, blocked-on kind 7, for the root's answer. CWAIT, CABORT and CSTAT act on the current or last instance: CWAIT gives 0 once its event is reached and 1
for an aborted instance; CABORT gives 1 or 2 for an instance that is over, and otherwise asks the root; CSTAT gives the state.
The order of the local reads and checks (log 35) and what COLLQ_STATUS reads without a current instance (log 73) are the model's choice. -/
def Sys2Proof.CollectiveForms : Prop :=
  ∀ (e : Enc) (s : State), let u := seen s
    let a := u.me.g e.b
    let puts := fun (i : Instr) (t : State) (x : Nat) => Completes i e s (t.modMe fun k => k.writeW e.L .g e.a (BitVec.ofNat 64 x))
    let asks := fun (i : Instr) (t : State) (r : Req) => exec i s = .next (t.modMe fun k =>
      { k with req := some r, ans := none, wait := some ⟨i, 0, true, [], []⟩ }.block 7 0 0xFFFF)
    let seq := a.toNat % 2 ^ 16
    (clear (.cbegin e) s = true → inProgress u.me → Waits (.cbegin e) s 7 0) ∧
    (∀ d l, clear (.cbegin e) s = true → ¬inProgress u.me → cached u.here a.toNat = none → descReads u a false d l →
      (localCheck u d l false ≠ 0 → puts (.cbegin e) u (localCheck u d l false * 2 ^ 16)) ∧
      (localCheck u d l false = 0 → asks (.cbegin e) (u.modMe fun k => { k with coll := k.coll.map fun y => { y with abrt := false } }) (.join d l a.toNat true))) ∧
    (∀ x, clear (.cbegin e) s = true → ¬inProgress u.me → cached u.here a.toNat = some x →
      (localCheck u x.words x.members false ≠ 0 → puts (.cbegin e) u (localCheck u x.words x.members false * 2 ^ 16)) ∧
      (localCheck u x.words x.members false = 0 →
      asks (.cbegin e) (u.modMe fun k => { k with coll := k.coll.map fun y => { y with abrt := false } }) (.join x.words x.members a.toNat true))) ∧
    (∀ i, (i = .cwait e ∨ i = .cabort e) → clear i s = true → (∀ y, u.me.coll = some y → y.seq ≠ seq) → puts i u 2) ∧
    (clear (.cstat e) s = true → (∀ y, u.me.coll = some y → y.seq ≠ seq) → puts (.cstat e) u seq) ∧
    (∀ y, u.me.coll = some y → y.seq = seq →
      let reached := if e.fc = 0 then y.consumed = y.inWords else if e.fc = 1 then y.delivered = y.outWords
        else y.state = 4 ∨ (y.norerun = true ∧ y.delivered = y.outWords)
      (clear (.cwait e) s = true → reached → puts (.cwait e) u 0) ∧
      (clear (.cwait e) s = true → ¬reached → y.state = 5 → puts (.cwait e) u 1) ∧
      (clear (.cwait e) s = true → ¬reached → y.state ≠ 5 → Waits (.cwait e) s 7 0) ∧
      (clear (.cabort e) s = true → y.state = 5 → puts (.cabort e) (u.modMe fun k => { k with coll := some { y with abrt := false } }) 1) ∧
      (clear (.cabort e) s = true → (y.state = 4 ∨ y.state = 6 ∨ (y.state = 3 ∧ y.norerun = true)) → puts (.cabort e) u 2) ∧
      (clear (.cabort e) s = true → y.state ≠ 4 → y.state ≠ 5 → y.state ≠ 6 → ¬(y.state = 3 ∧ y.norerun = true) →
        asks (.cabort e) u (.abort y.seq)) ∧
      (clear (.cstat e) s = true → y.state < 8 → y.cause < 16 → ∃ x : Nat, puts (.cstat e) u x ∧ x % 2 ^ 16 = y.seq % 2 ^ 16 ∧ x / 2 ^ 16 % 8 = y.state ∧
        x / 2 ^ 20 % 16 = (if y.state = 5 then y.cause else 0) ∧ x / 2 ^ 32 % 2 ^ 16 = (if y.state = 5 then y.causeRank % 2 ^ 16 else 0xFFFF) ∧
        x / 2 ^ 48 = y.rank % 2 ^ 16))

/-- R171, R177, R205: the words of the control blocks that CBEGIN, BARARR, BARSYNC and DPOST read at g[b] (three words; DPOST first four). A form that reads it traps at
the first word that fails a check, and with ECC_POISON at the first poisoned one; it waits, blocked-on kind 11 naming the tile, for a pending RAMO of the core to
one of them; and where they lie in the window of another cluster member it first sends a request to that member (no block lies in two windows). -/
def Sys2Proof.ControlBlocks : Prop :=
  ∀ (i : Instr) (e : Enc) (s : State), let u := seen s
    let a := u.me.g e.b
    let n := if i = .dpost e then 4 else 3
    let at' := fun (j : Nat) => a + BitVec.ofNat 64 (8 * j)
    clear i s = true →
    ((i = .cbegin e ∧ ¬inProgress u.me ∧ cached u.here a.toNat = none) ∨ (i = .bararr e ∧ e.immHigh < 64) ∨
      (i = .barsync e ∧ e.immHigh < 64 ∧ u.me.arrival e.immHigh = none) ∨ i = .dpost e) →
    (∀ j c, j < n → (∀ k, k < j → addrFault u (at' k).toNat 8 false false = none) → addrFault u (at' j).toNat 8 false false = some c →
      Traps i s c (at' j)) ∧
    ((∀ j, j < n → addrFault u (at' j).toNat 8 false false = none) →
      (∀ j, j < n → (∀ k, k < j → ramoPending u (at' k).toNat 8 = false) → ramoPending u (at' j).toNat 8 = true →
        exec i s = .next (u.modMe fun k => k.block 11 0 (nameOf u (at' j).toNat))) ∧
      ((∀ j, j < n → ramoPending u (at' j).toNat 8 = false) →
        (∀ j m name, j < n → u.me.wait = none → (∀ k, k < j → isRemote u (at' k).toNat = false) → isRemote u (at' j).toNat = true →
          memberAt u.here (at' j).toNat = some (m, name) →
          (inject u s.cur 1 name s.cur.kind 0 .cluster = none → Waits i s 10 0) ∧
          (∀ v, inject u s.cur 1 name s.cur.kind 0 .cluster = some v →
            (∀ k m' other, k < n → isRemote u (at' k).toNat = true → memberAt u.here (at' k).toNat = some (m', other) → other = name) →
            exec i s = .next (v.modMe fun k => { k with wait := some ⟨i, u.nextPkt, false, [], []⟩ }.block 11 0 name))) ∧
        (∀ j site o, j < n → (∀ k, k < n → isRemote u (at' k).toNat = true → u.me.wait.any (·.done) = true ∧ (target u (at' k).toNat).isSome = true) →
          target u (at' j).toNat = some (site, o) → (u.tile site).badWords o 8 ≠ [] →
          (∀ k site' o', k < j → target u (at' k).toNat = some (site', o') → (u.tile site').badWords o' 8 = []) → Traps i s 0x19 (at' j))))

/-- R273, R274, R283: the root answers a join request: with the group's oldest instance that has not yet answered the issuer, which it joins where the descriptors
agree and which runs once every member has joined (MISMATCH, REFUSED or ABORTED where that is so); BAD_DESC where a member is missing; and otherwise with a new
instance, numbered NEXTSEQ, which then advances, REFUSED where no slot is free. Requests of one root cycle are served in ascending sequence number,
then VNI. The answer completes the CBEGIN: an instance it joined becomes its current one, with empty queues; an answer without one leaves the cached
copy of a descriptor that another core's instance has named (R205).
The steps COLLECTIVE_JOIN_REQUEST and COLLECTIVE_JOIN_ANSWER complete.
What an answer sets in COLLQ_STATUS whatever its status is the model's choice (log 88). -/
def Sys2Proof.CollectiveJoins : Prop :=
  (∀ (c : CoreId) (s : State) (d : List W) (l : List (BitVec 32)) (addr : Nat) (keep : Bool), (s.core c).req = some (.join d l addr keep) →
    let vni := (s.tile c.site).vni
    let rank := (rankIn s c d l).getD 0
    let mine := fun (x : Inst) => x.vni = vni ∧ x.group = dGroup d
    let none' := ∀ x ∈ s.insts, ¬openFor s c vni (dGroup d) x
    let lost := s.insts.countP fun x => (x.state == 5 || x.state == 6) && !retired s x
    let kept := { s with insts := s.insts.filter fun x => !mayForget s x }
    let full := 16 ≤ slotsUsed kept none ∨ ((s.region vni).map (·.quota)).getD 0 ≤ slotsUsed kept (some vni)
    let seq := s.nextSeq vni (dGroup d)
    let asked := fun (P : State → Prop) => (s.core c).ans = none → ∃ t, exec (.collectiveJoinRequest [c]) s = .next t ∧ P t
    (none' → membersOf s vni d l = none → asked fun t => answerIs (t.core c) 0 3 rank false ∧ t.insts = s.insts ∧ t.groups = s.groups) ∧
    (∀ ms, none' → membersOf s vni d l = some ms → 256 ≤ lost → asked fun t => answerIs (t.core c) 0 1 rank false ∧ t.insts = s.insts ∧
      t.groups = s.groups) ∧
    (∀ ms, none' → membersOf s vni d l = some ms → c ∈ ms → 2 ≤ ms.length → lost < 256 → asked fun t =>
      answerIs (t.core c) seq.toNat (if full then 1 else 0) rank true ∧ t.nextSeq vni (dGroup d) = seq + 1 ∧
      ∃ x ∈ t.insts, mine x ∧ x.seq = seq ∧ x.desc = d ∧ x.list = l ∧ x.members = ms ∧ x.answered = [ms.findIdx (· == c)] ∧
        (¬full → x.joined = [ms.findIdx (· == c)] ∧ x.state = 1 ∧ x.slot = true) ∧ (full → x.joined = [] ∧ x.state = 6 ∧ x.slot = false)) ∧
    (∀ x l1 l2, s.insts = l1 ++ x :: l2 → (∀ y ∈ l1, ¬openFor s c vni (dGroup d) y) → openFor s c vni (dGroup d) x →
      let r := x.members.findIdx (· == c)
      let now := fun (P : Inst → Prop) (t : State) => ∃ y ∈ t.insts, mine y ∧ y.seq = x.seq ∧ y.answered = x.answered ++ [r] ∧ P y
      ((x.desc ≠ d ∨ x.list ≠ l) → asked fun t => answerIs (t.core c) x.seq.toNat 2 rank true ∧ now (fun y => y.joined = x.joined) t) ∧
      (x.desc = d → x.list = l → x.state = 5 → asked fun t => answerIs (t.core c) x.seq.toNat 5 r true ∧ now (fun y => y.joined = x.joined) t) ∧
      (x.desc = d → x.list = l → x.state = 6 → asked fun t => answerIs (t.core c) x.seq.toNat 1 r true ∧ now (fun y => y.joined = x.joined) t) ∧
      (x.desc = d → x.list = l → x.state = 1 → asked fun t => answerIs (t.core c) x.seq.toNat 0 r true ∧ now (fun y =>
        y.joined = x.joined ++ [r] ∧
        ((∀ j, j < x.members.length → j ∈ y.joined) → y.state = 2) ∧ ((∃ j, j < x.members.length ∧ j ∉ y.joined) → y.state = 1)) t)) ∧
    (∀ (x : W) (e : Enc) (sites : List (Nat × Site)) (more : List Nat), (s.core c).ans = some x → (s.core c).wait = some ⟨.cbegin e, 0, true, sites, more⟩ →
      let status := x.toNat / 2 ^ 16 % 2 ^ 8
      ∃ t, exec (.collectiveJoinAnswer c) s = .next t ∧ answersWith s t c e (BitVec.ofNat 64 (x.toNat % 2 ^ 40)) ∧
        (x.getLsbD 63 = true → ∃ y, (t.core c).coll = some y ∧ y.shown = true ∧ y.vni = vni ∧ y.group = dGroup d ∧ y.seq = x.toNat % 2 ^ 16 ∧
          y.rank = x.toNat / 2 ^ 24 % 2 ^ 16 ∧ y.abrt = decide (status = 5) ∧ y.usable = decide (status = 0 ∨ status = 5) ∧
          y.inWords = ceilDiv (dElems d) (perIn d) ∧ y.outWords = ceilDiv (dElems d) (perOut d) ∧
          y.pushed = 0 ∧ y.popped = 0 ∧ (t.core c).inj = [] ∧ (t.core c).ext = []) ∧
        (x.getLsbD 63 = true → (status = 0 ∨ status = 5) → keep = true → ⟨addr, d, l⟩ ∈ (t.tile c.site).cbCache) ∧
        (∀ k y, x.getLsbD 63 = true → status ≠ 0 → status ≠ 5 → k ≠ c.kind → (s.core ⟨c.site, k⟩).coll = some y → y.usable = true → y.descAddr = addr →
          (t.tile c.site).cbCache = (s.tile c.site).cbCache) ∧
        (x.getLsbD 63 = false → ∀ y, (t.core c).coll = some y → y.usable = false ∧ y.shown = false))) ∧
  (∀ (s t : State) (c c' : CoreId) (d d' : List W) (l l' : List (BitVec 32)) (a a' : Nat) (k k' : Bool),
    (s.core c).req = some (.join d l a k) → (s.core c').req = some (.join d' l' a' k') →
    let v := (s.tile c.site).vni
    let v' := (s.tile c'.site).vni
    let n := (s.nextSeq v (dGroup d)).toNat
    let n' := (s.nextSeq v' (dGroup d')).toNat
    v < 4096 → v' < 4096 → (n < n' ∨ (n = n' ∧ v < v')) → exec (.collectiveJoinRequest [c]) s = .next t →
    exec (.collectiveJoinRequest [c, c']) s = exec (.collectiveJoinRequest [c']) t ∧
    exec (.collectiveJoinRequest [c', c]) s = exec (.collectiveJoinRequest [c']) t)

/-- R275, R277, R279, R280, R284: the steps of an instance. The tree takes a member's next word, and with a word of every member folds them and delivers the results;
an integer sum is exact modulo 2^64. The root aborts an instance that a member gives up or whose joining or input takes too long, naming the cause and a rank; a member
that receives the abort finds its queues empty. The decision completes the CABORT that asked for it.
The steps COLLECTIVE_RESULT, ROOT_JOIN_TIMEOUT, NODE_TIMEOUT, COLLECTIVE_ABORT_REQUEST, ABORT_RECEIPT and CABORT_DECISION complete. -/
def Obligations.CollectiveSteps : Prop :=
  (∀ (d : List W) (ws : List W), dType d = 3 → dOp d = 0 → ws ≠ [] → outWordsOf d ws 1 = [BitVec.ofNat 64 ((ws.map (·.toNat)).sum)]) ∧
  (∀ (s : State) (x : Inst) (c : CoreId) (rank : Nat) (y : Coll), x ∈ s.insts →
    (∀ z ∈ s.insts, z.vni = x.vni → z.group = x.group → z.seq = x.seq → z = x) → x.members[rank]? = some c → x.members.Nodup →
    (s.liveCore c).coll = some y → y.vni = x.vni → y.group = x.group → y.seq = x.seq.toNat → y.usable = true →
    let now := fun (t : State) => t.inst x.vni x.group x.seq.toNat
    let placed := s.live c.site = .tile c.site
    (∀ v rest, x.state = 2 → y.state = 2 → (s.liveCore c).inj = v :: rest → (s.liveCore c).ext = [] → x.contrib.length = x.members.length →
      x.contrib[rank]? = some [] → x.results = [] → x.given = [] → 0 < dElems x.desc →
      ∃ t x', exec (.collectiveResult x.vni x.group x.seq.toNat rank) s = .next t ∧ now t = some x' ∧ (t.liveCore c).inj = rest ∧
        (∃ y', (t.liveCore c).coll = some y' ∧ y'.consumed = y.consumed + 1) ∧
        ((∃ j z, j ≠ rank ∧ x.contrib[j]? = some z ∧ z = []) → x'.contrib = x.contrib.set rank [v] ∧ x'.results = [] ∧ (t.liveCore c).ext = []) ∧
        ((∀ j z, j ≠ rank → x.contrib[j]? = some z → z ≠ []) → dElems x.desc ≤ perIn x.desc →
          x'.state = 3 ∧ x'.results = outWordsOf x.desc ((x.contrib.set rank [v]).map fun l => l.headD 0) (dElems x.desc) ∧
          (t.liveCore c).ext = x'.results ∧ ∃ y', (t.liveCore c).coll = some y' ∧ y'.state = 3)) ∧
    (x.state = 5 → (s.core c).ans = none → y.state ≠ 5 → y.state ≠ 6 → ∃ t x', exec (.abortReceipt x.vni x.group x.seq.toNat rank) s = .next t ∧ now t = some x' ∧
      rank ∈ x'.aborted ∧ (t.liveCore c).inj = [] ∧ (t.liveCore c).ext = [] ∧
      (t.liveCore c).coll = some { y with state := 5, abrt := true, cause := x.cause, causeRank := x.causeRank }) ∧
    (∀ n, placed → (s.core c).req = some (.abort n) → (s.core c).ans = none →
      (x.state = 5 → ∃ t, exec (.collectiveAbortRequest c) s = .next t ∧ (t.core c).ans = some 1 ∧ t.insts = s.insts) ∧
      ((x.state = 4 ∨ (x.state = 3 ∧ dNorerun x.desc = true) ∨ x.state = 6) →
        ∃ t, exec (.collectiveAbortRequest c) s = .next t ∧ (t.core c).ans = some 2 ∧ t.insts = s.insts) ∧
      ((x.state = 1 ∨ x.state = 2 ∨ (x.state = 3 ∧ dNorerun x.desc = false)) → ∃ t x', exec (.collectiveAbortRequest c) s = .next t ∧
        (t.core c).ans = some 0 ∧ now t = some x' ∧ x'.state = 5 ∧ x'.cause = 3 ∧ x'.causeRank = y.rank)) ∧
    (∀ n e (v : W) sites more, placed → (s.core c).req = some (.abort n) → (s.core c).ans = some v →
      (s.core c).wait = some ⟨.cabort e, 0, true, sites, more⟩ →
      ∃ t, exec (.cabortDecision c) s = .next t ∧ answersWith s t c e v ∧ ∃ y', (t.core c).coll = some y' ∧
        (v = 2 → y' = y) ∧ (v ≠ 2 → y.state ≠ 5 → y.state ≠ 6 → x.state = 5 → y'.state = 5 ∧ y'.abrt = false ∧ (t.core c).inj = [] ∧ (t.core c).ext = [])) ∧
    (∀ waited, x.state = 1 → x.group < 65536 → dTimeout x.desc ≠ 0 →
      (256 * dTimeout x.desc < waited → (∃ j, j < x.members.length ∧ j ∉ x.joined) →
        ∃ t x', exec (.rootJoinTimeout x.vni x.group x.seq.toNat waited) s = .next t ∧ now t = some x' ∧ x'.state = 5 ∧ x'.cause = 1 ∧
          x'.causeRank ∉ x.joined ∧ x'.causeRank < x.members.length ∧ ∀ j, j < x'.causeRank → j ∈ x.joined) ∧
      (waited ≤ 256 * dTimeout x.desc → exec (.rootJoinTimeout x.vni x.group x.seq.toNat waited) s = .next s)) ∧
    (∀ waited, x.state = 2 → dTimeout x.desc ≠ 0 → 256 * dTimeout x.desc < waited → (∃ z ∈ x.contrib, z ≠ []) →
      let has := fun (j : Nat) => x.contrib.getD j [] ≠ [] ∨ ∃ m, x.member s j = some m ∧ (s.liveCore m).inj ≠ []
      ((∃ j, j < x.members.length ∧ ¬has j) →
        ∃ t x', exec (.nodeTimeout x.vni x.group x.seq.toNat waited) s = .next t ∧ now t = some x' ∧ x'.state = 5 ∧ x'.cause = 1 ∧
          ¬has x'.causeRank ∧ ∀ j, j < x'.causeRank → has j) ∧
      ((∀ j, j < x.members.length → has j) → exec (.nodeTimeout x.vni x.group x.seq.toNat waited) s = .next s)))

/-- R285 to R287: barriers. BARARR arrives at the next generation of its ID and gives its number, or the status of a failing check, and waits while four are outstanding;
BARWAIT and BARTRY trap on a generation not arrived at, and find an outstanding one incomplete and the last one complete with its status; BARSYNC arrives once and waits. An arrival
reaches the tree, and the last member's completes the generation for every member.
The step BARRIER_ARRIVAL completes. -/
def Obligations.BarrierForms : Prop :=
  (∀ (e : Enc) (s : State), let u := seen s
    let id := e.immHigh
    let b := u.me.bar id
    let a := u.me.g e.b
    let g := a.setWidth 16
    let puts := fun (i : Instr) (t : State) (x : W) => Completes i e s (t.modMe fun k => k.writeW e.L .g e.a x)
    let arrived := fun (t : State) (d : List W) (l : List (BitVec 32)) => t.me.bars = (u.me.setBar { b with ag := b.ag + 1, gens := b.gens ++ [b.ag] }).bars ∧
      t.me.barOut = u.me.barOut ++ [⟨id, b.ag, d, l⟩]
    (∀ i d l, (i = .bararr e ∨ (i = .barsync e ∧ u.me.arrival id = none)) → clear i s = true → id < 64 → descReads u a true d l →
      (localCheck u d l true ≠ 0 → ∃ t, Completes i e s t ∧ t.me.bars = u.me.bars ∧
        (e.L = 0 → 1 ≤ e.a → e.a < 32 → t.me.g e.a = BitVec.ofNat 64 (localCheck u d l true * 2 ^ 16))) ∧
      (localCheck u d l true = 0 → 4 ≤ b.gens.length → Waits i s 7 0) ∧
      (localCheck u d l true = 0 → b.gens.length < 4 → earlierDone u s.cur 3 = false → Waits i s (if i = .bararr e then 0 else 7) 0) ∧
      (localCheck u d l true = 0 → b.gens.length < 4 → earlierDone u s.cur 3 = true →
        (i = .bararr e → ∃ t, Completes i e s t ∧ arrived t d l ∧ (e.L = 0 → 1 ≤ e.a → e.a < 32 → t.me.g e.a = b.ag.setWidth 64)) ∧
        (i = .barsync e → ∃ t, exec i s = .next t ∧ arrived t d l ∧ t.me.blocked.kind = 7 ∧ t.me.arrival id = some b.ag ∧ t.me.pc = s.me.pc))) ∧
    (∀ i, (i = .barwait e ∨ i = .bartry e) → clear i s = true → id < 64 → (g - b.ag).toNat < 2 ^ 15 → Traps i s 0x03 (g.setWidth 64)) ∧
    (clear (.barwait e) s = true → id < 64 → 2 ^ 15 ≤ (g - b.ag).toNat → g ∈ b.gens → Waits (.barwait e) s 7 0) ∧
    (clear (.barwait e) s = true → id < 64 → 2 ^ 15 ≤ (g - b.ag).toNat → g ∉ b.gens → ∃ x : W,
      puts (.barwait e) { u with fresh := u.fresh + 1 } x ∧ x.toNat % 2 ^ 16 = g.toNat ∧
        (b.last = g → b.status < 256 → x.toNat / 2 ^ 16 % 2 ^ 8 = b.status ∧ x.toNat / 2 ^ 32 = b.rank % 2 ^ 16) ∧
        (b.last ≠ g → x.toNat / 2 ^ 16 % 2 ^ 8 = 2)) ∧
    (∀ h, clear (.barsync e) s = true → id < 64 → u.me.arrival id = some h → h ∈ b.gens → ∃ t, exec (.barsync e) s = .next t ∧ t.me.blocked.kind = 7 ∧
      t.me.arrival id = some h ∧ t.me.barOut = u.me.barOut ∧ t.me.pc = s.me.pc) ∧
    (∀ h, clear (.barsync e) s = true → id < 64 → u.me.arrival id = some h → h ∉ b.gens → ∃ t, Completes (.barsync e) e s t ∧
      t.me.arrival id = none ∧ (e.L = 0 → 1 ≤ e.a → e.a < 32 → (t.me.g e.a).toNat % 2 ^ 16 = h.toNat)) ∧
    (clear (.bartry e) s = true → id < 64 → 2 ^ 15 ≤ (g - b.ag).toNat →
      Completes (.bartry e) e s (u.modMe fun k => k.writeW e.L .p e.a (if g ∈ b.gens then 0 else BitVec.allOnes 64)))) ∧
  (∀ (c : CoreId) (s : State) (a : BarArr) (r : List BarArr), (s.liveCore c).barOut = a :: r →
    let vni := (s.liveTile c.site).vni
    (∀ ms, membersOf s vni a.desc a.members = some ms → barMembers s vni a.desc a.members = ms) ∧
    (s.barGen vni a.id a.gen = none → (∃ m ∈ barMembers s vni a.desc a.members, m ≠ c) → (∀ b ∈ s.barGens, b.vni = vni → b.id = a.id → barReady s b = false) →
      ∃ t b, exec (.barrierArrival c) s = .next t ∧ (t.liveCore c).barOut = r ∧ t.barGen vni a.id a.gen = some b ∧ b.arrived = [c] ∧ b.status = none ∧
        b.desc = a.desc ∧ b.list = a.members ∧ b.members = barMembers s vni a.desc a.members) ∧
    (∀ b, s.barGen vni a.id a.gen = some b → b.status = none → (b.desc ≠ a.desc ∨ b.list ≠ a.members) →
      ∃ t, exec (.barrierArrival c) s = .next t ∧ (t.liveCore c).barOut = r ∧ t.barGens = s.barGens) ∧
    (∀ b st, s.barGen vni a.id a.gen = some b → b.status = some st → a.gen ∈ ((s.liveCore c).bar a.id).gens →
      ∃ t, exec (.barrierArrival c) s = .next t ∧ (t.liveCore c).barOut = r ∧ ((t.liveCore c).bar a.id).last = a.gen ∧
        ((t.liveCore c).bar a.id).status = st ∧ a.gen ∉ ((t.liveCore c).bar a.id).gens) ∧
    (∀ b, s.live c.site = .tile c.site → (∀ z ∈ s.barGens, z.vni = vni → z.id = a.id → z.status = none → z = b) →
      s.barGen vni a.id a.gen = some b → b.status = none → b.desc = a.desc → b.list = a.members → b.members ≠ [] →
      (∀ m ∈ b.members, m = c ∨ m ∈ b.arrived) → (s.tile c.site).bound = true → a.gen ∈ ((s.core c).bar a.id).gens →
      (∀ y ∈ r, ¬(y.id = a.id ∧ y.gen = a.gen)) → ∃ t b', exec (.barrierArrival c) s = .next t ∧ t.barGen vni a.id a.gen = some b' ∧ b'.status = some 0 ∧
        ((t.core c).bar a.id).last = a.gen ∧ ((t.core c).bar a.id).status = 0 ∧ a.gen ∉ ((t.core c).bar a.id).gens))

/-! ### The exchange -/

namespace Sys2Proof

/-- The exchange interface of a tile, be it swapped out. -/
def xifAt (t : State) (site : Site) : Option XIf := (t.liveTile site).xif
/-- A tile's record stands at its site: it is not swapped out. -/
def placed (s : State) (site : Site) : Prop := s.live site = .tile site
/-- The entry a rank's ring takes: a PHASE entry carries its labels. -/
def entryOf (x : Exch) (rank : Nat) (y : CalEntry) : CalEntry := if y.kind = 1 then (phaseEntry x.grants rank y.phase).getD y else y
/-- The entry at the head of an interface, whose peers are other tiles. -/
def headEntry (s : State) (site : Site) (i : XIf) (y : CalEntry) (r : List CalEntry) : Prop :=
  xifAt s site = some i ∧ i.queue = y :: r ∧ i.closing = none ∧
    (y.sends = true → ∀ p, peerOf s site i y.speer = some p → Site.num p ≠ Site.num site ∧ s.live p ≠ s.live site) ∧
    (y.recvs = true → ∀ p, peerOf s site i y.rpeer = some p → Site.num p ≠ Site.num site ∧ s.live p ≠ s.live site)
/-- R302, R299: the interface of a tile once its flow core issues XNEXT. -/
def resumed (t : Tile) : Tile := { t with xif := t.xif.map fun i => { i with paused := false } }

end Sys2Proof

/-- R290, R301 to R304: DPOST answers 1 for a vector that breaks a rule of R290 and otherwise latches it and waits, blocked-on kind 8, for the arbiter. XNEXT
gives 0 where the tile has no open exchange, and otherwise pops the ring's first entry, once fewer than two wait at the interface: a PHASE entry is handed to it,
an END or LOST closes the exchange. XEND states the bytes a stream has, XSTAT reads one of four items. -/
def Obligations.ExchangeForms : Prop :=
  ∀ (e : Enc) (s : State), let u := seen s
    let a := u.me.g e.b
    let c := u.me.g e.c
    let puts := fun (i : Instr) (t : State) (x : W) => Completes i e s (t.modMe fun k => k.writeW e.L .g e.a x)
    let v := u.modHere resumed
    let mine := u.here.xif.filter (·.isOpen)
    let gets := fun (t : State) (x : W) => e.L = 0 → 1 ≤ e.a → e.a < 32 → t.me.g e.a = x
    (∀ h ps, clear (.dpost e) s = true → blockReads u a 4 h → blockReads u (a + 32) (2 * vNpair h) ps →
      (vectorBad (h ++ ps) = true → puts (.dpost e) u 1) ∧
      (vectorBad (h ++ ps) = false → exec (.dpost e) s = .next (u.modMe fun k =>
        { k with req := some (.dpost (h ++ ps)), ans := none, wait := some ⟨.dpost e, 0, true, [], []⟩ }.block 8 0 0xFFFF))) ∧
    (clear (.xnext e) s = true → mine = none → puts (.xnext e) v 0) ∧
    (∀ i, clear (.xnext e) s = true → mine = some i → (i.ring = [] ∨ 2 ≤ i.queue.length ∨ earlierDone u s.cur 1 = false ∨
        ∃ x r, i.ring = x :: r ∧ x.kind = 1 ∧ x.sends = true ∧ accessesDone u s.cur = false) →
      exec (.xnext e) s = .next (v.modMe fun k => k.block 8 0 0xFFFF)) ∧
    (∀ i x r, clear (.xnext e) s = true → mine = some i → i.ring = x :: r → i.queue.length < 2 → earlierDone u s.cur 1 = true →
      (x.kind = 1 → x.sends = true → accessesDone u s.cur = true) →
      let v := u.here.word (i.calBase + 16 * (i.popped % 2 ^ i.calLog))
      let i := { i with paused := false }
      (x.kind = 1 → ∃ t, Completes (.xnext e) e s t ∧ gets t v ∧
        t.here.xif = some { i with ring := r, queue := i.queue ++ [x], popped := i.popped + 1 }) ∧
      (x.kind = 2 → i.queue = [] → ∃ t, Completes (.xnext e) e s t ∧ gets t v ∧
        t.here.xif = some { i with ring := r, popped := i.popped + 1, ends := i.ends ++ [2], mainOver := true }) ∧
      (x.kind = 3 → i.queue = [] → ∃ t, Completes (.xnext e) e s t ∧ gets t v ∧
        t.here.xif = some { i with ring := r, popped := i.popped + 1, ends := i.ends ++ [3], isOpen := false, state := 4 }) ∧
      (x.kind = 4 → ∃ t, Completes (.xnext e) e s t ∧ gets t v ∧
        t.here.xif = some { i with ring := r, popped := i.popped + 1, ends := i.ends ++ [4], isOpen := false, state := 5 }) ∧
      ((x.kind = 2 ∨ x.kind = 3) → i.queue ≠ [] → ∃ t, exec (.xnext e) s = .next t ∧ t.me.pc = s.me.pc ∧ t.me.blocked.kind = 8 ∧
        t.here.xif = some { i with ring := r, closing := some (x, v) })) ∧
    (clear (.xend e) s = true → mine = none → puts (.xend e) u 3) ∧
    (∀ i, clear (.xend e) s = true → mine = some i → i.stream (a.toNat % 1024) (a.getLsbD 16) = none → puts (.xend e) u 3) ∧
    (∀ i x, clear (.xend e) s = true → mine = some i → i.stream (a.toNat % 1024) (a.getLsbD 16) = some x →
      let malformed := a.toNat / 2 ^ 10 % 2 ^ 6 ≠ 0 ∨ 2 ^ 17 ≤ a.toNat ∨ c.toNat % 64 ≠ 0 ∨ x.bytes < c.toNat
      (malformed → puts (.xend e) u 2) ∧
      (¬malformed → (x.last = true ∨ c.toNat < x.sent) → puts (.xend e) u 1) ∧
      (¬malformed → x.last = false → x.sent ≤ c.toNat → ∃ t, Completes (.xend e) e s t ∧ gets t 0 ∧
        ∃ j, t.here.xif = some j ∧ { j with streams := i.streams } = i ∧
          j.stream (a.toNat % 1024) (a.getLsbD 16) = some { x with actual := c.toNat })) ∧
    (clear (.xstat e) s = true → 3 < a.toNat → Traps (.xstat e) s 0x03 0) ∧
    (clear (.xstat e) s = true → a.toNat ≤ 3 → u.here.xif = none → puts (.xstat e) u 0) ∧
    (∀ i, clear (.xstat e) s = true → u.here.xif = some i → a.toNat ≤ 3 → ∃ x : W, puts (.xstat e) u x ∧
      (a = 0 → x.toNat % 2 ^ 16 = i.pP % 2 ^ 16 ∧ x.toNat / 2 ^ 16 % 2 ^ 16 = i.pP0 % 2 ^ 16 ∧ x.toNat / 2 ^ 32 % 2 ^ 16 = i.linkx % 2 ^ 16 ∧
        x.toNat / 2 ^ 48 = i.residPhases % 2 ^ 16) ∧
      (a = 1 → x.toNat = i.waste % 2 ^ 40) ∧
      (a = 2 → x.toNat % 2 ^ 16 = i.xid % 2 ^ 16 ∧ x.toNat / 2 ^ 16 % 2 ^ 16 = i.xseq % 2 ^ 16 ∧ x.toNat / 2 ^ 32 % 8 = i.state % 8 ∧
        x.getLsbD 35 = i.failover ∧ x.toNat / 2 ^ 36 = i.serving % 64) ∧
      (a = 3 → x.toNat % 2 ^ 32 = i.refused % 2 ^ 32 ∧ x.toNat / 2 ^ 32 = i.abandoned % 2 ^ 16))

/-- R289, R292, R293, R301: the arbiter. It accepts the first main post of an exchange while fewer than four are open and its device's quota admits it, and each later one
of another rank that repeats the header, planning with the last; it accepts a rank's residual post until the rank has reported MAIN_END; its answer completes
DPOST. A post waits while its arbiter has failed or reports of a former exchange are out (log 109).
A grant takes the lowest label free at every
router of its circuit under the tables in force. A rank's next entry, labels set, is written into its ring while the ring has space.
The steps DEMAND_POST_RECEIPT, DPOST_ANSWER, LABEL_ASSIGN and CALENDAR_ENTRY_DELIVERY complete.
The order of the statuses is the model's choice (log 40). -/
def Sys2Proof.ArbiterSteps : Prop :=
  (∀ (c : CoreId) (s : State) (l : List W), (s.core c).req = some (.dpost l) → placed s c.site →
    let vd := vdevNum s (s.tile c.site).vni
    let old := s.exch (vXid l) vd
    let mine := (xifAt s c.site).filter (·.isOpen)
    let idle := mine = none
    let reporting := ∃ i, xifAt s c.site = some i ∧ i.isOpen = false ∧ (i.ends ≠ [] ∨ i.phaseDone ≠ [])
    let down := match old with
      | some x => s.arbitersDown.contains x.serving
      | none => s.arbitersDown.contains (vPrimary l) && s.arbitersDown.contains (vStandby l)
    let unheard := reporting ∨ down = true
    let gives := fun (n : Nat) (P : State → Prop) => (s.core c).ans = none → ¬unheard →
      ∃ t, exec (.demandPostReceipt c) s = .next t ∧ (t.core c).ans = some (BitVec.ofNat 64 n) ∧ P t
    let full := 4 ≤ s.exchs.length ∨ xQuota s (s.tile c.site).vni ≤ s.exchs.countP (·.vdev == vd)
    (unheard → exec (.demandPostReceipt c) s = .next s) ∧
    (∀ i, vResid l = false → mine = some i → ¬(i.xid = vXid l ∧ i.xseq = vXseq l) → gives 2 fun t => t.exchs = s.exchs) ∧
    (∀ i x, vResid l = false → mine = some i → i.xid = vXid l → i.xseq = vXseq l → old = some x →
      gives (if sameExch x l then 4 else 3) fun t => t.exchs = s.exchs) ∧
    (vResid l = false → idle → old = none → full → gives 2 fun t => t.exchs = s.exchs) ∧
    (vResid l = false → idle → old = none → ¬full → 2 ≤ vNrank l → gives 0 fun t => ∃ x, t.exch (vXid l) vd = some x ∧ x.xseq = vXseq l ∧
      x.nrank = vNrank l ∧ x.serving = (if vPrimary l ∈ s.arbitersDown then vStandby l else vPrimary l) ∧ x.posts = [postOf c.site l] ∧ x.planned = false ∧
      ∃ i, xifAt t c.site = some i ∧ i.isOpen = true ∧ i.state = 1 ∧ i.rank = vRank l ∧ i.calBase = vCalBase l) ∧
    (∀ x, vResid l = false → idle → old = some x → sameExch x l = false → gives 3 fun t => t.exchs = s.exchs) ∧
    (∀ x, vResid l = false → idle → old = some x → sameExch x l = true → (∃ p ∈ x.posts, p.rank = vRank l) → gives 4 fun t => t.exchs = s.exchs) ∧
    (∀ x, vResid l = false → idle → old = some x → sameExch x l = true → (∀ p ∈ x.posts, p.rank ≠ vRank l) → x.planned = false →
      gives 0 fun t => ∃ y, t.exch (vXid l) vd = some y ∧ y.posts = x.posts ++ [postOf c.site l] ∧
        (x.posts.length + 1 = x.nrank → x.taking = false → y.planned = true) ∧ (x.posts.length + 1 ≠ x.nrank → y.planned = false)) ∧
    (vResid l = true → (∀ i, xifAt s c.site = some i → sameHead i.head l = false) → gives 3 fun t => t.exchs = s.exchs) ∧
    (∀ i, vResid l = true → xifAt s c.site = some i → sameHead i.head l = true →
      (i.mainOver = true → gives 5 fun t => t.exchs = s.exchs) ∧
      (i.mainOver = false → (i.isOpen = false ∨ exchOf s c.site i = none) → gives 3 fun t => t.exchs = s.exchs) ∧
      (∀ x, i.mainOver = false → i.isOpen = true → exchOf s c.site i = some x →
        let twice := ∃ p q, x.posts.find? (·.rank == i.rank) = some p ∧ q ∈ p.residual ∧ ∃ y ∈ vPairs l, y.1 = q.1
        (twice → gives 4 fun t => t.exchs = s.exchs) ∧
        (¬twice → gives 0 fun t => ∃ j y, xifAt t c.site = some j ∧ j.streams = i.streams ++ streamsOf true (vPairs l) ∧
          t.exch i.xid vd = some y ∧ ∀ p, x.posts.find? (·.rank == i.rank) = some p →
            ∃ q, y.posts.find? (·.rank == i.rank) = some q ∧ q.residual = p.residual ++ vPairs l))) ∧
    (∀ (x : W) (e : Enc) sites more, (s.core c).ans = some x → (s.core c).wait = some ⟨.dpost e, 0, true, sites, more⟩ →
      ∃ t, exec (.dpostAnswer c) s = .next t ∧ answersWith s t c e x)) ∧
  (∀ (xid vd : Nat) (s : State) (x : Exch), s.exch xid vd = some x → x.serving ∉ s.arbitersDown →
    (∀ g a b, x.grants.find? (fun y => y.label.isNone && !y.done) = some g → x.siteOf g.s = some a → x.siteOf g.d = some b →
      let via := (circuit s a b (s.liveTile a).vni).map (fun l => Site.num l.1) ++ [Site.num b]
      circuitUp s via = true → (∃ n, n < 256 ∧ ∀ r ∈ via, n ∉ labelsAt s r) →
      ∃ t n, exec (.labelAssign xid vd) s = .next t ∧ n < 256 ∧ (∀ r ∈ via, n ∉ labelsAt s r) ∧
        (∀ m, m < n → ∃ r ∈ via, m ∈ labelsAt s r) ∧
        t.exch xid vd = some { x with grants := mapIf x.grants (· == g) fun y => { y with label := some n, via := via } }) ∧
    (∀ rank r y site i, x.queue.find? (·.1 == rank) = some (r, y) → x.siteOf rank = some site → xifAt s site = some i → placed s site → x.lost = false →
      x.taking = false → i.serving = x.serving → (y.kind = 3 → ∀ g ∈ x.grants, g.done = true) → i.written - i.popped < 2 ^ i.calLog → Mem.wf (s.tile site).mem = true →
      (∀ g ∈ x.grants, y.kind = 1 → g.phase = y.phase → (g.s = rank ∨ g.d = rank) → g.done = false → g.label.isSome = true) →
      let z := entryOf x rank y
      let at_ := i.calBase + 16 * (i.written % 2 ^ i.calLog)
      ∃ t, exec (.calendarEntryDelivery xid vd rank) s = .next t ∧ (t.tile site).word at_ = z.w0 ∧ (t.tile site).word (at_ + 8) = z.w1 ∧
        (∀ j, j < at_ ∨ at_ + 16 ≤ j → Mem.byteAt (t.tile site).mem j = Mem.byteAt (s.tile site).mem j) ∧
        ∃ k, xifAt t site = some k ∧ k.ring = i.ring ++ [z] ∧ k.written = i.written + 1))

/-- R291: the plan of the main round of an exchange whose ranks have all posted and whose streams fit. In each phase no rank sends twice, none receives twice, and no two grants use
a link; a stream's grants sum to its bytes, each a quantum or what is left; in each phase, ranks in ascending order, a rank with bytes left for a destination that no lower
rank sends to, over links that no lower rank uses, sends to the one with the most quanta left, ties to the smallest (d - s) mod NRANK. LINKX is what P exceeds P0 by, and
P0 is P where no two streams share a link. -/
def Sys2Proof.PlanOfAnExchange : Prop :=
  ∀ (s : State) (x : Exch), s.exch x.xid x.vdev = some x → x.mainFull = none → (x.posts.map (·.rank)).Nodup →
    (∀ r, r < x.nrank → ∃ p ∈ x.posts, p.rank = r) → (∀ p ∈ x.posts, p.rank < x.nrank ∧ destsDistinct p.pairs = true ∧ ∀ y ∈ p.pairs, y.1 < x.nrank) →
    ∃ z, (planMain s x).exch x.xid x.vdev = some z ∧ z.planned = true ∧
      let q := 2 ^ (13 + x.qlog)
      let links := fun (a b : Nat) => match x.siteOf a, x.siteOf b with
        | some u, some v => circuit s u v (s.liveTile u).vni
        | _, _ => []
      let shared := fun (a b c d : Nat) => ∃ k, k ∈ links a b ∧ k ∈ links c d
      let given := fun (a b ph : Nat) => ((z.grants.filter fun g => g.s == a && g.d == b && decide (g.phase < ph)).map (·.bytes)).sum
      let far := fun (a b : Nat) => (b + x.nrank - a) % x.nrank
      (∀ g ∈ z.grants, g.phase < z.pP ∧ g.label = none ∧ g.done = false) ∧ (∀ ph, ph < z.pP → ∃ g ∈ z.grants, g.phase = ph) ∧
      (∀ g ∈ z.grants, ∀ h ∈ z.grants, g.phase = h.phase → (g.s = h.s ∨ g.d = h.d ∨ shared g.s g.d h.s h.d) → g = h) ∧
      (∀ p ∈ x.posts, ∀ y ∈ p.pairs, given p.rank y.1 z.pP = y.2.1) ∧
      (∀ g ∈ z.grants, ∃ p ∈ x.posts, ∃ y ∈ p.pairs, g.s = p.rank ∧ g.d = y.1 ∧ g.bytes = min q (y.2.1 - given g.s g.d g.phase)) ∧
      (∀ p ∈ x.posts, ∀ y ∈ p.pairs, ∀ ph, ph < z.pP → given p.rank y.1 ph < y.2.1 →
        (∃ h ∈ z.grants, h.phase = ph ∧ h.s < p.rank ∧ (h.d = y.1 ∨ shared p.rank y.1 h.s h.d)) ∨
        ∃ h ∈ z.grants, ∃ v ∈ p.pairs, h.phase = ph ∧ h.s = p.rank ∧ h.d = v.1 ∧
          let mine := (v.2.1 - given p.rank v.1 ph + q - 1) / q
          let other := (y.2.1 - given p.rank y.1 ph + q - 1) / q
          other < mine ∨ (other = mine ∧ far p.rank v.1 ≤ far p.rank y.1)) ∧
      z.linkx = z.pP - z.pP0 ∧
      ((∀ p ∈ x.posts, ∀ y ∈ p.pairs, ∀ p' ∈ x.posts, ∀ y' ∈ p'.pairs, (p.rank, y.1) ≠ (p'.rank, y'.1) → ¬shared p.rank y.1 p'.rank y'.1) →
        z.pP0 = z.pP)

/-- R292, R294 to R297, R302: a phase at the interfaces of its ranks. Its start sends READY to the peer that will send; a READY lets a rank send the bytes that the
grant allows and the stream still has, with an end marker; the marker's bytes are stored, with the poison they carry (R398), at the stream's place in the receive buffer, with a row of the table behind the last
of them. With both parts done the entry is complete and is reported; MAIN_END of every rank plans the residual round, and END of every rank closes the exchange.
The steps EXCHANGE_PHASE_START, READY_RECEIPT, END_MARKER_ARRIVAL, PHASE_COMPLETION_REPORT and MAIN_END_REPORT complete.
That READY comes with the entry's start and the bytes with their marker (log 39) and which pre-emption pauses an interface (log 94) are the model's choice. -/
def Obligations.PhaseSteps : Prop :=
  (∀ (site : Site) (s : State) (i : XIf) (y : CalEntry) (r : List CalEntry), headEntry s site i y r →
    let resid := residPhase s site i y.phase i.rank
    let g := y.w1.toNat % 2 ^ 32
    let popped := fun (t : State) => ∃ j, xifAt t site = some j ∧ j.queue = r ∧ j.phaseDone = i.phaseDone ++ [y.phase] ∧ j.started = false
    let stays := fun (t : State) (P : XIf → Prop) => ∃ j, xifAt t site = some j ∧ j.queue = i.queue ∧ P j
    (i.paused = true → exec (.exchangePhaseStart site) s = .next s) ∧
    (i.paused = false → i.started = false → i.sendDone = false → i.recvDone = false → (y.sends = true ∨ y.recvs = true) →
      ∃ t, exec (.exchangePhaseStart site) s = .next t ∧ stays t (fun j => j.started = true ∧ y.phase < j.top ∧
        ∀ x, y.sends = true → i.stream y.speer resid = some x →
          j.stream y.speer resid = some { x with granted := x.granted + g, last := x.last || decide (x.bytes ≤ x.granted + g) }) ∧
        (∀ p k, y.recvs = true → peerOf s site i y.rpeer = some p → xifAt s p = some k →
          xifAt t p = some { k with readies := k.readies ++ [(y.phase, i.rank)] })) ∧
    (∀ x p k, i.started = true → i.sendDone = false → y.sends = true → (y.phase, y.speer) ∈ i.readies →
      i.stream y.speer resid = some x → peerOf s site i y.speer = some p → xifAt s p = some k →
      let n := Nat.min g (x.actual - x.sent)
      ∃ t, exec (.readyReceipt site) s = .next t ∧
        (circuitCut s site i y.phase p = none →
          xifAt t p = some { k with markers := k.markers ++ [⟨y.phase, i.rank, resid, Mem.bytes (s.tile site).mem (x.src + x.sent) n,
            (s.tile site).badWords (x.src + x.sent) n, x.sent + n, x.last, []⟩] }) ∧
        (∀ a check, circuitCut s site i y.phase p = some (a, check) → xifAt t p = some k ∧ ∃ h, .quarantine a h check ∈ t.reports) ∧
        (y.recvs = true → i.recvDone = false → stays t (fun j => j.sendDone = true ∧ j.waste = i.waste + (g - n) ∧
          j.stream y.speer resid = some { x with sent := x.sent + n })) ∧
        ((y.recvs = false ∨ i.recvDone = true) → popped t)) ∧
    (∀ m, i.started = true → i.recvDone = false → y.recvs = true → i.markers.find? (fun m => m.phase == y.phase && m.src == y.rpeer) = some m →
      placed s site → Mem.wf (s.tile site).mem = true → m.data.length % 8 = 0 →
      let row := if m.resid then i.nrank + m.src else m.src
      let off := (lookup i.rxOff row).getD 0
      let a := i.rxBase + off + (lookup i.rxGot row).getD 0
      let stores := fun (t : State) (P : Nat → Bool) => ∀ b, Mem.byteAt (t.tile site).mem b =
        if a ≤ b ∧ b < a + m.data.length ∧ P ((b - a) / 8) = true ∧ (b - a) / 8 ∉ m.written then m.data.getD (b - a) 0
        else Mem.byteAt (s.tile site).mem b
      (∀ words, let t := phaseWords s site words
        stores t (fun j => words.contains j) ∧
        xifAt t site = some { i with markers := mapIf i.markers (· == m) fun y => { y with written := y.written ++ words } }) ∧
      ∃ t, exec (.endMarkerArrival site) s = .next t ∧ (m.final = false → stores t fun _ => true) ∧
        (m.final = false → m.written = [] → a % 8 = 0 → (∀ j ∈ m.bad, 8 * j < m.data.length) → ∀ j, 8 * j < m.data.length →
          ((t.tile site).bad (a + 8 * j) = true ↔ j ∈ m.bad)) ∧
        (m.final = true → ((t.tile site).word (i.rxTab + 8 * row)).toNat = m.total % 2 ^ 32 + off % 2 ^ 22 * 2 ^ 32 + 2 ^ 63) ∧
        (y.sends = true → i.sendDone = false → stays t (fun j => j.recvDone = true)) ∧
        ((y.sends = false ∨ i.sendDone = true) → popped t))) ∧
  (∀ (site : Site) (s : State) (i : XIf) (x : Exch), xifAt s site = some i → exchOf s site i = some x →
    let ex := fun (t : State) => t.exch i.xid (vdevNum s (s.liveTile site).vni)
    (∀ p r, i.phaseDone = p :: r → ∃ t y, exec (.phaseCompletionReport site) s = .next t ∧ ex t = some y ∧ xifAt t site = some { i with phaseDone := r } ∧
      y.grants.length = x.grants.length ∧ (∀ g ∈ y.grants, g.phase = p → g.d = i.rank → g.done = true) ∧
      (∀ g ∈ x.grants, (g.phase ≠ p ∨ g.d ≠ i.rank) → g ∈ y.grants)) ∧
    (∀ r, i.ends = 2 :: r → ∃ t y, exec (.mainEndReport site) s = .next t ∧ ex t = some y ∧ y.mainEnds = x.mainEnds ++ [i.rank] ∧
      ((∀ n, n < x.nrank → n ∈ y.mainEnds) → y.residPlanned = true) ∧ ((∃ n, n < x.nrank ∧ n ∉ y.mainEnds) → y.residPlanned = x.residPlanned)) ∧
    (∀ k r, i.ends = k :: r → k ≠ 2 → ∃ t, exec (.mainEndReport site) s = .next t ∧
      ((∀ n, n < x.nrank → n ∈ x.ends ++ [i.rank]) → ex t = none) ∧
      ((∃ n, n < x.nrank ∧ n ∉ x.ends ++ [i.rank]) → ∃ y, ex t = some y ∧ y.ends = x.ends ++ [i.rank])))

/-- R298, R299: failover. A standby that has received none for 48 microseconds takes over; each rank then abandons what was
handed over and not started, lets the started entry complete and reports the grants it completed; with every report the standby plans the rest, its phases numbered above every
one that a rank has started. A rank whose interface stands in another exchange has nothing more to report and keeps what it has there. With both arbiters failed the home island writes LOST into the rings.
The steps HEARTBEAT, TAKEOVER, TAKEOVER_RECEIPT, LOST_ENTRY_WRITE and GRANT_REPORT complete.
What becomes of a post whose primary has failed is the model's choice (log 89). -/
def Sys2Proof.FailoverSteps : Prop :=
  ∀ (xid vd : Nat) (s : State) (x : Exch), s.exch xid vd = some x →
    (x.serving ∉ s.arbitersDown → ∃ t, exec (.heartbeat xid vd) s = .next t ∧ t.exch xid vd = some { x with beat := x.beat + 1 }) ∧
    (x.serving ∈ s.arbitersDown → exec (.heartbeat xid vd) s = .next s) ∧
    (∀ waited, 48000 ≤ waited → x.hasStandby = true → x.standby ∉ s.arbitersDown → ∃ t y, exec (.takeover xid vd waited) s = .next t ∧ t.exch xid vd = some y ∧
      y.serving = x.standby ∧ y.hasStandby = false ∧ y.taking = true ∧ y.queue = [] ∧ y.grants = x.grants) ∧
    (∀ waited, (waited < 48000 ∨ x.hasStandby = false ∨ x.standby ∈ s.arbitersDown) → exec (.takeover xid vd waited) s = .next s) ∧
    (∀ rank site i, x.siteOf rank = some site → xifAt s site = some i → x.has i = false → x.taking = true → rank ∉ x.reports →
      (∃ n, n < x.nrank ∧ n ∉ x.reports ++ [rank]) → ∃ t y, exec (.grantReport xid vd rank) s = .next t ∧ t.exch xid vd = some y ∧
        y.reports = x.reports ++ [rank] ∧ y.grants = x.grants ∧ xifAt t site = some i) ∧
    (∀ rank site i, x.siteOf rank = some site → xifAt s site = some i → i.closing = none → x.has i = true →
      (x.taking = true → rank ∉ x.reports → i.failover = false →
        ∃ t j, exec (.takeoverReceipt xid vd rank) s = .next t ∧ xifAt t site = some j ∧ j.ring = [] ∧ j.failover = true ∧ j.serving = x.serving ∧
          j.queue = i.queue.take (if i.started then 1 else 0) ∧ j.popped = i.written ∧
          j.abandoned = i.abandoned + (i.queue.length - (if i.started then 1 else 0)) + i.ring.length) ∧
      (x.taking = true → rank ∉ x.reports → i.serving = x.serving → i.failover = true → i.ring = [] → i.queue = [] →
        ∃ t y, exec (.grantReport xid vd rank) s = .next t ∧ t.exch xid vd = some y ∧
          ((∃ n, n < x.nrank ∧ n ∉ x.reports ++ [rank]) → y.taking = true ∧ y.reports = x.reports ++ [rank] ∧
            ∀ p ∈ i.phaseDone, ∀ g ∈ y.grants, g.phase = p → g.d = rank → g.done = true) ∧
          ((∀ n, n < x.nrank → n ∈ x.reports ++ [rank]) → y.taking = false ∧ y.planned = true) ∧
          ((∀ n, n < x.nrank → n ∈ x.reports ++ [rank]) → x.planned = true → x.mainFull = none →
            ∀ g ∈ y.grants, g.done = false → ∀ p ∈ x.posts, ∀ j, xifAt s p.site = some j → x.has j = true → j.top ≤ g.phase))) ∧
    (∀ site i, xifAt s site = some i → i.isOpen = true → exchOf s site i = some x → placed s site → x.serving ∈ s.arbitersDown →
      (x.hasStandby = false ∨ x.standby ∈ s.arbitersDown) → (∀ z ∈ i.ring, z.kind ≠ 4) →
      ∃ t j z, exec (.lostEntryWrite site) s = .next t ∧ xifAt t site = some j ∧ j.ring = [z] ∧ z.kind = 4 ∧ j.state = 5 ∧
        j.abandoned = i.abandoned + i.ring.length)

/-! ### Capabilities, keys and contexts -/

/-- R342 to R344, R349 to R355: CAPMOV copies a capability register; CAPREST clears the mask bits that g[c] lacks and nothing else; CAPLD and CAPST move one to and from 16 bytes
of memory; CAPMINT seals a new one of the tile's own region under the current key that its interface holds; CAPINFO reports on one; CAPREVOKE asks for a key change and waits; WAKE and HALTC are
injected under their right and complete; one that must stall has passed its checks; INSPECT waits for its answer. The kind of a wait for the home island is the model's choice
(log 28), and of a poisoned pair the marks of CAPLD (log 42).
That INSPECT checks its capability before its item is the model's choice (log 34). -/
def Sys2Proof.CapabilityForms : Prop :=
  ∀ (e : Enc) (s : State), let u := seen s
    let cap := u.me.capReg e.b
    let m := u.me.g e.c
    let takes := fun (i : Instr) (x : Cap) => Completes i e s (u.modMe fun k => k.write e.L .c e.a (x.setWidth 512))
    let a := u.me.g e.b + BitVec.ofInt 64 (e.immS .rr * 16)
    (clear (.capmov e) s = true → takes (.capmov e) cap) ∧
    (clear (.caprest e) s = true → m.toNat < 16 → ∃ x : Cap, takes (.caprest e) x ∧ ∀ j, j < 128 →
      x.getLsbD j = (cap.getLsbD j && (decide (j < 68 ∨ 72 ≤ j) || m.getLsbD (j - 68)))) ∧
    (clear (.caprest e) s = true → 16 ≤ m.toNat → Traps (.caprest e) s 0x03 m) ∧
    (∀ site o, clear (.capld e) s = true → a.toNat % 16 = 0 → blockAt u a 2 false (run site o 2) →
      let bad := fun (j : Nat) => (u.tile site).badWords (o + 8 * j) 8 ≠ []
      (¬bad 0 → ¬bad 1 → takes (.capld e) ((u.tile site).word (o + 8) ++ (u.tile site).word o)) ∧
      ((bad 0 ∨ bad 1) → ∃ marks, marks ≠ [] ∧ (∀ x ∈ marks, x.1 < 2 ∧ bad x.1 ∧ x.2 = a + BitVec.ofNat 64 (8 * x.1)) ∧
        Completes (.capld e) e s (u.modMe fun k =>
          k.write e.L .c e.a (((u.tile site).word (o + 8) ++ (u.tile site).word o).setWidth 512) marks))) ∧
    (∀ site o, clear (.capst e) s = true → a.toNat % 16 = 0 → blockAt u a 2 true (run site o 2) → Mem.wf (u.tile site).mem = true →
      ∃ t, Completes (.capst e) e s t ∧ t.me = u.me ∧ (t.tile site).word (o + 8) ++ (t.tile site).word o = u.me.capReg e.a ∧
      (∀ b, b < o ∨ o + 16 ≤ b → Mem.byteAt (t.tile site).mem b = Mem.byteAt (u.tile site).mem b) ∧
      ∀ z, Site.num z ≠ Site.num site → t.tile z = u.tile z) ∧
    (∀ i w, (i = .capld e ∧ w = false) ∨ (i = .capst e ∧ w = true) → clear i s = true →
      (a.toNat % 16 ≠ 0 → Traps i s 0x09 a) ∧
      (∀ c, a.toNat % 16 = 0 → addrFault u a.toNat 8 w false = some c → Traps i s c a)) ∧
    (∀ x : Nat, x = (u.me.g e.b).toNat % 2 ^ 52 + u.here.vni % 4096 * 2 ^ 52 →
      let fits := x / 2 ^ 40 % 2 ^ 12 = 0 ∧ x % 2 ^ 10 = 0 ∧ x / 2 ^ 22 % 4 ≠ 3 ∧ x / 2 ^ 16 % 64 ≤ x / 2 ^ 10 % 64 ∧ x / 2 ^ 24 % 2 ^ 16 < 0x4000
      (clear (.capmint e) s = true → 16 ≤ m.toNat → Traps (.capmint e) s 0x03 m) ∧
      (clear (.capmint e) s = true → m.toNat < 16 → ¬fits → Traps (.capmint e) s 0x03 (BitVec.ofNat 64 x)) ∧
      (clear (.capmint e) s = true → m.toNat < 16 → fits → ∃ y : Cap, takes (.capmint e) y ∧ y.toNat % 2 ^ 64 = x ∧ crights y = m.toNat ∧
        cmask y = m.toNat ∧ cseal y = sealOf (u.keysOf u.here.vni (some s.cur.site)).1 y.toNat)) ∧
    (clear (.capinfo e) s = true → ∃ x : W, Completes (.capinfo e) e s (u.modMe fun k => k.writeW e.L .g e.a x) ∧
      let ok := sealCheck u s.cur.site cap
      x.getLsbD 0 = formed cap ∧ x.getLsbD 1 = ok.isSome ∧ x.getLsbD 2 = (ok == some true) ∧ x.getLsbD 3 = (cvni cap == 0) ∧
      (∀ j, j < 4 → x.getLsbD (4 + j) = (ok.isSome && cright cap j)) ∧
      x.toNat / 2 ^ 8 = (if ok.isSome = true ∧ cvni cap ≠ 0 ∧ cname cap < 0x4000 then (resolve u.here (cname cap)).code else 0)) ∧
    (clear (.caprevoke e) s = true → 1 < (u.me.g e.b).toNat → Traps (.caprevoke e) s 0x03 0) ∧
    (clear (.caprevoke e) s = true → (u.me.g e.b).toNat ≤ 1 → exec (.caprevoke e) s = .next (u.modMe fun k =>
      { k with req := some (.caprevoke (u.me.g e.b).toNat), ans := none, wait := some ⟨.caprevoke e, 0, true, [], []⟩ }.block 11 0 0xFFFF)) ∧
    (∀ (i : Instr) (right : Nat) (body : Body), (i = .wake e ∧ right = 1 ∧ body = .wake) ∨
        (i = .haltc e ∧ right = 2 ∧ body = .haltc (BitVec.ofNat 32 (m.toNat % 2 ^ 31 + 2 ^ 31))) ∨
        (i = .inspect e ∧ right = 3 ∧ body = .inspect m.toNat ∧ m.toNat ≤ 3) → clear i s = true → capOk u cap right none = true →
      (canInject u 4 (cname cap) (capKind cap) 0 body → ∃ u', inject u s.cur 4 (cname cap) (capKind cap) 0 body = some u' ∧
        (right < 3 → Completes i e s u') ∧ (right = 3 → exec i s = .next (asked u i (cname cap) u'))) ∧
      (inject u s.cur 4 (cname cap) (capKind cap) 0 body = none →
        exec i s = .next ((u.modMe Core.passed).modMe fun k => k.block 10 0 0xFFFF))) ∧
    (clear (.inspect e) s = true → capOk u cap 3 none = true → 3 < m.toNat → Traps (.inspect e) s 0x03 0) ∧
    (∀ i right cause, (i = .wake e ∧ right = 1) ∨ (i = .haltc e ∧ right = 2) ∨ (i = .inspect e ∧ right = 3) → clear i s = true →
      hasPassed u.me = false → capCheck u s.cur.site cap right none = some cause → Traps i s cause (BitVec.ofNat 64 (e.b % 16)))

/-- R343, R346, R352: a key change for a region of which a core has asked for it: the current key becomes the previous one, or, for PURGE, a new key takes that place; the
answer is 1 for another core of the region that asked meanwhile, and 0 for the core it serves once every interface of the region holds the new keys; one that does
not has the old pair. That the interfaces take them one by one, in any order, is the model's reading (log 24).
The steps KEY_CHANGE and CAPREVOKE_ANSWER complete. -/
def Sys2Proof.KeySteps : Prop :=
  (∀ (vni : Nat) (k1 k2 : BitVec 256) (s : State) (r : Region), s.region vni = some r →
    (∀ c m, r.revoking = none → r.late = [] → firstRevoker s vni = some (c, m) → (m = 1 → k1 ≠ k2) → ∃ t r', exec (.keyChange vni k1 k2) s = .next t ∧
      t.region vni = some r' ∧ r'.keyCur = k1 ∧ r'.keyPrev = (if m = 0 then r.keyCur else k2) ∧ r'.revoking = some c ∧ t.tiles = s.tiles ∧
      r'.late = s.tilesOf vni ∧ (vni ≠ 0 → ∀ x ∈ r'.late, t.keysOf vni (some x) = (r.keyCur, r.keyPrev))) ∧
    (∀ x, vni ≠ 0 → ∃ r', (keysTaken s vni x).region vni = some r' ∧ x ∉ r'.late ∧ (keysTaken s vni x).keysOf vni (some x) = (r.keyCur, r.keyPrev) ∧
      ∀ y, y ≠ x → (keysTaken s vni x).keysOf vni (some y) = s.keysOf vni (some y)) ∧
    (∀ c, r.revoking = some c → exec (.keyChange vni k1 k2) s = .next s)) ∧
  (∀ (c d : CoreId) (e : Enc) (s : State) (r : Region) (m : Nat) sites more, s.region (s.tile c.site).vni = some r → r.revoking = some d →
    (s.core c).req = some (.caprevoke m) → (s.core c).ans = none → (s.core c).wait = some ⟨.caprevoke e, 0, true, sites, more⟩ →
    (c = d → r.late ≠ [] → exec (.caprevokeAnswer c) s = .next s) ∧
    ((c = d → r.late = []) → ∃ t r', exec (.caprevokeAnswer c) s = .next t ∧ t.region (s.tile c.site).vni = some r' ∧ r'.keyCur = r.keyCur ∧ r'.keyPrev = r.keyPrev ∧
      (c = d → answersWith s t c e 0 ∧ r'.revoking = none) ∧ (c ≠ d → answersWith s t c e 1 ∧ r'.revoking = some d)))

/-- R376 to R379, R386: CTXSAVE writes the 704 words of the core's context image once its results have arrived; CTXLOAD ends the activation and gives the core the registers of
an image of its own kind; XBOUND moves the code window to bounds that are multiples of 64 within user memory and cross no enabled ring; MIGR asks the home island, whose answer
completes it.
The steps MIGR_REQUEST and MIGR_ANSWER complete.
Blocked-on kind 0 of the waits (log 28), that a bad image is refused with nothing written (log 41), which bits of an image are loaded (log 91) and the targets of MIGR (log 68) are the model's choice. -/
def Obligations.ContextForms : Prop :=
  (∀ (e : Enc) (s : State), let u := seen s
    let a := u.me.g e.b
    (∀ i, (i = .ctxsave e ∨ i = .ctxload e) → clear i s = true → a.toNat % 64 ≠ 0 → Traps i s 0x09 a) ∧
    (∀ i w j c, (i = .ctxsave e ∧ w = true) ∨ (i = .ctxload e ∧ w = false) → clear i s = true → a.toNat % 64 = 0 → j < 704 →
      (∀ k, k < j → addrFault u (a + BitVec.ofNat 64 (8 * k)).toNat 8 w false = none) →
      addrFault u (a + BitVec.ofNat 64 (8 * j)).toNat 8 w false = some c → Traps i s c (a + BitVec.ofNat 64 (8 * j))) ∧
    (∀ site o, clear (.ctxsave e) s = true → a.toNat % 64 = 0 → blockAt u a 704 true (run site o 704) →
      (u.me.lowSusp = true → Traps (.ctxsave e) s 0x03 0) ∧
      (u.me.lowSusp = false → (u.me.vq ≠ [] ∨ u.me.outst ≠ []) → Waits (.ctxsave e) s 0 0) ∧
      (u.me.lowSusp = false → u.me.vq = [] → u.me.outst = [] → Mem.wf (u.tile site).mem = true → ∃ t, Completes (.ctxsave e) e s t ∧
        (u.me.coll = none → t.me = u.me.settleV (some u.me.pos)) ∧ t.me.lo.g = u.me.lo.g ∧ t.me.hi.g = u.me.hi.g ∧ t.me.ctl = u.me.ctl ∧
        let word := fun (j : Nat) => (t.tile site).word (o + j)
        (∀ j, j < 704 → word (8 * j) = (contextWords t.here s.cur.kind).getD j 0) ∧
        word 0 = BitVec.ofNat 64 (0x104358 + s.cur.kind.code * 2 ^ 16) ∧
        (∀ n, 1 ≤ n → n < 32 → word (0x40 + 8 * n) = vget u.me.lo.g n ∧ word (0x140 + 8 * n) = vget u.me.hi.g n) ∧
        (∀ n, n < 64 → word (0x1200 + 8 * n) = vget u.me.ctl.task n ∧ word (0x1400 + 8 * n) = vget u.me.ctl.ring n) ∧
        ∀ b, b < o ∨ o + 0x1600 ≤ b → Mem.byteAt (t.tile site).mem b = Mem.byteAt (u.tile site).mem b)) ∧
    (∀ l, clear (.ctxload e) s = true → a.toNat % 64 = 0 → blockAt u a 704 false l →
      let ws := l.map (wordOf u)
      let bad := fun (p : Site × Nat) => (u.tile p.1).badWords p.2 8 ≠ []
      let magic := (ws.getD 0 0).toNat % 2 ^ 24 = 0x104358 + s.cur.kind.code * 2 ^ 16
      (bad (l.headD (s.cur.site, 0)) → Traps (.ctxload e) s 0x19 a) ∧
      (¬bad (l.headD (s.cur.site, 0)) → ¬magic → Traps (.ctxload e) s 0x03 (ws.getD 0 0)) ∧
      (¬bad (l.headD (s.cur.site, 0)) → magic → committed (closeOut u) = true → mayFree (closeOut u) = true →
      let v := freeRecord (closeOut u) s.cur u.me.lev
      quietCore v s.cur = true → resultsDone v.me = true → ∃ t, exec (.ctxload e) s = .next t ∧
        t.me.lo.act = none ∧ t.me.hi.act = none ∧ t.me.halted = (ws.getD 114 0).getLsbD 33 ∧
        (∀ n, n < 32 → vget t.me.lo.g n = ws.getD (8 + n) 0 ∧ vget t.me.hi.g n = ws.getD (40 + n) 0) ∧
        (∀ n, n < 8 → vget t.me.lo.p n = ws.getD (72 + n) 0 ∧ vget t.me.hi.p n = ws.getD (80 + n) 0) ∧
        (∀ n i, n < 16 → i < 8 → (vget t.me.v n).extractLsb' (64 * i) 64 = ws.getD (128 + 8 * n + i) 0) ∧
        (∀ n, n < 16 → t.me.capReg n = ws.getD (257 + 2 * n) 0 ++ ws.getD (256 + 2 * n) 0) ∧
        t.me.ctl.fpMode.toNat = (ws.getD 96 0).toNat % 2 ^ 4 ∧ t.me.ctl.fpFlags.toNat = (ws.getD 97 0).toNat % 2 ^ 5 ∧
        t.me.ctl.seed.toNat = (ws.getD 98 0).toNat % 2 ^ 32 ∧ t.me.ctl.trapScratch = ws.getD 107 0 ∧
        t.me.lo.lat.toNat = (ws.getD 88 0).toNat % 2 ^ 47 ∧ t.me.hi.lat.toNat = (ws.getD 92 0).toNat % 2 ^ 47 ∧
        (∀ n, n < 64 → vget t.me.ctl.ring n = ringFields (ws.getD (640 + n) 0)))) ∧
    (∀ lo hi, lo = u.me.g e.b → hi = u.me.g e.c → clear (.xbound e) s = true →
      let fine := lo.toNat % 64 = 0 ∧ hi.toNat % 64 = 0 ∧ lo.toNat ≤ 0x002C0000 ∧ hi.toNat ≤ 0x002C0000 ∧ ringsOverlap u.here lo.toNat hi.toNat = false
      (fine → ∃ t, Completes (.xbound e) e s t ∧ t.me = { u.me with ctl := { u.me.ctl with codeBase := lo, xbound := hi } }) ∧
      (¬fine → Traps (.xbound e) s 0x03 0)) ∧
    (clear (.migr e) s = true → exec (.migr e) s = .next (u.modMe fun k =>
      { k with req := some .migr, ans := none, wait := some ⟨.migr e, 0, true, [], []⟩ }.block 0 0 0xFFFF))) ∧
  (∀ (c : CoreId) (s : State), (s.core c).req = some .migr →
    let x := s.tile c.site
    let free := ∃ n, n < 126 * 126 ∧ siteOf n ≠ c.site ∧ freeTile s x.vni (siteOf n) = true
    let busy := (x.stopped || x.moving || x.hold || x.fwd.isSome || x.viaOnly.isSome || (s.region x.vni).any (·.stalled)) = true
    let gives := fun (policy : Bool) (n : Nat) => (s.core c).ans = none → ∃ t, exec (.migrRequest c policy) s = .next t ∧
      (t.core c).ans = some (BitVec.ofNat 64 n)
    (∀ p, ¬free → gives p 1) ∧ (∀ p, free → busy → gives p 2) ∧ (free → ¬busy → gives false 3) ∧ (free → ¬busy → gives true 0) ∧
    (∀ (x : W) (e : Enc) sites more, (s.core c).ans = some x → (s.core c).wait = some ⟨.migr e, 0, true, sites, more⟩ →
      ∃ t, exec (.migrAnswer c) s = .next t ∧ answersWith s t c e x))

/-! ### Launches -/

namespace Sys2Proof

/-- R183: the islands own some regions of edge memory, and nothing waits for them. -/
def islandOwns (s : State) (rs : List Nat) : Prop := ∀ r ∈ rs, (s.own r).owner = .island ∧ (s.own r).waiting = []
/-- R255: a completion record can be written at `d`, which is the place of a launch's DONEADDR. -/
def canComplete (s : State) (q : QCtx) (done : W) (d : Nat × Bool) : Prop :=
  translate s q.pasid done.toNat true = some d ∧ islandOwns s (regionsOf d 16) ∧ Mem.wf s.edge = true ∧ Mem.wf s.hostMem = true
/-- R255: the 16 bytes of a completion record stand at `d`. -/
def recordAt (t : State) (d : Nat × Bool) (seq : W) (status code : Nat) : Prop :=
  t.ebytes d 16 = leBytes 8 seq.toNat ++ leBytes 4 status ++ leBytes 4 code
/-- The launch of a context, and its placement. -/
def launching (s : State) (ctx : Nat) (q : QCtx) (l : Launch) (p : Place) : Prop :=
  s.launch ctx = some l ∧ s.qctx ctx = some q ∧ s.placeOf l = some p ∧ p.swapped = false
/-- The words of a launch packet. -/
def packetAt (s : State) (p : Nat × Bool) : List W := (List.range 8).map fun i => BitVec.ofNat 64 (leNat (s.ebytes (p.1 + 8 * i, p.2) 8))

end Sys2Proof

/-- R255, R320, R321: a doorbell moves TAIL, but for one further ahead than the ring is long, which sets ERR; VEN is written as it stands. The island takes the packet at HEAD
of a context with no launch under way and moves HEAD on: a well-formed one for a known placement becomes the context's launch; one that is malformed completes at
once with code 1; one whose DONEADDR is bad is reported.
The steps QDOOR_WRITE, QINFO_VEN_WRITE and LAUNCH_PACKET_TAKE complete. -/
def Sys2Proof.LaunchPackets : Prop :=
  ∀ (ctx : Nat) (s : State) (q : QCtx), s.qctx ctx = some q →
    (∀ v : W, let tail : BitVec 16 := BitVec.ofNat 16 (v.toNat % 2 ^ 16)
      (2 ^ q.k < (tail - q.head).toNat → ∃ t, exec (.qdoorWrite ctx v) s = .next t ∧ t.qctx ctx = some { q with err := true }) ∧
      ((tail - q.head).toNat ≤ 2 ^ q.k → ∃ t, exec (.qdoorWrite ctx v) s = .next t ∧
        t.qctx ctx = some { q with tail := tail, err := q.err && !v.getLsbD 32 })) ∧
    (∀ ven, ∃ t, exec (.qinfoVenWrite ctx ven) s = .next t ∧ t.qctx ctx = some { q with ven := ven }) ∧
    (∀ p, q.head ≠ q.tail → s.launch ctx = none → translate s q.pasid (q.base + 64 * (q.head.toNat % 2 ^ q.k)) false = some p →
      islandOwns s (regionsOf p 64) → s.ebad p 64 = [] →
      let l := packetAt s p
      let takes := fun (P : State → Prop) => ∃ t, exec (.launchPacketTake ctx) s = .next t ∧ t.qctx ctx = some { q with head := q.head + 1 } ∧ P t
      let good := packetBad l = false ∧ launchCores (l.getD 0 0) ≠ [] ∧ (s.findPlace q.vdev ((l.getD 0 0).toNat % 2 ^ 16)).isSome = true
      (doneBad (l.getD 4 0) = true → takes fun t => t.launches = s.launches ∧ t.reports = s.reports ++ [.launchNotRecorded ctx (l.getD 3 0)]) ∧
      (doneBad (l.getD 4 0) = false → good → takes fun t => ∃ x, t.launch ctx = some x ∧ x.place = (l.getD 0 0).toNat % 2 ^ 16 ∧
        x.ch = launchCores (l.getD 0 0) ∧ x.seq = l.getD 3 0 ∧ x.doneaddr = l.getD 4 0 ∧ x.args = s.ebytes (p.1 + 8, p.2) 16 ∧
        x.admitted = false ∧ x.ends = [] ∧ x.count = 0 ∧ x.err = 0) ∧
      (∀ d, doneBad (l.getD 4 0) = false → ¬good → canComplete s q (l.getD 4 0) d → takes fun t => t.launches = s.launches ∧
        recordAt t d (l.getD 3 0) 0 1))

/-- R256 to R258: a launch is admitted once no other placement holds its tiles and no earlier launch waits for them: every tile then holds its image, its code windows and the
windows of its cluster; where an image would put a ring where none may be, it ends BAD_DESC (log 83). Its message then reaches each tile after the tile's parent in the launch tree: an enabled core with a handler for the channel gets it and ends its halt, any other ends its part with 0x80; the
interface writes the message into the ring when there is room.
The steps PLACEMENT_ADMISSION and LAUNCH_MESSAGE_DELIVERY complete. -/
def Sys2Proof.LaunchSteps : Prop :=
  ∀ (ctx : Nat) (s : State) (q : QCtx) (l : Launch) (p : Place), launching s ctx q l p →
    (∀ d, l.admitted = false → placeFree s p = true → overtakes s l p = false → canComplete s q l.doneaddr d →
      (∃ x ∈ s.placeTiles p, ringsClear ((loadPlace s p).tile x) = false) →
      ∃ t, exec (.placementAdmission ctx) s = .next t ∧ t.launch ctx = none ∧ recordAt t d l.seq 0 1 ∧ t.tiles = s.tiles) ∧
    (l.admitted = false → placeFree s p = true → overtakes s l p = false → (∀ x ∈ s.placeTiles p, ringsClear ((loadPlace s p).tile x) = true) →
      ((p.clusters.flatMap id).map (·.1)).Nodup →
      (∀ n m x y, s.siteOfName p.vni n = some x → s.siteOfName p.vni m = some y → Site.num x = Site.num y → n = m) →
      ∃ t, exec (.placementAdmission ctx) s = .next t ∧ (∃ x, t.launch ctx = some x ∧ x.admitted = true) ∧
        (∀ x ∈ t.places, x.vdev = p.vdev → x.num = p.num → x.admitted = some ctx) ∧
        ∀ cl ∈ p.clusters, ∀ m ∈ cl, ∀ site, s.siteOfName p.vni m.1 = some site → s.gone site = false →
          (t.tile site).cluster = windowsOf s p cl ∧ (t.tile site).left = [] ∧ (t.tile site).stopped = false ∧
          ∀ i, lookup p.images m.1 = some i → Mem.wf (s.tile site).mem = true → (i.bytes.map (·.1)).Nodup →
            (∀ b ∈ i.bytes, Mem.byteAt (t.tile site).mem b.1 = b.2) ∧
            (∀ a, (∀ b ∈ i.bytes, b.1 ≠ a) → Mem.byteAt (t.tile site).mem a = Mem.byteAt (s.tile site).mem a) ∧
            ∀ kind, ((t.tile site).core kind).ctl.codeBase = BitVec.ofNat 64 (i.window kind).1 ∧
              ((t.tile site).core kind).ctl.xbound = BitVec.ofNat 64 (i.window kind).2) ∧
    (∀ site y, l.admitted = true → parentIn s q p site = some y → y ∉ l.sent → exec (.launchMessageDelivery ctx site) s = .next s) ∧
    (∀ site, l.admitted = true → site ∉ l.sent → site ∈ s.placeTiles p → (∀ y, parentIn s q p site = some y → y ∈ l.sent) →
      (∀ x ∈ l.ch, ((s.tile site).core x.1).heldLaunch = []) →
      (l.ch.map (·.1)).Nodup → ∃ t x, exec (.launchMessageDelivery ctx site) s = .next t ∧ t.launch ctx = some x ∧ x.sent = l.sent ++ [site] ∧
        ∀ y ∈ l.ch, let k := (s.tile site).core y.1
          let k' := (t.tile site).core y.1
          (ringEn (k.ring y.2) = true → (∃ d, k'.heldLaunch = [(y.2, d, l.args)] ∧ d.toNat % 2 ^ 12 = 16 ∧ d.getLsbD 14 = true) ∧
            k'.halted = false) ∧
          (k.isHandler y.2 = true → k'.launch = some ctx) ∧
          (k.isHandler y.2 = false → ⟨site, y.1⟩ ∈ x.ends ∧ 0x80 ≤ x.err % 256))

/-- R243, R258: a held launch message is written at the tail of its ring as soon as it fits; while it does not, it stays held.
The step LAUNCH_MESSAGE_WRITE completes.
That a ring disabled while its message is held counts as no handler channel is the model's choice (log 50). -/
def Sys2Proof.LaunchMessages : Prop :=
  ∀ (c : CoreId) (s : State) (chan : Nat) (d : W) (pl : List Byte) (rest : List (Nat × W × List Byte)),
    (s.core c).heldLaunch = (chan, d, pl) :: rest →
    let r := (s.core c).ring chan
    let need := ceilDiv (16 + pl.length) 64
    let pad := if ringProd r % ringGran r + need > ringGran r then ringGran r - ringProd r % ringGran r else 0
    let a := ringAddr r (ringProd r + pad)
    (ringEn r = true → need ≤ ringGran r → pad + need ≤ ringFree r → Mem.wf (s.tile c.site).mem = true →
      ∃ t, exec (.launchMessageWrite c) s = .next t ∧ (t.core c).heldLaunch = rest ∧ (t.tile c.site).word a = d ∧
        (∀ j, j < pl.length → Mem.byteAt (t.tile c.site).mem (a + 16 + j) = pl.getD j 0) ∧
        ringProd ((t.core c).ring chan) = (ringProd r + pad + need) % 65536) ∧
    (ringEn r = true → need ≤ ringGran r → ringFree r < pad + need → exec (.launchMessageWrite c) s = .next s) ∧
    (ringEn r = false → ∃ t, exec (.launchMessageWrite c) s = .next t ∧ (t.core c).heldLaunch = rest ∧ (t.core c).launch = none ∧
      (t.tile c.site).mem = (s.tile c.site).mem)

/-- R255, R259, R260, R418: the end of a launch. The members of a cluster leave their windows together, once each has ended its part. A tile that has left sends its status word, after the tiles below it in the launch tree; with
the last one the record is written, with the sum of the counts and the union of the codes, and the placement is free; a launch that has lost a tile sends none and ends by tear-down
(R390). Tear-down stops the tiles, ends what runs and, once nothing is on its
way, halts the cores and writes the record with status 0x8000_0000 and code 2.
The steps CLUSTER_LEAVE, LAUNCH_STATUS_WORD and PLACEMENT_TEARDOWN complete. -/
def Obligations.LaunchEnds : Prop :=
  ∀ (ctx : Nat) (s : State) (q : QCtx) (l : Launch) (p : Place) (d : Nat × Bool), launching s ctx q l p → canComplete s q l.doneaddr d →
    let closed := fun (t : State) => t.launch ctx = none ∧ ∀ x ∈ t.places, x.vdev = p.vdev → x.num = p.num → x.admitted = none
    let ts := s.placeTiles p
    (∀ place n cl, s.placeNo place = some p → p.admitted = some ctx → p.clusters[n]? = some cl →
      let sites := clusterTiles s p cl
      ((∀ x ∈ sites, arrived l x = true) → ∃ t, exec (.clusterLeave place n) s = .next t ∧
        ∀ x ∈ sites, ∀ w ∈ (t.tile x).cluster, w.1 ∈ (t.tile x).left) ∧
      ((∃ x ∈ sites, arrived l x = false) → exec (.clusterLeave place n) s = .next s)) ∧
    (∀ site y, y ∈ ts → parentIn s q p y = some site → y ∉ l.tiles → exec (.launchStatusWord ctx site) s = .next s) ∧
    (l.doomed = true → ∀ site, exec (.launchStatusWord ctx site) s = .next s) ∧
    (∀ site, l.doomed = false → site ∉ l.tiles → site ∈ ts → partOver s l site = true → (∀ y ∈ ts, parentIn s q p y = some site → y ∈ l.tiles) →
      ((∀ x ∈ ts, x = site ∨ x ∈ l.tiles) → ∃ t, exec (.launchStatusWord ctx site) s = .next t ∧ closed t ∧
        recordAt t d l.seq (l.count % 2 ^ 24 + l.err % 256 * 2 ^ 24) 0) ∧
      ((∃ x ∈ ts, x ≠ site ∧ x ∉ l.tiles) → ∃ t, exec (.launchStatusWord ctx site) s = .next t ∧
        t.launch ctx = some { l with tiles := l.tiles ++ [site] })) ∧
    (∀ place, s.placeNo place = some p → p.admitted = some ctx →
      ((∃ x ∈ s.pkts, x.src.site ∈ ts ∧ owned x = true) → ∃ t, exec (.placementTeardown place) s = .next t ∧ t.launches = s.launches ∧
        ∀ x ∈ ts, (t.tile x).stopped = true ∧ (t.tile x).torn = true ∧ ∀ k, ((t.tile x).core k).lo.act = none ∧ ((t.tile x).core k).hi.act = none) ∧
      ((∀ x ∈ ts, ∀ k, ((s.tile x).core k).lo.act = none ∧ ((s.tile x).core k).hi.act = none ∧ quietCore s ⟨x, k⟩ = true) →
        (∀ x ∈ s.engines, x.site ∉ ts) → ∃ t, exec (.placementTeardown place) s = .next t ∧ closed t ∧ recordAt t d l.seq 0x80000000 2 ∧
        ∀ x ∈ ts, (t.tile x).stopped = false ∧ (t.tile x).torn = false ∧ ∀ k, ((t.tile x).core k).halted = true))

/-! ### Regions, virtual devices and moving tiles -/

/-- R257, R339, R340, R345, R346, R356, R269: what islands and system software do to regions. Binding a working tile of no region resets it, gives it its name and writes the name into the map of every tile
of the region; a region's first tile brings its keys. Unbinding resets it and takes its name away. A transit bit is set at any time, and cleared once nothing of the region is left. An entry of a map is written as it
is given, and reported where it differed. A virtual device holds its resources alone: rectangles do not overlap, its regions' tiles stand in its own, its contexts and PASIDs are
bound for no other, and its edge memory is no other's (R358); there are 8,192 queue contexts. An evaluation counts the rounds in which nothing moved, and reports a stall once.
The steps REGION_BIND, REGION_UNBIND, TRANSIT_TABLE_WRITE, BINDING_MAP_WRITE, QUIESCENCE_EVALUATION and VIRTUAL_DEVICE_BIND complete.
That the threshold is counted in evaluations and comes with the step is the model's choice (log 52). -/
def Obligations.RegionSteps : Prop :=
  (∀ (site : Site) (vni name : Nat) (key prev : BitVec 256) (s : State), site.x < 126 → site.y < 126 →
    ((s.booted = false ∨ vni = 0 ∨ (s.tile site).bound = true ∨ s.gone site = true ∨ inVdev s vni site = false) →
      exec (.regionBind site vni name key prev) s = .next s) ∧
    (s.booted = true → 0 < vni → vni < 4096 → name < 0x4000 → (s.tile site).bound = false → s.gone site = false → inVdev s vni site = true →
      s.siteOfName vni name = none → s.image vni name = none → ∃ t, exec (.regionBind site vni name key prev) s = .next t ∧
      (t.tile site).bound = true ∧ (t.tile site).vni = vni ∧ (t.tile site).name = name ∧
      ((t.tile site).logX, (t.tile site).logY) = s.coords vni site ∧ (∀ a, a < 0x002C0000 → Mem.byteAt (t.tile site).mem a = 0) ∧
      t.siteOfName vni name = some site ∧ (s.region vni = none → ∃ r, t.region vni = some r ∧ r.keyCur = key ∧ r.keyPrev = prev) ∧
      ∀ u : Site, u.x < 126 → s.gone u = false → (t.tile u).bound = true → (t.tile u).vni = vni → (t.tile u).fwd = none →
        resolve (t.tile u) name = .bound site) ∧
    ((s.tile site).bound = true → inUse s site = false → s.siteOfName (s.tile site).vni (s.tile site).name = some site →
      s.image (s.tile site).vni (s.tile site).name = none → ∃ t, exec (.regionUnbind site) s = .next t ∧ (t.tile site).bound = false ∧
      (t.tile site).router = (s.tile site).router ∧ (∀ a, a < 0x002C0000 → Mem.byteAt (t.tile site).mem a = 0) ∧
      t.siteOfName (s.tile site).vni (s.tile site).name = none ∧ ∀ x ∈ t.engines, x.site = site → x.away.isSome = true) ∧
    (((s.tile site).bound = false ∨ inUse s site = true) → exec (.regionUnbind site) s = .next s) ∧
    (0 < vni → vni < 4096 →
      (∃ t, exec (.transitTableWrite site vni true) s = .next t ∧ ∀ v, v ∈ (t.tile site).router.transit ↔ v = vni ∨ v ∈ (s.tile site).router.transit) ∧
      (s.region vni = none → (∀ p ∈ s.pkts, p.vni ≠ vni) → ∃ t, exec (.transitTableWrite site vni false) s = .next t ∧
        ∀ v, v ∈ (t.tile site).router.transit ↔ v ≠ vni ∧ v ∈ (s.tile site).router.transit) ∧
      ((s.region vni).isSome = true → exec (.transitTableWrite site vni false) s = .next s)) ∧
    (∀ (entry : BitVec 16) d, Machine.entryOf entry.toNat = .bound d → noTile s d = true → exec (.bindingMapWrite site name entry) s = .next s) ∧
    (∀ entry : BitVec 16, (s.tile site).bound = true → name < 0x4000 → Mem.wf (s.tile site).mem = true →
      (∀ d, Machine.entryOf entry.toNat = .bound d → noTile s d = false) →
      ∃ t, exec (.bindingMapWrite site name entry) s = .next t ∧ Mem.load (t.tile site).mem (mapAddr name) 2 = entry.toNat ∧
        (∀ a, a ≠ mapAddr name → a ≠ mapAddr name + 1 → Mem.byteAt (t.tile site).mem a = Mem.byteAt (s.tile site).mem a) ∧
        ((s.tile site).fwd = none → t.reports = if Mem.load (s.tile site).mem (mapAddr name) 2 = mapEntry s (s.tile site).vni name then s.reports
          else s.reports ++ [.mapDiffers site]))) ∧
  (∀ (d : VDev) (s : State), let i := Instr.virtualDeviceBind d.num d.x0 d.y0 d.cols d.rows d.vnis d.ctxs d.pasids d.engines d.quotas d.xquota
    let disjoint := fun (x : VDev) => x.x0 + x.cols ≤ d.x0 ∨ d.x0 + d.cols ≤ x.x0 ∨ x.y0 + x.rows ≤ d.y0 ∨ d.y0 + d.rows ≤ x.y0
    let shared := ∃ x ∈ s.vdevs, x.num = d.num ∨ (∃ v ∈ x.vnis, v ∈ d.vnis) ∨ (∃ v ∈ x.ctxs, v ∈ d.ctxs) ∨ (∃ v ∈ x.pasids, v ∈ d.pasids) ∨
      (∃ v ∈ x.engines, v ∈ d.engines) ∨ ¬disjoint x
    let outside' := ∃ v ∈ d.vnis, ∃ u ∈ s.tilesOf v, ∀ x y, logOf s.dead u = some (x, y) → x < d.x0 ∨ d.x0 + d.cols ≤ x ∨ y < d.y0 ∨ d.y0 + d.rows ≤ y
    let mixed := (∃ q ∈ s.qctxs, q.num ∈ d.ctxs ∧ q.pasid ∉ d.pasids) ∨
      ∃ e ∈ s.engines, ¬(e.num ∈ d.engines ↔ e.vni s ∈ d.vnis) ∨ (e.num ∈ d.engines ∧ e.pasid ∉ d.pasids)
    let full := 8192 < (s.vdevs.map fun x => x.ctxs.length).sum + d.ctxs.length
    (shared ∨ outside' ∨ mixed ∨ full ∨ apart { s with vdevs := s.vdevs ++ [d] } = false → exec i s = .next s) ∧
    (¬shared → ¬outside' → ¬mixed → ¬full → apart { s with vdevs := s.vdevs ++ [d] } = true →
      d.num < 1024 → d.xquota ≤ 4 → d.quotas.length = d.vnis.length → d.vnis ≠ [] → (∀ q ∈ d.quotas, q ≤ 16) → 0 < d.cols → 0 < d.rows → d.x0 + d.cols ≤ Config.logicalCols →
      d.y0 + d.rows ≤ Config.logicalRows → (∀ v ∈ d.vnis, 0 < v ∧ v < 4096) → (∀ n ∈ d.engines, n < 4096) →
      d.vnis.Nodup → d.ctxs.Nodup → d.pasids.Nodup → d.engines.Nodup → ∃ t, exec i s = .next t ∧ t.vdevs = s.vdevs ++ [d] ∧
      (∀ q ∈ t.qctxs, q.num ∈ d.ctxs → q.vdev = d.num) ∧
      ∀ (j v : Nat), d.vnis[j]? = some v → ∀ r ∈ t.regions, r.vni = v → some r.quota = d.quotas[j]?)) ∧
  (∀ (vni threshold : Nat) (s : State) (r : Region), s.region vni = some r →
    let q := if quietNow s vni then r.quiet + 1 else 0
    let raises := 2 + threshold ≤ q ∧ r.raised = false ∧ workLeft s vni = true
    ∃ t, exec (.quiescenceEvaluation vni threshold) s = .next t ∧
      t.region vni = some { r with quiet := q, raised := decide raises || (r.raised && decide (q ≠ 0)) } ∧
      (∀ u ∈ s.tilesOf vni, (t.tile u).activity = false) ∧
      t.reports = if raises then s.reports ++ [.regionStall vni (s.records vni)] else s.reports)

/-- R383 to R386: a pre-emption stops the placement's tiles and, once each is quiet, saves them and marks their names SWAPPED; a swap-in gives every saved tile back, at the site named for it. A migration
marks the name MOVING, saves the tile once it is quiet, and puts it at the new site, its engine contexts bound anew where that has another home island, to which the old one forwards until nothing injected for the old one is unacknowledged.
The steps PREEMPTION_SWAP_OUT, SWAP_IN, MIGRATION and FORWARDING_CLOSED complete.
What belongs to the site (log 69), that a started entry completes first (log 70), that bounced packets are not counted (log 72) and where a saved tile lies (log 81) are the model's choice. -/
def Obligations.MoveSteps : Prop :=
  (∀ (place island : Nat) (s : State) (p : Place), s.placeNo place = some p → p.swapped = false → island < 64 →
    let ts := s.placeTiles p
    (∀ x ∈ ts, (s.tile x).moving = false ∧ (s.tile x).hold = false ∧ (s.tile x).fwd = none ∧ (s.tile x).viaOnly = none) →
    let areas := (List.range ts.length).flatMap (areaOf p)
    (((∃ x ∈ ts, tileQuiet s x = false ∨ xQuiet s x = false) ∨ ∃ r ∈ areas, (s.own r).side ≠ some true) → ∃ t, exec (.preemptionSwapOut place island) s = .next t ∧
      t.saved = s.saved ∧ ∀ x ∈ ts, (t.tile x).stopped = true) ∧
    ((∀ x ∈ ts, tileQuiet s x = true ∧ xQuiet s x = true) → (∀ r ∈ areas, (s.own r).owner = .fabric) → (ts.map fun x => (s.tile x).name).Nodup →
      (∀ x ∈ ts, s.image p.vni (s.tile x).name = none) → ∃ t, exec (.preemptionSwapOut place island) s = .next t ∧
      (∀ x ∈ t.places, x.vdev = p.vdev → x.num = p.num → x.swapped = true) ∧ ∀ x ∈ ts, (t.tile x).hold = true ∧ (t.tile x).stopped = true ∧
        ∃ y, t.image p.vni (s.tile x).name = some y ∧ y.island = island ∧ y.place = p.num ∧
          ∀ a, a < 0x002C0000 → Mem.byteAt y.tile.mem a = Mem.byteAt (s.tile x).mem a)) ∧
  (∀ (place : Nat) (sites : List Site) (s : State) (p : Place), s.placeNo place = some p → p.swapped = true →
    sites.length = (placeNames s p).length → sites.Nodup → (∀ x ∈ (placeNames s p).zip sites, takes s p.vni x.1.1 x.1.2 x.2 = true) →
    let room := ctxRoom s p.vni (fun n e => e.away == some (p.vni, n)) (((placeNames s p).zip sites).map fun x => (x.1.1, x.2))
    (room = false → exec (.swapIn place sites) s = .next s) ∧ (room = true →
    (∀ x ∈ placeNames s p, ∀ y, s.image p.vni x.1 = some y → ∀ r ∈ y.regs, (s.own r).owner = .fabric) →
    ((∃ t, exec (.swapIn place sites) s = .next t ∧ (∀ x ∈ t.places, x.vdev = p.vdev → x.num = p.num → x.swapped = false) ∧
      ∀ x ∈ placeNames s p, t.image p.vni x.1 = none) ∧
    (∀ name old d y, placeNames s p = [(name, old)] → sites = [d] → (Site.num old = Site.num d → old = d) → s.image p.vni name = some y →
      ∃ t, exec (.swapIn place sites) s = .next t ∧ t.siteOfName p.vni name = some d ∧ (t.tile d).bound = true ∧ (t.tile d).name = name ∧
        (t.tile d).stopped = false ∧ (t.tile d).hold = false ∧
        ∀ a, a < 0x002C0000 → Mem.byteAt (t.tile d).mem a = Mem.byteAt y.tile.mem a)))) ∧
  (∀ (a b : Site) (s : State), let x := s.tile a
    x.bound = true → x.fwd = none → x.viaOnly = none → s.image x.vni x.name = none → s.gone a = false → Site.num a ≠ Site.num b → b.x < 126 →
    b.y < 126 → x.name < 0x4000 → freeTile s x.vni b = true → (∃ r, s.region x.vni = some r ∧ r.stalled = false) →
    (x.moving = false → ∃ t, exec (.migration a b) s = .next t ∧ (t.tile a).moving = true ∧ (t.tile a).stopped = true) ∧
    (x.moving = true → x.hold = false → tileQuiet s a = true → xQuiet s a = true → ∃ t, exec (.migration a b) s = .next t ∧ (t.tile a).hold = true) ∧
    (x.moving = true → x.hold = false → (tileQuiet s a = false ∨ xQuiet s a = false) → exec (.migration a b) s = .next s) ∧
    (x.moving = true → x.hold = true → ctxRoom s x.vni (fun _ e => e.site == a && e.away.isNone) [(x.name, b)] = false → exec (.migration a b) s = .next s) ∧
    (x.moving = true → x.hold = true → ctxRoom s x.vni (fun _ e => e.site == a && e.away.isNone) [(x.name, b)] = true → ∃ t, exec (.migration a b) s = .next t ∧
      t.siteOfName x.vni x.name = some b ∧ (t.tile b).bound = true ∧ (t.tile b).name = x.name ∧ (t.tile b).viaOnly = some a ∧
      ((∀ y ∈ s.engines, y.site ≠ b) → ∀ y ∈ t.engines, y.site = b → y.away = none → y.num / 64 = homeNum b) ∧
      (t.tile b).stopped = false ∧ (t.tile a).fwd = some b ∧ resolve (t.tile a) x.name = .forwarded b ∧
      ∀ j, j < 0x002C0000 → Mem.byteAt (t.tile b).mem j = Mem.byteAt x.mem j)) ∧
  (∀ (a b : Site) (s : State), let x := s.tile a
    x.fwd = some b → Site.num a ≠ Site.num b →
    let open_ := ∃ p ∈ s.pkts, p.vni = x.vni ∧ isReply p.body = false ∧ p.name = x.name ∧ p.state ≠ 1 ∧ (p.dst = a ∨ p.fwd = true)
    (open_ → exec (.forwardingClosed a) s = .next s) ∧
    (¬open_ → ∃ t, exec (.forwardingClosed a) s = .next t ∧ (t.tile a).bound = false ∧ (t.tile a).fwd = none ∧
      ((s.tile b).viaOnly = some a → (t.tile b).viaOnly = none) ∧ (t.tile b).mem = (s.tile b).mem))

/-! ### Ethernet ports and island services -/

namespace Sys2Proof

/-- The rule of a port. -/
def ruleAt (s : State) (port idx : Nat) : Option Rule := (s.port port).bind (·.rule idx)
/-- R309: the rule that takes a frame: the first enabled one, in index order, whose tests it passes, with the payload it delivers. -/
def takenBy (p : EthPort) (f : List Byte) : Option (Rule × List Byte) :=
  p.rules.findSome? fun r => if r.en then (r.take f).map fun pl => (r, pl) else none
/-- R374: a core waits for the answer to an ECALL. -/
def asksIsland (s : State) (c : CoreId) (svc : Nat) (arg : W) : Prop := (s.core c).req = some (.ecall svc arg) ∧ (s.core c).ans = none
/-- R374: the island has answered. -/
def islandGives (i : Instr) (s : State) (c : CoreId) (x : W) (P : State → Prop) : Prop :=
  ∃ t, exec i s = .next t ∧ (t.core c).ans = some x ∧ P t

end Sys2Proof

/-- R309, R310, R312, R313, R316: a frame at a port. A bad check sequence is counted; a frame that no rule takes goes to the operating system's queue; one that a tile rule takes is numbered and written into its ring as a record
of an ingest header and the payload, or, where that is closed, full or too small for it, dropped and counted without a trace in the tile; at a tile whose router does not permit its
region, or of another region, it is quarantined (R340, R341).
The step FRAME_RECEIVE completes.
That a delivery takes the counter's value before it is incremented (log 53) and that last beats are events of the schedule (log 96) are the model's choice. -/
def Sys2Proof.FramesReceived : Prop :=
  ∀ (n : Nat) (f : List Byte) (s : State) (p : EthPort), s.port n = some p →
    (∀ fcs, fcs ≠ fcsOf f → ∃ t, exec (.frameReceive n f fcs) s = .next t ∧ t.port n = some { p with fcsErrors := p.fcsErrors + 1 }) ∧
    (takenBy p f = none → ∃ t, exec (.frameReceive n f (fcsOf f)) s = .next t ∧ t.port n = some { p with osQueue := p.osQueue ++ [f], tickets := p.tickets.filter (·.1 != f) }) ∧
    (∀ r pl, takenBy p f = some (r, pl) → r.edge = false →
      let ticket := p.tickets.find? (·.2.1 == r.idx)
      let seq := match ticket with
        | some y => y.2.2
        | none => (lookup s.seqctrs r.seqctr).getD 0
      let counted := fun (t : State) => if ticket = none then lookup t.seqctrs r.seqctr = some ((seq + 1) % 2 ^ 48) else t.seqctrs = s.seqctrs
      let turn := ∀ y, ticket = some y → y.1 = f
      (¬turn → s.image (cvni r.cap) (cname r.cap) = none → ∃ t, exec (.frameReceive n f (fcsOf f)) s = .next t ∧ t.tiles = s.tiles ∧ t.seqctrs = s.seqctrs) ∧
      (turn → 2040 < pl.length → s.image (cvni r.cap) (cname r.cap) = none → ∃ t, exec (.frameReceive n f (fcsOf f)) s = .next t ∧ counted t ∧ t.tiles = s.tiles) ∧
      (∀ site, turn → pl.length ≤ 2040 → s.image (cvni r.cap) (cname r.cap) = none → s.siteOfName (cvni r.cap) (cname r.cap) = some site → s.gone site = false →
        let k := (s.tile site).core (capKind r.cap)
        let ring := k.ring r.chan
        let need := ceilDiv (24 + pl.length) 64
        let pad := if ringProd ring % ringGran ring + need > ringGran ring then ringGran ring - ringProd ring % ringGran ring else 0
        let a := ringAddr ring (ringProd ring + pad)
        let transit := cvni r.cap ∈ (s.tile site).router.transit
        (¬transit ∨ (s.tile site).vni ≠ cvni r.cap → ∃ t h, exec (.frameReceive n f (fcsOf f)) s = .next t ∧ counted t ∧ t.tiles = s.tiles ∧
          t.reports = s.reports ++ [.quarantine site h (if (s.tile site).router.transit.contains (cvni r.cap) then 2 else 1)]) ∧
        (transit → (s.tile site).vni = cvni r.cap → ringEn ring = true → need ≤ ringGran ring → pad + need ≤ ringFree ring → Mem.wf (s.tile site).mem = true →
          ∃ t, exec (.frameReceive n f (fcsOf f)) s = .next t ∧ counted t ∧ ((t.tile site).word a).toNat % 2 ^ 12 = (8 + pl.length) % 2 ^ 12 ∧
            ((t.tile site).word (a + 16)).toNat = seq % 2 ^ 48 + n % 32 * 2 ^ 48 + r.idx % 256 * 2 ^ 56 ∧
            (∀ j, j < pl.length → Mem.byteAt (t.tile site).mem (a + 24 + j) = pl.getD j 0) ∧
            ringProd (((t.tile site).core (capKind r.cap)).ring r.chan) = (ringProd ring + pad + need) % 65536) ∧
        (transit → (s.tile site).vni = cvni r.cap → (ringEn ring = false ∨ ringGran ring < need ∨ ringFree ring < pad + need) →
          ∃ t, exec (.frameReceive n f (fcsOf f)) s = .next t ∧ counted t ∧ t.tiles = s.tiles)))

/-- R308, R312, R315, R318: the rest of a port. Setting EN in a tile rule makes the checks of R308, and a rule that fails one stays disabled with its ERR counter advanced; a sequence counter that the rule
of one region uses is no other region's (R359; that its first rule binds it is the model's choice, log 111); a pause is repeated every 20 microseconds while the ring stays above
LOWAT; the engine reads the consume word and believes it where it lies between the bytes it knew freed and those it has written; a peer's pause holds back its priority, of which otherwise the oldest frame is sent with its
check sequence.
The steps XOFF_REPEAT, CONSUME_WORD_REREAD, INGRULE_ENABLE, PEER_PAUSE_RECEIVE and EGRESS_TRANSMIT complete.
That the checks of a rule are made with the write of EN is the model's choice (log 55). -/
def Sys2Proof.PortSteps : Prop :=
  ∀ (n : Nat) (s : State) (p : EthPort), s.port n = some p →
    (∀ idx (w0 : W) cap (w3 e0 e1 e2 : W), idx < 256 → w0.getLsbD 60 = false →
      let mine := (∀ x ∈ s.regions, x.vni = cvni cap ∨ w0.toNat / 2 ^ 54 % 64 ∉ x.seqctrs) ∧
        ∀ q ∈ s.ports, ∀ x ∈ q.rules, x.en = true → cvni x.cap = cvni cap ∨ x.seqctr ≠ w0.toNat / 2 ^ 54 % 64
      (w0.getLsbD 0 = true → ¬mine → ∃ t, exec (.ingruleEnable n idx w0 cap w3 e0 e1 e2) s = .next t ∧ t.ports = s.ports) ∧
      ((w0.getLsbD 0 = true → mine) → ∃ t r, exec (.ingruleEnable n idx w0 cap w3 e0 e1 e2) s = .next t ∧
      ruleAt t n idx = some r ∧ r.cap = cap ∧ r.chan = w3.toNat % 64 ∧ (∀ j, 1 ≤ j → j < 61 → r.w0.getLsbD j = w0.getLsbD j) ∧
      (w0.getLsbD 0 = false → r.en = false) ∧
      (w0.getLsbD 0 = true → (r.en = true ↔ capCheckIn s (cvni cap) cap 0 (some r.chan) none = none ∧ (r.fcen = true → r.lowat < r.hiwat) ∧
        (r.w0.getLsbD 4 = true → r.w0.getLsbD 3 = true)) ∧
        (r.en = false → r.err = ((ruleAt s n idx).map (·.err)).getD 0 + 1) ∧
        (∀ x ∈ t.regions, r.en = true → x.vni = cvni cap → r.seqctr ∈ x.seqctrs)))) ∧
    (∀ idx r waited, p.rule idx = some r → r.paused = true → 20 ≤ waited → r.lowat < ruleOcc s r →
      ∃ t, exec (.xoffRepeat n idx waited) s = .next t ∧ t.port n = some { p with sentPause := p.sentPause ++ [(r.prio, 0xFFFF)] }) ∧
    (∀ idx r waited, p.rule idx = some r → (r.paused = false ∨ waited < 20 ∨ ruleOcc s r ≤ r.lowat) → exec (.xoffRepeat n idx waited) s = .next s) ∧
    (∀ idx r at_, p.rule idx = some r → r.en = true → r.edge = true → etranslate s r.pasid r.cword false = some at_ →
      (∀ x ∈ regionsOf at_ 8, (s.own x).owner = .fabric ∧ (s.own x).waiting = []) →
      let v := leNat (s.ebytes at_ 8)
      ∃ t x, exec (.consumeWordReread n idx) s = .next t ∧ ruleAt t n idx = some x ∧ x.prod = r.prod ∧
        (r.cons ≤ v → v ≤ r.prod → x.cons = v ∧ x.err = r.err) ∧ ((v < r.cons ∨ r.prod < v) → x.cons = r.cons ∧ x.err = r.err + 1)) ∧
    (∀ prio quanta, ∃ t x, exec (.peerPauseReceive n prio quanta) s = .next t ∧ t.port n = some x ∧
      (prio % 8 ∈ x.pausedPrio ↔ quanta % 65536 ≠ 0) ∧ ∀ j, j ≠ prio % 8 → (j ∈ x.pausedPrio ↔ j ∈ p.pausedPrio)) ∧
    (∀ prio f pre post, prio ∉ p.pausedPrio → p.egress = pre ++ (prio, f) :: post → (∀ x ∈ pre, x.1 ≠ prio) →
      ∃ t, exec (.egressTransmit n prio) s = .next t ∧ t.port n = some { p with egress := pre ++ post, sent := p.sent ++ [f ++ leBytes 4 (fcsOf f).toNat] }) ∧
    (∀ prio, prio ∈ p.pausedPrio → ∃ t, exec (.egressTransmit n prio) s = .next t ∧ t.port n = some p)

/-- R374, R375, R323, R407: the island services. The answer completes the ECALL; an unknown service gives all ones, and a block that is not where its issuer may have it all ones but bit 0. VERSION gives the firmware level. A clock plan takes for
each domain the highest permitted frequency up to its target, or names the first domain that has none, or a bad list; GET gives the plan in force. GATEWAY writes the capability of a port of the virtual device, whose tiles then
know its name. STORAGE moves bytes of an object, the parts of a range that lie in one page each in turn, or gives IOERR where the object's device fails. ATTEST writes the report with the nonce it was given and the measurements.
The steps ECALL_ANSWER, ECALL_VERSION, ECALL_CLOCK_SET, ECALL_CLOCK_GET, ECALL_GATEWAY, ECALL_STORAGE and ECALL_ATTEST complete.
The order of the failures of CLOCK_SET (log 58) and of STORAGE (log 60) and who writes the gateway table (log 59) are the model's choice. -/
def Sys2Proof.IslandServices : Prop :=
  ∀ (c : CoreId) (s : State) (a : W), Mem.wf (s.tile c.site).mem = true →
    let mem := fun (t : State) => (t.tile c.site).mem
    let x := s.tile c.site
    (∀ svc e v sites more, (s.core c).req = some (.ecall svc a) → (s.core c).ans = some v → (s.core c).wait = some ⟨.ecall e, 0, true, sites, more⟩ →
      ∃ t, exec (.ecallAnswer c) s = .next t ∧ answersWith s t c e v) ∧
    (∀ svc e sites more, asksIsland s c svc a → svc ∉ [0x000, 0x001, 0x002, 0x010, 0x020, 0x040] →
      (s.core c).wait = some ⟨.ecall e, 0, true, sites, more⟩ →
      ∃ t, exec (.ecallAnswer c) s = .next t ∧ answersWith s t c e (BitVec.allOnes 64)) ∧
    (asksIsland s c 0x000 a → islandGives (.ecallVersion c) s c Config.firmwareLevel fun t => mem t = mem s) ∧
    (∀ i svc len, (i = .ecallClockSet c ∧ svc = 0x001 ∧ len = 768) ∨ (i = .ecallClockGet c ∧ svc = 0x002 ∧ len = 768) ∨
        (i = .ecallGateway c ∧ svc = 0x010 ∧ len = 32) ∨ (i = .ecallStorage c ∧ svc = 0x020 ∧ len = 64) → asksIsland s c svc a → blockOk s c a len = false →
      islandGives i s c 0xFFFFFFFFFFFFFFFE fun t => mem t = mem s) ∧
    (asksIsland s c 0x001 a → blockOk s c a 768 = true →
      let nb := (x.word a.toNat).toNat
      let bands := readBands x a.toNat nb
      let targets := readTargets x a.toNat
      let malformed := 64 < nb ∨ (∃ b ∈ bands, b.2 < b.1) ∨ ∃ f ∈ targets, f < 1600 ∨ 1800 < f
      let never := fun (f : Nat) => ∀ g, 1600 ≤ g → g ≤ f → forbidden bands g = true
      (malformed → islandGives (.ecallClockSet c) s c 3 fun t => t.plan = s.plan) ∧
      (¬malformed → (forbidden bands 100 = true ∨ forbidden bands 2400 = true) → islandGives (.ecallClockSet c) s c 2 fun t => t.plan = s.plan) ∧
      (¬malformed → forbidden bands 100 = false → forbidden bands 2400 = false →
        (∀ i, i < 83 → never (targets.getD i 0) → (∀ j, j < i → ¬never (targets.getD j 0)) →
          islandGives (.ecallClockSet c) s c (BitVec.ofNat 64 (1 + i * 2 ^ 16)) fun t => t.plan = s.plan) ∧
        ((∀ i, i < 83 → ¬never (targets.getD i 0)) → islandGives (.ecallClockSet c) s c 0 fun t => t.bands = bands ∧ t.plan.length = 83 ∧
          ∀ i, i < 83 → let f := t.plan.getD i 0
            1600 ≤ f ∧ f ≤ targets.getD i 0 ∧ forbidden bands f = false ∧ (∀ g, f < g → g ≤ targets.getD i 0 → forbidden bands g = true) ∧
              Mem.load (mem t) (a.toNat + 8 + 2 * i) 2 = f))) ∧
    (asksIsland s c 0x002 a → blockOk s c a 768 = true → s.plan.length = 83 → s.bands.length ≤ 64 → (∀ f ∈ s.plan, f < 2 ^ 16) →
      (∀ b ∈ s.bands, b.1 < 2 ^ 32 ∧ b.2 < 2 ^ 32) → islandGives (.ecallClockGet c) s c 0 fun t =>
        ((t.tile c.site).word a.toNat).toNat = s.bands.length ∧ (∀ i, i < 83 → Mem.load (mem t) (a.toNat + 8 + 2 * i) 2 = s.plan.getD i 0) ∧
        readBands (t.tile c.site) a.toNat s.bands.length = s.bands) ∧
    (asksIsland s c 0x010 a → blockOk s c a 32 = true →
      let n := (Mem.byteAt (mem s) a.toNat).toNat
      let known := ∃ p, s.port n = some p ∧ p.vdev = vdevNo s c
      (¬known → islandGives (.ecallGateway c) s c 1 fun t => mem t = mem s) ∧
      (known → islandGives (.ecallGateway c) s c 0 fun t =>
        (t.tile c.site).word (a.toNat + 24) ++ (t.tile c.site).word (a.toNat + 16) = gatewayCap s.serviceKey n ∧
        ∀ u ∈ s.tilesOf x.vni, lookup (t.tile u).gate n = some n)) ∧
    (asksIsland s c 0x020 a → blockOk s c a 64 = true →
      let h := x.word a.toNat
      let off := (x.word (a.toNat + 8)).toNat
      let len := (x.word (a.toNat + 24)).toNat
      (s.storage.find? (·.num == h.toNat / 2 ^ 16 % 2 ^ 16) = none → islandGives (.ecallStorage c) s c 1 fun t => t.storage = s.storage) ∧
      (∀ o, s.storage.find? (·.num == h.toNat / 2 ^ 16 % 2 ^ 16) = some o →
        let range := off % 4096 = 0 ∧ len % 4096 = 0 ∧ off + len ≤ o.size
        let ps := (ctxOf s c).bind fun q => partPlaces s q.pasid (x.word (a.toNat + 16)).toNat len (!h.getLsbD 0)
        (¬range → islandGives (.ecallStorage c) s c 2 fun t => t.storage = s.storage) ∧
        (range → ps = none → islandGives (.ecallStorage c) s c 3 fun t => t.storage = s.storage) ∧
        (∀ l, range → ps = some l → (∀ y ∈ l, islandOwns s (regionsOf y.2.2 y.2.1)) → o.fails = true →
          islandGives (.ecallStorage c) s c 4 fun t => t.storage = s.storage ∧ t.edge = s.edge ∧ t.hostMem = s.hostMem) ∧
        (∀ l, range → ps = some l → (∀ y ∈ l, islandOwns s (regionsOf y.2.2 y.2.1)) → o.fails = false → h.getLsbD 0 = true → Mem.wf o.bytes = true →
          islandGives (.ecallStorage c) s c 0 fun t => ∃ o', t.storage.find? (·.num == h.toNat / 2 ^ 16 % 2 ^ 16) = some o' ∧
            (∀ b, b < off ∨ off + len ≤ b → Mem.byteAt o'.bytes b = Mem.byteAt o.bytes b) ∧
            ∀ y ∈ l, ∀ i, i < y.2.1 → [Mem.byteAt o'.bytes (off + y.1 + i)] = s.ebytes (y.2.2.1 + i, y.2.2.2) 1) ∧
        (∀ l, range → ps = some l → (∀ y ∈ l, islandOwns s (regionsOf y.2.2 y.2.1)) → o.fails = false → h.getLsbD 0 = false →
          (l.Pairwise fun x y => x.2.2.2 ≠ y.2.2.2 ∨ x.2.2.1 + x.2.1 ≤ y.2.2.1 ∨ y.2.2.1 + y.2.1 ≤ x.2.2.1) → Mem.wf s.edge = true → Mem.wf s.hostMem = true →
          islandGives (.ecallStorage c) s c 0 fun t => t.storage = s.storage ∧
            ∀ y ∈ l, ∀ i, i < y.2.1 → t.ebytes (y.2.2.1 + i, y.2.2.2) 1 = [Mem.byteAt o.bytes (off + y.1 + i)]))) ∧
    (asksIsland s c 0x040 a →
      (a.toNat % 64 ≠ 0 → islandGives (.ecallAttest c) s c 0xFFFFFFFFFFFFFFFE fun t => mem t = mem s) ∧
      (a.toNat % 64 = 0 → blockOk s c a 8448 = false → islandGives (.ecallAttest c) s c 2 fun t => mem t = mem s) ∧
      (blockOk s c a 8448 = true → islandGives (.ecallAttest c) s c 0 fun t =>
        (t.tile c.site).word a.toNat = BitVec.ofNat 64 (0x14154 + (if s.floorFail then 2 ^ 24 else 0) + s.working % 2 ^ 32 * 2 ^ 32) ∧
        (t.tile c.site).word (a.toNat + 8) = BitVec.ofNat 64 s.fwVersion ∧
        (∀ j, j < 64 → Mem.byteAt (mem t) (a.toNat + 0x40 + j) = Mem.byteAt (mem s) (a.toNat + 0x40 + j)) ∧
        (∀ n j, n < 16 → j < 64 → Mem.byteAt (mem t) (a.toNat + 0x80 + 64 * n + j) = (vget s.meas n).extractLsb' (8 * j) 8) ∧
        ∀ b, b < a.toNat ∨ a.toNat + 8448 ≤ b → Mem.byteAt (mem t) b = Mem.byteAt (mem s) b))

/-! ### Temperature, power-on, failures, routing bundles and links -/

namespace Sys2Proof

/-- R323, R325: the permitted frequency next below the one at which a field runs. -/
def nextBelow (s : State) (field g : Nat) : Prop :=
  1600 ≤ g ∧ g < fieldFreq s field ∧ forbidden s.bands g = false ∧ ∀ h, g < h → h < fieldFreq s field → forbidden s.bands h = true
/-- R325: no permitted frequency stands below the one at which a field runs. -/
def noneBelow (s : State) (field : Nat) : Prop := ∀ h, 1600 ≤ h → h < fieldFreq s field → forbidden s.bands h = true

end Sys2Proof

/-- R7, R324, R325: a field above 95 °C, or a module above its power, steps down to its next lower permitted frequency, or withholds matrix issue where there is none; after a millisecond below
90 °C it goes back. At 110 °C every core halts. Coolant outside its limits is reported. Every host link trains without CXL.cache.
The steps LINK_TRAINING, THERMAL_THROTTLE, THERMAL_RECOVERY, OVERTEMP_HALT and COOLANT_LIMIT_REPORT complete. -/
def Sys2Proof.ThermalSteps : Prop :=
  ∀ (s : State) (field temp : Nat),
    (∀ power g, field < 81 → (95 < temp ∨ s.powerCap < power) → nextBelow s field g →
      ∃ t, exec (.thermalThrottle field temp power) s = .next t ∧ fieldFreq t field = g ∧ t.duty = s.duty) ∧
    (∀ power, field < 81 → (95 < temp ∨ s.powerCap < power) → noneBelow s field →
      ∃ t, exec (.thermalThrottle field temp power) s = .next t ∧ field ∈ t.duty ∧ t.throttled = s.throttled) ∧
    (∀ power, temp ≤ 95 → power ≤ s.powerCap → exec (.thermalThrottle field temp power) s = .next s) ∧
    (∀ waited, temp < 90 → 1000 ≤ waited → ∃ t, exec (.thermalRecovery field temp waited) s = .next t ∧ field ∉ t.duty ∧
      fieldFreq t field = t.plan.getD field 1800 ∧ ∀ j, j ≠ field → fieldFreq t j = fieldFreq s j ∧ (j ∈ t.duty ↔ j ∈ s.duty)) ∧
    (∀ waited, (90 ≤ temp ∨ waited < 1000) → exec (.thermalRecovery field temp waited) s = .next s) ∧
    (110 ≤ temp → ∃ t, exec (.overtempHalt temp) s = .next t ∧ t.reports = s.reports ++ [.overTemp temp] ∧
      ∀ z ∈ t.tiles, z.2.stopped = true ∧ ∀ k, (z.2.core k).halted = true) ∧
    (temp < 110 → exec (.overtempHalt temp) s = .next s) ∧
    (∀ inlet flow, (inlet < 20 ∨ 35 < inlet ∨ flow < 40) → ∃ t, exec (.coolantLimitReport inlet flow) s = .next t ∧
      t.reports = s.reports ++ [.coolant inlet flow]) ∧
    (∀ inlet flow, 20 ≤ inlet → inlet ≤ 35 → 40 ≤ flow → exec (.coolantLimitReport inlet flow) s = .next s) ∧
    (∀ link asks, link < 4 → ∃ t, exec (.linkTraining link asks) s = .next t ∧ lookup t.hostLinks link = some false)

/-- R388, R389, R390, R397, R400, R405: power-on makes every site that the fuses record or that fails self-test dead, leaves the tiles reset, and boots where each stage of the firmware passes its checks; it
stops at the first that does not. A site that fails in service is a hole: its tile leaves its region, what was sent to it goes back, and a launch that ran on it ends by tear-down
only. The scrubber
passes over every site that is powered, corrects one bad bit and counts it; two poison their word.
The steps POWER_ON, SITE_FAILURE and SCRUB_PASS complete.
What power-on keeps outside the module (log 66) and that the router of an unused spare site forwards (log 71) are the model's choice. -/
def Sys2Proof.PowerAndFailure : Prop :=
  (∀ (fused failed : List Site) (fw : List FwStage) (key : BitVec 256) (s : State),
    let dies := fun (x : Site) => (x ∈ fused ∨ x ∈ failed) ∧ x.x < 126 ∧ x.y < 126
    fw ≠ [] → ∃ t, exec (.powerOn fused failed fw key) s = .next t ∧ t.tiles = [] ∧ t.regions = [] ∧ t.pkts = [] ∧ t.holes = [] ∧
      (∀ x, x ∈ t.dead ↔ dies x) ∧ t.hostMem = s.hostMem ∧
      ((∀ f ∈ fw, stageOk f = true) → t.booted = true ∧ t.serviceKey = key ∧ t.reports = s.reports) ∧
      (∀ pre f post, fw = pre ++ f :: post → (∀ x ∈ pre, stageOk x = true) → stageOk f = false →
        t.booted = false ∧ t.reports = s.reports ++ [.bootStopped pre.length])) ∧
  (∀ (x : Site) (s : State), x.x < 126 → x.y < 126 →
    (s.gone x = true → exec (.siteFailure x) s = .next s) ∧
    (s.gone x = false → ∃ t, exec (.siteFailure x) s = .next t ∧ t.gone x = true ∧ (t.tile x).bound = false ∧
      (∀ p ∈ t.pkts, p.dst = x → p.to_ = .tile → p.state ≠ 0) ∧ (∀ p ∈ t.pkts, p.src.site = x → isReply p.body = true) ∧
      (∀ l ∈ s.launches, ∀ p, s.placeOf l = some p → p.admitted = some l.ctx → p.swapped = false → p.vni = (s.tile x).vni → (s.tile x).bound = true →
        s.siteOfName p.vni (s.tile x).name = some x → (∃ cl ∈ p.clusters, ∃ m ∈ cl, m.1 = (s.tile x).name) →
        ∃ y ∈ t.launches, y.ctx = l.ctx ∧ y.doomed = true) ∧
      ((s.tile x).bound = true → s.siteOfName (s.tile x).vni (s.tile x).name = some x → s.image (s.tile x).vni (s.tile x).name = none →
        t.siteOfName (s.tile x).vni (s.tile x).name ≠ some x))) ∧
  (∀ (x : Site) (plane addr : Nat) (double : Bool) (s : State), (s.gone x = true ∨ logOf s.dead x = none) →
    exec (.scrubPass x plane addr double) s = .next s) ∧
  (∀ (x : Site) (plane addr : Nat) (s : State), s.gone x = false → (logOf s.dead x).isSome = true → addr / 8 * 8 < scrubSize plane →
    (∃ t, exec (.scrubPass x plane addr false) s = .next t ∧ (t.tile x).eccCount = (s.tile x).eccCount + 1 ∧ (t.tile x).mem = (s.tile x).mem ∧
      (t.tile x).poison = (s.tile x).poison) ∧
    (∃ t, exec (.scrubPass x plane addr true) s = .next t ∧ t.reports = s.reports ++ [.poison x (addr / 8 * 8)] ∧
      (plane = 0 → (t.tile x).bad addr = true) ∧ (∀ j, 1 ≤ plane → j < 8 → ∃ d, (plane - 1, addr / 8 * 8 + j, d) ∈ (t.tile x).mpoison) ∧
      ∃ y ∈ ((t.tile x).core .flow).async, y.cause = 0x19))

/-- R360, R391 to R396: a router stages a bundle's section in the bank that no bound region uses, where every check passes; else it empties that bank and reports the reason, and after three failures in a row it
is declared dead. A flip is of the VNIs and routers that the header of a staged bundle lists, and happens only once every listed router has staged the bundle: the regions stall until none of their packets is in the fabric, and then the banks change together.
The steps ROUTE_BUNDLE_STAGE and ROUTE_FLIP complete.
Which bank a bundle is staged into (log 62) and the check that each defect fails (log 63) are the model's choice. -/
def Sys2Proof.RoutingBundles : Prop :=
  (∀ (x : Site) (h b : List Byte) (s : State) (bank : Bool), let r := (s.tile x).router
    idleBank s r = some bank → r.dead = false → (r.staged = false ∨ ∀ v ∈ s.regions, v.stalled = false) →
    let bankOf := fun (r : Router) => if bank then (r.epoch1, r.bank1) else (r.epoch0, r.bank0)
    let other := fun (r : Router) => if bank then (r.epoch0, r.bank0) else (r.epoch1, r.bank1)
    let n := stageReason s x r bank h b
    ∃ t, exec (.routeBundleStage x h b) s = .next t ∧
      (n = 0 → (t.tile x).router.staged = true ∧ (t.tile x).router.fails = 0 ∧ bankOf (t.tile x).router = (hEpoch h, sectEntries b) ∧
        (t.tile x).router.vnis = headVnis h ∧ (t.tile x).router.routers = headRouters h ∧ other (t.tile x).router = other r ∧ t.reports = s.reports) ∧
      (n ≠ 0 → r.fails < 2 → (t.tile x).router.staged = false ∧ (t.tile x).router.fails = r.fails + 1 ∧ bankOf (t.tile x).router = (0, []) ∧
        other (t.tile x).router = other r ∧ t.reports = s.reports ++ [.stageFailed x n]) ∧
      (n ≠ 0 → 2 ≤ r.fails → x.x < 126 → x.y < 126 → (t.tile x).router.dead = true ∧ t.gone x = true)) ∧
  (∀ (epoch : Nat) (vnis : List Nat) (routers : List Site) (s : State),
    let known := ∃ x ∈ routers, (s.tile x).router.vnis = vnis ∧ (s.tile x).router.routers = routers
    let staged := ∀ x ∈ routers, stagedWith s (s.tile x).router epoch vnis routers = true
    let stalled := fun (t : State) (b : Bool) => ∀ r ∈ t.regions, r.vni ∈ vnis → r.stalled = b
    (¬known → exec (.routeFlip epoch vnis routers) s = .next s) ∧
    (known → ¬staged → ∃ t, exec (.routeFlip epoch vnis routers) s = .next t ∧ t.tiles = s.tiles ∧ stalled t false) ∧
    (known → staged → ¬stalled s true → ∃ t, exec (.routeFlip epoch vnis routers) s = .next t ∧ t.tiles = s.tiles ∧ stalled t true) ∧
    (known → staged → stalled s true → (∃ p ∈ s.pkts, p.vni ∈ vnis) → exec (.routeFlip epoch vnis routers) s = .next s) ∧
    (known → staged → stalled s true → (∀ p ∈ s.pkts, p.vni ∉ vnis) → (∀ x ∈ routers, ∀ y ∈ routers, Site.num x = Site.num y → x = y) → ∃ t, exec (.routeFlip epoch vnis routers) s = .next t ∧ stalled t false ∧
      ∀ x ∈ routers, (t.tile x).router.staged = false ∧ ∀ v ∈ vnis, (v ∈ (t.tile x).router.sel ↔ idleBank s (s.tile x).router = some true)))

/-- R14, R401 to R404: on a link of any plane or of the tree, and in each direction on its own, a flit with a good check sequence, in order, is delivered; any other is asked for again, and a ninth failure in a row declares the link down and reports it. A link that is down is trained again after 100 milliseconds and
then every 10 seconds; it comes back where that succeeds, unless it has failed within a second of its last return. Only the upward tree link that carries its node's traffic loses
contributions when it fails, and the traffic moves to the node's other one where that is up. The numbers of links and of their directions are the model's (logs 63, 114).
The steps FLIT_RECEIVE and LINK_RETRAIN complete. -/
def Sys2Proof.LinkSteps : Prop :=
  ∀ (n : Nat) (s : State), n < 131072 → ((linkEnds n).isSome = true ∨ (treeLinkOf n).isSome = true) →
    let l := s.link n
    (∀ (back : Bool), let flit := n + (if back then 131072 else 0)
      let way := fun (l : LinkSt) => if back then l.back else l.fore
      let other := fun (l : LinkSt) => if back then l.fore else l.back
      let x := way l
      (∀ seq bytes crc, l.down = true → exec (.flitReceive flit seq bytes crc) s = .next s) ∧
      (∀ bytes, l.down = false → ∃ t, exec (.flitReceive flit x.next bytes (crc32c bytes)) s = .next t ∧ (t.link n).down = false ∧
        way (t.link n) = ⟨x.next + 1, 0, x.delivered ++ [bytes]⟩ ∧ other (t.link n) = other l) ∧
      (∀ seq bytes crc, l.down = false → (crc ≠ crc32c bytes ∨ seq ≠ x.next) →
        (x.replays < 8 → ∃ t, exec (.flitReceive flit seq bytes crc) s = .next t ∧ (t.link n).down = false ∧
          way (t.link n) = { x with replays := x.replays + 1 } ∧ other (t.link n) = other l) ∧
        (8 ≤ x.replays → ∃ t, exec (.flitReceive flit seq bytes crc) s = .next t ∧ (t.link n).down = true ∧ (way (t.link n)).delivered = x.delivered ∧
          (t.link n).barred = (l.barred || l.returned) ∧ .linkDown n ∈ t.reports ∧
          ∀ i second, linkEnds n = none → treeLinkOf n = some i → n = treeLink i second →
            (s.treeAlt.contains i ≠ second → t.insts = s.insts ∧ t.treeAlt = s.treeAlt) ∧
            (s.treeAlt.contains i = second → (s.link (treeLink i (!second))).down = false → t.treeAlt.contains i = !second)))) ∧
    (∀ waited ok, l.down = true → (l.barred = true ∨ waited < (if l.tries = 0 then 100 else 10000)) →
      exec (.linkRetrain n waited ok) s = .next s) ∧
    (∀ waited, l.down = true → l.barred = false → (∀ a b, linkEnds n = some (a, b) → (s.tile a).router.dead = false ∧ (s.tile b).router.dead = false) →
      (if l.tries = 0 then 100 else 10000) ≤ waited →
      (∃ t, exec (.linkRetrain n waited true) s = .next t ∧ t.link n = { l with down := false, tries := 0, returned := true } ∧
        t.reports = s.reports ++ [.linkUp n]) ∧
      (∃ t, exec (.linkRetrain n waited false) s = .next t ∧ t.link n = { l with tries := l.tries + 1 })) ∧
    (∀ waited ok, l.down = false → l.returned = true → 1000 ≤ waited → ∃ t, exec (.linkRetrain n waited ok) s = .next t ∧
      t.link n = { l with returned := false })

/-! ### Statements of several parts -/

/-- What decodes is well formed, and empty cells of the opcode map are rejected: `Sys2Proof.DecodedIsWellFormed`, `Sys2Proof.EmptyCellsRejected`. -/
def Obligations.DecoderRejects : Prop := Sys2Proof.DecodedIsWellFormed ∧ Sys2Proof.EmptyCellsRejected

/-- Scalar and predicate forms: their results and their operand traps: `Sys2Proof.ScalarFormsComplete`, `Sys2Proof.BinsCompletes`, `Sys2Proof.ScalarTraps`. -/
def Obligations.ScalarForms : Prop := Sys2Proof.ScalarFormsComplete ∧ Sys2Proof.BinsCompletes ∧ Sys2Proof.ScalarTraps

/-- A false predicate, a register still to come, a poisoned register: `Sys2Proof.PredicateFalse`, `Sys2Proof.OperandsNotReady`. -/
def Obligations.BeforeTheEffect : Prop := Sys2Proof.PredicateFalse ∧ Sys2Proof.OperandsNotReady

/-- CRRD, CRWR and the identity registers: `Sys2Proof.CrrdReads`, `Sys2Proof.IdentityRegisters`, `Sys2Proof.CrwrWrites`. -/
def Obligations.ControlRegisterForms : Prop := Sys2Proof.CrrdReads ∧ Sys2Proof.IdentityRegisters ∧ Sys2Proof.CrwrWrites

/-- The write step of every control register: `Sys2Proof.RegisterWriteSteps`, `Sys2Proof.CrwrIsTheWriteStep`, `Sys2Proof.RingWrites`. -/
def Obligations.RegisterWrites : Prop := Sys2Proof.RegisterWriteSteps ∧ Sys2Proof.CrwrIsTheWriteStep ∧ Sys2Proof.RingWrites

/-- The address checks of loads, stores and atomics, and atomics on poison: `Sys2Proof.AddressFaults`, `Sys2Proof.AtomicOnPoison`. -/
def Obligations.AddressChecks : Prop := Sys2Proof.AddressFaults ∧ Sys2Proof.AtomicOnPoison

/-- SEND, SENDF, PUT and VSEND, and the traps of SEND: `Sys2Proof.SendsComplete`, `Sys2Proof.SendTraps`. -/
def Obligations.SendForms : Prop := Sys2Proof.SendsComplete ∧ Sys2Proof.SendTraps

/-- Semaphores and fences: `Sys2Proof.SemaphoresComplete`, `Sys2Proof.SemaphoreServes`, `Sys2Proof.FencesComplete`. -/
def Obligations.SemaphoresAndFences : Prop := Sys2Proof.SemaphoresComplete ∧ Sys2Proof.SemaphoreServes ∧ Sys2Proof.FencesComplete

/-- Injecting a packet, and its hops: `Sys2Proof.Injection`, `Sys2Proof.PacketHops`. -/
def Obligations.PacketRoutes : Prop := Sys2Proof.Injection ∧ Sys2Proof.PacketHops

/-- Requests at their tile and replies at their core: `Sys2Proof.RequestsServed`, `Sys2Proof.RepliesArrive`. -/
def Obligations.RequestsAndReplies : Prop := Sys2Proof.RequestsServed ∧ Sys2Proof.RepliesArrive

/-- Accesses through cluster windows, bank operations and the collective queues: `Sys2Proof.RemoteAccessesWait`, `Sys2Proof.ClusterAccessPerformed`, `Sys2Proof.BankPerforms`, `Sys2Proof.QueueAccesses`. -/
def Obligations.OtherPlaces : Prop := Sys2Proof.RemoteAccessesWait ∧ Sys2Proof.ClusterAccessPerformed ∧ Sys2Proof.BankPerforms ∧ Sys2Proof.QueueAccesses

/-- Acknowledgement, return, reinjection, reservations and swapped targets: `Sys2Proof.SenderSide`, `Sys2Proof.ReservationLapses`, `Sys2Proof.SwappedTargets`. -/
def Obligations.SenderSteps : Prop := Sys2Proof.SenderSide ∧ Sys2Proof.ReservationLapses ∧ Sys2Proof.SwappedTargets

/-- DONE, HRET, HALT and REQUEUE: `Sys2Proof.HandlerEnds`, `Sys2Proof.RequeuedRecord`. -/
def Obligations.HandlerEnding : Prop := Sys2Proof.HandlerEnds ∧ Sys2Proof.RequeuedRecord

/-- Masked windows and join counters: `Sys2Proof.MaskForms`, `Sys2Proof.JoinForms`. -/
def Obligations.MasksAndJoins : Prop := Sys2Proof.MaskForms ∧ Sys2Proof.JoinForms

/-- BRK, TRAP, ECALL, SRET, OVLRET and overlay entry: `Sys2Proof.SoftwareTraps`, `Sys2Proof.SretForms`, `Sys2Proof.OverlayEntryAndReturn`. -/
def Obligations.TrapForms : Prop := Sys2Proof.SoftwareTraps ∧ Sys2Proof.SretForms ∧ Sys2Proof.OverlayEntryAndReturn

/-- Dispatch, pre-emption, and traps at an instruction boundary: `Sys2Proof.HandlersStart`, `Sys2Proof.BoundaryTraps`, `Sys2Proof.IslandAnswers`. -/
def Obligations.BoundarySteps : Prop := Sys2Proof.HandlersStart ∧ Sys2Proof.BoundaryTraps ∧ Sys2Proof.IslandAnswers

/-- Matrix commands start and retire, and the arithmetic of products: `Sys2Proof.MatrixCommandStarts`, `Sys2Proof.MatrixCommandRetires`, `Sys2Proof.ProductArithmetic`. -/
def Obligations.MatrixCommandSteps : Prop := Sys2Proof.MatrixCommandStarts ∧ Sys2Proof.MatrixCommandRetires ∧ Sys2Proof.ProductArithmetic

/-- Matrix control forms and systolic chains: `Sys2Proof.MatrixControls`, `Sys2Proof.ChainForms`. -/
def Obligations.MatrixControlForms : Prop := Sys2Proof.MatrixControls ∧ Sys2Proof.ChainForms

/-- Graph slots, custom opcodes and residency areas: `Sys2Proof.GraphSlots`, `Sys2Proof.GraphCalls`, `Sys2Proof.ResidencyAreas`. -/
def Obligations.GraphForms : Prop := Sys2Proof.GraphSlots ∧ Sys2Proof.GraphCalls ∧ Sys2Proof.ResidencyAreas

/-- Copies, timelines and the steps of the edge copy engines: `Sys2Proof.TimelineForms`, `Sys2Proof.PagesTranslate`, `Sys2Proof.EngineSteps`. -/
def Obligations.EngineForms : Prop := Sys2Proof.TimelineForms ∧ Sys2Proof.PagesTranslate ∧ Sys2Proof.EngineSteps

/-- Collective instructions, the control blocks they read, and what the root answers: `Sys2Proof.CollectiveForms`, `Sys2Proof.ControlBlocks`,
`Sys2Proof.CollectiveJoins`. -/
def Obligations.CollectiveJoining : Prop := Sys2Proof.CollectiveForms ∧ Sys2Proof.ControlBlocks ∧ Sys2Proof.CollectiveJoins

/-- Demand posts, the plan, labels, calendar entries and failover of an exchange: `Sys2Proof.ArbiterSteps`, `Sys2Proof.PlanOfAnExchange`,
`Sys2Proof.FailoverSteps`. -/
def Obligations.ExchangeArbiter : Prop := Sys2Proof.ArbiterSteps ∧ Sys2Proof.PlanOfAnExchange ∧ Sys2Proof.FailoverSteps

/-- Capability instructions and key changes: `Sys2Proof.CapabilityForms`, `Sys2Proof.KeySteps`. -/
def Obligations.Capabilities : Prop := Sys2Proof.CapabilityForms ∧ Sys2Proof.KeySteps

/-- Launch packets, admission and launch messages: `Sys2Proof.LaunchPackets`, `Sys2Proof.LaunchSteps`, `Sys2Proof.LaunchMessages`. -/
def Obligations.LaunchStarts : Prop := Sys2Proof.LaunchPackets ∧ Sys2Proof.LaunchSteps ∧ Sys2Proof.LaunchMessages

/-- Frames, ingest rules, pauses and egress: `Sys2Proof.FramesReceived`, `Sys2Proof.PortSteps`. -/
def Obligations.EthernetPorts : Prop := Sys2Proof.FramesReceived ∧ Sys2Proof.PortSteps

/-- The services behind ECALL, and temperature and cooling: `Sys2Proof.IslandServices`, `Sys2Proof.ThermalSteps`. -/
def Obligations.IslandDuties : Prop := Sys2Proof.IslandServices ∧ Sys2Proof.ThermalSteps

/-- R13, R182, R183, R319 to R321, R352, R356, R358, R374, R397, R399, R400, R403, R406: what comes from outside the tiles. A host's read or write of its function's window lands in edge memory
where it lies in the window and the islands own the region, and starts the transfer where the fabric does. BAR 0 reads as laid out, and its writable words take 4 or 8 bytes; the
MSI-X capability names table and pending bits. An island's program reads, with a report of a poisoned word, writes, and does atomics under a PASID. The islands bind functions, queue contexts, ports,
placements and storage objects, and make no change to PASIDs, tables or windows that lets two devices share a 2 MiB region. Errors of memories and registers correct or
poison; keys reach one interface at a time; a tree node goes back to its first link with nothing in flight; registers 6 to 15 are extended. That each of these is one event of the schedule, between turns, is the model's
choice (log 96), and so are the capability's layout (log 112), where a multiple of pages stands for host memory (log 80) and what a half-written QDOOR does (log 82). -/
def Sys2Proof.OutsideEvents : Prop :=
  ∀ s : State,
    (∀ link fn addr len, let reach := ∃ x ∈ (s.func link fn).windows, x.1 ≤ addr ∧ addr + len ≤ x.1 + x.2
      let t := outside (.cxlRead link fn addr len) s
      (¬reach → t = s) ∧
      (reach → islandOwns s (regionsOf (addr, false) len) →
        t.hostOut = s.hostOut ++ [(link, fn, Mem.bytes s.edge addr len)] ∧ t.edge = s.edge ∧ t.edgePoison = s.edgePoison) ∧
      (∀ r, reach → regionsOf (addr, false) len = [r] → (s.own r).owner = .fabric → (s.own r).waiting = [] →
        (t.own r).owner = .transit false ∧ t.hostOut = s.hostOut ∧ t.edge = s.edge)) ∧
    (∀ link fn addr bytes, let reach := ∃ x ∈ (s.func link fn).windows, x.1 ≤ addr ∧ addr + bytes.length ≤ x.1 + x.2
      let t := outside (.cxlWrite link fn addr bytes) s
      (¬reach → t = s) ∧
      (reach → islandOwns s (regionsOf (addr, false) bytes.length) → Mem.wf s.edge = true → Mem.bytes t.edge addr bytes.length = bytes ∧
        (∀ b, b < addr ∨ addr + bytes.length ≤ b → Mem.byteAt t.edge b = Mem.byteAt s.edge b) ∧ t.hostOut = s.hostOut)) ∧
    (∀ link fn off, off % 8 = 0 → ∃ l, outside (.barRead link fn off 8) s = { s with hostOut := s.hostOut ++ [(link, fn, l)] } ∧ l.length = 8 ∧
      let x := BitVec.ofNat 64 (leNat l)
      let f := s.func link fn
      let ctxs := s.qctxs.filter fun q => q.link == link && q.fn == fn
      let ctx := fun (base : Nat) => ctxs[(off - base) / 8]?
      let vec := (off - 0x30000) / 16
      (off = 0 → x.toNat % 2 ^ 14 = ctxs.length % 2 ^ 14 ∧ x.toNat / 2 ^ 16 % 512 = fn % 512 ∧ x.toNat / 2 ^ 25 = link % 4) ∧
      (0x10000 ≤ off → off < 0x20000 → (ctx 0x10000 = none → x = 0) ∧ ∀ q, ctx 0x10000 = some q →
        x.toNat % 16 = q.k % 16 ∧ x.toNat / 2 ^ 16 % 2048 = q.vec % 2048 ∧ x.getLsbD 27 = q.ven) ∧
      (0x20000 ≤ off → off < 0x30000 → (ctx 0x20000 = none → x = 0) ∧ ∀ q, ctx 0x20000 = some q →
        x.toNat % 2 ^ 16 = q.tail.toNat ∧ x.toNat / 2 ^ 16 % 2 ^ 16 = q.head.toNat ∧ x.getLsbD 32 = q.err) ∧
      (0x30000 ≤ off → off < 0x38000 → x = if f.vectors ≤ vec then 0 else if off % 16 = 8 then (f.entry vec).2 else (f.entry vec).1) ∧
      (0x38000 ≤ off → off < 0x38100 → ∀ b, b < 64 → x.getLsbD b = f.pending.contains (8 * (off - 0x38000) + b)) ∧
      ((8 ≤ off ∧ off < 0x10000) ∨ 0x38100 ≤ off → x = 0)) ∧
    (∀ link fn off (bytes : List Byte), let t := outside (.barWrite link fn off bytes) s
      let f := s.func link fn
      let ctxs := s.qctxs.filter fun q => q.link == link && q.fn == fn
      let vec := (off - 0x30000) / 16
      ((bytes.length ≠ 4 ∧ bytes.length ≠ 8) ∨ off % bytes.length ≠ 0 ∨ off < 0x10000 ∨ 0x38000 ≤ off → t = s) ∧
      (∀ q, 0x10000 ≤ off → off < 0x20000 → off % 8 = 0 → (bytes.length = 4 ∨ bytes.length = 8) → ctxs[(off - 0x10000) / 8]? = some q →
        (∀ x ∈ s.qctxs, x.num = q.num → x = q) →
        t.qctx q.num = some { q with ven := (BitVec.ofNat 64 (leNat bytes)).getLsbD 27 }) ∧
      (∀ q, 0x20000 ≤ off → off < 0x30000 → off % 8 = 0 → bytes.length = 8 → ctxs[(off - 0x20000) / 8]? = some q →
        exec (.qdoorWrite q.num (BitVec.ofNat 64 (leNat bytes))) s = .next t) ∧
      (0x30000 ≤ off → off < 0x38000 → (bytes.length = 4 ∨ bytes.length = 8) → off % bytes.length = 0 → vec < f.vectors →
        let old := if off % 16 < 8 then (f.entry vec).1 else (f.entry vec).2
        let now := if off % 16 < 8 then ((t.func link fn).entry vec).1 else ((t.func link fn).entry vec).2
        (∀ b, b < 64 → now.getLsbD b = if off % 8 * 8 ≤ b ∧ b < off % 8 * 8 + 8 * bytes.length
          then (BitVec.ofNat 64 (leNat bytes)).getLsbD (b - off % 8 * 8) else old.getLsbD b) ∧
        (f.pending.contains vec = true → now.getLsbD 32 = false → 8 ≤ off % 16 →
          (t.func link fn).pending.contains vec = false ∧ ∃ n, t.reports = s.reports ++ [.msix n vec]) ∧
        ((f.pending.contains vec = false ∨ (now.getLsbD 32 = true ∧ 8 ≤ off % 16)) → t.reports = s.reports ∧ (t.func link fn).pending = f.pending))) ∧
    (∀ link fn, let n := (s.func link fn).vectors
      outside (.msixCap link fn) s = { s with hostOut := s.hostOut ++ [(link, fn, if n = 0 then [] else
        [0x11, 0] ++ leBytes 2 (n - 1) ++ leBytes 4 0x30000 ++ leBytes 4 0x38000)] }) ∧
    (∀ island addr, addr % 8 = 0 → islandOwns s (regionsOf (addr, false) 8) →
      (outside (.islandRead island addr 8) s).reports = s.reports ++ (if s.edgePoison.contains addr then [.edgePoison addr] else [])) ∧
    (∀ island addr bytes, islandOwns s (regionsOf (addr, false) bytes.length) → Mem.wf s.edge = true →
      let t := outside (.islandWrite island addr bytes) s
      Mem.bytes t.edge addr bytes.length = bytes ∧ ∀ b, b < addr ∨ addr + bytes.length ≤ b → Mem.byteAt t.edge b = Mem.byteAt s.edge b) ∧
    (∀ island pasid va fn width x y, let t := fun (y : Option W) => outside (.islandAtomic island pasid va fn width x y) s
      (translate s pasid va true = none → t y = { s with reports := s.reports ++ [.atomicFault island pasid va] }) ∧
      (∀ p, translate s pasid va true = some p → islandOwns s (regionsOf p width) → Mem.wf s.edge = true → Mem.wf s.hostMem = true → width = 4 ∨ width = 8 →
        let old := leNat (s.ebytes p width)
        (t none).ebytes p width = leBytes width (oper fn (8 * width) old (x.toNat % 256 ^ width)) ∧
        (∀ z : W, old = z.toNat % 256 ^ width → (t (some z)).ebytes p width = leBytes width x.toNat) ∧
        (∀ z : W, old ≠ z.toNat % 256 ^ width → (t (some z)).edge = s.edge ∧ (t (some z)).hostMem = s.hostMem))) ∧
    (∀ x : Outside, ((∃ a b c, x = .setPasid a b c) ∨ (∃ l, x = .writeTables l) ∨ (∃ a b c d, x = .bindFunction a b c d)) → apart s = true →
      apart (outside x s) = true) ∧
    (∀ pasid sv57 root, let t := outside (.setPasid pasid sv57 root) s
      apart { s with pasids := s.pasids.filter (·.pasid != pasid) ++ [⟨pasid, sv57, root⟩] } = true → t.pasids.find? (·.pasid == pasid) = some ⟨pasid, sv57, root⟩) ∧
    (∀ ctx vdev link fn island pasid k base vec, let t := outside (.bindQueue ctx vdev link fn island pasid k base vec) s
      let fits := link < 4 ∧ fn ≤ 256 ∧ island < 64 ∧ 4 ≤ k ∧ k ≤ 12 ∧ vec < 2048 ∧ s.qctx ctx = none ∧ s.qctxs.length < 8192
      (∀ d, s.vdevs.find? (·.num == vdev) = some d → fits → ctx ∈ d.ctxs → pasid ∈ d.pasids → d.isFn link fn = true →
        t.qctxs = s.qctxs ++ [⟨ctx, vdev, link, fn, island, pasid, k, base, 0, 0, false, vec, false⟩]) ∧
      (∀ d, s.vdevs.find? (·.num == vdev) = some d → (ctx ∉ d.ctxs ∨ pasid ∉ d.pasids ∨ d.isFn link fn = false) → t = s) ∧
      (¬fits → t = s)) ∧
    (∀ port vdev, port < 32 → ((outside (.bindPort port vdev) s).port port).map (·.vdev) = some vdev) ∧
    (∀ num size, ((outside (.bindStorage num size) s).storage.find? (·.num == num)).map (fun o => (o.size, o.fails)) = some (size, false)) ∧
    (∀ num fails o, s.storage.find? (·.num == num) = some o →
      (outside (.storageFails num fails) s).storage.find? (·.num == num) = some { o with fails := fails }) ∧
    (∀ watts, (outside (.setPowerCap watts) s).powerCap = min watts 24000) ∧
    (∀ island, island ∈ (outside (.arbiterFails island) s).arbitersDown) ∧
    (∀ vni t r, s.regions.find? (·.vni == vni) = some r →
      (outside (.keysTaken vni t) s).regions.find? (·.vni == vni) = some { r with late := r.late.filter (· != t) }) ∧
    (∀ t addr, s.gone t = false → (logOf s.dead t).isSome = true → addr < 0x00300000 →
      ((outside (.readError t 0 addr false) s).tile t).eccCount = (s.tile t).eccCount + 1 ∧
      ((outside (.readError t 0 addr false) s).tile t).mem = (s.tile t).mem ∧
      ((outside (.readError t 0 addr true) s).tile t).bad addr = true) ∧
    (∀ (c : CoreId) (hi : Bool) (n : Nat), s.gone c.site = false → (logOf s.dead c.site).isSome = true →
      (∀ f, outside (.registerError c f hi n false) s = s) ∧
      (0 < n → n < 32 → ∃ r ∈ ((outside (.registerError c .g hi n true) s).core c).regPoison,
        r.file = .g ∧ r.num = n ∧ r.detail = BitVec.ofNat 64 (0x80000000000000 + n)) ∧
      (n < 16 → ∃ r ∈ ((outside (.registerError c .v hi n true) s).core c).regPoison,
        r.file = .v ∧ r.num = n ∧ r.detail = BitVec.ofNat 64 (0x80000000000200 + n))) ∧
    (∀ addr, addr < edgeEnd → (outside (.edgeError addr) s).edgePoison.contains (addr / 8 * 8) = true ∧ (outside (.edgeError addr) s).edge = s.edge) ∧
    (∀ island, let t := outside (.treeReturns island) s
      ((s.link (treeLink island false)).down = true → t = s) ∧ (treeBusy s island = true → t = s) ∧
      ((s.link (treeLink island false)).down = false → treeBusy s island = false → island ∉ t.treeAlt)) ∧
    (∀ (n : Nat) (d : BitVec 512), let t := outside (.measure n d) s
      (6 ≤ n → n ≤ 15 → vget t.meas n = BitVec.ofNat 512 (leNat (sha3_512 (leBytes 64 (vget s.meas n).toNat ++ leBytes 64 d.toNat)))) ∧
      (∀ m, m < 16 → m ≠ n → vget t.meas m = vget s.meas m) ∧ (n < 6 ∨ 15 < n → t = s))

/-- Power-on, failures, the scrubber, routing bundles, links and what comes from outside: `Sys2Proof.PowerAndFailure`, `Sys2Proof.RoutingBundles`,
`Sys2Proof.LinkSteps`, `Sys2Proof.OutsideEvents`. -/
def Obligations.PowerRoutesLinks : Prop :=
  Sys2Proof.PowerAndFailure ∧ Sys2Proof.RoutingBundles ∧ Sys2Proof.LinkSteps ∧ Sys2Proof.OutsideEvents
end

