-- ==== Sys2Proof/Laws/Exec.lean ====
section
/-! SUPPORT. What `exec` calls for each constructor. -/

namespace Sys2Proof.Machine

theorem exec_add (e : Enc) (s : State) : exec (.add e) s = execAdd e s := rfl
theorem exec_sub (e : Enc) (s : State) : exec (.sub e) s = execSub e s := rfl
theorem exec_and (e : Enc) (s : State) : exec (.and e) s = execAnd e s := rfl
theorem exec_or (e : Enc) (s : State) : exec (.or e) s = execOr e s := rfl
theorem exec_xor (e : Enc) (s : State) : exec (.xor e) s = execXor e s := rfl
theorem exec_sll (e : Enc) (s : State) : exec (.sll e) s = execSll e s := rfl
theorem exec_srl (e : Enc) (s : State) : exec (.srl e) s = execSrl e s := rfl
theorem exec_sra (e : Enc) (s : State) : exec (.sra e) s = execSra e s := rfl
theorem exec_addi (e : Enc) (s : State) : exec (.addi e) s = execAddi e s := rfl
theorem exec_andi (e : Enc) (s : State) : exec (.andi e) s = execAndi e s := rfl
theorem exec_ori (e : Enc) (s : State) : exec (.ori e) s = execOri e s := rfl
theorem exec_xori (e : Enc) (s : State) : exec (.xori e) s = execXori e s := rfl
theorem exec_slli (e : Enc) (s : State) : exec (.slli e) s = execSlli e s := rfl
theorem exec_srli (e : Enc) (s : State) : exec (.srli e) s = execSrli e s := rfl
theorem exec_srai (e : Enc) (s : State) : exec (.srai e) s = execSrai e s := rfl
theorem exec_li (e : Enc) (s : State) : exec (.li e) s = execLi e s := rfl
theorem exec_lih (e : Enc) (s : State) : exec (.lih e) s = execLih e s := rfl
theorem exec_mov (e : Enc) (s : State) : exec (.mov e) s = execMov e s := rfl
theorem exec_slt (e : Enc) (s : State) : exec (.slt e) s = execSlt e s := rfl
theorem exec_sltu (e : Enc) (s : State) : exec (.sltu e) s = execSltu e s := rfl
theorem exec_seq (e : Enc) (s : State) : exec (.seq e) s = execSeq e s := rfl
theorem exec_ld (e : Enc) (s : State) : exec (.ld e) s = execLd e s := rfl
theorem exec_ldn (e : Enc) (s : State) : exec (.ldn e) s = execLdn e s := rfl
theorem exec_st (e : Enc) (s : State) : exec (.st e) s = execSt e s := rfl
theorem exec_stn (e : Enc) (s : State) : exec (.stn e) s = execStn e s := rfl
theorem exec_bt (e : Enc) (s : State) : exec (.bt e) s = execBt e s := rfl
theorem exec_bf (e : Enc) (s : State) : exec (.bf e) s = execBf e s := rfl
theorem exec_j (e : Enc) (s : State) : exec (.j e) s = execJ e s := rfl
theorem exec_jal (e : Enc) (s : State) : exec (.jal e) s = execJal e s := rfl
theorem exec_jr (e : Enc) (s : State) : exec (.jr e) s = execJr e s := rfl
theorem exec_jalr (e : Enc) (s : State) : exec (.jalr e) s = execJalr e s := rfl
theorem exec_ret (e : Enc) (s : State) : exec (.ret e) s = execRet e s := rfl
theorem exec_done (e : Enc) (s : State) : exec (.done e) s = execDone e s := rfl
theorem exec_halt (e : Enc) (s : State) : exec (.halt e) s = execHalt e s := rfl
theorem exec_requeue (e : Enc) (s : State) : exec (.requeue e) s = execRequeue e s := rfl
theorem exec_brk (e : Enc) (s : State) : exec (.brk e) s = execBrk e s := rfl
theorem exec_send (e : Enc) (s : State) : exec (.send e) s = execSend e s := rfl
theorem exec_sendf (e : Enc) (s : State) : exec (.sendf e) s = execSendf e s := rfl
theorem exec_put (e : Enc) (s : State) : exec (.put e) s = execPut e s := rfl
theorem exec_get (e : Enc) (s : State) : exec (.get e) s = execGet e s := rfl
theorem exec_qrd (e : Enc) (s : State) : exec (.qrd e) s = execQrd e s := rfl
theorem exec_qwr (e : Enc) (s : State) : exec (.qwr e) s = execQwr e s := rfl
theorem exec_qtry (e : Enc) (s : State) : exec (.qtry e) s = execQtry e s := rfl
theorem exec_qbind (e : Enc) (s : State) : exec (.qbind e) s = execQbind e s := rfl
theorem exec_lea (e : Enc) (s : State) : exec (.lea e) s = execLea e s := rfl
theorem exec_cmpeq (e : Enc) (s : State) : exec (.cmpeq e) s = execCmpeq e s := rfl
theorem exec_cmpne (e : Enc) (s : State) : exec (.cmpne e) s = execCmpne e s := rfl
theorem exec_cmplt (e : Enc) (s : State) : exec (.cmplt e) s = execCmplt e s := rfl
theorem exec_cmpltu (e : Enc) (s : State) : exec (.cmpltu e) s = execCmpltu e s := rfl
theorem exec_cmpieq (e : Enc) (s : State) : exec (.cmpieq e) s = execCmpieq e s := rfl
theorem exec_cmpilt (e : Enc) (s : State) : exec (.cmpilt e) s = execCmpilt e s := rfl
theorem exec_csel (e : Enc) (s : State) : exec (.csel e) s = execCsel e s := rfl
theorem exec_seminc (e : Enc) (s : State) : exec (.seminc e) s = execSeminc e s := rfl
theorem exec_semwait (e : Enc) (s : State) : exec (.semwait e) s = execSemwait e s := rfl
theorem exec_semtry (e : Enc) (s : State) : exec (.semtry e) s = execSemtry e s := rfl
theorem exec_semrd (e : Enc) (s : State) : exec (.semrd e) s = execSemrd e s := rfl
theorem exec_fence (e : Enc) (s : State) : exec (.fence e) s = execFence e s := rfl
theorem exec_ifence (e : Enc) (s : State) : exec (.ifence e) s = execIfence e s := rfl
theorem exec_cbsync (e : Enc) (s : State) : exec (.cbsync e) s = execCbsync e s := rfl
theorem exec_mul (e : Enc) (s : State) : exec (.mul e) s = execMul e s := rfl
theorem exec_mulh (e : Enc) (s : State) : exec (.mulh e) s = execMulh e s := rfl
theorem exec_mulhu (e : Enc) (s : State) : exec (.mulhu e) s = execMulhu e s := rfl
theorem exec_div (e : Enc) (s : State) : exec (.div e) s = execDiv e s := rfl
theorem exec_divu (e : Enc) (s : State) : exec (.divu e) s = execDivu e s := rfl
theorem exec_rem (e : Enc) (s : State) : exec (.rem e) s = execRem e s := rfl
theorem exec_remu (e : Enc) (s : State) : exec (.remu e) s = execRemu e s := rfl
theorem exec_min (e : Enc) (s : State) : exec (.min e) s = execMin e s := rfl
theorem exec_max (e : Enc) (s : State) : exec (.max e) s = execMax e s := rfl
theorem exec_minu (e : Enc) (s : State) : exec (.minu e) s = execMinu e s := rfl
theorem exec_maxu (e : Enc) (s : State) : exec (.maxu e) s = execMaxu e s := rfl
theorem exec_clz (e : Enc) (s : State) : exec (.clz e) s = execClz e s := rfl
theorem exec_ctz (e : Enc) (s : State) : exec (.ctz e) s = execCtz e s := rfl
theorem exec_popc (e : Enc) (s : State) : exec (.popc e) s = execPopc e s := rfl
theorem exec_brev (e : Enc) (s : State) : exec (.brev e) s = execBrev e s := rfl
theorem exec_bext (e : Enc) (s : State) : exec (.bext e) s = execBext e s := rfl
theorem exec_bexts (e : Enc) (s : State) : exec (.bexts e) s = execBexts e s := rfl
theorem exec_bins (e : Enc) (s : State) : exec (.bins e) s = execBins e s := rfl
theorem exec_sext (e : Enc) (s : State) : exec (.sext e) s = execSext e s := rfl
theorem exec_zext (e : Enc) (s : State) : exec (.zext e) s = execZext e s := rfl
theorem exec_pand (e : Enc) (s : State) : exec (.pand e) s = execPand e s := rfl
theorem exec_por (e : Enc) (s : State) : exec (.por e) s = execPor e s := rfl
theorem exec_pxor (e : Enc) (s : State) : exec (.pxor e) s = execPxor e s := rfl
theorem exec_pnot (e : Enc) (s : State) : exec (.pnot e) s = execPnot e s := rfl
theorem exec_pfromg (e : Enc) (s : State) : exec (.pfromg e) s = execPfromg e s := rfl
theorem exec_ptog (e : Enc) (s : State) : exec (.ptog e) s = execPtog e s := rfl
theorem exec_pcnt (e : Enc) (s : State) : exec (.pcnt e) s = execPcnt e s := rfl
theorem exec_pfirst (e : Enc) (s : State) : exec (.pfirst e) s = execPfirst e s := rfl
theorem exec_amo (e : Enc) (s : State) : exec (.amo e) s = execAmo e s := rfl
theorem exec_amow (e : Enc) (s : State) : exec (.amow e) s = execAmow e s := rfl
theorem exec_cas (e : Enc) (s : State) : exec (.cas e) s = execCas e s := rfl
theorem exec_casw (e : Enc) (s : State) : exec (.casw e) s = execCasw e s := rfl
theorem exec_bop (e : Enc) (s : State) : exec (.bop e) s = execBop e s := rfl
theorem exec_bopw (e : Enc) (s : State) : exec (.bopw e) s = execBopw e s := rfl
theorem exec_ramo (e : Enc) (s : State) : exec (.ramo e) s = execRamo e s := rfl
theorem exec_ramow (e : Enc) (s : State) : exec (.ramow e) s = execRamow e s := rfl
theorem exec_tlrd (e : Enc) (s : State) : exec (.tlrd e) s = execTlrd e s := rfl
theorem exec_tlwait (e : Enc) (s : State) : exec (.tlwait e) s = execTlwait e s := rfl
theorem exec_joinset (e : Enc) (s : State) : exec (.joinset e) s = execJoinset e s := rfl
theorem exec_joinarr (e : Enc) (s : State) : exec (.joinarr e) s = execJoinarr e s := rfl
theorem exec_crrd (e : Enc) (s : State) : exec (.crrd e) s = execCrrd e s := rfl
theorem exec_crwr (e : Enc) (s : State) : exec (.crwr e) s = execCrwr e s := rfl
theorem exec_hmask (e : Enc) (s : State) : exec (.hmask e) s = execHmask e s := rfl
theorem exec_hunmask (e : Enc) (s : State) : exec (.hunmask e) s = execHunmask e s := rfl
theorem exec_hret (e : Enc) (s : State) : exec (.hret e) s = execHret e s := rfl
theorem exec_cyc (e : Enc) (s : State) : exec (.cyc e) s = execCyc e s := rfl
theorem exec_latrd (e : Enc) (s : State) : exec (.latrd e) s = execLatrd e s := rfl
theorem exec_vadd (e : Enc) (s : State) : exec (.vadd e) s = execVadd e s := rfl
theorem exec_vsub (e : Enc) (s : State) : exec (.vsub e) s = execVsub e s := rfl
theorem exec_vmul (e : Enc) (s : State) : exec (.vmul e) s = execVmul e s := rfl
theorem exec_vfma (e : Enc) (s : State) : exec (.vfma e) s = execVfma e s := rfl
theorem exec_vfms (e : Enc) (s : State) : exec (.vfms e) s = execVfms e s := rfl
theorem exec_vdiv (e : Enc) (s : State) : exec (.vdiv e) s = execVdiv e s := rfl
theorem exec_vsqrt (e : Enc) (s : State) : exec (.vsqrt e) s = execVsqrt e s := rfl
theorem exec_vmin (e : Enc) (s : State) : exec (.vmin e) s = execVmin e s := rfl
theorem exec_vmax (e : Enc) (s : State) : exec (.vmax e) s = execVmax e s := rfl
theorem exec_vabs (e : Enc) (s : State) : exec (.vabs e) s = execVabs e s := rfl
theorem exec_vneg (e : Enc) (s : State) : exec (.vneg e) s = execVneg e s := rfl
theorem exec_vand (e : Enc) (s : State) : exec (.vand e) s = execVand e s := rfl
theorem exec_vor (e : Enc) (s : State) : exec (.vor e) s = execVor e s := rfl
theorem exec_vxor (e : Enc) (s : State) : exec (.vxor e) s = execVxor e s := rfl
theorem exec_vnot (e : Enc) (s : State) : exec (.vnot e) s = execVnot e s := rfl
theorem exec_vshl (e : Enc) (s : State) : exec (.vshl e) s = execVshl e s := rfl
theorem exec_vshr (e : Enc) (s : State) : exec (.vshr e) s = execVshr e s := rfl
theorem exec_vsra (e : Enc) (s : State) : exec (.vsra e) s = execVsra e s := rfl
theorem exec_vcmpeq (e : Enc) (s : State) : exec (.vcmpeq e) s = execVcmpeq e s := rfl
theorem exec_vcmpne (e : Enc) (s : State) : exec (.vcmpne e) s = execVcmpne e s := rfl
theorem exec_vcmplt (e : Enc) (s : State) : exec (.vcmplt e) s = execVcmplt e s := rfl
theorem exec_vcmple (e : Enc) (s : State) : exec (.vcmple e) s = execVcmple e s := rfl
theorem exec_vsel (e : Enc) (s : State) : exec (.vsel e) s = execVsel e s := rfl
theorem exec_vcvt (e : Enc) (s : State) : exec (.vcvt e) s = execVcvt e s := rfl
theorem exec_vquant (e : Enc) (s : State) : exec (.vquant e) s = execVquant e s := rfl
theorem exec_vdeq (e : Enc) (s : State) : exec (.vdeq e) s = execVdeq e s := rfl
theorem exec_vredsum (e : Enc) (s : State) : exec (.vredsum e) s = execVredsum e s := rfl
theorem exec_vredmax (e : Enc) (s : State) : exec (.vredmax e) s = execVredmax e s := rfl
theorem exec_vredmin (e : Enc) (s : State) : exec (.vredmin e) s = execVredmin e s := rfl
theorem exec_vredsumw (e : Enc) (s : State) : exec (.vredsumw e) s = execVredsumw e s := rfl
theorem exec_vdot (e : Enc) (s : State) : exec (.vdot e) s = execVdot e s := rfl
theorem exec_vdotc (e : Enc) (s : State) : exec (.vdotc e) s = execVdotc e s := rfl
theorem exec_vcmul (e : Enc) (s : State) : exec (.vcmul e) s = execVcmul e s := rfl
theorem exec_vcmulc (e : Enc) (s : State) : exec (.vcmulc e) s = execVcmulc e s := rfl
theorem exec_vexp2 (e : Enc) (s : State) : exec (.vexp2 e) s = execVexp2 e s := rfl
theorem exec_vlog2 (e : Enc) (s : State) : exec (.vlog2 e) s = execVlog2 e s := rfl
theorem exec_vrcp (e : Enc) (s : State) : exec (.vrcp e) s = execVrcp e s := rfl
theorem exec_vrsq (e : Enc) (s : State) : exec (.vrsq e) s = execVrsq e s := rfl
theorem exec_vsinpi (e : Enc) (s : State) : exec (.vsinpi e) s = execVsinpi e s := rfl
theorem exec_vcospi (e : Enc) (s : State) : exec (.vcospi e) s = execVcospi e s := rfl
theorem exec_viota (e : Enc) (s : State) : exec (.viota e) s = execViota e s := rfl
theorem exec_vbcast (e : Enc) (s : State) : exec (.vbcast e) s = execVbcast e s := rfl
theorem exec_vins (e : Enc) (s : State) : exec (.vins e) s = execVins e s := rfl
theorem exec_vextr (e : Enc) (s : State) : exec (.vextr e) s = execVextr e s := rfl
theorem exec_vperm (e : Enc) (s : State) : exec (.vperm e) s = execVperm e s := rfl
theorem exec_vslup (e : Enc) (s : State) : exec (.vslup e) s = execVslup e s := rfl
theorem exec_vsldn (e : Enc) (s : State) : exec (.vsldn e) s = execVsldn e s := rfl
theorem exec_vsbind (e : Enc) (s : State) : exec (.vsbind e) s = execVsbind e s := rfl
theorem exec_vsunbind (e : Enc) (s : State) : exec (.vsunbind e) s = execVsunbind e s := rfl
theorem exec_vmov (e : Enc) (s : State) : exec (.vmov e) s = execVmov e s := rfl
theorem exec_vld (e : Enc) (s : State) : exec (.vld e) s = execVld e s := rfl
theorem exec_vst (e : Enc) (s : State) : exec (.vst e) s = execVst e s := rfl
theorem exec_vlds (e : Enc) (s : State) : exec (.vlds e) s = execVlds e s := rfl
theorem exec_vsts (e : Enc) (s : State) : exec (.vsts e) s = execVsts e s := rfl
theorem exec_vgath (e : Enc) (s : State) : exec (.vgath e) s = execVgath e s := rfl
theorem exec_vscat (e : Enc) (s : State) : exec (.vscat e) s = execVscat e s := rfl
theorem exec_vldb (e : Enc) (s : State) : exec (.vldb e) s = execVldb e s := rfl
theorem exec_vbred (e : Enc) (s : State) : exec (.vbred e) s = execVbred e s := rfl
theorem exec_vsend (e : Enc) (s : State) : exec (.vsend e) s = execVsend e s := rfl
theorem exec_mcfg (e : Enc) (s : State) : exec (.mcfg e) s = execMcfg e s := rfl
theorem exec_mld (e : Enc) (s : State) : exec (.mld e) s = execMld e s := rfl
theorem exec_mldc (e : Enc) (s : State) : exec (.mldc e) s = execMldc e s := rfl
theorem exec_mlds (e : Enc) (s : State) : exec (.mlds e) s = execMlds e s := rfl
theorem exec_mldm (e : Enc) (s : State) : exec (.mldm e) s = execMldm e s := rfl
theorem exec_mst (e : Enc) (s : State) : exec (.mst e) s = execMst e s := rfl
theorem exec_mstc (e : Enc) (s : State) : exec (.mstc e) s = execMstc e s := rfl
theorem exec_mma (e : Enc) (s : State) : exec (.mma e) s = execMma e s := rfl
theorem exec_mmax (e : Enc) (s : State) : exec (.mmax e) s = execMmax e s := rfl
theorem exec_mmas (e : Enc) (s : State) : exec (.mmas e) s = execMmas e s := rfl
theorem exec_mmac (e : Enc) (s : State) : exec (.mmac e) s = execMmac e s := rfl
theorem exec_zclr (e : Enc) (s : State) : exec (.zclr e) s = execZclr e s := rfl
theorem exec_zld (e : Enc) (s : State) : exec (.zld e) s = execZld e s := rfl
theorem exec_zst (e : Enc) (s : State) : exec (.zst e) s = execZst e s := rfl
theorem exec_zout (e : Enc) (s : State) : exec (.zout e) s = execZout e s := rfl
theorem exec_mchjoin (e : Enc) (s : State) : exec (.mchjoin e) s = execMchjoin e s := rfl
theorem exec_mchleave (e : Enc) (s : State) : exec (.mchleave e) s = execMchleave e s := rfl
theorem exec_mchmma (e : Enc) (s : State) : exec (.mchmma e) s = execMchmma e s := rfl
theorem exec_mchdim (e : Enc) (s : State) : exec (.mchdim e) s = execMchdim e s := rfl
theorem exec_mdep (e : Enc) (s : State) : exec (.mdep e) s = execMdep e s := rfl
theorem exec_mwait (e : Enc) (s : State) : exec (.mwait e) s = execMwait e s := rfl
theorem exec_mid (e : Enc) (s : State) : exec (.mid e) s = execMid e s := rfl
theorem exec_mfence (e : Enc) (s : State) : exec (.mfence e) s = execMfence e s := rfl
theorem exec_mclaim (e : Enc) (s : State) : exec (.mclaim e) s = execMclaim e s := rfl
theorem exec_mrelease (e : Enc) (s : State) : exec (.mrelease e) s = execMrelease e s := rfl
theorem exec_mtr (e : Enc) (s : State) : exec (.mtr e) s = execMtr e s := rfl
theorem exec_lload (e : Enc) (s : State) : exec (.lload e) s = execLload e s := rfl
theorem exec_lunload (e : Enc) (s : State) : exec (.lunload e) s = execLunload e s := rfl
theorem exec_lquery (e : Enc) (s : State) : exec (.lquery e) s = execLquery e s := rfl
theorem exec_lsave (e : Enc) (s : State) : exec (.lsave e) s = execLsave e s := rfl
theorem exec_lrest (e : Enc) (s : State) : exec (.lrest e) s = execLrest e s := rfl
theorem exec_cxOneSource (e : Enc) (s : State) : exec (.cxOneSource e) s = execCxOneSource e s := rfl
theorem exec_cxTwoSources (e : Enc) (s : State) : exec (.cxTwoSources e) s = execCxTwoSources e s := rfl
theorem exec_cxThreeSources (e : Enc) (s : State) : exec (.cxThreeSources e) s = execCxThreeSources e s := rfl
theorem exec_cbegin (e : Enc) (s : State) : exec (.cbegin e) s = execCbegin e s := rfl
theorem exec_cwait (e : Enc) (s : State) : exec (.cwait e) s = execCwait e s := rfl
theorem exec_cabort (e : Enc) (s : State) : exec (.cabort e) s = execCabort e s := rfl
theorem exec_cstat (e : Enc) (s : State) : exec (.cstat e) s = execCstat e s := rfl
theorem exec_dpost (e : Enc) (s : State) : exec (.dpost e) s = execDpost e s := rfl
theorem exec_xnext (e : Enc) (s : State) : exec (.xnext e) s = execXnext e s := rfl
theorem exec_xend (e : Enc) (s : State) : exec (.xend e) s = execXend e s := rfl
theorem exec_xstat (e : Enc) (s : State) : exec (.xstat e) s = execXstat e s := rfl
theorem exec_cpy (e : Enc) (s : State) : exec (.cpy e) s = execCpy e s := rfl
theorem exec_cpy2d (e : Enc) (s : State) : exec (.cpy2d e) s = execCpy2d e s := rfl
theorem exec_cpycan (e : Enc) (s : State) : exec (.cpycan e) s = execCpycan e s := rfl
theorem exec_bararr (e : Enc) (s : State) : exec (.bararr e) s = execBararr e s := rfl
theorem exec_barwait (e : Enc) (s : State) : exec (.barwait e) s = execBarwait e s := rfl
theorem exec_barsync (e : Enc) (s : State) : exec (.barsync e) s = execBarsync e s := rfl
theorem exec_bartry (e : Enc) (s : State) : exec (.bartry e) s = execBartry e s := rfl
theorem exec_capmov (e : Enc) (s : State) : exec (.capmov e) s = execCapmov e s := rfl
theorem exec_caprest (e : Enc) (s : State) : exec (.caprest e) s = execCaprest e s := rfl
theorem exec_capld (e : Enc) (s : State) : exec (.capld e) s = execCapld e s := rfl
theorem exec_capst (e : Enc) (s : State) : exec (.capst e) s = execCapst e s := rfl
theorem exec_capmint (e : Enc) (s : State) : exec (.capmint e) s = execCapmint e s := rfl
theorem exec_capinfo (e : Enc) (s : State) : exec (.capinfo e) s = execCapinfo e s := rfl
theorem exec_caprevoke (e : Enc) (s : State) : exec (.caprevoke e) s = execCaprevoke e s := rfl
theorem exec_wake (e : Enc) (s : State) : exec (.wake e) s = execWake e s := rfl
theorem exec_haltc (e : Enc) (s : State) : exec (.haltc e) s = execHaltc e s := rfl
theorem exec_inspect (e : Enc) (s : State) : exec (.inspect e) s = execInspect e s := rfl
theorem exec_trap (e : Enc) (s : State) : exec (.trap e) s = execTrap e s := rfl
theorem exec_ecall (e : Enc) (s : State) : exec (.ecall e) s = execEcall e s := rfl
theorem exec_sretResume (e : Enc) (s : State) : exec (.sretResume e) s = execSretResume e s := rfl
theorem exec_sretRedeliver (e : Enc) (s : State) : exec (.sretRedeliver e) s = execSretRedeliver e s := rfl
theorem exec_sretDrop (e : Enc) (s : State) : exec (.sretDrop e) s = execSretDrop e s := rfl
theorem exec_sretHalt (e : Enc) (s : State) : exec (.sretHalt e) s = execSretHalt e s := rfl
theorem exec_ovlret (e : Enc) (s : State) : exec (.ovlret e) s = execOvlret e s := rfl
theorem exec_ctxsave (e : Enc) (s : State) : exec (.ctxsave e) s = execCtxsave e s := rfl
theorem exec_ctxload (e : Enc) (s : State) : exec (.ctxload e) s = execCtxload e s := rfl
theorem exec_xbound (e : Enc) (s : State) : exec (.xbound e) s = execXbound e s := rfl
theorem exec_migr (e : Enc) (s : State) : exec (.migr e) s = execMigr e s := rfl
theorem exec_fpModeWrite (v : W) (s : State) : exec (.fpModeWrite v) s = execFpModeWrite v s := rfl
theorem exec_fpFlagsClear (v : W) (s : State) : exec (.fpFlagsClear v) s = execFpFlagsClear v s := rfl
theorem exec_sroundSeedWrite (v : W) (s : State) : exec (.sroundSeedWrite v) s = execSroundSeedWrite v s := rfl
theorem exec_codeWindowWrite (upper : Bool) (v : W) (s : State) : exec (.codeWindowWrite upper v) s = execCodeWindowWrite upper v s := rfl
theorem exec_mcfgRegisterWrite (n : Nat) (v : W) (s : State) : exec (.mcfgRegisterWrite n v) s = execMcfgRegisterWrite n v s := rfl
theorem exec_taskEntryWrite (n : Nat) (v : W) (s : State) : exec (.taskEntryWrite n v) s = execTaskEntryWrite n v s := rfl
theorem exec_ringEnable (n : Nat) (v : W) (s : State) : exec (.ringEnable n v) s = execRingEnable n v s := rfl
theorem exec_ringDisable (n : Nat) (v : W) (s : State) : exec (.ringDisable n v) s = execRingDisable n v s := rfl
theorem exec_ringConsWrite (n : Nat) (v : W) (s : State) : exec (.ringConsWrite n v) s = execRingConsWrite n v s := rfl
theorem exec_engctxWrite (n : Nat) (v : W) (s : State) : exec (.engctxWrite n v) s = execEngctxWrite n v s := rfl
theorem exec_vectorQueueExecute (c : CoreId) (s : State) : exec (.vectorQueueExecute c) s = execVectorQueueExecute c s := rfl
theorem exec_matrixCommandStart (t : Site) (s : State) : exec (.matrixCommandStart t) s = execMatrixCommandStart t s := rfl
theorem exec_matrixCommandRetire (t : Site) (id : Nat) (s : State) : exec (.matrixCommandRetire t id) s = execMatrixCommandRetire t id s := rfl
theorem exec_chainFormed (t : Site) (s : State) : exec (.chainFormed t) s = execChainFormed t s := rfl
theorem exec_overlayEntry (addr : W) (s : State) : exec (.overlayEntry addr) s = execOverlayEntry addr s := rfl
theorem exec_bankRmw (t : Site) (i : Nat) (s : State) : exec (.bankRmw t i) s = execBankRmw t i s := rfl
theorem exec_packetHop (p waited : Nat) (s : State) : exec (.packetHop p waited) s = execPacketHop p waited s := rfl
theorem exec_packetArrival (p : Nat) (s : State) : exec (.packetArrival p) s = execPacketArrival p s := rfl
theorem exec_ackArrival (p : Nat) (s : State) : exec (.ackArrival p) s = execAckArrival p s := rfl
theorem exec_unreachableReturn (p : Nat) (s : State) : exec (.unreachableReturn p) s = execUnreachableReturn p s := rfl
theorem exec_reinjection (p waited : Nat) (s : State) : exec (.reinjection p waited) s = execReinjection p waited s := rfl
theorem exec_reservationLapse (c : CoreId) (chan waited : Nat) (s : State) : exec (.reservationLapse c chan waited) s = execReservationLapse c chan waited s := rfl
theorem exec_putArrival (p : Nat) (s : State) : exec (.putArrival p) s = execPutArrival p s := rfl
theorem exec_getRequestArrival (p : Nat) (s : State) : exec (.getRequestArrival p) s = execGetRequestArrival p s := rfl
theorem exec_getReplyArrival (p : Nat) (s : State) : exec (.getReplyArrival p) s = execGetReplyArrival p s := rfl
theorem exec_ramoRequestArrival (p : Nat) (s : State) : exec (.ramoRequestArrival p) s = execRamoRequestArrival p s := rfl
theorem exec_ramoResultArrival (p : Nat) (s : State) : exec (.ramoResultArrival p) s = execRamoResultArrival p s := rfl
theorem exec_clusterAccess (p : Nat) (s : State) : exec (.clusterAccess p) s = execClusterAccess p s := rfl
theorem exec_clusterAccessReply (p : Nat) (s : State) : exec (.clusterAccessReply p) s = execClusterAccessReply p s := rfl
theorem exec_handlerDispatch (c : CoreId) (s : State) : exec (.handlerDispatch c) s = execHandlerDispatch c s := rfl
theorem exec_hpPreemption (c : CoreId) (s : State) : exec (.hpPreemption c) s = execHpPreemption c s := rfl
theorem exec_watchdog (c : CoreId) (s : State) : exec (.watchdog c) s = execWatchdog c s := rfl
theorem exec_maskOverrun (c : CoreId) (s : State) : exec (.maskOverrun c) s = execMaskOverrun c s := rfl
theorem exec_wakeRequest (p : Nat) (s : State) : exec (.wakeRequest p) s = execWakeRequest p s := rfl
theorem exec_haltcRequest (p : Nat) (s : State) : exec (.haltcRequest p) s = execHaltcRequest p s := rfl
theorem exec_inspectRequest (p : Nat) (s : State) : exec (.inspectRequest p) s = execInspectRequest p s := rfl
theorem exec_inspectReply (p : Nat) (s : State) : exec (.inspectReply p) s = execInspectReply p s := rfl
theorem exec_engineOperationStart (n : Nat) (s : State) : exec (.engineOperationStart n) s = execEngineOperationStart n s := rfl
theorem exec_engineBurst (n : Nat) (s : State) : exec (.engineBurst n) s = execEngineBurst n s := rfl
theorem exec_translationResolved (n pasid va pa len : Nat) (r w : Bool) (s : State) : exec (.translationResolved n pasid va pa len r w) s = execTranslationResolved n pasid va pa len r w s := rfl
theorem exec_engineOperationComplete (n : Nat) (s : State) : exec (.engineOperationComplete n) s = execEngineOperationComplete n s := rfl
theorem exec_engineContextBind (n pasid : Nat) (t : Site) (slot : Nat) (count : W) (s : State) : exec (.engineContextBind n pasid t slot count) s = execEngineContextBind n pasid t slot count s := rfl
theorem exec_ownerTransferStart (region : Nat) (fabric : Bool) (s : State) : exec (.ownerTransferStart region fabric) s = execOwnerTransferStart region fabric s := rfl
theorem exec_ownerTransferComplete (region : Nat) (s : State) : exec (.ownerTransferComplete region) s = execOwnerTransferComplete region s := rfl
theorem exec_qdoorWrite (ctx : Nat) (v : W) (s : State) : exec (.qdoorWrite ctx v) s = execQdoorWrite ctx v s := rfl
theorem exec_qinfoVenWrite (ctx : Nat) (ven : Bool) (s : State) : exec (.qinfoVenWrite ctx ven) s = execQinfoVenWrite ctx ven s := rfl
theorem exec_launchPacketTake (ctx : Nat) (s : State) : exec (.launchPacketTake ctx) s = execLaunchPacketTake ctx s := rfl
theorem exec_placementAdmission (ctx : Nat) (s : State) : exec (.placementAdmission ctx) s = execPlacementAdmission ctx s := rfl
theorem exec_launchMessageDelivery (ctx : Nat) (t : Site) (s : State) : exec (.launchMessageDelivery ctx t) s = execLaunchMessageDelivery ctx t s := rfl
theorem exec_launchMessageWrite (c : CoreId) (s : State) : exec (.launchMessageWrite c) s = execLaunchMessageWrite c s := rfl
theorem exec_clusterLeave (place cluster : Nat) (s : State) : exec (.clusterLeave place cluster) s = execClusterLeave place cluster s := rfl
theorem exec_launchStatusWord (ctx : Nat) (t : Site) (s : State) : exec (.launchStatusWord ctx t) s = execLaunchStatusWord ctx t s := rfl
theorem exec_regionBind (t : Site) (vni name : Nat) (key prev : BitVec 256) (s : State) : exec (.regionBind t vni name key prev) s = execRegionBind t vni name key prev s := rfl
theorem exec_regionUnbind (t : Site) (s : State) : exec (.regionUnbind t) s = execRegionUnbind t s := rfl
theorem exec_transitTableWrite (t : Site) (vni : Nat) (permit : Bool) (s : State) : exec (.transitTableWrite t vni permit) s = execTransitTableWrite t vni permit s := rfl
theorem exec_bindingMapWrite (t : Site) (name : Nat) (entry : BitVec 16) (s : State) : exec (.bindingMapWrite t name entry) s = execBindingMapWrite t name entry s := rfl
theorem exec_quiescenceEvaluation (vni threshold : Nat) (s : State) : exec (.quiescenceEvaluation vni threshold) s = execQuiescenceEvaluation vni threshold s := rfl
theorem exec_trapDelivery (c : CoreId) (s : State) : exec (.trapDelivery c) s = execTrapDelivery c s := rfl
theorem exec_islandTrapAnswer (c : CoreId) (mode : Nat) (status : W) (s : State) : exec (.islandTrapAnswer c mode status) s = execIslandTrapAnswer c mode status s := rfl
theorem exec_asyncTrapTake (c : CoreId) (s : State) : exec (.asyncTrapTake c) s = execAsyncTrapTake c s := rfl
theorem exec_placementTeardown (place : Nat) (s : State) : exec (.placementTeardown place) s = execPlacementTeardown place s := rfl
theorem exec_preemptionSwapOut (place island : Nat) (s : State) : exec (.preemptionSwapOut place island) s = execPreemptionSwapOut place island s := rfl
theorem exec_swapIn (place : Nat) (sites : List Site) (s : State) : exec (.swapIn place sites) s = execSwapIn place sites s := rfl
theorem exec_swappedTargetService (p : Nat) (s : State) : exec (.swappedTargetService p) s = execSwappedTargetService p s := rfl
theorem exec_migration (t d : Site) (s : State) : exec (.migration t d) s = execMigration t d s := rfl
theorem exec_forwardingClosed (t : Site) (s : State) : exec (.forwardingClosed t) s = execForwardingClosed t s := rfl
theorem exec_collectiveJoinRequest (cs : List CoreId) (s : State) : exec (.collectiveJoinRequest cs) s = execCollectiveJoinRequest cs s := rfl
theorem exec_collectiveJoinAnswer (c : CoreId) (s : State) : exec (.collectiveJoinAnswer c) s = execCollectiveJoinAnswer c s := rfl
theorem exec_collectiveResult (vni group seq rank : Nat) (s : State) : exec (.collectiveResult vni group seq rank) s = execCollectiveResult vni group seq rank s := rfl
theorem exec_rootJoinTimeout (vni group seq waited : Nat) (s : State) : exec (.rootJoinTimeout vni group seq waited) s = execRootJoinTimeout vni group seq waited s := rfl
theorem exec_nodeTimeout (vni group seq waited : Nat) (s : State) : exec (.nodeTimeout vni group seq waited) s = execNodeTimeout vni group seq waited s := rfl
theorem exec_collectiveAbortRequest (c : CoreId) (s : State) : exec (.collectiveAbortRequest c) s = execCollectiveAbortRequest c s := rfl
theorem exec_abortReceipt (vni group seq rank : Nat) (s : State) : exec (.abortReceipt vni group seq rank) s = execAbortReceipt vni group seq rank s := rfl
theorem exec_barrierArrival (c : CoreId) (s : State) : exec (.barrierArrival c) s = execBarrierArrival c s := rfl
theorem exec_demandPostReceipt (c : CoreId) (s : State) : exec (.demandPostReceipt c) s = execDemandPostReceipt c s := rfl
theorem exec_dpostAnswer (c : CoreId) (s : State) : exec (.dpostAnswer c) s = execDpostAnswer c s := rfl
theorem exec_mainEndReport (t : Site) (s : State) : exec (.mainEndReport t) s = execMainEndReport t s := rfl
theorem exec_labelAssign (xid vdev : Nat) (s : State) : exec (.labelAssign xid vdev) s = execLabelAssign xid vdev s := rfl
theorem exec_calendarEntryDelivery (xid vdev rank : Nat) (s : State) : exec (.calendarEntryDelivery xid vdev rank) s = execCalendarEntryDelivery xid vdev rank s := rfl
theorem exec_exchangePhaseStart (t : Site) (s : State) : exec (.exchangePhaseStart t) s = execExchangePhaseStart t s := rfl
theorem exec_readyReceipt (t : Site) (s : State) : exec (.readyReceipt t) s = execReadyReceipt t s := rfl
theorem exec_endMarkerArrival (t : Site) (s : State) : exec (.endMarkerArrival t) s = execEndMarkerArrival t s := rfl
theorem exec_phaseCompletionReport (t : Site) (s : State) : exec (.phaseCompletionReport t) s = execPhaseCompletionReport t s := rfl
theorem exec_heartbeat (xid vdev : Nat) (s : State) : exec (.heartbeat xid vdev) s = execHeartbeat xid vdev s := rfl
theorem exec_takeover (xid vdev waited : Nat) (s : State) : exec (.takeover xid vdev waited) s = execTakeover xid vdev waited s := rfl
theorem exec_takeoverReceipt (xid vdev rank : Nat) (s : State) : exec (.takeoverReceipt xid vdev rank) s = execTakeoverReceipt xid vdev rank s := rfl
theorem exec_lostEntryWrite (t : Site) (s : State) : exec (.lostEntryWrite t) s = execLostEntryWrite t s := rfl
theorem exec_frameReceive (port : Nat) (frame : List Byte) (fcs : BitVec 32) (s : State) : exec (.frameReceive port frame fcs) s = execFrameReceive port frame fcs s := rfl
theorem exec_xoffRepeat (port rule waited : Nat) (s : State) : exec (.xoffRepeat port rule waited) s = execXoffRepeat port rule waited s := rfl
theorem exec_consumeWordReread (port rule : Nat) (s : State) : exec (.consumeWordReread port rule) s = execConsumeWordReread port rule s := rfl
theorem exec_ingruleEnable (port rule : Nat) (w0 : W) (cap : Cap) (w3 e0 e1 e2 : W) (s : State) : exec (.ingruleEnable port rule w0 cap w3 e0 e1 e2) s = execIngruleEnable port rule w0 cap w3 e0 e1 e2 s := rfl
theorem exec_peerPauseReceive (port prio quanta : Nat) (s : State) : exec (.peerPauseReceive port prio quanta) s = execPeerPauseReceive port prio quanta s := rfl
theorem exec_egressTransmit (port prio : Nat) (s : State) : exec (.egressTransmit port prio) s = execEgressTransmit port prio s := rfl
theorem exec_linkTraining (link : Nat) (asksCache : Bool) (s : State) : exec (.linkTraining link asksCache) s = execLinkTraining link asksCache s := rfl
theorem exec_keyChange (vni : Nat) (k1 k2 : BitVec 256) (s : State) : exec (.keyChange vni k1 k2) s = execKeyChange vni k1 k2 s := rfl
theorem exec_caprevokeAnswer (c : CoreId) (s : State) : exec (.caprevokeAnswer c) s = execCaprevokeAnswer c s := rfl
theorem exec_ecallAnswer (c : CoreId) (s : State) : exec (.ecallAnswer c) s = execEcallAnswer c s := rfl
theorem exec_ecallVersion (c : CoreId) (s : State) : exec (.ecallVersion c) s = execEcallVersion c s := rfl
theorem exec_ecallClockSet (c : CoreId) (s : State) : exec (.ecallClockSet c) s = execEcallClockSet c s := rfl
theorem exec_ecallClockGet (c : CoreId) (s : State) : exec (.ecallClockGet c) s = execEcallClockGet c s := rfl
theorem exec_ecallGateway (c : CoreId) (s : State) : exec (.ecallGateway c) s = execEcallGateway c s := rfl
theorem exec_ecallStorage (c : CoreId) (s : State) : exec (.ecallStorage c) s = execEcallStorage c s := rfl
theorem exec_ecallAttest (c : CoreId) (s : State) : exec (.ecallAttest c) s = execEcallAttest c s := rfl
theorem exec_thermalThrottle (field temp power : Nat) (s : State) : exec (.thermalThrottle field temp power) s = execThermalThrottle field temp power s := rfl
theorem exec_thermalRecovery (field temp waited : Nat) (s : State) : exec (.thermalRecovery field temp waited) s = execThermalRecovery field temp waited s := rfl
theorem exec_overtempHalt (temp : Nat) (s : State) : exec (.overtempHalt temp) s = execOvertempHalt temp s := rfl
theorem exec_coolantLimitReport (inlet flow : Nat) (s : State) : exec (.coolantLimitReport inlet flow) s = execCoolantLimitReport inlet flow s := rfl
theorem exec_powerOn (fused failed : List Site) (fw : List FwStage) (key : BitVec 256) (s : State) : exec (.powerOn fused failed fw key) s = execPowerOn fused failed fw key s := rfl
theorem exec_siteFailure (t : Site) (s : State) : exec (.siteFailure t) s = execSiteFailure t s := rfl
theorem exec_routeBundleStage (t : Site) (header sect : List Byte) (s : State) : exec (.routeBundleStage t header sect) s = execRouteBundleStage t header sect s := rfl
theorem exec_routeFlip (epoch : Nat) (vnis : List Nat) (routers : List Site) (s : State) : exec (.routeFlip epoch vnis routers) s = execRouteFlip epoch vnis routers s := rfl
theorem exec_scrubPass (t : Site) (plane addr : Nat) (double : Bool) (s : State) : exec (.scrubPass t plane addr double) s = execScrubPass t plane addr double s := rfl
theorem exec_flitReceive (link seq : Nat) (bytes : List Byte) (crc : BitVec 32) (s : State) : exec (.flitReceive link seq bytes crc) s = execFlitReceive link seq bytes crc s := rfl
theorem exec_linkRetrain (link waited : Nat) (ok : Bool) (s : State) : exec (.linkRetrain link waited ok) s = execLinkRetrain link waited ok s := rfl
theorem exec_cabortDecision (c : CoreId) (s : State) : exec (.cabortDecision c) s = execCabortDecision c s := rfl
theorem exec_migrRequest (c : CoreId) (policy : Bool) (s : State) : exec (.migrRequest c policy) s = execMigrRequest c policy s := rfl
theorem exec_migrAnswer (c : CoreId) (s : State) : exec (.migrAnswer c) s = execMigrAnswer c s := rfl
theorem exec_virtualDeviceBind (vf x0 y0 cols rows : Nat) (vnis ctxs pasids engines : List Nat) (quotas : List Nat) (xquota : Nat) (s : State) : exec (.virtualDeviceBind vf x0 y0 cols rows vnis ctxs pasids engines quotas xquota) s = execVirtualDeviceBind vf x0 y0 cols rows vnis ctxs pasids engines quotas xquota s := rfl
theorem exec_grantReport (xid vdev rank : Nat) (s : State) : exec (.grantReport xid vdev rank) s = execGrantReport xid vdev rank s := rfl

end Sys2Proof.Machine
end

