-- ==== Sys2Proof/Laws/State.lean ====
section
/-! SUPPORT. What each update of the state, of a tile and of a core leaves in every field it does not write: one lemma per field and update,
so that no proof unfolds a record update. -/

namespace Sys2Proof.Machine


/-! ### State.setTile -/

@[simp] theorem State.setTile_moves (s : State) (t : Site) (x : Tile) : (State.setTile s t x).moves = s.moves := rfl
@[simp] theorem State.setTile_cur (s : State) (t : Site) (x : Tile) : (State.setTile s t x).cur = s.cur := rfl
@[simp] theorem State.setTile_fresh (s : State) (t : Site) (x : Tile) : (State.setTile s t x).fresh = s.fresh := rfl
@[simp] theorem State.setTile_nextPkt (s : State) (t : Site) (x : Tile) : (State.setTile s t x).nextPkt = s.nextPkt := rfl
@[simp] theorem State.setTile_dead (s : State) (t : Site) (x : Tile) : (State.setTile s t x).dead = s.dead := rfl
@[simp] theorem State.setTile_holes (s : State) (t : Site) (x : Tile) : (State.setTile s t x).holes = s.holes := rfl
@[simp] theorem State.setTile_booted (s : State) (t : Site) (x : Tile) : (State.setTile s t x).booted = s.booted := rfl
@[simp] theorem State.setTile_floorFail (s : State) (t : Site) (x : Tile) : (State.setTile s t x).floorFail = s.floorFail := rfl
@[simp] theorem State.setTile_fwVersion (s : State) (t : Site) (x : Tile) : (State.setTile s t x).fwVersion = s.fwVersion := rfl
@[simp] theorem State.setTile_serviceKey (s : State) (t : Site) (x : Tile) : (State.setTile s t x).serviceKey = s.serviceKey := rfl
@[simp] theorem State.setTile_pkts (s : State) (t : Site) (x : Tile) : (State.setTile s t x).pkts = s.pkts := rfl
@[simp] theorem State.setTile_edge (s : State) (t : Site) (x : Tile) : (State.setTile s t x).edge = s.edge := rfl
@[simp] theorem State.setTile_hostMem (s : State) (t : Site) (x : Tile) : (State.setTile s t x).hostMem = s.hostMem := rfl
@[simp] theorem State.setTile_edgePoison (s : State) (t : Site) (x : Tile) : (State.setTile s t x).edgePoison = s.edgePoison := rfl
@[simp] theorem State.setTile_pasids (s : State) (t : Site) (x : Tile) : (State.setTile s t x).pasids = s.pasids := rfl
@[simp] theorem State.setTile_tables (s : State) (t : Site) (x : Tile) : (State.setTile s t x).tables = s.tables := rfl
@[simp] theorem State.setTile_owners (s : State) (t : Site) (x : Tile) : (State.setTile s t x).owners = s.owners := rfl
@[simp] theorem State.setTile_engines (s : State) (t : Site) (x : Tile) : (State.setTile s t x).engines = s.engines := rfl
@[simp] theorem State.setTile_engTurn (s : State) (t : Site) (x : Tile) : (State.setTile s t x).engTurn = s.engTurn := rfl
@[simp] theorem State.setTile_regions (s : State) (t : Site) (x : Tile) : (State.setTile s t x).regions = s.regions := rfl
@[simp] theorem State.setTile_vdevs (s : State) (t : Site) (x : Tile) : (State.setTile s t x).vdevs = s.vdevs := rfl
@[simp] theorem State.setTile_funcs (s : State) (t : Site) (x : Tile) : (State.setTile s t x).funcs = s.funcs := rfl
@[simp] theorem State.setTile_hostOut (s : State) (t : Site) (x : Tile) : (State.setTile s t x).hostOut = s.hostOut := rfl
@[simp] theorem State.setTile_qctxs (s : State) (t : Site) (x : Tile) : (State.setTile s t x).qctxs = s.qctxs := rfl
@[simp] theorem State.setTile_places (s : State) (t : Site) (x : Tile) : (State.setTile s t x).places = s.places := rfl
@[simp] theorem State.setTile_saved (s : State) (t : Site) (x : Tile) : (State.setTile s t x).saved = s.saved := rfl
@[simp] theorem State.setTile_launches (s : State) (t : Site) (x : Tile) : (State.setTile s t x).launches = s.launches := rfl
@[simp] theorem State.setTile_groups (s : State) (t : Site) (x : Tile) : (State.setTile s t x).groups = s.groups := rfl
@[simp] theorem State.setTile_insts (s : State) (t : Site) (x : Tile) : (State.setTile s t x).insts = s.insts := rfl
@[simp] theorem State.setTile_barGens (s : State) (t : Site) (x : Tile) : (State.setTile s t x).barGens = s.barGens := rfl
@[simp] theorem State.setTile_exchs (s : State) (t : Site) (x : Tile) : (State.setTile s t x).exchs = s.exchs := rfl
@[simp] theorem State.setTile_arbitersDown (s : State) (t : Site) (x : Tile) : (State.setTile s t x).arbitersDown = s.arbitersDown := rfl
@[simp] theorem State.setTile_ports (s : State) (t : Site) (x : Tile) : (State.setTile s t x).ports = s.ports := rfl
@[simp] theorem State.setTile_seqctrs (s : State) (t : Site) (x : Tile) : (State.setTile s t x).seqctrs = s.seqctrs := rfl
@[simp] theorem State.setTile_links (s : State) (t : Site) (x : Tile) : (State.setTile s t x).links = s.links := rfl
@[simp] theorem State.setTile_hostLinks (s : State) (t : Site) (x : Tile) : (State.setTile s t x).hostLinks = s.hostLinks := rfl
@[simp] theorem State.setTile_plan (s : State) (t : Site) (x : Tile) : (State.setTile s t x).plan = s.plan := rfl
@[simp] theorem State.setTile_bands (s : State) (t : Site) (x : Tile) : (State.setTile s t x).bands = s.bands := rfl
@[simp] theorem State.setTile_throttled (s : State) (t : Site) (x : Tile) : (State.setTile s t x).throttled = s.throttled := rfl
@[simp] theorem State.setTile_duty (s : State) (t : Site) (x : Tile) : (State.setTile s t x).duty = s.duty := rfl
@[simp] theorem State.setTile_powerCap (s : State) (t : Site) (x : Tile) : (State.setTile s t x).powerCap = s.powerCap := rfl
@[simp] theorem State.setTile_meas (s : State) (t : Site) (x : Tile) : (State.setTile s t x).meas = s.meas := rfl
@[simp] theorem State.setTile_storage (s : State) (t : Site) (x : Tile) : (State.setTile s t x).storage = s.storage := rfl
@[simp] theorem State.setTile_reports (s : State) (t : Site) (x : Tile) : (State.setTile s t x).reports = s.reports := rfl
@[simp] theorem State.setTile_treeAlt (s : State) (t : Site) (x : Tile) : (State.setTile s t x).treeAlt = s.treeAlt := rfl

/-! ### State.modTile -/

@[simp] theorem State.modTile_moves (s : State) (t : Site) (f : Tile → Tile) : (State.modTile s t f).moves = s.moves := rfl
@[simp] theorem State.modTile_cur (s : State) (t : Site) (f : Tile → Tile) : (State.modTile s t f).cur = s.cur := rfl
@[simp] theorem State.modTile_fresh (s : State) (t : Site) (f : Tile → Tile) : (State.modTile s t f).fresh = s.fresh := rfl
@[simp] theorem State.modTile_nextPkt (s : State) (t : Site) (f : Tile → Tile) : (State.modTile s t f).nextPkt = s.nextPkt := rfl
@[simp] theorem State.modTile_dead (s : State) (t : Site) (f : Tile → Tile) : (State.modTile s t f).dead = s.dead := rfl
@[simp] theorem State.modTile_holes (s : State) (t : Site) (f : Tile → Tile) : (State.modTile s t f).holes = s.holes := rfl
@[simp] theorem State.modTile_booted (s : State) (t : Site) (f : Tile → Tile) : (State.modTile s t f).booted = s.booted := rfl
@[simp] theorem State.modTile_floorFail (s : State) (t : Site) (f : Tile → Tile) : (State.modTile s t f).floorFail = s.floorFail := rfl
@[simp] theorem State.modTile_fwVersion (s : State) (t : Site) (f : Tile → Tile) : (State.modTile s t f).fwVersion = s.fwVersion := rfl
@[simp] theorem State.modTile_serviceKey (s : State) (t : Site) (f : Tile → Tile) : (State.modTile s t f).serviceKey = s.serviceKey := rfl
@[simp] theorem State.modTile_pkts (s : State) (t : Site) (f : Tile → Tile) : (State.modTile s t f).pkts = s.pkts := rfl
@[simp] theorem State.modTile_edge (s : State) (t : Site) (f : Tile → Tile) : (State.modTile s t f).edge = s.edge := rfl
@[simp] theorem State.modTile_hostMem (s : State) (t : Site) (f : Tile → Tile) : (State.modTile s t f).hostMem = s.hostMem := rfl
@[simp] theorem State.modTile_edgePoison (s : State) (t : Site) (f : Tile → Tile) : (State.modTile s t f).edgePoison = s.edgePoison := rfl
@[simp] theorem State.modTile_pasids (s : State) (t : Site) (f : Tile → Tile) : (State.modTile s t f).pasids = s.pasids := rfl
@[simp] theorem State.modTile_tables (s : State) (t : Site) (f : Tile → Tile) : (State.modTile s t f).tables = s.tables := rfl
@[simp] theorem State.modTile_owners (s : State) (t : Site) (f : Tile → Tile) : (State.modTile s t f).owners = s.owners := rfl
@[simp] theorem State.modTile_engines (s : State) (t : Site) (f : Tile → Tile) : (State.modTile s t f).engines = s.engines := rfl
@[simp] theorem State.modTile_engTurn (s : State) (t : Site) (f : Tile → Tile) : (State.modTile s t f).engTurn = s.engTurn := rfl
@[simp] theorem State.modTile_regions (s : State) (t : Site) (f : Tile → Tile) : (State.modTile s t f).regions = s.regions := rfl
@[simp] theorem State.modTile_vdevs (s : State) (t : Site) (f : Tile → Tile) : (State.modTile s t f).vdevs = s.vdevs := rfl
@[simp] theorem State.modTile_funcs (s : State) (t : Site) (f : Tile → Tile) : (State.modTile s t f).funcs = s.funcs := rfl
@[simp] theorem State.modTile_hostOut (s : State) (t : Site) (f : Tile → Tile) : (State.modTile s t f).hostOut = s.hostOut := rfl
@[simp] theorem State.modTile_qctxs (s : State) (t : Site) (f : Tile → Tile) : (State.modTile s t f).qctxs = s.qctxs := rfl
@[simp] theorem State.modTile_places (s : State) (t : Site) (f : Tile → Tile) : (State.modTile s t f).places = s.places := rfl
@[simp] theorem State.modTile_saved (s : State) (t : Site) (f : Tile → Tile) : (State.modTile s t f).saved = s.saved := rfl
@[simp] theorem State.modTile_launches (s : State) (t : Site) (f : Tile → Tile) : (State.modTile s t f).launches = s.launches := rfl
@[simp] theorem State.modTile_groups (s : State) (t : Site) (f : Tile → Tile) : (State.modTile s t f).groups = s.groups := rfl
@[simp] theorem State.modTile_insts (s : State) (t : Site) (f : Tile → Tile) : (State.modTile s t f).insts = s.insts := rfl
@[simp] theorem State.modTile_barGens (s : State) (t : Site) (f : Tile → Tile) : (State.modTile s t f).barGens = s.barGens := rfl
@[simp] theorem State.modTile_exchs (s : State) (t : Site) (f : Tile → Tile) : (State.modTile s t f).exchs = s.exchs := rfl
@[simp] theorem State.modTile_arbitersDown (s : State) (t : Site) (f : Tile → Tile) : (State.modTile s t f).arbitersDown = s.arbitersDown := rfl
@[simp] theorem State.modTile_ports (s : State) (t : Site) (f : Tile → Tile) : (State.modTile s t f).ports = s.ports := rfl
@[simp] theorem State.modTile_seqctrs (s : State) (t : Site) (f : Tile → Tile) : (State.modTile s t f).seqctrs = s.seqctrs := rfl
@[simp] theorem State.modTile_links (s : State) (t : Site) (f : Tile → Tile) : (State.modTile s t f).links = s.links := rfl
@[simp] theorem State.modTile_hostLinks (s : State) (t : Site) (f : Tile → Tile) : (State.modTile s t f).hostLinks = s.hostLinks := rfl
@[simp] theorem State.modTile_plan (s : State) (t : Site) (f : Tile → Tile) : (State.modTile s t f).plan = s.plan := rfl
@[simp] theorem State.modTile_bands (s : State) (t : Site) (f : Tile → Tile) : (State.modTile s t f).bands = s.bands := rfl
@[simp] theorem State.modTile_throttled (s : State) (t : Site) (f : Tile → Tile) : (State.modTile s t f).throttled = s.throttled := rfl
@[simp] theorem State.modTile_duty (s : State) (t : Site) (f : Tile → Tile) : (State.modTile s t f).duty = s.duty := rfl
@[simp] theorem State.modTile_powerCap (s : State) (t : Site) (f : Tile → Tile) : (State.modTile s t f).powerCap = s.powerCap := rfl
@[simp] theorem State.modTile_meas (s : State) (t : Site) (f : Tile → Tile) : (State.modTile s t f).meas = s.meas := rfl
@[simp] theorem State.modTile_storage (s : State) (t : Site) (f : Tile → Tile) : (State.modTile s t f).storage = s.storage := rfl
@[simp] theorem State.modTile_reports (s : State) (t : Site) (f : Tile → Tile) : (State.modTile s t f).reports = s.reports := rfl
@[simp] theorem State.modTile_treeAlt (s : State) (t : Site) (f : Tile → Tile) : (State.modTile s t f).treeAlt = s.treeAlt := rfl

/-! ### State.setCore -/

@[simp] theorem State.setCore_moves (s : State) (c : CoreId) (x : Core) : (State.setCore s c x).moves = s.moves := rfl
@[simp] theorem State.setCore_cur (s : State) (c : CoreId) (x : Core) : (State.setCore s c x).cur = s.cur := rfl
@[simp] theorem State.setCore_fresh (s : State) (c : CoreId) (x : Core) : (State.setCore s c x).fresh = s.fresh := rfl
@[simp] theorem State.setCore_nextPkt (s : State) (c : CoreId) (x : Core) : (State.setCore s c x).nextPkt = s.nextPkt := rfl
@[simp] theorem State.setCore_dead (s : State) (c : CoreId) (x : Core) : (State.setCore s c x).dead = s.dead := rfl
@[simp] theorem State.setCore_holes (s : State) (c : CoreId) (x : Core) : (State.setCore s c x).holes = s.holes := rfl
@[simp] theorem State.setCore_booted (s : State) (c : CoreId) (x : Core) : (State.setCore s c x).booted = s.booted := rfl
@[simp] theorem State.setCore_floorFail (s : State) (c : CoreId) (x : Core) : (State.setCore s c x).floorFail = s.floorFail := rfl
@[simp] theorem State.setCore_fwVersion (s : State) (c : CoreId) (x : Core) : (State.setCore s c x).fwVersion = s.fwVersion := rfl
@[simp] theorem State.setCore_serviceKey (s : State) (c : CoreId) (x : Core) : (State.setCore s c x).serviceKey = s.serviceKey := rfl
@[simp] theorem State.setCore_pkts (s : State) (c : CoreId) (x : Core) : (State.setCore s c x).pkts = s.pkts := rfl
@[simp] theorem State.setCore_edge (s : State) (c : CoreId) (x : Core) : (State.setCore s c x).edge = s.edge := rfl
@[simp] theorem State.setCore_hostMem (s : State) (c : CoreId) (x : Core) : (State.setCore s c x).hostMem = s.hostMem := rfl
@[simp] theorem State.setCore_edgePoison (s : State) (c : CoreId) (x : Core) : (State.setCore s c x).edgePoison = s.edgePoison := rfl
@[simp] theorem State.setCore_pasids (s : State) (c : CoreId) (x : Core) : (State.setCore s c x).pasids = s.pasids := rfl
@[simp] theorem State.setCore_tables (s : State) (c : CoreId) (x : Core) : (State.setCore s c x).tables = s.tables := rfl
@[simp] theorem State.setCore_owners (s : State) (c : CoreId) (x : Core) : (State.setCore s c x).owners = s.owners := rfl
@[simp] theorem State.setCore_engines (s : State) (c : CoreId) (x : Core) : (State.setCore s c x).engines = s.engines := rfl
@[simp] theorem State.setCore_engTurn (s : State) (c : CoreId) (x : Core) : (State.setCore s c x).engTurn = s.engTurn := rfl
@[simp] theorem State.setCore_regions (s : State) (c : CoreId) (x : Core) : (State.setCore s c x).regions = s.regions := rfl
@[simp] theorem State.setCore_vdevs (s : State) (c : CoreId) (x : Core) : (State.setCore s c x).vdevs = s.vdevs := rfl
@[simp] theorem State.setCore_funcs (s : State) (c : CoreId) (x : Core) : (State.setCore s c x).funcs = s.funcs := rfl
@[simp] theorem State.setCore_hostOut (s : State) (c : CoreId) (x : Core) : (State.setCore s c x).hostOut = s.hostOut := rfl
@[simp] theorem State.setCore_qctxs (s : State) (c : CoreId) (x : Core) : (State.setCore s c x).qctxs = s.qctxs := rfl
@[simp] theorem State.setCore_places (s : State) (c : CoreId) (x : Core) : (State.setCore s c x).places = s.places := rfl
@[simp] theorem State.setCore_saved (s : State) (c : CoreId) (x : Core) : (State.setCore s c x).saved = s.saved := rfl
@[simp] theorem State.setCore_launches (s : State) (c : CoreId) (x : Core) : (State.setCore s c x).launches = s.launches := rfl
@[simp] theorem State.setCore_groups (s : State) (c : CoreId) (x : Core) : (State.setCore s c x).groups = s.groups := rfl
@[simp] theorem State.setCore_insts (s : State) (c : CoreId) (x : Core) : (State.setCore s c x).insts = s.insts := rfl
@[simp] theorem State.setCore_barGens (s : State) (c : CoreId) (x : Core) : (State.setCore s c x).barGens = s.barGens := rfl
@[simp] theorem State.setCore_exchs (s : State) (c : CoreId) (x : Core) : (State.setCore s c x).exchs = s.exchs := rfl
@[simp] theorem State.setCore_arbitersDown (s : State) (c : CoreId) (x : Core) : (State.setCore s c x).arbitersDown = s.arbitersDown := rfl
@[simp] theorem State.setCore_ports (s : State) (c : CoreId) (x : Core) : (State.setCore s c x).ports = s.ports := rfl
@[simp] theorem State.setCore_seqctrs (s : State) (c : CoreId) (x : Core) : (State.setCore s c x).seqctrs = s.seqctrs := rfl
@[simp] theorem State.setCore_links (s : State) (c : CoreId) (x : Core) : (State.setCore s c x).links = s.links := rfl
@[simp] theorem State.setCore_hostLinks (s : State) (c : CoreId) (x : Core) : (State.setCore s c x).hostLinks = s.hostLinks := rfl
@[simp] theorem State.setCore_plan (s : State) (c : CoreId) (x : Core) : (State.setCore s c x).plan = s.plan := rfl
@[simp] theorem State.setCore_bands (s : State) (c : CoreId) (x : Core) : (State.setCore s c x).bands = s.bands := rfl
@[simp] theorem State.setCore_throttled (s : State) (c : CoreId) (x : Core) : (State.setCore s c x).throttled = s.throttled := rfl
@[simp] theorem State.setCore_duty (s : State) (c : CoreId) (x : Core) : (State.setCore s c x).duty = s.duty := rfl
@[simp] theorem State.setCore_powerCap (s : State) (c : CoreId) (x : Core) : (State.setCore s c x).powerCap = s.powerCap := rfl
@[simp] theorem State.setCore_meas (s : State) (c : CoreId) (x : Core) : (State.setCore s c x).meas = s.meas := rfl
@[simp] theorem State.setCore_storage (s : State) (c : CoreId) (x : Core) : (State.setCore s c x).storage = s.storage := rfl
@[simp] theorem State.setCore_reports (s : State) (c : CoreId) (x : Core) : (State.setCore s c x).reports = s.reports := rfl
@[simp] theorem State.setCore_treeAlt (s : State) (c : CoreId) (x : Core) : (State.setCore s c x).treeAlt = s.treeAlt := rfl

/-! ### State.modCore -/

@[simp] theorem State.modCore_moves (s : State) (c : CoreId) (f : Core → Core) : (State.modCore s c f).moves = s.moves := rfl
@[simp] theorem State.modCore_cur (s : State) (c : CoreId) (f : Core → Core) : (State.modCore s c f).cur = s.cur := rfl
@[simp] theorem State.modCore_fresh (s : State) (c : CoreId) (f : Core → Core) : (State.modCore s c f).fresh = s.fresh := rfl
@[simp] theorem State.modCore_nextPkt (s : State) (c : CoreId) (f : Core → Core) : (State.modCore s c f).nextPkt = s.nextPkt := rfl
@[simp] theorem State.modCore_dead (s : State) (c : CoreId) (f : Core → Core) : (State.modCore s c f).dead = s.dead := rfl
@[simp] theorem State.modCore_holes (s : State) (c : CoreId) (f : Core → Core) : (State.modCore s c f).holes = s.holes := rfl
@[simp] theorem State.modCore_booted (s : State) (c : CoreId) (f : Core → Core) : (State.modCore s c f).booted = s.booted := rfl
@[simp] theorem State.modCore_floorFail (s : State) (c : CoreId) (f : Core → Core) : (State.modCore s c f).floorFail = s.floorFail := rfl
@[simp] theorem State.modCore_fwVersion (s : State) (c : CoreId) (f : Core → Core) : (State.modCore s c f).fwVersion = s.fwVersion := rfl
@[simp] theorem State.modCore_serviceKey (s : State) (c : CoreId) (f : Core → Core) : (State.modCore s c f).serviceKey = s.serviceKey := rfl
@[simp] theorem State.modCore_pkts (s : State) (c : CoreId) (f : Core → Core) : (State.modCore s c f).pkts = s.pkts := rfl
@[simp] theorem State.modCore_edge (s : State) (c : CoreId) (f : Core → Core) : (State.modCore s c f).edge = s.edge := rfl
@[simp] theorem State.modCore_hostMem (s : State) (c : CoreId) (f : Core → Core) : (State.modCore s c f).hostMem = s.hostMem := rfl
@[simp] theorem State.modCore_edgePoison (s : State) (c : CoreId) (f : Core → Core) : (State.modCore s c f).edgePoison = s.edgePoison := rfl
@[simp] theorem State.modCore_pasids (s : State) (c : CoreId) (f : Core → Core) : (State.modCore s c f).pasids = s.pasids := rfl
@[simp] theorem State.modCore_tables (s : State) (c : CoreId) (f : Core → Core) : (State.modCore s c f).tables = s.tables := rfl
@[simp] theorem State.modCore_owners (s : State) (c : CoreId) (f : Core → Core) : (State.modCore s c f).owners = s.owners := rfl
@[simp] theorem State.modCore_engines (s : State) (c : CoreId) (f : Core → Core) : (State.modCore s c f).engines = s.engines := rfl
@[simp] theorem State.modCore_engTurn (s : State) (c : CoreId) (f : Core → Core) : (State.modCore s c f).engTurn = s.engTurn := rfl
@[simp] theorem State.modCore_regions (s : State) (c : CoreId) (f : Core → Core) : (State.modCore s c f).regions = s.regions := rfl
@[simp] theorem State.modCore_vdevs (s : State) (c : CoreId) (f : Core → Core) : (State.modCore s c f).vdevs = s.vdevs := rfl
@[simp] theorem State.modCore_funcs (s : State) (c : CoreId) (f : Core → Core) : (State.modCore s c f).funcs = s.funcs := rfl
@[simp] theorem State.modCore_hostOut (s : State) (c : CoreId) (f : Core → Core) : (State.modCore s c f).hostOut = s.hostOut := rfl
@[simp] theorem State.modCore_qctxs (s : State) (c : CoreId) (f : Core → Core) : (State.modCore s c f).qctxs = s.qctxs := rfl
@[simp] theorem State.modCore_places (s : State) (c : CoreId) (f : Core → Core) : (State.modCore s c f).places = s.places := rfl
@[simp] theorem State.modCore_saved (s : State) (c : CoreId) (f : Core → Core) : (State.modCore s c f).saved = s.saved := rfl
@[simp] theorem State.modCore_launches (s : State) (c : CoreId) (f : Core → Core) : (State.modCore s c f).launches = s.launches := rfl
@[simp] theorem State.modCore_groups (s : State) (c : CoreId) (f : Core → Core) : (State.modCore s c f).groups = s.groups := rfl
@[simp] theorem State.modCore_insts (s : State) (c : CoreId) (f : Core → Core) : (State.modCore s c f).insts = s.insts := rfl
@[simp] theorem State.modCore_barGens (s : State) (c : CoreId) (f : Core → Core) : (State.modCore s c f).barGens = s.barGens := rfl
@[simp] theorem State.modCore_exchs (s : State) (c : CoreId) (f : Core → Core) : (State.modCore s c f).exchs = s.exchs := rfl
@[simp] theorem State.modCore_arbitersDown (s : State) (c : CoreId) (f : Core → Core) : (State.modCore s c f).arbitersDown = s.arbitersDown := rfl
@[simp] theorem State.modCore_ports (s : State) (c : CoreId) (f : Core → Core) : (State.modCore s c f).ports = s.ports := rfl
@[simp] theorem State.modCore_seqctrs (s : State) (c : CoreId) (f : Core → Core) : (State.modCore s c f).seqctrs = s.seqctrs := rfl
@[simp] theorem State.modCore_links (s : State) (c : CoreId) (f : Core → Core) : (State.modCore s c f).links = s.links := rfl
@[simp] theorem State.modCore_hostLinks (s : State) (c : CoreId) (f : Core → Core) : (State.modCore s c f).hostLinks = s.hostLinks := rfl
@[simp] theorem State.modCore_plan (s : State) (c : CoreId) (f : Core → Core) : (State.modCore s c f).plan = s.plan := rfl
@[simp] theorem State.modCore_bands (s : State) (c : CoreId) (f : Core → Core) : (State.modCore s c f).bands = s.bands := rfl
@[simp] theorem State.modCore_throttled (s : State) (c : CoreId) (f : Core → Core) : (State.modCore s c f).throttled = s.throttled := rfl
@[simp] theorem State.modCore_duty (s : State) (c : CoreId) (f : Core → Core) : (State.modCore s c f).duty = s.duty := rfl
@[simp] theorem State.modCore_powerCap (s : State) (c : CoreId) (f : Core → Core) : (State.modCore s c f).powerCap = s.powerCap := rfl
@[simp] theorem State.modCore_meas (s : State) (c : CoreId) (f : Core → Core) : (State.modCore s c f).meas = s.meas := rfl
@[simp] theorem State.modCore_storage (s : State) (c : CoreId) (f : Core → Core) : (State.modCore s c f).storage = s.storage := rfl
@[simp] theorem State.modCore_reports (s : State) (c : CoreId) (f : Core → Core) : (State.modCore s c f).reports = s.reports := rfl
@[simp] theorem State.modCore_treeAlt (s : State) (c : CoreId) (f : Core → Core) : (State.modCore s c f).treeAlt = s.treeAlt := rfl

/-! ### State.modMe -/

@[simp] theorem State.modMe_moves (s : State) (f : Core → Core) : (State.modMe s f).moves = s.moves := rfl
@[simp] theorem State.modMe_cur (s : State) (f : Core → Core) : (State.modMe s f).cur = s.cur := rfl
@[simp] theorem State.modMe_fresh (s : State) (f : Core → Core) : (State.modMe s f).fresh = s.fresh := rfl
@[simp] theorem State.modMe_nextPkt (s : State) (f : Core → Core) : (State.modMe s f).nextPkt = s.nextPkt := rfl
@[simp] theorem State.modMe_dead (s : State) (f : Core → Core) : (State.modMe s f).dead = s.dead := rfl
@[simp] theorem State.modMe_holes (s : State) (f : Core → Core) : (State.modMe s f).holes = s.holes := rfl
@[simp] theorem State.modMe_booted (s : State) (f : Core → Core) : (State.modMe s f).booted = s.booted := rfl
@[simp] theorem State.modMe_floorFail (s : State) (f : Core → Core) : (State.modMe s f).floorFail = s.floorFail := rfl
@[simp] theorem State.modMe_fwVersion (s : State) (f : Core → Core) : (State.modMe s f).fwVersion = s.fwVersion := rfl
@[simp] theorem State.modMe_serviceKey (s : State) (f : Core → Core) : (State.modMe s f).serviceKey = s.serviceKey := rfl
@[simp] theorem State.modMe_pkts (s : State) (f : Core → Core) : (State.modMe s f).pkts = s.pkts := rfl
@[simp] theorem State.modMe_edge (s : State) (f : Core → Core) : (State.modMe s f).edge = s.edge := rfl
@[simp] theorem State.modMe_hostMem (s : State) (f : Core → Core) : (State.modMe s f).hostMem = s.hostMem := rfl
@[simp] theorem State.modMe_edgePoison (s : State) (f : Core → Core) : (State.modMe s f).edgePoison = s.edgePoison := rfl
@[simp] theorem State.modMe_pasids (s : State) (f : Core → Core) : (State.modMe s f).pasids = s.pasids := rfl
@[simp] theorem State.modMe_tables (s : State) (f : Core → Core) : (State.modMe s f).tables = s.tables := rfl
@[simp] theorem State.modMe_owners (s : State) (f : Core → Core) : (State.modMe s f).owners = s.owners := rfl
@[simp] theorem State.modMe_engines (s : State) (f : Core → Core) : (State.modMe s f).engines = s.engines := rfl
@[simp] theorem State.modMe_engTurn (s : State) (f : Core → Core) : (State.modMe s f).engTurn = s.engTurn := rfl
@[simp] theorem State.modMe_regions (s : State) (f : Core → Core) : (State.modMe s f).regions = s.regions := rfl
@[simp] theorem State.modMe_vdevs (s : State) (f : Core → Core) : (State.modMe s f).vdevs = s.vdevs := rfl
@[simp] theorem State.modMe_funcs (s : State) (f : Core → Core) : (State.modMe s f).funcs = s.funcs := rfl
@[simp] theorem State.modMe_hostOut (s : State) (f : Core → Core) : (State.modMe s f).hostOut = s.hostOut := rfl
@[simp] theorem State.modMe_qctxs (s : State) (f : Core → Core) : (State.modMe s f).qctxs = s.qctxs := rfl
@[simp] theorem State.modMe_places (s : State) (f : Core → Core) : (State.modMe s f).places = s.places := rfl
@[simp] theorem State.modMe_saved (s : State) (f : Core → Core) : (State.modMe s f).saved = s.saved := rfl
@[simp] theorem State.modMe_launches (s : State) (f : Core → Core) : (State.modMe s f).launches = s.launches := rfl
@[simp] theorem State.modMe_groups (s : State) (f : Core → Core) : (State.modMe s f).groups = s.groups := rfl
@[simp] theorem State.modMe_insts (s : State) (f : Core → Core) : (State.modMe s f).insts = s.insts := rfl
@[simp] theorem State.modMe_barGens (s : State) (f : Core → Core) : (State.modMe s f).barGens = s.barGens := rfl
@[simp] theorem State.modMe_exchs (s : State) (f : Core → Core) : (State.modMe s f).exchs = s.exchs := rfl
@[simp] theorem State.modMe_arbitersDown (s : State) (f : Core → Core) : (State.modMe s f).arbitersDown = s.arbitersDown := rfl
@[simp] theorem State.modMe_ports (s : State) (f : Core → Core) : (State.modMe s f).ports = s.ports := rfl
@[simp] theorem State.modMe_seqctrs (s : State) (f : Core → Core) : (State.modMe s f).seqctrs = s.seqctrs := rfl
@[simp] theorem State.modMe_links (s : State) (f : Core → Core) : (State.modMe s f).links = s.links := rfl
@[simp] theorem State.modMe_hostLinks (s : State) (f : Core → Core) : (State.modMe s f).hostLinks = s.hostLinks := rfl
@[simp] theorem State.modMe_plan (s : State) (f : Core → Core) : (State.modMe s f).plan = s.plan := rfl
@[simp] theorem State.modMe_bands (s : State) (f : Core → Core) : (State.modMe s f).bands = s.bands := rfl
@[simp] theorem State.modMe_throttled (s : State) (f : Core → Core) : (State.modMe s f).throttled = s.throttled := rfl
@[simp] theorem State.modMe_duty (s : State) (f : Core → Core) : (State.modMe s f).duty = s.duty := rfl
@[simp] theorem State.modMe_powerCap (s : State) (f : Core → Core) : (State.modMe s f).powerCap = s.powerCap := rfl
@[simp] theorem State.modMe_meas (s : State) (f : Core → Core) : (State.modMe s f).meas = s.meas := rfl
@[simp] theorem State.modMe_storage (s : State) (f : Core → Core) : (State.modMe s f).storage = s.storage := rfl
@[simp] theorem State.modMe_reports (s : State) (f : Core → Core) : (State.modMe s f).reports = s.reports := rfl
@[simp] theorem State.modMe_treeAlt (s : State) (f : Core → Core) : (State.modMe s f).treeAlt = s.treeAlt := rfl

/-! ### State.modHere -/

@[simp] theorem State.modHere_moves (s : State) (f : Tile → Tile) : (State.modHere s f).moves = s.moves := rfl
@[simp] theorem State.modHere_cur (s : State) (f : Tile → Tile) : (State.modHere s f).cur = s.cur := rfl
@[simp] theorem State.modHere_fresh (s : State) (f : Tile → Tile) : (State.modHere s f).fresh = s.fresh := rfl
@[simp] theorem State.modHere_nextPkt (s : State) (f : Tile → Tile) : (State.modHere s f).nextPkt = s.nextPkt := rfl
@[simp] theorem State.modHere_dead (s : State) (f : Tile → Tile) : (State.modHere s f).dead = s.dead := rfl
@[simp] theorem State.modHere_holes (s : State) (f : Tile → Tile) : (State.modHere s f).holes = s.holes := rfl
@[simp] theorem State.modHere_booted (s : State) (f : Tile → Tile) : (State.modHere s f).booted = s.booted := rfl
@[simp] theorem State.modHere_floorFail (s : State) (f : Tile → Tile) : (State.modHere s f).floorFail = s.floorFail := rfl
@[simp] theorem State.modHere_fwVersion (s : State) (f : Tile → Tile) : (State.modHere s f).fwVersion = s.fwVersion := rfl
@[simp] theorem State.modHere_serviceKey (s : State) (f : Tile → Tile) : (State.modHere s f).serviceKey = s.serviceKey := rfl
@[simp] theorem State.modHere_pkts (s : State) (f : Tile → Tile) : (State.modHere s f).pkts = s.pkts := rfl
@[simp] theorem State.modHere_edge (s : State) (f : Tile → Tile) : (State.modHere s f).edge = s.edge := rfl
@[simp] theorem State.modHere_hostMem (s : State) (f : Tile → Tile) : (State.modHere s f).hostMem = s.hostMem := rfl
@[simp] theorem State.modHere_edgePoison (s : State) (f : Tile → Tile) : (State.modHere s f).edgePoison = s.edgePoison := rfl
@[simp] theorem State.modHere_pasids (s : State) (f : Tile → Tile) : (State.modHere s f).pasids = s.pasids := rfl
@[simp] theorem State.modHere_tables (s : State) (f : Tile → Tile) : (State.modHere s f).tables = s.tables := rfl
@[simp] theorem State.modHere_owners (s : State) (f : Tile → Tile) : (State.modHere s f).owners = s.owners := rfl
@[simp] theorem State.modHere_engines (s : State) (f : Tile → Tile) : (State.modHere s f).engines = s.engines := rfl
@[simp] theorem State.modHere_engTurn (s : State) (f : Tile → Tile) : (State.modHere s f).engTurn = s.engTurn := rfl
@[simp] theorem State.modHere_regions (s : State) (f : Tile → Tile) : (State.modHere s f).regions = s.regions := rfl
@[simp] theorem State.modHere_vdevs (s : State) (f : Tile → Tile) : (State.modHere s f).vdevs = s.vdevs := rfl
@[simp] theorem State.modHere_funcs (s : State) (f : Tile → Tile) : (State.modHere s f).funcs = s.funcs := rfl
@[simp] theorem State.modHere_hostOut (s : State) (f : Tile → Tile) : (State.modHere s f).hostOut = s.hostOut := rfl
@[simp] theorem State.modHere_qctxs (s : State) (f : Tile → Tile) : (State.modHere s f).qctxs = s.qctxs := rfl
@[simp] theorem State.modHere_places (s : State) (f : Tile → Tile) : (State.modHere s f).places = s.places := rfl
@[simp] theorem State.modHere_saved (s : State) (f : Tile → Tile) : (State.modHere s f).saved = s.saved := rfl
@[simp] theorem State.modHere_launches (s : State) (f : Tile → Tile) : (State.modHere s f).launches = s.launches := rfl
@[simp] theorem State.modHere_groups (s : State) (f : Tile → Tile) : (State.modHere s f).groups = s.groups := rfl
@[simp] theorem State.modHere_insts (s : State) (f : Tile → Tile) : (State.modHere s f).insts = s.insts := rfl
@[simp] theorem State.modHere_barGens (s : State) (f : Tile → Tile) : (State.modHere s f).barGens = s.barGens := rfl
@[simp] theorem State.modHere_exchs (s : State) (f : Tile → Tile) : (State.modHere s f).exchs = s.exchs := rfl
@[simp] theorem State.modHere_arbitersDown (s : State) (f : Tile → Tile) : (State.modHere s f).arbitersDown = s.arbitersDown := rfl
@[simp] theorem State.modHere_ports (s : State) (f : Tile → Tile) : (State.modHere s f).ports = s.ports := rfl
@[simp] theorem State.modHere_seqctrs (s : State) (f : Tile → Tile) : (State.modHere s f).seqctrs = s.seqctrs := rfl
@[simp] theorem State.modHere_links (s : State) (f : Tile → Tile) : (State.modHere s f).links = s.links := rfl
@[simp] theorem State.modHere_hostLinks (s : State) (f : Tile → Tile) : (State.modHere s f).hostLinks = s.hostLinks := rfl
@[simp] theorem State.modHere_plan (s : State) (f : Tile → Tile) : (State.modHere s f).plan = s.plan := rfl
@[simp] theorem State.modHere_bands (s : State) (f : Tile → Tile) : (State.modHere s f).bands = s.bands := rfl
@[simp] theorem State.modHere_throttled (s : State) (f : Tile → Tile) : (State.modHere s f).throttled = s.throttled := rfl
@[simp] theorem State.modHere_duty (s : State) (f : Tile → Tile) : (State.modHere s f).duty = s.duty := rfl
@[simp] theorem State.modHere_powerCap (s : State) (f : Tile → Tile) : (State.modHere s f).powerCap = s.powerCap := rfl
@[simp] theorem State.modHere_meas (s : State) (f : Tile → Tile) : (State.modHere s f).meas = s.meas := rfl
@[simp] theorem State.modHere_storage (s : State) (f : Tile → Tile) : (State.modHere s f).storage = s.storage := rfl
@[simp] theorem State.modHere_reports (s : State) (f : Tile → Tile) : (State.modHere s f).reports = s.reports := rfl
@[simp] theorem State.modHere_treeAlt (s : State) (f : Tile → Tile) : (State.modHere s f).treeAlt = s.treeAlt := rfl

/-! ### State.active -/

@[simp] theorem State.active_moves (s : State) (t : Site) : (State.active s t).moves = s.moves := rfl
@[simp] theorem State.active_cur (s : State) (t : Site) : (State.active s t).cur = s.cur := rfl
@[simp] theorem State.active_fresh (s : State) (t : Site) : (State.active s t).fresh = s.fresh := rfl
@[simp] theorem State.active_nextPkt (s : State) (t : Site) : (State.active s t).nextPkt = s.nextPkt := rfl
@[simp] theorem State.active_dead (s : State) (t : Site) : (State.active s t).dead = s.dead := rfl
@[simp] theorem State.active_holes (s : State) (t : Site) : (State.active s t).holes = s.holes := rfl
@[simp] theorem State.active_booted (s : State) (t : Site) : (State.active s t).booted = s.booted := rfl
@[simp] theorem State.active_floorFail (s : State) (t : Site) : (State.active s t).floorFail = s.floorFail := rfl
@[simp] theorem State.active_fwVersion (s : State) (t : Site) : (State.active s t).fwVersion = s.fwVersion := rfl
@[simp] theorem State.active_serviceKey (s : State) (t : Site) : (State.active s t).serviceKey = s.serviceKey := rfl
@[simp] theorem State.active_pkts (s : State) (t : Site) : (State.active s t).pkts = s.pkts := rfl
@[simp] theorem State.active_edge (s : State) (t : Site) : (State.active s t).edge = s.edge := rfl
@[simp] theorem State.active_hostMem (s : State) (t : Site) : (State.active s t).hostMem = s.hostMem := rfl
@[simp] theorem State.active_edgePoison (s : State) (t : Site) : (State.active s t).edgePoison = s.edgePoison := rfl
@[simp] theorem State.active_pasids (s : State) (t : Site) : (State.active s t).pasids = s.pasids := rfl
@[simp] theorem State.active_tables (s : State) (t : Site) : (State.active s t).tables = s.tables := rfl
@[simp] theorem State.active_owners (s : State) (t : Site) : (State.active s t).owners = s.owners := rfl
@[simp] theorem State.active_engines (s : State) (t : Site) : (State.active s t).engines = s.engines := rfl
@[simp] theorem State.active_engTurn (s : State) (t : Site) : (State.active s t).engTurn = s.engTurn := rfl
@[simp] theorem State.active_regions (s : State) (t : Site) : (State.active s t).regions = s.regions := rfl
@[simp] theorem State.active_vdevs (s : State) (t : Site) : (State.active s t).vdevs = s.vdevs := rfl
@[simp] theorem State.active_funcs (s : State) (t : Site) : (State.active s t).funcs = s.funcs := rfl
@[simp] theorem State.active_hostOut (s : State) (t : Site) : (State.active s t).hostOut = s.hostOut := rfl
@[simp] theorem State.active_qctxs (s : State) (t : Site) : (State.active s t).qctxs = s.qctxs := rfl
@[simp] theorem State.active_places (s : State) (t : Site) : (State.active s t).places = s.places := rfl
@[simp] theorem State.active_saved (s : State) (t : Site) : (State.active s t).saved = s.saved := rfl
@[simp] theorem State.active_launches (s : State) (t : Site) : (State.active s t).launches = s.launches := rfl
@[simp] theorem State.active_groups (s : State) (t : Site) : (State.active s t).groups = s.groups := rfl
@[simp] theorem State.active_insts (s : State) (t : Site) : (State.active s t).insts = s.insts := rfl
@[simp] theorem State.active_barGens (s : State) (t : Site) : (State.active s t).barGens = s.barGens := rfl
@[simp] theorem State.active_exchs (s : State) (t : Site) : (State.active s t).exchs = s.exchs := rfl
@[simp] theorem State.active_arbitersDown (s : State) (t : Site) : (State.active s t).arbitersDown = s.arbitersDown := rfl
@[simp] theorem State.active_ports (s : State) (t : Site) : (State.active s t).ports = s.ports := rfl
@[simp] theorem State.active_seqctrs (s : State) (t : Site) : (State.active s t).seqctrs = s.seqctrs := rfl
@[simp] theorem State.active_links (s : State) (t : Site) : (State.active s t).links = s.links := rfl
@[simp] theorem State.active_hostLinks (s : State) (t : Site) : (State.active s t).hostLinks = s.hostLinks := rfl
@[simp] theorem State.active_plan (s : State) (t : Site) : (State.active s t).plan = s.plan := rfl
@[simp] theorem State.active_bands (s : State) (t : Site) : (State.active s t).bands = s.bands := rfl
@[simp] theorem State.active_throttled (s : State) (t : Site) : (State.active s t).throttled = s.throttled := rfl
@[simp] theorem State.active_duty (s : State) (t : Site) : (State.active s t).duty = s.duty := rfl
@[simp] theorem State.active_powerCap (s : State) (t : Site) : (State.active s t).powerCap = s.powerCap := rfl
@[simp] theorem State.active_meas (s : State) (t : Site) : (State.active s t).meas = s.meas := rfl
@[simp] theorem State.active_storage (s : State) (t : Site) : (State.active s t).storage = s.storage := rfl
@[simp] theorem State.active_reports (s : State) (t : Site) : (State.active s t).reports = s.reports := rfl
@[simp] theorem State.active_treeAlt (s : State) (t : Site) : (State.active s t).treeAlt = s.treeAlt := rfl

/-! ### Tile.setCore -/

@[simp] theorem Tile.setCore_mem (t : Tile) (k : CoreKind) (c : Core) : (t.setCore k c).mem = t.mem := by cases k <;> rfl
@[simp] theorem Tile.setCore_past (t : Tile) (k : CoreKind) (c : Core) : (t.setCore k c).past = t.past := by cases k <;> rfl
@[simp] theorem Tile.setCore_poison (t : Tile) (k : CoreKind) (c : Core) : (t.setCore k c).poison = t.poison := by cases k <;> rfl
@[simp] theorem Tile.setCore_sems (t : Tile) (k : CoreKind) (c : Core) : (t.setCore k c).sems = t.sems := by cases k <;> rfl
@[simp] theorem Tile.setCore_semq (t : Tile) (k : CoreKind) (c : Core) : (t.setCore k c).semq = t.semq := by cases k <;> rfl
@[simp] theorem Tile.setCore_cycle (t : Tile) (k : CoreKind) (c : Core) : (t.setCore k c).cycle = t.cycle := by cases k <;> rfl
@[simp] theorem Tile.setCore_mcfg (t : Tile) (k : CoreKind) (c : Core) : (t.setCore k c).mcfg = t.mcfg := by cases k <;> rfl
@[simp] theorem Tile.setCore_mdata (t : Tile) (k : CoreKind) (c : Core) : (t.setCore k c).mdata = t.mdata := by cases k <;> rfl
@[simp] theorem Tile.setCore_mscale (t : Tile) (k : CoreKind) (c : Core) : (t.setCore k c).mscale = t.mscale := by cases k <;> rfl
@[simp] theorem Tile.setCore_mmeta (t : Tile) (k : CoreKind) (c : Core) : (t.setCore k c).mmeta = t.mmeta := by cases k <;> rfl
@[simp] theorem Tile.setCore_z (t : Tile) (k : CoreKind) (c : Core) : (t.setCore k c).z = t.z := by cases k <;> rfl
@[simp] theorem Tile.setCore_mpoison (t : Tile) (k : CoreKind) (c : Core) : (t.setCore k c).mpoison = t.mpoison := by cases k <;> rfl
@[simp] theorem Tile.setCore_lastId (t : Tile) (k : CoreKind) (c : Core) : (t.setCore k c).lastId = t.lastId := by cases k <;> rfl
@[simp] theorem Tile.setCore_mdep (t : Tile) (k : CoreKind) (c : Core) : (t.setCore k c).mdep = t.mdep := by cases k <;> rfl
@[simp] theorem Tile.setCore_mwin (t : Tile) (k : CoreKind) (c : Core) : (t.setCore k c).mwin = t.mwin := by cases k <;> rfl
@[simp] theorem Tile.setCore_mpend (t : Tile) (k : CoreKind) (c : Core) : (t.setCore k c).mpend = t.mpend := by cases k <;> rfl
@[simp] theorem Tile.setCore_claimed (t : Tile) (k : CoreKind) (c : Core) : (t.setCore k c).claimed = t.claimed := by cases k <;> rfl
@[simp] theorem Tile.setCore_chain (t : Tile) (k : CoreKind) (c : Core) : (t.setCore k c).chain = t.chain := by cases k <;> rfl
@[simp] theorem Tile.setCore_slices (t : Tile) (k : CoreKind) (c : Core) : (t.setCore k c).slices = t.slices := by cases k <;> rfl
@[simp] theorem Tile.setCore_cbCache (t : Tile) (k : CoreKind) (c : Core) : (t.setCore k c).cbCache = t.cbCache := by cases k <;> rfl
@[simp] theorem Tile.setCore_bound (t : Tile) (k : CoreKind) (c : Core) : (t.setCore k c).bound = t.bound := by cases k <;> rfl
@[simp] theorem Tile.setCore_vni (t : Tile) (k : CoreKind) (c : Core) : (t.setCore k c).vni = t.vni := by cases k <;> rfl
@[simp] theorem Tile.setCore_logX (t : Tile) (k : CoreKind) (c : Core) : (t.setCore k c).logX = t.logX := by cases k <;> rfl
@[simp] theorem Tile.setCore_logY (t : Tile) (k : CoreKind) (c : Core) : (t.setCore k c).logY = t.logY := by cases k <;> rfl
@[simp] theorem Tile.setCore_name (t : Tile) (k : CoreKind) (c : Core) : (t.setCore k c).name = t.name := by cases k <;> rfl
@[simp] theorem Tile.setCore_cluster (t : Tile) (k : CoreKind) (c : Core) : (t.setCore k c).cluster = t.cluster := by cases k <;> rfl
@[simp] theorem Tile.setCore_left (t : Tile) (k : CoreKind) (c : Core) : (t.setCore k c).left = t.left := by cases k <;> rfl
@[simp] theorem Tile.setCore_bankq (t : Tile) (k : CoreKind) (c : Core) : (t.setCore k c).bankq = t.bankq := by cases k <;> rfl
@[simp] theorem Tile.setCore_gate (t : Tile) (k : CoreKind) (c : Core) : (t.setCore k c).gate = t.gate := by cases k <;> rfl
@[simp] theorem Tile.setCore_activity (t : Tile) (k : CoreKind) (c : Core) : (t.setCore k c).activity = t.activity := by cases k <;> rfl
@[simp] theorem Tile.setCore_blist (t : Tile) (k : CoreKind) (c : Core) : (t.setCore k c).blist = t.blist := by cases k <;> rfl
@[simp] theorem Tile.setCore_stopped (t : Tile) (k : CoreKind) (c : Core) : (t.setCore k c).stopped = t.stopped := by cases k <;> rfl
@[simp] theorem Tile.setCore_hold (t : Tile) (k : CoreKind) (c : Core) : (t.setCore k c).hold = t.hold := by cases k <;> rfl
@[simp] theorem Tile.setCore_moving (t : Tile) (k : CoreKind) (c : Core) : (t.setCore k c).moving = t.moving := by cases k <;> rfl
@[simp] theorem Tile.setCore_fwd (t : Tile) (k : CoreKind) (c : Core) : (t.setCore k c).fwd = t.fwd := by cases k <;> rfl
@[simp] theorem Tile.setCore_viaOnly (t : Tile) (k : CoreKind) (c : Core) : (t.setCore k c).viaOnly = t.viaOnly := by cases k <;> rfl
@[simp] theorem Tile.setCore_xif (t : Tile) (k : CoreKind) (c : Core) : (t.setCore k c).xif = t.xif := by cases k <;> rfl
@[simp] theorem Tile.setCore_eccCount (t : Tile) (k : CoreKind) (c : Core) : (t.setCore k c).eccCount = t.eccCount := by cases k <;> rfl
@[simp] theorem Tile.setCore_router (t : Tile) (k : CoreKind) (c : Core) : (t.setCore k c).router = t.router := by cases k <;> rfl

/-! ### Tile.mapCores -/

@[simp] theorem Tile.mapCores_flow (t : Tile) (f : Core → Core) : (t.mapCores f).flow = f t.flow := rfl
@[simp] theorem Tile.mapCores_shape (t : Tile) (f : Core → Core) : (t.mapCores f).shape = f t.shape := rfl
@[simp] theorem Tile.mapCores_math (t : Tile) (f : Core → Core) : (t.mapCores f).math = f t.math := rfl
@[simp] theorem Tile.mapCores_mem (t : Tile) (f : Core → Core) : (t.mapCores f).mem = t.mem := rfl
@[simp] theorem Tile.mapCores_past (t : Tile) (f : Core → Core) : (t.mapCores f).past = t.past := rfl
@[simp] theorem Tile.mapCores_poison (t : Tile) (f : Core → Core) : (t.mapCores f).poison = t.poison := rfl
@[simp] theorem Tile.mapCores_sems (t : Tile) (f : Core → Core) : (t.mapCores f).sems = t.sems := rfl
@[simp] theorem Tile.mapCores_semq (t : Tile) (f : Core → Core) : (t.mapCores f).semq = t.semq := rfl
@[simp] theorem Tile.mapCores_cycle (t : Tile) (f : Core → Core) : (t.mapCores f).cycle = t.cycle := rfl
@[simp] theorem Tile.mapCores_mcfg (t : Tile) (f : Core → Core) : (t.mapCores f).mcfg = t.mcfg := rfl
@[simp] theorem Tile.mapCores_mdata (t : Tile) (f : Core → Core) : (t.mapCores f).mdata = t.mdata := rfl
@[simp] theorem Tile.mapCores_mscale (t : Tile) (f : Core → Core) : (t.mapCores f).mscale = t.mscale := rfl
@[simp] theorem Tile.mapCores_mmeta (t : Tile) (f : Core → Core) : (t.mapCores f).mmeta = t.mmeta := rfl
@[simp] theorem Tile.mapCores_z (t : Tile) (f : Core → Core) : (t.mapCores f).z = t.z := rfl
@[simp] theorem Tile.mapCores_mpoison (t : Tile) (f : Core → Core) : (t.mapCores f).mpoison = t.mpoison := rfl
@[simp] theorem Tile.mapCores_lastId (t : Tile) (f : Core → Core) : (t.mapCores f).lastId = t.lastId := rfl
@[simp] theorem Tile.mapCores_mdep (t : Tile) (f : Core → Core) : (t.mapCores f).mdep = t.mdep := rfl
@[simp] theorem Tile.mapCores_mwin (t : Tile) (f : Core → Core) : (t.mapCores f).mwin = t.mwin := rfl
@[simp] theorem Tile.mapCores_mpend (t : Tile) (f : Core → Core) : (t.mapCores f).mpend = t.mpend := rfl
@[simp] theorem Tile.mapCores_claimed (t : Tile) (f : Core → Core) : (t.mapCores f).claimed = t.claimed := rfl
@[simp] theorem Tile.mapCores_chain (t : Tile) (f : Core → Core) : (t.mapCores f).chain = t.chain := rfl
@[simp] theorem Tile.mapCores_slices (t : Tile) (f : Core → Core) : (t.mapCores f).slices = t.slices := rfl
@[simp] theorem Tile.mapCores_cbCache (t : Tile) (f : Core → Core) : (t.mapCores f).cbCache = t.cbCache := rfl
@[simp] theorem Tile.mapCores_bound (t : Tile) (f : Core → Core) : (t.mapCores f).bound = t.bound := rfl
@[simp] theorem Tile.mapCores_vni (t : Tile) (f : Core → Core) : (t.mapCores f).vni = t.vni := rfl
@[simp] theorem Tile.mapCores_logX (t : Tile) (f : Core → Core) : (t.mapCores f).logX = t.logX := rfl
@[simp] theorem Tile.mapCores_logY (t : Tile) (f : Core → Core) : (t.mapCores f).logY = t.logY := rfl
@[simp] theorem Tile.mapCores_name (t : Tile) (f : Core → Core) : (t.mapCores f).name = t.name := rfl
@[simp] theorem Tile.mapCores_cluster (t : Tile) (f : Core → Core) : (t.mapCores f).cluster = t.cluster := rfl
@[simp] theorem Tile.mapCores_left (t : Tile) (f : Core → Core) : (t.mapCores f).left = t.left := rfl
@[simp] theorem Tile.mapCores_bankq (t : Tile) (f : Core → Core) : (t.mapCores f).bankq = t.bankq := rfl
@[simp] theorem Tile.mapCores_gate (t : Tile) (f : Core → Core) : (t.mapCores f).gate = t.gate := rfl
@[simp] theorem Tile.mapCores_activity (t : Tile) (f : Core → Core) : (t.mapCores f).activity = t.activity := rfl
@[simp] theorem Tile.mapCores_blist (t : Tile) (f : Core → Core) : (t.mapCores f).blist = t.blist := rfl
@[simp] theorem Tile.mapCores_stopped (t : Tile) (f : Core → Core) : (t.mapCores f).stopped = t.stopped := rfl
@[simp] theorem Tile.mapCores_hold (t : Tile) (f : Core → Core) : (t.mapCores f).hold = t.hold := rfl
@[simp] theorem Tile.mapCores_moving (t : Tile) (f : Core → Core) : (t.mapCores f).moving = t.moving := rfl
@[simp] theorem Tile.mapCores_fwd (t : Tile) (f : Core → Core) : (t.mapCores f).fwd = t.fwd := rfl
@[simp] theorem Tile.mapCores_viaOnly (t : Tile) (f : Core → Core) : (t.mapCores f).viaOnly = t.viaOnly := rfl
@[simp] theorem Tile.mapCores_xif (t : Tile) (f : Core → Core) : (t.mapCores f).xif = t.xif := rfl
@[simp] theorem Tile.mapCores_eccCount (t : Tile) (f : Core → Core) : (t.mapCores f).eccCount = t.eccCount := rfl
@[simp] theorem Tile.mapCores_router (t : Tile) (f : Core → Core) : (t.mapCores f).router = t.router := rfl
@[simp] theorem Tile.mapCores_torn (t : Tile) (f : Core → Core) : (t.mapCores f).torn = t.torn := rfl

/-! ### Core.setBank -/

@[simp] theorem Core.setBank_v (k : Core) (h : Bool) (b : Bank) : (k.setBank h b).v = k.v := by cases h <;> rfl
@[simp] theorem Core.setBank_c (k : Core) (h : Bool) (b : Bank) : (k.setBank h b).c = k.c := by cases h <;> rfl
@[simp] theorem Core.setBank_q (k : Core) (h : Bool) (b : Bank) : (k.setBank h b).q = k.q := by cases h <;> rfl
@[simp] theorem Core.setBank_streams (k : Core) (h : Bool) (b : Bank) : (k.setBank h b).streams = k.streams := by cases h <;> rfl
@[simp] theorem Core.setBank_ctl (k : Core) (h : Bool) (b : Bank) : (k.setBank h b).ctl = k.ctl := by cases h <;> rfl
@[simp] theorem Core.setBank_pend (k : Core) (h : Bool) (b : Bank) : (k.setBank h b).pend = k.pend := by cases h <;> rfl
@[simp] theorem Core.setBank_outst (k : Core) (h : Bool) (b : Bank) : (k.setBank h b).outst = k.outst := by cases h <;> rfl
@[simp] theorem Core.setBank_regPoison (k : Core) (h : Bool) (b : Bank) : (k.setBank h b).regPoison = k.regPoison := by cases h <;> rfl
@[simp] theorem Core.setBank_vq (k : Core) (h : Bool) (b : Bank) : (k.setBank h b).vq = k.vq := by cases h <;> rfl
@[simp] theorem Core.setBank_ptrap (k : Core) (h : Bool) (b : Bank) : (k.setBank h b).ptrap = k.ptrap := by cases h <;> rfl
@[simp] theorem Core.setBank_async (k : Core) (h : Bool) (b : Bank) : (k.setBank h b).async = k.async := by cases h <;> rfl
@[simp] theorem Core.setBank_wait (k : Core) (h : Bool) (b : Bank) : (k.setBank h b).wait = k.wait := by cases h <;> rfl
@[simp] theorem Core.setBank_req (k : Core) (h : Bool) (b : Bank) : (k.setBank h b).req = k.req := by cases h <;> rfl
@[simp] theorem Core.setBank_ans (k : Core) (h : Bool) (b : Bank) : (k.setBank h b).ans = k.ans := by cases h <;> rfl
@[simp] theorem Core.setBank_blocked (k : Core) (h : Bool) (b : Bank) : (k.setBank h b).blocked = k.blocked := by cases h <;> rfl
@[simp] theorem Core.setBank_mask (k : Core) (h : Bool) (b : Bank) : (k.setBank h b).mask = k.mask := by cases h <;> rfl
@[simp] theorem Core.setBank_halted (k : Core) (h : Bool) (b : Bank) : (k.setBank h b).halted = k.halted := by cases h <;> rfl
@[simp] theorem Core.setBank_haltReq (k : Core) (h : Bool) (b : Bank) : (k.setBank h b).haltReq = k.haltReq := by cases h <;> rfl
@[simp] theorem Core.setBank_hstatus (k : Core) (h : Bool) (b : Bank) : (k.setBank h b).hstatus = k.hstatus := by cases h <;> rfl
@[simp] theorem Core.setBank_held (k : Core) (h : Bool) (b : Bank) : (k.setBank h b).held = k.held := by cases h <;> rfl
@[simp] theorem Core.setBank_trapCount (k : Core) (h : Bool) (b : Bank) : (k.setBank h b).trapCount = k.trapCount := by cases h <;> rfl
@[simp] theorem Core.setBank_msgid (k : Core) (h : Bool) (b : Bank) : (k.setBank h b).msgid = k.msgid := by cases h <;> rfl
@[simp] theorem Core.setBank_hpCount (k : Core) (h : Bool) (b : Bank) : (k.setBank h b).hpCount = k.hpCount := by cases h <;> rfl
@[simp] theorem Core.setBank_lowSel (k : Core) (h : Bool) (b : Bank) : (k.setBank h b).lowSel = k.lowSel := by cases h <;> rfl
@[simp] theorem Core.setBank_hiSel (k : Core) (h : Bool) (b : Bank) : (k.setBank h b).hiSel = k.hiSel := by cases h <;> rfl
@[simp] theorem Core.setBank_lowSusp (k : Core) (h : Bool) (b : Bank) : (k.setBank h b).lowSusp = k.lowSusp := by cases h <;> rfl
@[simp] theorem Core.setBank_seqTop (k : Core) (h : Bool) (b : Bank) : (k.setBank h b).seqTop = k.seqTop := by cases h <;> rfl
@[simp] theorem Core.setBank_recs (k : Core) (h : Bool) (b : Bank) : (k.setBank h b).recs = k.recs := by cases h <;> rfl
@[simp] theorem Core.setBank_joins (k : Core) (h : Bool) (b : Bank) : (k.setBank h b).joins = k.joins := by cases h <;> rfl
@[simp] theorem Core.setBank_slots (k : Core) (h : Bool) (b : Bank) : (k.setBank h b).slots = k.slots := by cases h <;> rfl
@[simp] theorem Core.setBank_pin (k : Core) (h : Bool) (b : Bank) : (k.setBank h b).pin = k.pin := by cases h <;> rfl
@[simp] theorem Core.setBank_restore (k : Core) (h : Bool) (b : Bank) : (k.setBank h b).restore = k.restore := by cases h <;> rfl
@[simp] theorem Core.setBank_resv (k : Core) (h : Bool) (b : Bank) : (k.setBank h b).resv = k.resv := by cases h <;> rfl
@[simp] theorem Core.setBank_launch (k : Core) (h : Bool) (b : Bank) : (k.setBank h b).launch = k.launch := by cases h <;> rfl
@[simp] theorem Core.setBank_heldLaunch (k : Core) (h : Bool) (b : Bank) : (k.setBank h b).heldLaunch = k.heldLaunch := by cases h <;> rfl
@[simp] theorem Core.setBank_inj (k : Core) (h : Bool) (b : Bank) : (k.setBank h b).inj = k.inj := by cases h <;> rfl
@[simp] theorem Core.setBank_ext (k : Core) (h : Bool) (b : Bank) : (k.setBank h b).ext = k.ext := by cases h <;> rfl
@[simp] theorem Core.setBank_coll (k : Core) (h : Bool) (b : Bank) : (k.setBank h b).coll = k.coll := by cases h <;> rfl
@[simp] theorem Core.setBank_bars (k : Core) (h : Bool) (b : Bank) : (k.setBank h b).bars = k.bars := by cases h <;> rfl
@[simp] theorem Core.setBank_barOut (k : Core) (h : Bool) (b : Bank) : (k.setBank h b).barOut = k.barOut := by cases h <;> rfl
@[simp] theorem Core.setBank_nextOut (k : Core) (h : Bool) (b : Bank) : (k.setBank h b).nextOut = k.nextOut := by cases h <;> rfl
@[simp] theorem Core.setBank_sendNo (k : Core) (h : Bool) (b : Bank) : (k.setBank h b).sendNo = k.sendNo := by cases h <;> rfl
@[simp] theorem Core.setBank_fenced (k : Core) (h : Bool) (b : Bank) : (k.setBank h b).fenced = k.fenced := by cases h <;> rfl
@[simp] theorem Core.setBank_seen (k : Core) (h : Bool) (b : Bank) : (k.setBank h b).seen = k.seen := by cases h <;> rfl
@[simp] theorem Core.setBank_deficit (k : Core) (h : Bool) (b : Bank) : (k.setBank h b).deficit = k.deficit := by cases h <;> rfl

/-! ### Core.modBank -/

@[simp] theorem Core.modBank_v (k : Core) (h : Bool) (f : Bank → Bank) : (k.modBank h f).v = k.v := by cases h <;> rfl
@[simp] theorem Core.modBank_c (k : Core) (h : Bool) (f : Bank → Bank) : (k.modBank h f).c = k.c := by cases h <;> rfl
@[simp] theorem Core.modBank_q (k : Core) (h : Bool) (f : Bank → Bank) : (k.modBank h f).q = k.q := by cases h <;> rfl
@[simp] theorem Core.modBank_streams (k : Core) (h : Bool) (f : Bank → Bank) : (k.modBank h f).streams = k.streams := by cases h <;> rfl
@[simp] theorem Core.modBank_ctl (k : Core) (h : Bool) (f : Bank → Bank) : (k.modBank h f).ctl = k.ctl := by cases h <;> rfl
@[simp] theorem Core.modBank_pend (k : Core) (h : Bool) (f : Bank → Bank) : (k.modBank h f).pend = k.pend := by cases h <;> rfl
@[simp] theorem Core.modBank_outst (k : Core) (h : Bool) (f : Bank → Bank) : (k.modBank h f).outst = k.outst := by cases h <;> rfl
@[simp] theorem Core.modBank_regPoison (k : Core) (h : Bool) (f : Bank → Bank) : (k.modBank h f).regPoison = k.regPoison := by cases h <;> rfl
@[simp] theorem Core.modBank_vq (k : Core) (h : Bool) (f : Bank → Bank) : (k.modBank h f).vq = k.vq := by cases h <;> rfl
@[simp] theorem Core.modBank_ptrap (k : Core) (h : Bool) (f : Bank → Bank) : (k.modBank h f).ptrap = k.ptrap := by cases h <;> rfl
@[simp] theorem Core.modBank_async (k : Core) (h : Bool) (f : Bank → Bank) : (k.modBank h f).async = k.async := by cases h <;> rfl
@[simp] theorem Core.modBank_wait (k : Core) (h : Bool) (f : Bank → Bank) : (k.modBank h f).wait = k.wait := by cases h <;> rfl
@[simp] theorem Core.modBank_req (k : Core) (h : Bool) (f : Bank → Bank) : (k.modBank h f).req = k.req := by cases h <;> rfl
@[simp] theorem Core.modBank_ans (k : Core) (h : Bool) (f : Bank → Bank) : (k.modBank h f).ans = k.ans := by cases h <;> rfl
@[simp] theorem Core.modBank_blocked (k : Core) (h : Bool) (f : Bank → Bank) : (k.modBank h f).blocked = k.blocked := by cases h <;> rfl
@[simp] theorem Core.modBank_mask (k : Core) (h : Bool) (f : Bank → Bank) : (k.modBank h f).mask = k.mask := by cases h <;> rfl
@[simp] theorem Core.modBank_halted (k : Core) (h : Bool) (f : Bank → Bank) : (k.modBank h f).halted = k.halted := by cases h <;> rfl
@[simp] theorem Core.modBank_haltReq (k : Core) (h : Bool) (f : Bank → Bank) : (k.modBank h f).haltReq = k.haltReq := by cases h <;> rfl
@[simp] theorem Core.modBank_hstatus (k : Core) (h : Bool) (f : Bank → Bank) : (k.modBank h f).hstatus = k.hstatus := by cases h <;> rfl
@[simp] theorem Core.modBank_held (k : Core) (h : Bool) (f : Bank → Bank) : (k.modBank h f).held = k.held := by cases h <;> rfl
@[simp] theorem Core.modBank_trapCount (k : Core) (h : Bool) (f : Bank → Bank) : (k.modBank h f).trapCount = k.trapCount := by cases h <;> rfl
@[simp] theorem Core.modBank_msgid (k : Core) (h : Bool) (f : Bank → Bank) : (k.modBank h f).msgid = k.msgid := by cases h <;> rfl
@[simp] theorem Core.modBank_hpCount (k : Core) (h : Bool) (f : Bank → Bank) : (k.modBank h f).hpCount = k.hpCount := by cases h <;> rfl
@[simp] theorem Core.modBank_lowSel (k : Core) (h : Bool) (f : Bank → Bank) : (k.modBank h f).lowSel = k.lowSel := by cases h <;> rfl
@[simp] theorem Core.modBank_hiSel (k : Core) (h : Bool) (f : Bank → Bank) : (k.modBank h f).hiSel = k.hiSel := by cases h <;> rfl
@[simp] theorem Core.modBank_lowSusp (k : Core) (h : Bool) (f : Bank → Bank) : (k.modBank h f).lowSusp = k.lowSusp := by cases h <;> rfl
@[simp] theorem Core.modBank_seqTop (k : Core) (h : Bool) (f : Bank → Bank) : (k.modBank h f).seqTop = k.seqTop := by cases h <;> rfl
@[simp] theorem Core.modBank_recs (k : Core) (h : Bool) (f : Bank → Bank) : (k.modBank h f).recs = k.recs := by cases h <;> rfl
@[simp] theorem Core.modBank_joins (k : Core) (h : Bool) (f : Bank → Bank) : (k.modBank h f).joins = k.joins := by cases h <;> rfl
@[simp] theorem Core.modBank_slots (k : Core) (h : Bool) (f : Bank → Bank) : (k.modBank h f).slots = k.slots := by cases h <;> rfl
@[simp] theorem Core.modBank_pin (k : Core) (h : Bool) (f : Bank → Bank) : (k.modBank h f).pin = k.pin := by cases h <;> rfl
@[simp] theorem Core.modBank_restore (k : Core) (h : Bool) (f : Bank → Bank) : (k.modBank h f).restore = k.restore := by cases h <;> rfl
@[simp] theorem Core.modBank_resv (k : Core) (h : Bool) (f : Bank → Bank) : (k.modBank h f).resv = k.resv := by cases h <;> rfl
@[simp] theorem Core.modBank_launch (k : Core) (h : Bool) (f : Bank → Bank) : (k.modBank h f).launch = k.launch := by cases h <;> rfl
@[simp] theorem Core.modBank_heldLaunch (k : Core) (h : Bool) (f : Bank → Bank) : (k.modBank h f).heldLaunch = k.heldLaunch := by cases h <;> rfl
@[simp] theorem Core.modBank_inj (k : Core) (h : Bool) (f : Bank → Bank) : (k.modBank h f).inj = k.inj := by cases h <;> rfl
@[simp] theorem Core.modBank_ext (k : Core) (h : Bool) (f : Bank → Bank) : (k.modBank h f).ext = k.ext := by cases h <;> rfl
@[simp] theorem Core.modBank_coll (k : Core) (h : Bool) (f : Bank → Bank) : (k.modBank h f).coll = k.coll := by cases h <;> rfl
@[simp] theorem Core.modBank_bars (k : Core) (h : Bool) (f : Bank → Bank) : (k.modBank h f).bars = k.bars := by cases h <;> rfl
@[simp] theorem Core.modBank_barOut (k : Core) (h : Bool) (f : Bank → Bank) : (k.modBank h f).barOut = k.barOut := by cases h <;> rfl
@[simp] theorem Core.modBank_nextOut (k : Core) (h : Bool) (f : Bank → Bank) : (k.modBank h f).nextOut = k.nextOut := by cases h <;> rfl
@[simp] theorem Core.modBank_sendNo (k : Core) (h : Bool) (f : Bank → Bank) : (k.modBank h f).sendNo = k.sendNo := by cases h <;> rfl
@[simp] theorem Core.modBank_fenced (k : Core) (h : Bool) (f : Bank → Bank) : (k.modBank h f).fenced = k.fenced := by cases h <;> rfl
@[simp] theorem Core.modBank_seen (k : Core) (h : Bool) (f : Bank → Bank) : (k.modBank h f).seen = k.seen := by cases h <;> rfl
@[simp] theorem Core.modBank_deficit (k : Core) (h : Bool) (f : Bank → Bank) : (k.modBank h f).deficit = k.deficit := by cases h <;> rfl

/-! ### Core.modAct -/

@[simp] theorem Core.modAct_v (k : Core) (f : Act → Act) : (k.modAct f).v = k.v := Core.modBank_v _ _ _
@[simp] theorem Core.modAct_c (k : Core) (f : Act → Act) : (k.modAct f).c = k.c := Core.modBank_c _ _ _
@[simp] theorem Core.modAct_q (k : Core) (f : Act → Act) : (k.modAct f).q = k.q := Core.modBank_q _ _ _
@[simp] theorem Core.modAct_streams (k : Core) (f : Act → Act) : (k.modAct f).streams = k.streams := Core.modBank_streams _ _ _
@[simp] theorem Core.modAct_ctl (k : Core) (f : Act → Act) : (k.modAct f).ctl = k.ctl := Core.modBank_ctl _ _ _
@[simp] theorem Core.modAct_pend (k : Core) (f : Act → Act) : (k.modAct f).pend = k.pend := Core.modBank_pend _ _ _
@[simp] theorem Core.modAct_outst (k : Core) (f : Act → Act) : (k.modAct f).outst = k.outst := Core.modBank_outst _ _ _
@[simp] theorem Core.modAct_regPoison (k : Core) (f : Act → Act) : (k.modAct f).regPoison = k.regPoison := Core.modBank_regPoison _ _ _
@[simp] theorem Core.modAct_vq (k : Core) (f : Act → Act) : (k.modAct f).vq = k.vq := Core.modBank_vq _ _ _
@[simp] theorem Core.modAct_ptrap (k : Core) (f : Act → Act) : (k.modAct f).ptrap = k.ptrap := Core.modBank_ptrap _ _ _
@[simp] theorem Core.modAct_async (k : Core) (f : Act → Act) : (k.modAct f).async = k.async := Core.modBank_async _ _ _
@[simp] theorem Core.modAct_wait (k : Core) (f : Act → Act) : (k.modAct f).wait = k.wait := Core.modBank_wait _ _ _
@[simp] theorem Core.modAct_req (k : Core) (f : Act → Act) : (k.modAct f).req = k.req := Core.modBank_req _ _ _
@[simp] theorem Core.modAct_ans (k : Core) (f : Act → Act) : (k.modAct f).ans = k.ans := Core.modBank_ans _ _ _
@[simp] theorem Core.modAct_blocked (k : Core) (f : Act → Act) : (k.modAct f).blocked = k.blocked := Core.modBank_blocked _ _ _
@[simp] theorem Core.modAct_mask (k : Core) (f : Act → Act) : (k.modAct f).mask = k.mask := Core.modBank_mask _ _ _
@[simp] theorem Core.modAct_halted (k : Core) (f : Act → Act) : (k.modAct f).halted = k.halted := Core.modBank_halted _ _ _
@[simp] theorem Core.modAct_haltReq (k : Core) (f : Act → Act) : (k.modAct f).haltReq = k.haltReq := Core.modBank_haltReq _ _ _
@[simp] theorem Core.modAct_hstatus (k : Core) (f : Act → Act) : (k.modAct f).hstatus = k.hstatus := Core.modBank_hstatus _ _ _
@[simp] theorem Core.modAct_held (k : Core) (f : Act → Act) : (k.modAct f).held = k.held := Core.modBank_held _ _ _
@[simp] theorem Core.modAct_trapCount (k : Core) (f : Act → Act) : (k.modAct f).trapCount = k.trapCount := Core.modBank_trapCount _ _ _
@[simp] theorem Core.modAct_msgid (k : Core) (f : Act → Act) : (k.modAct f).msgid = k.msgid := Core.modBank_msgid _ _ _
@[simp] theorem Core.modAct_hpCount (k : Core) (f : Act → Act) : (k.modAct f).hpCount = k.hpCount := Core.modBank_hpCount _ _ _
@[simp] theorem Core.modAct_lowSel (k : Core) (f : Act → Act) : (k.modAct f).lowSel = k.lowSel := Core.modBank_lowSel _ _ _
@[simp] theorem Core.modAct_hiSel (k : Core) (f : Act → Act) : (k.modAct f).hiSel = k.hiSel := Core.modBank_hiSel _ _ _
@[simp] theorem Core.modAct_lowSusp (k : Core) (f : Act → Act) : (k.modAct f).lowSusp = k.lowSusp := Core.modBank_lowSusp _ _ _
@[simp] theorem Core.modAct_seqTop (k : Core) (f : Act → Act) : (k.modAct f).seqTop = k.seqTop := Core.modBank_seqTop _ _ _
@[simp] theorem Core.modAct_recs (k : Core) (f : Act → Act) : (k.modAct f).recs = k.recs := Core.modBank_recs _ _ _
@[simp] theorem Core.modAct_joins (k : Core) (f : Act → Act) : (k.modAct f).joins = k.joins := Core.modBank_joins _ _ _
@[simp] theorem Core.modAct_slots (k : Core) (f : Act → Act) : (k.modAct f).slots = k.slots := Core.modBank_slots _ _ _
@[simp] theorem Core.modAct_pin (k : Core) (f : Act → Act) : (k.modAct f).pin = k.pin := Core.modBank_pin _ _ _
@[simp] theorem Core.modAct_restore (k : Core) (f : Act → Act) : (k.modAct f).restore = k.restore := Core.modBank_restore _ _ _
@[simp] theorem Core.modAct_resv (k : Core) (f : Act → Act) : (k.modAct f).resv = k.resv := Core.modBank_resv _ _ _
@[simp] theorem Core.modAct_launch (k : Core) (f : Act → Act) : (k.modAct f).launch = k.launch := Core.modBank_launch _ _ _
@[simp] theorem Core.modAct_heldLaunch (k : Core) (f : Act → Act) : (k.modAct f).heldLaunch = k.heldLaunch := Core.modBank_heldLaunch _ _ _
@[simp] theorem Core.modAct_inj (k : Core) (f : Act → Act) : (k.modAct f).inj = k.inj := Core.modBank_inj _ _ _
@[simp] theorem Core.modAct_ext (k : Core) (f : Act → Act) : (k.modAct f).ext = k.ext := Core.modBank_ext _ _ _
@[simp] theorem Core.modAct_coll (k : Core) (f : Act → Act) : (k.modAct f).coll = k.coll := Core.modBank_coll _ _ _
@[simp] theorem Core.modAct_bars (k : Core) (f : Act → Act) : (k.modAct f).bars = k.bars := Core.modBank_bars _ _ _
@[simp] theorem Core.modAct_barOut (k : Core) (f : Act → Act) : (k.modAct f).barOut = k.barOut := Core.modBank_barOut _ _ _
@[simp] theorem Core.modAct_nextOut (k : Core) (f : Act → Act) : (k.modAct f).nextOut = k.nextOut := Core.modBank_nextOut _ _ _
@[simp] theorem Core.modAct_sendNo (k : Core) (f : Act → Act) : (k.modAct f).sendNo = k.sendNo := Core.modBank_sendNo _ _ _
@[simp] theorem Core.modAct_fenced (k : Core) (f : Act → Act) : (k.modAct f).fenced = k.fenced := Core.modBank_fenced _ _ _
@[simp] theorem Core.modAct_seen (k : Core) (f : Act → Act) : (k.modAct f).seen = k.seen := Core.modBank_seen _ _ _
@[simp] theorem Core.modAct_deficit (k : Core) (f : Act → Act) : (k.modAct f).deficit = k.deficit := Core.modBank_deficit _ _ _

/-! ### Core.block -/

@[simp] theorem Core.block_lo (k : Core) (a b c : Nat) : (k.block a b c).lo = k.lo := by unfold Core.block; split <;> rfl
@[simp] theorem Core.block_hi (k : Core) (a b c : Nat) : (k.block a b c).hi = k.hi := by unfold Core.block; split <;> rfl
@[simp] theorem Core.block_v (k : Core) (a b c : Nat) : (k.block a b c).v = k.v := by unfold Core.block; split <;> rfl
@[simp] theorem Core.block_c (k : Core) (a b c : Nat) : (k.block a b c).c = k.c := by unfold Core.block; split <;> rfl
@[simp] theorem Core.block_q (k : Core) (a b c : Nat) : (k.block a b c).q = k.q := by unfold Core.block; split <;> rfl
@[simp] theorem Core.block_streams (k : Core) (a b c : Nat) : (k.block a b c).streams = k.streams := by unfold Core.block; split <;> rfl
@[simp] theorem Core.block_ctl (k : Core) (a b c : Nat) : (k.block a b c).ctl = k.ctl := by unfold Core.block; split <;> rfl
@[simp] theorem Core.block_pend (k : Core) (a b c : Nat) : (k.block a b c).pend = k.pend := by unfold Core.block; split <;> rfl
@[simp] theorem Core.block_outst (k : Core) (a b c : Nat) : (k.block a b c).outst = k.outst := by unfold Core.block; split <;> rfl
@[simp] theorem Core.block_regPoison (k : Core) (a b c : Nat) : (k.block a b c).regPoison = k.regPoison := by unfold Core.block; split <;> rfl
@[simp] theorem Core.block_vq (k : Core) (a b c : Nat) : (k.block a b c).vq = k.vq := by unfold Core.block; split <;> rfl
@[simp] theorem Core.block_ptrap (k : Core) (a b c : Nat) : (k.block a b c).ptrap = k.ptrap := by unfold Core.block; split <;> rfl
@[simp] theorem Core.block_async (k : Core) (a b c : Nat) : (k.block a b c).async = k.async := by unfold Core.block; split <;> rfl
@[simp] theorem Core.block_wait (k : Core) (a b c : Nat) : (k.block a b c).wait = k.wait := by unfold Core.block; split <;> rfl
@[simp] theorem Core.block_req (k : Core) (a b c : Nat) : (k.block a b c).req = k.req := by unfold Core.block; split <;> rfl
@[simp] theorem Core.block_ans (k : Core) (a b c : Nat) : (k.block a b c).ans = k.ans := by unfold Core.block; split <;> rfl
@[simp] theorem Core.block_mask (k : Core) (a b c : Nat) : (k.block a b c).mask = k.mask := by unfold Core.block; split <;> rfl
@[simp] theorem Core.block_halted (k : Core) (a b c : Nat) : (k.block a b c).halted = k.halted := by unfold Core.block; split <;> rfl
@[simp] theorem Core.block_haltReq (k : Core) (a b c : Nat) : (k.block a b c).haltReq = k.haltReq := by unfold Core.block; split <;> rfl
@[simp] theorem Core.block_hstatus (k : Core) (a b c : Nat) : (k.block a b c).hstatus = k.hstatus := by unfold Core.block; split <;> rfl
@[simp] theorem Core.block_held (k : Core) (a b c : Nat) : (k.block a b c).held = k.held := by unfold Core.block; split <;> rfl
@[simp] theorem Core.block_trapCount (k : Core) (a b c : Nat) : (k.block a b c).trapCount = k.trapCount := by unfold Core.block; split <;> rfl
@[simp] theorem Core.block_msgid (k : Core) (a b c : Nat) : (k.block a b c).msgid = k.msgid := by unfold Core.block; split <;> rfl
@[simp] theorem Core.block_hpCount (k : Core) (a b c : Nat) : (k.block a b c).hpCount = k.hpCount := by unfold Core.block; split <;> rfl
@[simp] theorem Core.block_lowSel (k : Core) (a b c : Nat) : (k.block a b c).lowSel = k.lowSel := by unfold Core.block; split <;> rfl
@[simp] theorem Core.block_hiSel (k : Core) (a b c : Nat) : (k.block a b c).hiSel = k.hiSel := by unfold Core.block; split <;> rfl
@[simp] theorem Core.block_lowSusp (k : Core) (a b c : Nat) : (k.block a b c).lowSusp = k.lowSusp := by unfold Core.block; split <;> rfl
@[simp] theorem Core.block_seqTop (k : Core) (a b c : Nat) : (k.block a b c).seqTop = k.seqTop := by unfold Core.block; split <;> rfl
@[simp] theorem Core.block_recs (k : Core) (a b c : Nat) : (k.block a b c).recs = k.recs := by unfold Core.block; split <;> rfl
@[simp] theorem Core.block_joins (k : Core) (a b c : Nat) : (k.block a b c).joins = k.joins := by unfold Core.block; split <;> rfl
@[simp] theorem Core.block_slots (k : Core) (a b c : Nat) : (k.block a b c).slots = k.slots := by unfold Core.block; split <;> rfl
@[simp] theorem Core.block_pin (k : Core) (a b c : Nat) : (k.block a b c).pin = k.pin := by unfold Core.block; split <;> rfl
@[simp] theorem Core.block_restore (k : Core) (a b c : Nat) : (k.block a b c).restore = k.restore := by unfold Core.block; split <;> rfl
@[simp] theorem Core.block_resv (k : Core) (a b c : Nat) : (k.block a b c).resv = k.resv := by unfold Core.block; split <;> rfl
@[simp] theorem Core.block_launch (k : Core) (a b c : Nat) : (k.block a b c).launch = k.launch := by unfold Core.block; split <;> rfl
@[simp] theorem Core.block_heldLaunch (k : Core) (a b c : Nat) : (k.block a b c).heldLaunch = k.heldLaunch := by unfold Core.block; split <;> rfl
@[simp] theorem Core.block_inj (k : Core) (a b c : Nat) : (k.block a b c).inj = k.inj := by unfold Core.block; split <;> rfl
@[simp] theorem Core.block_ext (k : Core) (a b c : Nat) : (k.block a b c).ext = k.ext := by unfold Core.block; split <;> rfl
@[simp] theorem Core.block_coll (k : Core) (a b c : Nat) : (k.block a b c).coll = k.coll := by unfold Core.block; split <;> rfl
@[simp] theorem Core.block_bars (k : Core) (a b c : Nat) : (k.block a b c).bars = k.bars := by unfold Core.block; split <;> rfl
@[simp] theorem Core.block_barOut (k : Core) (a b c : Nat) : (k.block a b c).barOut = k.barOut := by unfold Core.block; split <;> rfl
@[simp] theorem Core.block_nextOut (k : Core) (a b c : Nat) : (k.block a b c).nextOut = k.nextOut := by unfold Core.block; split <;> rfl
@[simp] theorem Core.block_sendNo (k : Core) (a b c : Nat) : (k.block a b c).sendNo = k.sendNo := by unfold Core.block; split <;> rfl
@[simp] theorem Core.block_fenced (k : Core) (a b c : Nat) : (k.block a b c).fenced = k.fenced := by unfold Core.block; split <;> rfl
@[simp] theorem Core.block_seen (k : Core) (a b c : Nat) : (k.block a b c).seen = k.seen := by unfold Core.block; split <;> rfl
@[simp] theorem Core.block_deficit (k : Core) (a b c : Nat) : (k.block a b c).deficit = k.deficit := by unfold Core.block; split <;> rfl

/-! ### Core.unblock -/

@[simp] theorem Core.unblock_lo (k : Core)  : (k.unblock).lo = k.lo := Core.block_lo _ _ _ _
@[simp] theorem Core.unblock_hi (k : Core)  : (k.unblock).hi = k.hi := Core.block_hi _ _ _ _
@[simp] theorem Core.unblock_v (k : Core)  : (k.unblock).v = k.v := Core.block_v _ _ _ _
@[simp] theorem Core.unblock_c (k : Core)  : (k.unblock).c = k.c := Core.block_c _ _ _ _
@[simp] theorem Core.unblock_q (k : Core)  : (k.unblock).q = k.q := Core.block_q _ _ _ _
@[simp] theorem Core.unblock_streams (k : Core)  : (k.unblock).streams = k.streams := Core.block_streams _ _ _ _
@[simp] theorem Core.unblock_ctl (k : Core)  : (k.unblock).ctl = k.ctl := Core.block_ctl _ _ _ _
@[simp] theorem Core.unblock_pend (k : Core)  : (k.unblock).pend = k.pend := Core.block_pend _ _ _ _
@[simp] theorem Core.unblock_outst (k : Core)  : (k.unblock).outst = k.outst := Core.block_outst _ _ _ _
@[simp] theorem Core.unblock_regPoison (k : Core)  : (k.unblock).regPoison = k.regPoison := Core.block_regPoison _ _ _ _
@[simp] theorem Core.unblock_vq (k : Core)  : (k.unblock).vq = k.vq := Core.block_vq _ _ _ _
@[simp] theorem Core.unblock_ptrap (k : Core)  : (k.unblock).ptrap = k.ptrap := Core.block_ptrap _ _ _ _
@[simp] theorem Core.unblock_async (k : Core)  : (k.unblock).async = k.async := Core.block_async _ _ _ _
@[simp] theorem Core.unblock_wait (k : Core)  : (k.unblock).wait = k.wait := Core.block_wait _ _ _ _
@[simp] theorem Core.unblock_req (k : Core)  : (k.unblock).req = k.req := Core.block_req _ _ _ _
@[simp] theorem Core.unblock_ans (k : Core)  : (k.unblock).ans = k.ans := Core.block_ans _ _ _ _
@[simp] theorem Core.unblock_mask (k : Core)  : (k.unblock).mask = k.mask := Core.block_mask _ _ _ _
@[simp] theorem Core.unblock_halted (k : Core)  : (k.unblock).halted = k.halted := Core.block_halted _ _ _ _
@[simp] theorem Core.unblock_haltReq (k : Core)  : (k.unblock).haltReq = k.haltReq := Core.block_haltReq _ _ _ _
@[simp] theorem Core.unblock_hstatus (k : Core)  : (k.unblock).hstatus = k.hstatus := Core.block_hstatus _ _ _ _
@[simp] theorem Core.unblock_held (k : Core)  : (k.unblock).held = k.held := Core.block_held _ _ _ _
@[simp] theorem Core.unblock_trapCount (k : Core)  : (k.unblock).trapCount = k.trapCount := Core.block_trapCount _ _ _ _
@[simp] theorem Core.unblock_msgid (k : Core)  : (k.unblock).msgid = k.msgid := Core.block_msgid _ _ _ _
@[simp] theorem Core.unblock_hpCount (k : Core)  : (k.unblock).hpCount = k.hpCount := Core.block_hpCount _ _ _ _
@[simp] theorem Core.unblock_lowSel (k : Core)  : (k.unblock).lowSel = k.lowSel := Core.block_lowSel _ _ _ _
@[simp] theorem Core.unblock_hiSel (k : Core)  : (k.unblock).hiSel = k.hiSel := Core.block_hiSel _ _ _ _
@[simp] theorem Core.unblock_lowSusp (k : Core)  : (k.unblock).lowSusp = k.lowSusp := Core.block_lowSusp _ _ _ _
@[simp] theorem Core.unblock_seqTop (k : Core)  : (k.unblock).seqTop = k.seqTop := Core.block_seqTop _ _ _ _
@[simp] theorem Core.unblock_recs (k : Core)  : (k.unblock).recs = k.recs := Core.block_recs _ _ _ _
@[simp] theorem Core.unblock_joins (k : Core)  : (k.unblock).joins = k.joins := Core.block_joins _ _ _ _
@[simp] theorem Core.unblock_slots (k : Core)  : (k.unblock).slots = k.slots := Core.block_slots _ _ _ _
@[simp] theorem Core.unblock_pin (k : Core)  : (k.unblock).pin = k.pin := Core.block_pin _ _ _ _
@[simp] theorem Core.unblock_restore (k : Core)  : (k.unblock).restore = k.restore := Core.block_restore _ _ _ _
@[simp] theorem Core.unblock_resv (k : Core)  : (k.unblock).resv = k.resv := Core.block_resv _ _ _ _
@[simp] theorem Core.unblock_launch (k : Core)  : (k.unblock).launch = k.launch := Core.block_launch _ _ _ _
@[simp] theorem Core.unblock_heldLaunch (k : Core)  : (k.unblock).heldLaunch = k.heldLaunch := Core.block_heldLaunch _ _ _ _
@[simp] theorem Core.unblock_inj (k : Core)  : (k.unblock).inj = k.inj := Core.block_inj _ _ _ _
@[simp] theorem Core.unblock_ext (k : Core)  : (k.unblock).ext = k.ext := Core.block_ext _ _ _ _
@[simp] theorem Core.unblock_coll (k : Core)  : (k.unblock).coll = k.coll := Core.block_coll _ _ _ _
@[simp] theorem Core.unblock_bars (k : Core)  : (k.unblock).bars = k.bars := Core.block_bars _ _ _ _
@[simp] theorem Core.unblock_barOut (k : Core)  : (k.unblock).barOut = k.barOut := Core.block_barOut _ _ _ _
@[simp] theorem Core.unblock_nextOut (k : Core)  : (k.unblock).nextOut = k.nextOut := Core.block_nextOut _ _ _ _
@[simp] theorem Core.unblock_sendNo (k : Core)  : (k.unblock).sendNo = k.sendNo := Core.block_sendNo _ _ _ _
@[simp] theorem Core.unblock_fenced (k : Core)  : (k.unblock).fenced = k.fenced := Core.block_fenced _ _ _ _
@[simp] theorem Core.unblock_seen (k : Core)  : (k.unblock).seen = k.seen := Core.block_seen _ _ _ _
@[simp] theorem Core.unblock_deficit (k : Core)  : (k.unblock).deficit = k.deficit := Core.block_deficit _ _ _ _

/-! ### Core.setRing -/

@[simp] theorem Core.setRing_lo (k : Core) (n : Nat) (x : W) : (k.setRing n x).lo = k.lo := rfl
@[simp] theorem Core.setRing_hi (k : Core) (n : Nat) (x : W) : (k.setRing n x).hi = k.hi := rfl
@[simp] theorem Core.setRing_v (k : Core) (n : Nat) (x : W) : (k.setRing n x).v = k.v := rfl
@[simp] theorem Core.setRing_c (k : Core) (n : Nat) (x : W) : (k.setRing n x).c = k.c := rfl
@[simp] theorem Core.setRing_q (k : Core) (n : Nat) (x : W) : (k.setRing n x).q = k.q := rfl
@[simp] theorem Core.setRing_streams (k : Core) (n : Nat) (x : W) : (k.setRing n x).streams = k.streams := rfl
@[simp] theorem Core.setRing_pend (k : Core) (n : Nat) (x : W) : (k.setRing n x).pend = k.pend := rfl
@[simp] theorem Core.setRing_outst (k : Core) (n : Nat) (x : W) : (k.setRing n x).outst = k.outst := rfl
@[simp] theorem Core.setRing_regPoison (k : Core) (n : Nat) (x : W) : (k.setRing n x).regPoison = k.regPoison := rfl
@[simp] theorem Core.setRing_vq (k : Core) (n : Nat) (x : W) : (k.setRing n x).vq = k.vq := rfl
@[simp] theorem Core.setRing_ptrap (k : Core) (n : Nat) (x : W) : (k.setRing n x).ptrap = k.ptrap := rfl
@[simp] theorem Core.setRing_async (k : Core) (n : Nat) (x : W) : (k.setRing n x).async = k.async := rfl
@[simp] theorem Core.setRing_wait (k : Core) (n : Nat) (x : W) : (k.setRing n x).wait = k.wait := rfl
@[simp] theorem Core.setRing_req (k : Core) (n : Nat) (x : W) : (k.setRing n x).req = k.req := rfl
@[simp] theorem Core.setRing_ans (k : Core) (n : Nat) (x : W) : (k.setRing n x).ans = k.ans := rfl
@[simp] theorem Core.setRing_blocked (k : Core) (n : Nat) (x : W) : (k.setRing n x).blocked = k.blocked := rfl
@[simp] theorem Core.setRing_mask (k : Core) (n : Nat) (x : W) : (k.setRing n x).mask = k.mask := rfl
@[simp] theorem Core.setRing_halted (k : Core) (n : Nat) (x : W) : (k.setRing n x).halted = k.halted := rfl
@[simp] theorem Core.setRing_haltReq (k : Core) (n : Nat) (x : W) : (k.setRing n x).haltReq = k.haltReq := rfl
@[simp] theorem Core.setRing_hstatus (k : Core) (n : Nat) (x : W) : (k.setRing n x).hstatus = k.hstatus := rfl
@[simp] theorem Core.setRing_held (k : Core) (n : Nat) (x : W) : (k.setRing n x).held = k.held := rfl
@[simp] theorem Core.setRing_trapCount (k : Core) (n : Nat) (x : W) : (k.setRing n x).trapCount = k.trapCount := rfl
@[simp] theorem Core.setRing_msgid (k : Core) (n : Nat) (x : W) : (k.setRing n x).msgid = k.msgid := rfl
@[simp] theorem Core.setRing_hpCount (k : Core) (n : Nat) (x : W) : (k.setRing n x).hpCount = k.hpCount := rfl
@[simp] theorem Core.setRing_lowSel (k : Core) (n : Nat) (x : W) : (k.setRing n x).lowSel = k.lowSel := rfl
@[simp] theorem Core.setRing_hiSel (k : Core) (n : Nat) (x : W) : (k.setRing n x).hiSel = k.hiSel := rfl
@[simp] theorem Core.setRing_lowSusp (k : Core) (n : Nat) (x : W) : (k.setRing n x).lowSusp = k.lowSusp := rfl
@[simp] theorem Core.setRing_seqTop (k : Core) (n : Nat) (x : W) : (k.setRing n x).seqTop = k.seqTop := rfl
@[simp] theorem Core.setRing_recs (k : Core) (n : Nat) (x : W) : (k.setRing n x).recs = k.recs := rfl
@[simp] theorem Core.setRing_joins (k : Core) (n : Nat) (x : W) : (k.setRing n x).joins = k.joins := rfl
@[simp] theorem Core.setRing_slots (k : Core) (n : Nat) (x : W) : (k.setRing n x).slots = k.slots := rfl
@[simp] theorem Core.setRing_pin (k : Core) (n : Nat) (x : W) : (k.setRing n x).pin = k.pin := rfl
@[simp] theorem Core.setRing_restore (k : Core) (n : Nat) (x : W) : (k.setRing n x).restore = k.restore := rfl
@[simp] theorem Core.setRing_resv (k : Core) (n : Nat) (x : W) : (k.setRing n x).resv = k.resv := rfl
@[simp] theorem Core.setRing_launch (k : Core) (n : Nat) (x : W) : (k.setRing n x).launch = k.launch := rfl
@[simp] theorem Core.setRing_heldLaunch (k : Core) (n : Nat) (x : W) : (k.setRing n x).heldLaunch = k.heldLaunch := rfl
@[simp] theorem Core.setRing_inj (k : Core) (n : Nat) (x : W) : (k.setRing n x).inj = k.inj := rfl
@[simp] theorem Core.setRing_ext (k : Core) (n : Nat) (x : W) : (k.setRing n x).ext = k.ext := rfl
@[simp] theorem Core.setRing_coll (k : Core) (n : Nat) (x : W) : (k.setRing n x).coll = k.coll := rfl
@[simp] theorem Core.setRing_bars (k : Core) (n : Nat) (x : W) : (k.setRing n x).bars = k.bars := rfl
@[simp] theorem Core.setRing_barOut (k : Core) (n : Nat) (x : W) : (k.setRing n x).barOut = k.barOut := rfl
@[simp] theorem Core.setRing_nextOut (k : Core) (n : Nat) (x : W) : (k.setRing n x).nextOut = k.nextOut := rfl
@[simp] theorem Core.setRing_sendNo (k : Core) (n : Nat) (x : W) : (k.setRing n x).sendNo = k.sendNo := rfl
@[simp] theorem Core.setRing_fenced (k : Core) (n : Nat) (x : W) : (k.setRing n x).fenced = k.fenced := rfl
@[simp] theorem Core.setRing_seen (k : Core) (n : Nat) (x : W) : (k.setRing n x).seen = k.seen := rfl
@[simp] theorem Core.setRing_deficit (k : Core) (n : Nat) (x : W) : (k.setRing n x).deficit = k.deficit := rfl
@[simp] theorem Core.setRing_checked (k : Core) (n : Nat) (x : W) : (k.setRing n x).checked = k.checked := rfl

/-! ### Core.setTask -/

@[simp] theorem Core.setTask_lo (k : Core) (n : Nat) (x : W) : (k.setTask n x).lo = k.lo := rfl
@[simp] theorem Core.setTask_hi (k : Core) (n : Nat) (x : W) : (k.setTask n x).hi = k.hi := rfl
@[simp] theorem Core.setTask_v (k : Core) (n : Nat) (x : W) : (k.setTask n x).v = k.v := rfl
@[simp] theorem Core.setTask_c (k : Core) (n : Nat) (x : W) : (k.setTask n x).c = k.c := rfl
@[simp] theorem Core.setTask_q (k : Core) (n : Nat) (x : W) : (k.setTask n x).q = k.q := rfl
@[simp] theorem Core.setTask_streams (k : Core) (n : Nat) (x : W) : (k.setTask n x).streams = k.streams := rfl
@[simp] theorem Core.setTask_pend (k : Core) (n : Nat) (x : W) : (k.setTask n x).pend = k.pend := rfl
@[simp] theorem Core.setTask_outst (k : Core) (n : Nat) (x : W) : (k.setTask n x).outst = k.outst := rfl
@[simp] theorem Core.setTask_regPoison (k : Core) (n : Nat) (x : W) : (k.setTask n x).regPoison = k.regPoison := rfl
@[simp] theorem Core.setTask_vq (k : Core) (n : Nat) (x : W) : (k.setTask n x).vq = k.vq := rfl
@[simp] theorem Core.setTask_ptrap (k : Core) (n : Nat) (x : W) : (k.setTask n x).ptrap = k.ptrap := rfl
@[simp] theorem Core.setTask_async (k : Core) (n : Nat) (x : W) : (k.setTask n x).async = k.async := rfl
@[simp] theorem Core.setTask_wait (k : Core) (n : Nat) (x : W) : (k.setTask n x).wait = k.wait := rfl
@[simp] theorem Core.setTask_req (k : Core) (n : Nat) (x : W) : (k.setTask n x).req = k.req := rfl
@[simp] theorem Core.setTask_ans (k : Core) (n : Nat) (x : W) : (k.setTask n x).ans = k.ans := rfl
@[simp] theorem Core.setTask_blocked (k : Core) (n : Nat) (x : W) : (k.setTask n x).blocked = k.blocked := rfl
@[simp] theorem Core.setTask_mask (k : Core) (n : Nat) (x : W) : (k.setTask n x).mask = k.mask := rfl
@[simp] theorem Core.setTask_halted (k : Core) (n : Nat) (x : W) : (k.setTask n x).halted = k.halted := rfl
@[simp] theorem Core.setTask_haltReq (k : Core) (n : Nat) (x : W) : (k.setTask n x).haltReq = k.haltReq := rfl
@[simp] theorem Core.setTask_hstatus (k : Core) (n : Nat) (x : W) : (k.setTask n x).hstatus = k.hstatus := rfl
@[simp] theorem Core.setTask_held (k : Core) (n : Nat) (x : W) : (k.setTask n x).held = k.held := rfl
@[simp] theorem Core.setTask_trapCount (k : Core) (n : Nat) (x : W) : (k.setTask n x).trapCount = k.trapCount := rfl
@[simp] theorem Core.setTask_msgid (k : Core) (n : Nat) (x : W) : (k.setTask n x).msgid = k.msgid := rfl
@[simp] theorem Core.setTask_hpCount (k : Core) (n : Nat) (x : W) : (k.setTask n x).hpCount = k.hpCount := rfl
@[simp] theorem Core.setTask_lowSel (k : Core) (n : Nat) (x : W) : (k.setTask n x).lowSel = k.lowSel := rfl
@[simp] theorem Core.setTask_hiSel (k : Core) (n : Nat) (x : W) : (k.setTask n x).hiSel = k.hiSel := rfl
@[simp] theorem Core.setTask_lowSusp (k : Core) (n : Nat) (x : W) : (k.setTask n x).lowSusp = k.lowSusp := rfl
@[simp] theorem Core.setTask_seqTop (k : Core) (n : Nat) (x : W) : (k.setTask n x).seqTop = k.seqTop := rfl
@[simp] theorem Core.setTask_recs (k : Core) (n : Nat) (x : W) : (k.setTask n x).recs = k.recs := rfl
@[simp] theorem Core.setTask_joins (k : Core) (n : Nat) (x : W) : (k.setTask n x).joins = k.joins := rfl
@[simp] theorem Core.setTask_slots (k : Core) (n : Nat) (x : W) : (k.setTask n x).slots = k.slots := rfl
@[simp] theorem Core.setTask_pin (k : Core) (n : Nat) (x : W) : (k.setTask n x).pin = k.pin := rfl
@[simp] theorem Core.setTask_restore (k : Core) (n : Nat) (x : W) : (k.setTask n x).restore = k.restore := rfl
@[simp] theorem Core.setTask_resv (k : Core) (n : Nat) (x : W) : (k.setTask n x).resv = k.resv := rfl
@[simp] theorem Core.setTask_launch (k : Core) (n : Nat) (x : W) : (k.setTask n x).launch = k.launch := rfl
@[simp] theorem Core.setTask_heldLaunch (k : Core) (n : Nat) (x : W) : (k.setTask n x).heldLaunch = k.heldLaunch := rfl
@[simp] theorem Core.setTask_inj (k : Core) (n : Nat) (x : W) : (k.setTask n x).inj = k.inj := rfl
@[simp] theorem Core.setTask_ext (k : Core) (n : Nat) (x : W) : (k.setTask n x).ext = k.ext := rfl
@[simp] theorem Core.setTask_coll (k : Core) (n : Nat) (x : W) : (k.setTask n x).coll = k.coll := rfl
@[simp] theorem Core.setTask_bars (k : Core) (n : Nat) (x : W) : (k.setTask n x).bars = k.bars := rfl
@[simp] theorem Core.setTask_barOut (k : Core) (n : Nat) (x : W) : (k.setTask n x).barOut = k.barOut := rfl
@[simp] theorem Core.setTask_nextOut (k : Core) (n : Nat) (x : W) : (k.setTask n x).nextOut = k.nextOut := rfl
@[simp] theorem Core.setTask_sendNo (k : Core) (n : Nat) (x : W) : (k.setTask n x).sendNo = k.sendNo := rfl
@[simp] theorem Core.setTask_fenced (k : Core) (n : Nat) (x : W) : (k.setTask n x).fenced = k.fenced := rfl
@[simp] theorem Core.setTask_seen (k : Core) (n : Nat) (x : W) : (k.setTask n x).seen = k.seen := rfl
@[simp] theorem Core.setTask_deficit (k : Core) (n : Nat) (x : W) : (k.setTask n x).deficit = k.deficit := rfl
@[simp] theorem Core.setTask_checked (k : Core) (n : Nat) (x : W) : (k.setTask n x).checked = k.checked := rfl

/-! ### Core.setPoison -/

@[simp] theorem Core.setPoison_lo (k : Core) (f : RFile) (h : Bool) (n : Nat) (l : List (Nat × W)) : (k.setPoison f h n l).lo = k.lo := rfl
@[simp] theorem Core.setPoison_hi (k : Core) (f : RFile) (h : Bool) (n : Nat) (l : List (Nat × W)) : (k.setPoison f h n l).hi = k.hi := rfl
@[simp] theorem Core.setPoison_v (k : Core) (f : RFile) (h : Bool) (n : Nat) (l : List (Nat × W)) : (k.setPoison f h n l).v = k.v := rfl
@[simp] theorem Core.setPoison_c (k : Core) (f : RFile) (h : Bool) (n : Nat) (l : List (Nat × W)) : (k.setPoison f h n l).c = k.c := rfl
@[simp] theorem Core.setPoison_q (k : Core) (f : RFile) (h : Bool) (n : Nat) (l : List (Nat × W)) : (k.setPoison f h n l).q = k.q := rfl
@[simp] theorem Core.setPoison_streams (k : Core) (f : RFile) (h : Bool) (n : Nat) (l : List (Nat × W)) : (k.setPoison f h n l).streams = k.streams := rfl
@[simp] theorem Core.setPoison_ctl (k : Core) (f : RFile) (h : Bool) (n : Nat) (l : List (Nat × W)) : (k.setPoison f h n l).ctl = k.ctl := rfl
@[simp] theorem Core.setPoison_pend (k : Core) (f : RFile) (h : Bool) (n : Nat) (l : List (Nat × W)) : (k.setPoison f h n l).pend = k.pend := rfl
@[simp] theorem Core.setPoison_outst (k : Core) (f : RFile) (h : Bool) (n : Nat) (l : List (Nat × W)) : (k.setPoison f h n l).outst = k.outst := rfl
@[simp] theorem Core.setPoison_vq (k : Core) (f : RFile) (h : Bool) (n : Nat) (l : List (Nat × W)) : (k.setPoison f h n l).vq = k.vq := rfl
@[simp] theorem Core.setPoison_ptrap (k : Core) (f : RFile) (h : Bool) (n : Nat) (l : List (Nat × W)) : (k.setPoison f h n l).ptrap = k.ptrap := rfl
@[simp] theorem Core.setPoison_async (k : Core) (f : RFile) (h : Bool) (n : Nat) (l : List (Nat × W)) : (k.setPoison f h n l).async = k.async := rfl
@[simp] theorem Core.setPoison_wait (k : Core) (f : RFile) (h : Bool) (n : Nat) (l : List (Nat × W)) : (k.setPoison f h n l).wait = k.wait := rfl
@[simp] theorem Core.setPoison_req (k : Core) (f : RFile) (h : Bool) (n : Nat) (l : List (Nat × W)) : (k.setPoison f h n l).req = k.req := rfl
@[simp] theorem Core.setPoison_ans (k : Core) (f : RFile) (h : Bool) (n : Nat) (l : List (Nat × W)) : (k.setPoison f h n l).ans = k.ans := rfl
@[simp] theorem Core.setPoison_blocked (k : Core) (f : RFile) (h : Bool) (n : Nat) (l : List (Nat × W)) : (k.setPoison f h n l).blocked = k.blocked := rfl
@[simp] theorem Core.setPoison_mask (k : Core) (f : RFile) (h : Bool) (n : Nat) (l : List (Nat × W)) : (k.setPoison f h n l).mask = k.mask := rfl
@[simp] theorem Core.setPoison_halted (k : Core) (f : RFile) (h : Bool) (n : Nat) (l : List (Nat × W)) : (k.setPoison f h n l).halted = k.halted := rfl
@[simp] theorem Core.setPoison_haltReq (k : Core) (f : RFile) (h : Bool) (n : Nat) (l : List (Nat × W)) : (k.setPoison f h n l).haltReq = k.haltReq := rfl
@[simp] theorem Core.setPoison_hstatus (k : Core) (f : RFile) (h : Bool) (n : Nat) (l : List (Nat × W)) : (k.setPoison f h n l).hstatus = k.hstatus := rfl
@[simp] theorem Core.setPoison_held (k : Core) (f : RFile) (h : Bool) (n : Nat) (l : List (Nat × W)) : (k.setPoison f h n l).held = k.held := rfl
@[simp] theorem Core.setPoison_trapCount (k : Core) (f : RFile) (h : Bool) (n : Nat) (l : List (Nat × W)) : (k.setPoison f h n l).trapCount = k.trapCount := rfl
@[simp] theorem Core.setPoison_msgid (k : Core) (f : RFile) (h : Bool) (n : Nat) (l : List (Nat × W)) : (k.setPoison f h n l).msgid = k.msgid := rfl
@[simp] theorem Core.setPoison_hpCount (k : Core) (f : RFile) (h : Bool) (n : Nat) (l : List (Nat × W)) : (k.setPoison f h n l).hpCount = k.hpCount := rfl
@[simp] theorem Core.setPoison_lowSel (k : Core) (f : RFile) (h : Bool) (n : Nat) (l : List (Nat × W)) : (k.setPoison f h n l).lowSel = k.lowSel := rfl
@[simp] theorem Core.setPoison_hiSel (k : Core) (f : RFile) (h : Bool) (n : Nat) (l : List (Nat × W)) : (k.setPoison f h n l).hiSel = k.hiSel := rfl
@[simp] theorem Core.setPoison_lowSusp (k : Core) (f : RFile) (h : Bool) (n : Nat) (l : List (Nat × W)) : (k.setPoison f h n l).lowSusp = k.lowSusp := rfl
@[simp] theorem Core.setPoison_seqTop (k : Core) (f : RFile) (h : Bool) (n : Nat) (l : List (Nat × W)) : (k.setPoison f h n l).seqTop = k.seqTop := rfl
@[simp] theorem Core.setPoison_recs (k : Core) (f : RFile) (h : Bool) (n : Nat) (l : List (Nat × W)) : (k.setPoison f h n l).recs = k.recs := rfl
@[simp] theorem Core.setPoison_joins (k : Core) (f : RFile) (h : Bool) (n : Nat) (l : List (Nat × W)) : (k.setPoison f h n l).joins = k.joins := rfl
@[simp] theorem Core.setPoison_slots (k : Core) (f : RFile) (h : Bool) (n : Nat) (l : List (Nat × W)) : (k.setPoison f h n l).slots = k.slots := rfl
@[simp] theorem Core.setPoison_pin (k : Core) (f : RFile) (h : Bool) (n : Nat) (l : List (Nat × W)) : (k.setPoison f h n l).pin = k.pin := rfl
@[simp] theorem Core.setPoison_restore (k : Core) (f : RFile) (h : Bool) (n : Nat) (l : List (Nat × W)) : (k.setPoison f h n l).restore = k.restore := rfl
@[simp] theorem Core.setPoison_resv (k : Core) (f : RFile) (h : Bool) (n : Nat) (l : List (Nat × W)) : (k.setPoison f h n l).resv = k.resv := rfl
@[simp] theorem Core.setPoison_launch (k : Core) (f : RFile) (h : Bool) (n : Nat) (l : List (Nat × W)) : (k.setPoison f h n l).launch = k.launch := rfl
@[simp] theorem Core.setPoison_heldLaunch (k : Core) (f : RFile) (h : Bool) (n : Nat) (l : List (Nat × W)) : (k.setPoison f h n l).heldLaunch = k.heldLaunch := rfl
@[simp] theorem Core.setPoison_inj (k : Core) (f : RFile) (h : Bool) (n : Nat) (l : List (Nat × W)) : (k.setPoison f h n l).inj = k.inj := rfl
@[simp] theorem Core.setPoison_ext (k : Core) (f : RFile) (h : Bool) (n : Nat) (l : List (Nat × W)) : (k.setPoison f h n l).ext = k.ext := rfl
@[simp] theorem Core.setPoison_coll (k : Core) (f : RFile) (h : Bool) (n : Nat) (l : List (Nat × W)) : (k.setPoison f h n l).coll = k.coll := rfl
@[simp] theorem Core.setPoison_bars (k : Core) (f : RFile) (h : Bool) (n : Nat) (l : List (Nat × W)) : (k.setPoison f h n l).bars = k.bars := rfl
@[simp] theorem Core.setPoison_barOut (k : Core) (f : RFile) (h : Bool) (n : Nat) (l : List (Nat × W)) : (k.setPoison f h n l).barOut = k.barOut := rfl
@[simp] theorem Core.setPoison_nextOut (k : Core) (f : RFile) (h : Bool) (n : Nat) (l : List (Nat × W)) : (k.setPoison f h n l).nextOut = k.nextOut := rfl
@[simp] theorem Core.setPoison_sendNo (k : Core) (f : RFile) (h : Bool) (n : Nat) (l : List (Nat × W)) : (k.setPoison f h n l).sendNo = k.sendNo := rfl
@[simp] theorem Core.setPoison_fenced (k : Core) (f : RFile) (h : Bool) (n : Nat) (l : List (Nat × W)) : (k.setPoison f h n l).fenced = k.fenced := rfl
@[simp] theorem Core.setPoison_seen (k : Core) (f : RFile) (h : Bool) (n : Nat) (l : List (Nat × W)) : (k.setPoison f h n l).seen = k.seen := rfl
@[simp] theorem Core.setPoison_deficit (k : Core) (f : RFile) (h : Bool) (n : Nat) (l : List (Nat × W)) : (k.setPoison f h n l).deficit = k.deficit := rfl
@[simp] theorem Core.setPoison_checked (k : Core) (f : RFile) (h : Bool) (n : Nat) (l : List (Nat × W)) : (k.setPoison f h n l).checked = k.checked := rfl

/-! ### Core.cancel -/

@[simp] theorem Core.cancel_lo (k : Core) (f : RFile) (h : Bool) (n : Nat) : (k.cancel f h n).lo = k.lo := rfl
@[simp] theorem Core.cancel_hi (k : Core) (f : RFile) (h : Bool) (n : Nat) : (k.cancel f h n).hi = k.hi := rfl
@[simp] theorem Core.cancel_v (k : Core) (f : RFile) (h : Bool) (n : Nat) : (k.cancel f h n).v = k.v := rfl
@[simp] theorem Core.cancel_c (k : Core) (f : RFile) (h : Bool) (n : Nat) : (k.cancel f h n).c = k.c := rfl
@[simp] theorem Core.cancel_q (k : Core) (f : RFile) (h : Bool) (n : Nat) : (k.cancel f h n).q = k.q := rfl
@[simp] theorem Core.cancel_streams (k : Core) (f : RFile) (h : Bool) (n : Nat) : (k.cancel f h n).streams = k.streams := rfl
@[simp] theorem Core.cancel_ctl (k : Core) (f : RFile) (h : Bool) (n : Nat) : (k.cancel f h n).ctl = k.ctl := rfl
@[simp] theorem Core.cancel_regPoison (k : Core) (f : RFile) (h : Bool) (n : Nat) : (k.cancel f h n).regPoison = k.regPoison := rfl
@[simp] theorem Core.cancel_vq (k : Core) (f : RFile) (h : Bool) (n : Nat) : (k.cancel f h n).vq = k.vq := rfl
@[simp] theorem Core.cancel_ptrap (k : Core) (f : RFile) (h : Bool) (n : Nat) : (k.cancel f h n).ptrap = k.ptrap := rfl
@[simp] theorem Core.cancel_async (k : Core) (f : RFile) (h : Bool) (n : Nat) : (k.cancel f h n).async = k.async := rfl
@[simp] theorem Core.cancel_wait (k : Core) (f : RFile) (h : Bool) (n : Nat) : (k.cancel f h n).wait = k.wait := rfl
@[simp] theorem Core.cancel_req (k : Core) (f : RFile) (h : Bool) (n : Nat) : (k.cancel f h n).req = k.req := rfl
@[simp] theorem Core.cancel_ans (k : Core) (f : RFile) (h : Bool) (n : Nat) : (k.cancel f h n).ans = k.ans := rfl
@[simp] theorem Core.cancel_blocked (k : Core) (f : RFile) (h : Bool) (n : Nat) : (k.cancel f h n).blocked = k.blocked := rfl
@[simp] theorem Core.cancel_mask (k : Core) (f : RFile) (h : Bool) (n : Nat) : (k.cancel f h n).mask = k.mask := rfl
@[simp] theorem Core.cancel_halted (k : Core) (f : RFile) (h : Bool) (n : Nat) : (k.cancel f h n).halted = k.halted := rfl
@[simp] theorem Core.cancel_haltReq (k : Core) (f : RFile) (h : Bool) (n : Nat) : (k.cancel f h n).haltReq = k.haltReq := rfl
@[simp] theorem Core.cancel_hstatus (k : Core) (f : RFile) (h : Bool) (n : Nat) : (k.cancel f h n).hstatus = k.hstatus := rfl
@[simp] theorem Core.cancel_held (k : Core) (f : RFile) (h : Bool) (n : Nat) : (k.cancel f h n).held = k.held := rfl
@[simp] theorem Core.cancel_trapCount (k : Core) (f : RFile) (h : Bool) (n : Nat) : (k.cancel f h n).trapCount = k.trapCount := rfl
@[simp] theorem Core.cancel_msgid (k : Core) (f : RFile) (h : Bool) (n : Nat) : (k.cancel f h n).msgid = k.msgid := rfl
@[simp] theorem Core.cancel_hpCount (k : Core) (f : RFile) (h : Bool) (n : Nat) : (k.cancel f h n).hpCount = k.hpCount := rfl
@[simp] theorem Core.cancel_lowSel (k : Core) (f : RFile) (h : Bool) (n : Nat) : (k.cancel f h n).lowSel = k.lowSel := rfl
@[simp] theorem Core.cancel_hiSel (k : Core) (f : RFile) (h : Bool) (n : Nat) : (k.cancel f h n).hiSel = k.hiSel := rfl
@[simp] theorem Core.cancel_lowSusp (k : Core) (f : RFile) (h : Bool) (n : Nat) : (k.cancel f h n).lowSusp = k.lowSusp := rfl
@[simp] theorem Core.cancel_seqTop (k : Core) (f : RFile) (h : Bool) (n : Nat) : (k.cancel f h n).seqTop = k.seqTop := rfl
@[simp] theorem Core.cancel_recs (k : Core) (f : RFile) (h : Bool) (n : Nat) : (k.cancel f h n).recs = k.recs := rfl
@[simp] theorem Core.cancel_joins (k : Core) (f : RFile) (h : Bool) (n : Nat) : (k.cancel f h n).joins = k.joins := rfl
@[simp] theorem Core.cancel_slots (k : Core) (f : RFile) (h : Bool) (n : Nat) : (k.cancel f h n).slots = k.slots := rfl
@[simp] theorem Core.cancel_pin (k : Core) (f : RFile) (h : Bool) (n : Nat) : (k.cancel f h n).pin = k.pin := rfl
@[simp] theorem Core.cancel_restore (k : Core) (f : RFile) (h : Bool) (n : Nat) : (k.cancel f h n).restore = k.restore := rfl
@[simp] theorem Core.cancel_resv (k : Core) (f : RFile) (h : Bool) (n : Nat) : (k.cancel f h n).resv = k.resv := rfl
@[simp] theorem Core.cancel_launch (k : Core) (f : RFile) (h : Bool) (n : Nat) : (k.cancel f h n).launch = k.launch := rfl
@[simp] theorem Core.cancel_heldLaunch (k : Core) (f : RFile) (h : Bool) (n : Nat) : (k.cancel f h n).heldLaunch = k.heldLaunch := rfl
@[simp] theorem Core.cancel_inj (k : Core) (f : RFile) (h : Bool) (n : Nat) : (k.cancel f h n).inj = k.inj := rfl
@[simp] theorem Core.cancel_ext (k : Core) (f : RFile) (h : Bool) (n : Nat) : (k.cancel f h n).ext = k.ext := rfl
@[simp] theorem Core.cancel_coll (k : Core) (f : RFile) (h : Bool) (n : Nat) : (k.cancel f h n).coll = k.coll := rfl
@[simp] theorem Core.cancel_bars (k : Core) (f : RFile) (h : Bool) (n : Nat) : (k.cancel f h n).bars = k.bars := rfl
@[simp] theorem Core.cancel_barOut (k : Core) (f : RFile) (h : Bool) (n : Nat) : (k.cancel f h n).barOut = k.barOut := rfl
@[simp] theorem Core.cancel_nextOut (k : Core) (f : RFile) (h : Bool) (n : Nat) : (k.cancel f h n).nextOut = k.nextOut := rfl
@[simp] theorem Core.cancel_sendNo (k : Core) (f : RFile) (h : Bool) (n : Nat) : (k.cancel f h n).sendNo = k.sendNo := rfl
@[simp] theorem Core.cancel_fenced (k : Core) (f : RFile) (h : Bool) (n : Nat) : (k.cancel f h n).fenced = k.fenced := rfl
@[simp] theorem Core.cancel_seen (k : Core) (f : RFile) (h : Bool) (n : Nat) : (k.cancel f h n).seen = k.seen := rfl
@[simp] theorem Core.cancel_deficit (k : Core) (f : RFile) (h : Bool) (n : Nat) : (k.cancel f h n).deficit = k.deficit := rfl
@[simp] theorem Core.cancel_checked (k : Core) (f : RFile) (h : Bool) (n : Nat) : (k.cancel f h n).checked = k.checked := rfl

/-! ### Core.putReg -/

@[simp] theorem Core.putReg_q (k : Core) (f : RFile) (h : Bool) (n : Nat) (x : V) (l : List (Nat × W)) : (k.putReg f h n x l).q = k.q := by unfold Core.putReg; dsimp only; split <;> first | rfl | (cases f <;> simp [Core.setPoison])
@[simp] theorem Core.putReg_streams (k : Core) (f : RFile) (h : Bool) (n : Nat) (x : V) (l : List (Nat × W)) : (k.putReg f h n x l).streams = k.streams := by unfold Core.putReg; dsimp only; split <;> first | rfl | (cases f <;> simp [Core.setPoison])
@[simp] theorem Core.putReg_ctl (k : Core) (f : RFile) (h : Bool) (n : Nat) (x : V) (l : List (Nat × W)) : (k.putReg f h n x l).ctl = k.ctl := by unfold Core.putReg; dsimp only; split <;> first | rfl | (cases f <;> simp [Core.setPoison])
@[simp] theorem Core.putReg_pend (k : Core) (f : RFile) (h : Bool) (n : Nat) (x : V) (l : List (Nat × W)) : (k.putReg f h n x l).pend = k.pend := by unfold Core.putReg; dsimp only; split <;> first | rfl | (cases f <;> simp [Core.setPoison])
@[simp] theorem Core.putReg_outst (k : Core) (f : RFile) (h : Bool) (n : Nat) (x : V) (l : List (Nat × W)) : (k.putReg f h n x l).outst = k.outst := by unfold Core.putReg; dsimp only; split <;> first | rfl | (cases f <;> simp [Core.setPoison])
@[simp] theorem Core.putReg_vq (k : Core) (f : RFile) (h : Bool) (n : Nat) (x : V) (l : List (Nat × W)) : (k.putReg f h n x l).vq = k.vq := by unfold Core.putReg; dsimp only; split <;> first | rfl | (cases f <;> simp [Core.setPoison])
@[simp] theorem Core.putReg_ptrap (k : Core) (f : RFile) (h : Bool) (n : Nat) (x : V) (l : List (Nat × W)) : (k.putReg f h n x l).ptrap = k.ptrap := by unfold Core.putReg; dsimp only; split <;> first | rfl | (cases f <;> simp [Core.setPoison])
@[simp] theorem Core.putReg_async (k : Core) (f : RFile) (h : Bool) (n : Nat) (x : V) (l : List (Nat × W)) : (k.putReg f h n x l).async = k.async := by unfold Core.putReg; dsimp only; split <;> first | rfl | (cases f <;> simp [Core.setPoison])
@[simp] theorem Core.putReg_wait (k : Core) (f : RFile) (h : Bool) (n : Nat) (x : V) (l : List (Nat × W)) : (k.putReg f h n x l).wait = k.wait := by unfold Core.putReg; dsimp only; split <;> first | rfl | (cases f <;> simp [Core.setPoison])
@[simp] theorem Core.putReg_req (k : Core) (f : RFile) (h : Bool) (n : Nat) (x : V) (l : List (Nat × W)) : (k.putReg f h n x l).req = k.req := by unfold Core.putReg; dsimp only; split <;> first | rfl | (cases f <;> simp [Core.setPoison])
@[simp] theorem Core.putReg_ans (k : Core) (f : RFile) (h : Bool) (n : Nat) (x : V) (l : List (Nat × W)) : (k.putReg f h n x l).ans = k.ans := by unfold Core.putReg; dsimp only; split <;> first | rfl | (cases f <;> simp [Core.setPoison])
@[simp] theorem Core.putReg_blocked (k : Core) (f : RFile) (h : Bool) (n : Nat) (x : V) (l : List (Nat × W)) : (k.putReg f h n x l).blocked = k.blocked := by unfold Core.putReg; dsimp only; split <;> first | rfl | (cases f <;> simp [Core.setPoison])
@[simp] theorem Core.putReg_mask (k : Core) (f : RFile) (h : Bool) (n : Nat) (x : V) (l : List (Nat × W)) : (k.putReg f h n x l).mask = k.mask := by unfold Core.putReg; dsimp only; split <;> first | rfl | (cases f <;> simp [Core.setPoison])
@[simp] theorem Core.putReg_halted (k : Core) (f : RFile) (h : Bool) (n : Nat) (x : V) (l : List (Nat × W)) : (k.putReg f h n x l).halted = k.halted := by unfold Core.putReg; dsimp only; split <;> first | rfl | (cases f <;> simp [Core.setPoison])
@[simp] theorem Core.putReg_haltReq (k : Core) (f : RFile) (h : Bool) (n : Nat) (x : V) (l : List (Nat × W)) : (k.putReg f h n x l).haltReq = k.haltReq := by unfold Core.putReg; dsimp only; split <;> first | rfl | (cases f <;> simp [Core.setPoison])
@[simp] theorem Core.putReg_hstatus (k : Core) (f : RFile) (h : Bool) (n : Nat) (x : V) (l : List (Nat × W)) : (k.putReg f h n x l).hstatus = k.hstatus := by unfold Core.putReg; dsimp only; split <;> first | rfl | (cases f <;> simp [Core.setPoison])
@[simp] theorem Core.putReg_held (k : Core) (f : RFile) (h : Bool) (n : Nat) (x : V) (l : List (Nat × W)) : (k.putReg f h n x l).held = k.held := by unfold Core.putReg; dsimp only; split <;> first | rfl | (cases f <;> simp [Core.setPoison])
@[simp] theorem Core.putReg_trapCount (k : Core) (f : RFile) (h : Bool) (n : Nat) (x : V) (l : List (Nat × W)) : (k.putReg f h n x l).trapCount = k.trapCount := by unfold Core.putReg; dsimp only; split <;> first | rfl | (cases f <;> simp [Core.setPoison])
@[simp] theorem Core.putReg_msgid (k : Core) (f : RFile) (h : Bool) (n : Nat) (x : V) (l : List (Nat × W)) : (k.putReg f h n x l).msgid = k.msgid := by unfold Core.putReg; dsimp only; split <;> first | rfl | (cases f <;> simp [Core.setPoison])
@[simp] theorem Core.putReg_hpCount (k : Core) (f : RFile) (h : Bool) (n : Nat) (x : V) (l : List (Nat × W)) : (k.putReg f h n x l).hpCount = k.hpCount := by unfold Core.putReg; dsimp only; split <;> first | rfl | (cases f <;> simp [Core.setPoison])
@[simp] theorem Core.putReg_lowSel (k : Core) (f : RFile) (h : Bool) (n : Nat) (x : V) (l : List (Nat × W)) : (k.putReg f h n x l).lowSel = k.lowSel := by unfold Core.putReg; dsimp only; split <;> first | rfl | (cases f <;> simp [Core.setPoison])
@[simp] theorem Core.putReg_hiSel (k : Core) (f : RFile) (h : Bool) (n : Nat) (x : V) (l : List (Nat × W)) : (k.putReg f h n x l).hiSel = k.hiSel := by unfold Core.putReg; dsimp only; split <;> first | rfl | (cases f <;> simp [Core.setPoison])
@[simp] theorem Core.putReg_lowSusp (k : Core) (f : RFile) (h : Bool) (n : Nat) (x : V) (l : List (Nat × W)) : (k.putReg f h n x l).lowSusp = k.lowSusp := by unfold Core.putReg; dsimp only; split <;> first | rfl | (cases f <;> simp [Core.setPoison])
@[simp] theorem Core.putReg_seqTop (k : Core) (f : RFile) (h : Bool) (n : Nat) (x : V) (l : List (Nat × W)) : (k.putReg f h n x l).seqTop = k.seqTop := by unfold Core.putReg; dsimp only; split <;> first | rfl | (cases f <;> simp [Core.setPoison])
@[simp] theorem Core.putReg_recs (k : Core) (f : RFile) (h : Bool) (n : Nat) (x : V) (l : List (Nat × W)) : (k.putReg f h n x l).recs = k.recs := by unfold Core.putReg; dsimp only; split <;> first | rfl | (cases f <;> simp [Core.setPoison])
@[simp] theorem Core.putReg_joins (k : Core) (f : RFile) (h : Bool) (n : Nat) (x : V) (l : List (Nat × W)) : (k.putReg f h n x l).joins = k.joins := by unfold Core.putReg; dsimp only; split <;> first | rfl | (cases f <;> simp [Core.setPoison])
@[simp] theorem Core.putReg_slots (k : Core) (f : RFile) (h : Bool) (n : Nat) (x : V) (l : List (Nat × W)) : (k.putReg f h n x l).slots = k.slots := by unfold Core.putReg; dsimp only; split <;> first | rfl | (cases f <;> simp [Core.setPoison])
@[simp] theorem Core.putReg_pin (k : Core) (f : RFile) (h : Bool) (n : Nat) (x : V) (l : List (Nat × W)) : (k.putReg f h n x l).pin = k.pin := by unfold Core.putReg; dsimp only; split <;> first | rfl | (cases f <;> simp [Core.setPoison])
@[simp] theorem Core.putReg_restore (k : Core) (f : RFile) (h : Bool) (n : Nat) (x : V) (l : List (Nat × W)) : (k.putReg f h n x l).restore = k.restore := by unfold Core.putReg; dsimp only; split <;> first | rfl | (cases f <;> simp [Core.setPoison])
@[simp] theorem Core.putReg_resv (k : Core) (f : RFile) (h : Bool) (n : Nat) (x : V) (l : List (Nat × W)) : (k.putReg f h n x l).resv = k.resv := by unfold Core.putReg; dsimp only; split <;> first | rfl | (cases f <;> simp [Core.setPoison])
@[simp] theorem Core.putReg_launch (k : Core) (f : RFile) (h : Bool) (n : Nat) (x : V) (l : List (Nat × W)) : (k.putReg f h n x l).launch = k.launch := by unfold Core.putReg; dsimp only; split <;> first | rfl | (cases f <;> simp [Core.setPoison])
@[simp] theorem Core.putReg_heldLaunch (k : Core) (f : RFile) (h : Bool) (n : Nat) (x : V) (l : List (Nat × W)) : (k.putReg f h n x l).heldLaunch = k.heldLaunch := by unfold Core.putReg; dsimp only; split <;> first | rfl | (cases f <;> simp [Core.setPoison])
@[simp] theorem Core.putReg_inj (k : Core) (f : RFile) (h : Bool) (n : Nat) (x : V) (l : List (Nat × W)) : (k.putReg f h n x l).inj = k.inj := by unfold Core.putReg; dsimp only; split <;> first | rfl | (cases f <;> simp [Core.setPoison])
@[simp] theorem Core.putReg_ext (k : Core) (f : RFile) (h : Bool) (n : Nat) (x : V) (l : List (Nat × W)) : (k.putReg f h n x l).ext = k.ext := by unfold Core.putReg; dsimp only; split <;> first | rfl | (cases f <;> simp [Core.setPoison])
@[simp] theorem Core.putReg_coll (k : Core) (f : RFile) (h : Bool) (n : Nat) (x : V) (l : List (Nat × W)) : (k.putReg f h n x l).coll = k.coll := by unfold Core.putReg; dsimp only; split <;> first | rfl | (cases f <;> simp [Core.setPoison])
@[simp] theorem Core.putReg_bars (k : Core) (f : RFile) (h : Bool) (n : Nat) (x : V) (l : List (Nat × W)) : (k.putReg f h n x l).bars = k.bars := by unfold Core.putReg; dsimp only; split <;> first | rfl | (cases f <;> simp [Core.setPoison])
@[simp] theorem Core.putReg_barOut (k : Core) (f : RFile) (h : Bool) (n : Nat) (x : V) (l : List (Nat × W)) : (k.putReg f h n x l).barOut = k.barOut := by unfold Core.putReg; dsimp only; split <;> first | rfl | (cases f <;> simp [Core.setPoison])
@[simp] theorem Core.putReg_nextOut (k : Core) (f : RFile) (h : Bool) (n : Nat) (x : V) (l : List (Nat × W)) : (k.putReg f h n x l).nextOut = k.nextOut := by unfold Core.putReg; dsimp only; split <;> first | rfl | (cases f <;> simp [Core.setPoison])
@[simp] theorem Core.putReg_sendNo (k : Core) (f : RFile) (h : Bool) (n : Nat) (x : V) (l : List (Nat × W)) : (k.putReg f h n x l).sendNo = k.sendNo := by unfold Core.putReg; dsimp only; split <;> first | rfl | (cases f <;> simp [Core.setPoison])
@[simp] theorem Core.putReg_fenced (k : Core) (f : RFile) (h : Bool) (n : Nat) (x : V) (l : List (Nat × W)) : (k.putReg f h n x l).fenced = k.fenced := by unfold Core.putReg; dsimp only; split <;> first | rfl | (cases f <;> simp [Core.setPoison])
@[simp] theorem Core.putReg_seen (k : Core) (f : RFile) (h : Bool) (n : Nat) (x : V) (l : List (Nat × W)) : (k.putReg f h n x l).seen = k.seen := by unfold Core.putReg; dsimp only; split <;> first | rfl | (cases f <;> simp [Core.setPoison])
@[simp] theorem Core.putReg_deficit (k : Core) (f : RFile) (h : Bool) (n : Nat) (x : V) (l : List (Nat × W)) : (k.putReg f h n x l).deficit = k.deficit := by unfold Core.putReg; dsimp only; split <;> first | rfl | (cases f <;> simp [Core.setPoison])

/-! ### Core.writeAt -/

@[simp] theorem Core.writeAt_q (k : Core) (h : Bool) (p : List Nat) (L : Nat) (f : RFile) (n : Nat) (x : V) (l : List (Nat × W)) : (k.writeAt h p L f n x l).q = k.q := by unfold Core.writeAt; dsimp only; split <;> simp [Core.cancel]
@[simp] theorem Core.writeAt_streams (k : Core) (h : Bool) (p : List Nat) (L : Nat) (f : RFile) (n : Nat) (x : V) (l : List (Nat × W)) : (k.writeAt h p L f n x l).streams = k.streams := by unfold Core.writeAt; dsimp only; split <;> simp [Core.cancel]
@[simp] theorem Core.writeAt_ctl (k : Core) (h : Bool) (p : List Nat) (L : Nat) (f : RFile) (n : Nat) (x : V) (l : List (Nat × W)) : (k.writeAt h p L f n x l).ctl = k.ctl := by unfold Core.writeAt; dsimp only; split <;> simp [Core.cancel]
@[simp] theorem Core.writeAt_vq (k : Core) (h : Bool) (p : List Nat) (L : Nat) (f : RFile) (n : Nat) (x : V) (l : List (Nat × W)) : (k.writeAt h p L f n x l).vq = k.vq := by unfold Core.writeAt; dsimp only; split <;> simp [Core.cancel]
@[simp] theorem Core.writeAt_ptrap (k : Core) (h : Bool) (p : List Nat) (L : Nat) (f : RFile) (n : Nat) (x : V) (l : List (Nat × W)) : (k.writeAt h p L f n x l).ptrap = k.ptrap := by unfold Core.writeAt; dsimp only; split <;> simp [Core.cancel]
@[simp] theorem Core.writeAt_async (k : Core) (h : Bool) (p : List Nat) (L : Nat) (f : RFile) (n : Nat) (x : V) (l : List (Nat × W)) : (k.writeAt h p L f n x l).async = k.async := by unfold Core.writeAt; dsimp only; split <;> simp [Core.cancel]
@[simp] theorem Core.writeAt_wait (k : Core) (h : Bool) (p : List Nat) (L : Nat) (f : RFile) (n : Nat) (x : V) (l : List (Nat × W)) : (k.writeAt h p L f n x l).wait = k.wait := by unfold Core.writeAt; dsimp only; split <;> simp [Core.cancel]
@[simp] theorem Core.writeAt_req (k : Core) (h : Bool) (p : List Nat) (L : Nat) (f : RFile) (n : Nat) (x : V) (l : List (Nat × W)) : (k.writeAt h p L f n x l).req = k.req := by unfold Core.writeAt; dsimp only; split <;> simp [Core.cancel]
@[simp] theorem Core.writeAt_ans (k : Core) (h : Bool) (p : List Nat) (L : Nat) (f : RFile) (n : Nat) (x : V) (l : List (Nat × W)) : (k.writeAt h p L f n x l).ans = k.ans := by unfold Core.writeAt; dsimp only; split <;> simp [Core.cancel]
@[simp] theorem Core.writeAt_blocked (k : Core) (h : Bool) (p : List Nat) (L : Nat) (f : RFile) (n : Nat) (x : V) (l : List (Nat × W)) : (k.writeAt h p L f n x l).blocked = k.blocked := by unfold Core.writeAt; dsimp only; split <;> simp [Core.cancel]
@[simp] theorem Core.writeAt_mask (k : Core) (h : Bool) (p : List Nat) (L : Nat) (f : RFile) (n : Nat) (x : V) (l : List (Nat × W)) : (k.writeAt h p L f n x l).mask = k.mask := by unfold Core.writeAt; dsimp only; split <;> simp [Core.cancel]
@[simp] theorem Core.writeAt_halted (k : Core) (h : Bool) (p : List Nat) (L : Nat) (f : RFile) (n : Nat) (x : V) (l : List (Nat × W)) : (k.writeAt h p L f n x l).halted = k.halted := by unfold Core.writeAt; dsimp only; split <;> simp [Core.cancel]
@[simp] theorem Core.writeAt_haltReq (k : Core) (h : Bool) (p : List Nat) (L : Nat) (f : RFile) (n : Nat) (x : V) (l : List (Nat × W)) : (k.writeAt h p L f n x l).haltReq = k.haltReq := by unfold Core.writeAt; dsimp only; split <;> simp [Core.cancel]
@[simp] theorem Core.writeAt_hstatus (k : Core) (h : Bool) (p : List Nat) (L : Nat) (f : RFile) (n : Nat) (x : V) (l : List (Nat × W)) : (k.writeAt h p L f n x l).hstatus = k.hstatus := by unfold Core.writeAt; dsimp only; split <;> simp [Core.cancel]
@[simp] theorem Core.writeAt_held (k : Core) (h : Bool) (p : List Nat) (L : Nat) (f : RFile) (n : Nat) (x : V) (l : List (Nat × W)) : (k.writeAt h p L f n x l).held = k.held := by unfold Core.writeAt; dsimp only; split <;> simp [Core.cancel]
@[simp] theorem Core.writeAt_trapCount (k : Core) (h : Bool) (p : List Nat) (L : Nat) (f : RFile) (n : Nat) (x : V) (l : List (Nat × W)) : (k.writeAt h p L f n x l).trapCount = k.trapCount := by unfold Core.writeAt; dsimp only; split <;> simp [Core.cancel]
@[simp] theorem Core.writeAt_msgid (k : Core) (h : Bool) (p : List Nat) (L : Nat) (f : RFile) (n : Nat) (x : V) (l : List (Nat × W)) : (k.writeAt h p L f n x l).msgid = k.msgid := by unfold Core.writeAt; dsimp only; split <;> simp [Core.cancel]
@[simp] theorem Core.writeAt_hpCount (k : Core) (h : Bool) (p : List Nat) (L : Nat) (f : RFile) (n : Nat) (x : V) (l : List (Nat × W)) : (k.writeAt h p L f n x l).hpCount = k.hpCount := by unfold Core.writeAt; dsimp only; split <;> simp [Core.cancel]
@[simp] theorem Core.writeAt_lowSel (k : Core) (h : Bool) (p : List Nat) (L : Nat) (f : RFile) (n : Nat) (x : V) (l : List (Nat × W)) : (k.writeAt h p L f n x l).lowSel = k.lowSel := by unfold Core.writeAt; dsimp only; split <;> simp [Core.cancel]
@[simp] theorem Core.writeAt_hiSel (k : Core) (h : Bool) (p : List Nat) (L : Nat) (f : RFile) (n : Nat) (x : V) (l : List (Nat × W)) : (k.writeAt h p L f n x l).hiSel = k.hiSel := by unfold Core.writeAt; dsimp only; split <;> simp [Core.cancel]
@[simp] theorem Core.writeAt_lowSusp (k : Core) (h : Bool) (p : List Nat) (L : Nat) (f : RFile) (n : Nat) (x : V) (l : List (Nat × W)) : (k.writeAt h p L f n x l).lowSusp = k.lowSusp := by unfold Core.writeAt; dsimp only; split <;> simp [Core.cancel]
@[simp] theorem Core.writeAt_seqTop (k : Core) (h : Bool) (p : List Nat) (L : Nat) (f : RFile) (n : Nat) (x : V) (l : List (Nat × W)) : (k.writeAt h p L f n x l).seqTop = k.seqTop := by unfold Core.writeAt; dsimp only; split <;> simp [Core.cancel]
@[simp] theorem Core.writeAt_recs (k : Core) (h : Bool) (p : List Nat) (L : Nat) (f : RFile) (n : Nat) (x : V) (l : List (Nat × W)) : (k.writeAt h p L f n x l).recs = k.recs := by unfold Core.writeAt; dsimp only; split <;> simp [Core.cancel]
@[simp] theorem Core.writeAt_joins (k : Core) (h : Bool) (p : List Nat) (L : Nat) (f : RFile) (n : Nat) (x : V) (l : List (Nat × W)) : (k.writeAt h p L f n x l).joins = k.joins := by unfold Core.writeAt; dsimp only; split <;> simp [Core.cancel]
@[simp] theorem Core.writeAt_slots (k : Core) (h : Bool) (p : List Nat) (L : Nat) (f : RFile) (n : Nat) (x : V) (l : List (Nat × W)) : (k.writeAt h p L f n x l).slots = k.slots := by unfold Core.writeAt; dsimp only; split <;> simp [Core.cancel]
@[simp] theorem Core.writeAt_pin (k : Core) (h : Bool) (p : List Nat) (L : Nat) (f : RFile) (n : Nat) (x : V) (l : List (Nat × W)) : (k.writeAt h p L f n x l).pin = k.pin := by unfold Core.writeAt; dsimp only; split <;> simp [Core.cancel]
@[simp] theorem Core.writeAt_restore (k : Core) (h : Bool) (p : List Nat) (L : Nat) (f : RFile) (n : Nat) (x : V) (l : List (Nat × W)) : (k.writeAt h p L f n x l).restore = k.restore := by unfold Core.writeAt; dsimp only; split <;> simp [Core.cancel]
@[simp] theorem Core.writeAt_resv (k : Core) (h : Bool) (p : List Nat) (L : Nat) (f : RFile) (n : Nat) (x : V) (l : List (Nat × W)) : (k.writeAt h p L f n x l).resv = k.resv := by unfold Core.writeAt; dsimp only; split <;> simp [Core.cancel]
@[simp] theorem Core.writeAt_launch (k : Core) (h : Bool) (p : List Nat) (L : Nat) (f : RFile) (n : Nat) (x : V) (l : List (Nat × W)) : (k.writeAt h p L f n x l).launch = k.launch := by unfold Core.writeAt; dsimp only; split <;> simp [Core.cancel]
@[simp] theorem Core.writeAt_heldLaunch (k : Core) (h : Bool) (p : List Nat) (L : Nat) (f : RFile) (n : Nat) (x : V) (l : List (Nat × W)) : (k.writeAt h p L f n x l).heldLaunch = k.heldLaunch := by unfold Core.writeAt; dsimp only; split <;> simp [Core.cancel]
@[simp] theorem Core.writeAt_inj (k : Core) (h : Bool) (p : List Nat) (L : Nat) (f : RFile) (n : Nat) (x : V) (l : List (Nat × W)) : (k.writeAt h p L f n x l).inj = k.inj := by unfold Core.writeAt; dsimp only; split <;> simp [Core.cancel]
@[simp] theorem Core.writeAt_ext (k : Core) (h : Bool) (p : List Nat) (L : Nat) (f : RFile) (n : Nat) (x : V) (l : List (Nat × W)) : (k.writeAt h p L f n x l).ext = k.ext := by unfold Core.writeAt; dsimp only; split <;> simp [Core.cancel]
@[simp] theorem Core.writeAt_coll (k : Core) (h : Bool) (p : List Nat) (L : Nat) (f : RFile) (n : Nat) (x : V) (l : List (Nat × W)) : (k.writeAt h p L f n x l).coll = k.coll := by unfold Core.writeAt; dsimp only; split <;> simp [Core.cancel]
@[simp] theorem Core.writeAt_bars (k : Core) (h : Bool) (p : List Nat) (L : Nat) (f : RFile) (n : Nat) (x : V) (l : List (Nat × W)) : (k.writeAt h p L f n x l).bars = k.bars := by unfold Core.writeAt; dsimp only; split <;> simp [Core.cancel]
@[simp] theorem Core.writeAt_barOut (k : Core) (h : Bool) (p : List Nat) (L : Nat) (f : RFile) (n : Nat) (x : V) (l : List (Nat × W)) : (k.writeAt h p L f n x l).barOut = k.barOut := by unfold Core.writeAt; dsimp only; split <;> simp [Core.cancel]
@[simp] theorem Core.writeAt_nextOut (k : Core) (h : Bool) (p : List Nat) (L : Nat) (f : RFile) (n : Nat) (x : V) (l : List (Nat × W)) : (k.writeAt h p L f n x l).nextOut = k.nextOut := by unfold Core.writeAt; dsimp only; split <;> simp [Core.cancel]
@[simp] theorem Core.writeAt_sendNo (k : Core) (h : Bool) (p : List Nat) (L : Nat) (f : RFile) (n : Nat) (x : V) (l : List (Nat × W)) : (k.writeAt h p L f n x l).sendNo = k.sendNo := by unfold Core.writeAt; dsimp only; split <;> simp [Core.cancel]
@[simp] theorem Core.writeAt_fenced (k : Core) (h : Bool) (p : List Nat) (L : Nat) (f : RFile) (n : Nat) (x : V) (l : List (Nat × W)) : (k.writeAt h p L f n x l).fenced = k.fenced := by unfold Core.writeAt; dsimp only; split <;> simp [Core.cancel]
@[simp] theorem Core.writeAt_seen (k : Core) (h : Bool) (p : List Nat) (L : Nat) (f : RFile) (n : Nat) (x : V) (l : List (Nat × W)) : (k.writeAt h p L f n x l).seen = k.seen := by unfold Core.writeAt; dsimp only; split <;> simp [Core.cancel]
@[simp] theorem Core.writeAt_deficit (k : Core) (h : Bool) (p : List Nat) (L : Nat) (f : RFile) (n : Nat) (x : V) (l : List (Nat × W)) : (k.writeAt h p L f n x l).deficit = k.deficit := by unfold Core.writeAt; dsimp only; split <;> simp [Core.cancel]

/-! ### Core.write -/

@[simp] theorem Core.write_q (k : Core) (L : Nat) (f : RFile) (n : Nat) (x : V) (l : List (Nat × W)) : (k.write L f n x l).q = k.q := Core.writeAt_q _ _ _ _ _ _ _ _
@[simp] theorem Core.write_streams (k : Core) (L : Nat) (f : RFile) (n : Nat) (x : V) (l : List (Nat × W)) : (k.write L f n x l).streams = k.streams := Core.writeAt_streams _ _ _ _ _ _ _ _
@[simp] theorem Core.write_ctl (k : Core) (L : Nat) (f : RFile) (n : Nat) (x : V) (l : List (Nat × W)) : (k.write L f n x l).ctl = k.ctl := Core.writeAt_ctl _ _ _ _ _ _ _ _
@[simp] theorem Core.write_vq (k : Core) (L : Nat) (f : RFile) (n : Nat) (x : V) (l : List (Nat × W)) : (k.write L f n x l).vq = k.vq := Core.writeAt_vq _ _ _ _ _ _ _ _
@[simp] theorem Core.write_ptrap (k : Core) (L : Nat) (f : RFile) (n : Nat) (x : V) (l : List (Nat × W)) : (k.write L f n x l).ptrap = k.ptrap := Core.writeAt_ptrap _ _ _ _ _ _ _ _
@[simp] theorem Core.write_async (k : Core) (L : Nat) (f : RFile) (n : Nat) (x : V) (l : List (Nat × W)) : (k.write L f n x l).async = k.async := Core.writeAt_async _ _ _ _ _ _ _ _
@[simp] theorem Core.write_wait (k : Core) (L : Nat) (f : RFile) (n : Nat) (x : V) (l : List (Nat × W)) : (k.write L f n x l).wait = k.wait := Core.writeAt_wait _ _ _ _ _ _ _ _
@[simp] theorem Core.write_req (k : Core) (L : Nat) (f : RFile) (n : Nat) (x : V) (l : List (Nat × W)) : (k.write L f n x l).req = k.req := Core.writeAt_req _ _ _ _ _ _ _ _
@[simp] theorem Core.write_ans (k : Core) (L : Nat) (f : RFile) (n : Nat) (x : V) (l : List (Nat × W)) : (k.write L f n x l).ans = k.ans := Core.writeAt_ans _ _ _ _ _ _ _ _
@[simp] theorem Core.write_blocked (k : Core) (L : Nat) (f : RFile) (n : Nat) (x : V) (l : List (Nat × W)) : (k.write L f n x l).blocked = k.blocked := Core.writeAt_blocked _ _ _ _ _ _ _ _
@[simp] theorem Core.write_mask (k : Core) (L : Nat) (f : RFile) (n : Nat) (x : V) (l : List (Nat × W)) : (k.write L f n x l).mask = k.mask := Core.writeAt_mask _ _ _ _ _ _ _ _
@[simp] theorem Core.write_halted (k : Core) (L : Nat) (f : RFile) (n : Nat) (x : V) (l : List (Nat × W)) : (k.write L f n x l).halted = k.halted := Core.writeAt_halted _ _ _ _ _ _ _ _
@[simp] theorem Core.write_haltReq (k : Core) (L : Nat) (f : RFile) (n : Nat) (x : V) (l : List (Nat × W)) : (k.write L f n x l).haltReq = k.haltReq := Core.writeAt_haltReq _ _ _ _ _ _ _ _
@[simp] theorem Core.write_hstatus (k : Core) (L : Nat) (f : RFile) (n : Nat) (x : V) (l : List (Nat × W)) : (k.write L f n x l).hstatus = k.hstatus := Core.writeAt_hstatus _ _ _ _ _ _ _ _
@[simp] theorem Core.write_held (k : Core) (L : Nat) (f : RFile) (n : Nat) (x : V) (l : List (Nat × W)) : (k.write L f n x l).held = k.held := Core.writeAt_held _ _ _ _ _ _ _ _
@[simp] theorem Core.write_trapCount (k : Core) (L : Nat) (f : RFile) (n : Nat) (x : V) (l : List (Nat × W)) : (k.write L f n x l).trapCount = k.trapCount := Core.writeAt_trapCount _ _ _ _ _ _ _ _
@[simp] theorem Core.write_msgid (k : Core) (L : Nat) (f : RFile) (n : Nat) (x : V) (l : List (Nat × W)) : (k.write L f n x l).msgid = k.msgid := Core.writeAt_msgid _ _ _ _ _ _ _ _
@[simp] theorem Core.write_hpCount (k : Core) (L : Nat) (f : RFile) (n : Nat) (x : V) (l : List (Nat × W)) : (k.write L f n x l).hpCount = k.hpCount := Core.writeAt_hpCount _ _ _ _ _ _ _ _
@[simp] theorem Core.write_lowSel (k : Core) (L : Nat) (f : RFile) (n : Nat) (x : V) (l : List (Nat × W)) : (k.write L f n x l).lowSel = k.lowSel := Core.writeAt_lowSel _ _ _ _ _ _ _ _
@[simp] theorem Core.write_hiSel (k : Core) (L : Nat) (f : RFile) (n : Nat) (x : V) (l : List (Nat × W)) : (k.write L f n x l).hiSel = k.hiSel := Core.writeAt_hiSel _ _ _ _ _ _ _ _
@[simp] theorem Core.write_lowSusp (k : Core) (L : Nat) (f : RFile) (n : Nat) (x : V) (l : List (Nat × W)) : (k.write L f n x l).lowSusp = k.lowSusp := Core.writeAt_lowSusp _ _ _ _ _ _ _ _
@[simp] theorem Core.write_seqTop (k : Core) (L : Nat) (f : RFile) (n : Nat) (x : V) (l : List (Nat × W)) : (k.write L f n x l).seqTop = k.seqTop := Core.writeAt_seqTop _ _ _ _ _ _ _ _
@[simp] theorem Core.write_recs (k : Core) (L : Nat) (f : RFile) (n : Nat) (x : V) (l : List (Nat × W)) : (k.write L f n x l).recs = k.recs := Core.writeAt_recs _ _ _ _ _ _ _ _
@[simp] theorem Core.write_joins (k : Core) (L : Nat) (f : RFile) (n : Nat) (x : V) (l : List (Nat × W)) : (k.write L f n x l).joins = k.joins := Core.writeAt_joins _ _ _ _ _ _ _ _
@[simp] theorem Core.write_slots (k : Core) (L : Nat) (f : RFile) (n : Nat) (x : V) (l : List (Nat × W)) : (k.write L f n x l).slots = k.slots := Core.writeAt_slots _ _ _ _ _ _ _ _
@[simp] theorem Core.write_pin (k : Core) (L : Nat) (f : RFile) (n : Nat) (x : V) (l : List (Nat × W)) : (k.write L f n x l).pin = k.pin := Core.writeAt_pin _ _ _ _ _ _ _ _
@[simp] theorem Core.write_restore (k : Core) (L : Nat) (f : RFile) (n : Nat) (x : V) (l : List (Nat × W)) : (k.write L f n x l).restore = k.restore := Core.writeAt_restore _ _ _ _ _ _ _ _
@[simp] theorem Core.write_resv (k : Core) (L : Nat) (f : RFile) (n : Nat) (x : V) (l : List (Nat × W)) : (k.write L f n x l).resv = k.resv := Core.writeAt_resv _ _ _ _ _ _ _ _
@[simp] theorem Core.write_launch (k : Core) (L : Nat) (f : RFile) (n : Nat) (x : V) (l : List (Nat × W)) : (k.write L f n x l).launch = k.launch := Core.writeAt_launch _ _ _ _ _ _ _ _
@[simp] theorem Core.write_heldLaunch (k : Core) (L : Nat) (f : RFile) (n : Nat) (x : V) (l : List (Nat × W)) : (k.write L f n x l).heldLaunch = k.heldLaunch := Core.writeAt_heldLaunch _ _ _ _ _ _ _ _
@[simp] theorem Core.write_inj (k : Core) (L : Nat) (f : RFile) (n : Nat) (x : V) (l : List (Nat × W)) : (k.write L f n x l).inj = k.inj := Core.writeAt_inj _ _ _ _ _ _ _ _
@[simp] theorem Core.write_ext (k : Core) (L : Nat) (f : RFile) (n : Nat) (x : V) (l : List (Nat × W)) : (k.write L f n x l).ext = k.ext := Core.writeAt_ext _ _ _ _ _ _ _ _
@[simp] theorem Core.write_coll (k : Core) (L : Nat) (f : RFile) (n : Nat) (x : V) (l : List (Nat × W)) : (k.write L f n x l).coll = k.coll := Core.writeAt_coll _ _ _ _ _ _ _ _
@[simp] theorem Core.write_bars (k : Core) (L : Nat) (f : RFile) (n : Nat) (x : V) (l : List (Nat × W)) : (k.write L f n x l).bars = k.bars := Core.writeAt_bars _ _ _ _ _ _ _ _
@[simp] theorem Core.write_barOut (k : Core) (L : Nat) (f : RFile) (n : Nat) (x : V) (l : List (Nat × W)) : (k.write L f n x l).barOut = k.barOut := Core.writeAt_barOut _ _ _ _ _ _ _ _
@[simp] theorem Core.write_nextOut (k : Core) (L : Nat) (f : RFile) (n : Nat) (x : V) (l : List (Nat × W)) : (k.write L f n x l).nextOut = k.nextOut := Core.writeAt_nextOut _ _ _ _ _ _ _ _
@[simp] theorem Core.write_sendNo (k : Core) (L : Nat) (f : RFile) (n : Nat) (x : V) (l : List (Nat × W)) : (k.write L f n x l).sendNo = k.sendNo := Core.writeAt_sendNo _ _ _ _ _ _ _ _
@[simp] theorem Core.write_fenced (k : Core) (L : Nat) (f : RFile) (n : Nat) (x : V) (l : List (Nat × W)) : (k.write L f n x l).fenced = k.fenced := Core.writeAt_fenced _ _ _ _ _ _ _ _
@[simp] theorem Core.write_seen (k : Core) (L : Nat) (f : RFile) (n : Nat) (x : V) (l : List (Nat × W)) : (k.write L f n x l).seen = k.seen := Core.writeAt_seen _ _ _ _ _ _ _ _
@[simp] theorem Core.write_deficit (k : Core) (L : Nat) (f : RFile) (n : Nat) (x : V) (l : List (Nat × W)) : (k.write L f n x l).deficit = k.deficit := Core.writeAt_deficit _ _ _ _ _ _ _ _

/-! ### Core.writeW -/

@[simp] theorem Core.writeW_q (k : Core) (L : Nat) (f : RFile) (n : Nat) (x : W) (l : List (Nat × W)) : (k.writeW L f n x l).q = k.q := Core.writeAt_q _ _ _ _ _ _ _ _
@[simp] theorem Core.writeW_streams (k : Core) (L : Nat) (f : RFile) (n : Nat) (x : W) (l : List (Nat × W)) : (k.writeW L f n x l).streams = k.streams := Core.writeAt_streams _ _ _ _ _ _ _ _
@[simp] theorem Core.writeW_ctl (k : Core) (L : Nat) (f : RFile) (n : Nat) (x : W) (l : List (Nat × W)) : (k.writeW L f n x l).ctl = k.ctl := Core.writeAt_ctl _ _ _ _ _ _ _ _
@[simp] theorem Core.writeW_vq (k : Core) (L : Nat) (f : RFile) (n : Nat) (x : W) (l : List (Nat × W)) : (k.writeW L f n x l).vq = k.vq := Core.writeAt_vq _ _ _ _ _ _ _ _
@[simp] theorem Core.writeW_ptrap (k : Core) (L : Nat) (f : RFile) (n : Nat) (x : W) (l : List (Nat × W)) : (k.writeW L f n x l).ptrap = k.ptrap := Core.writeAt_ptrap _ _ _ _ _ _ _ _
@[simp] theorem Core.writeW_async (k : Core) (L : Nat) (f : RFile) (n : Nat) (x : W) (l : List (Nat × W)) : (k.writeW L f n x l).async = k.async := Core.writeAt_async _ _ _ _ _ _ _ _
@[simp] theorem Core.writeW_wait (k : Core) (L : Nat) (f : RFile) (n : Nat) (x : W) (l : List (Nat × W)) : (k.writeW L f n x l).wait = k.wait := Core.writeAt_wait _ _ _ _ _ _ _ _
@[simp] theorem Core.writeW_req (k : Core) (L : Nat) (f : RFile) (n : Nat) (x : W) (l : List (Nat × W)) : (k.writeW L f n x l).req = k.req := Core.writeAt_req _ _ _ _ _ _ _ _
@[simp] theorem Core.writeW_ans (k : Core) (L : Nat) (f : RFile) (n : Nat) (x : W) (l : List (Nat × W)) : (k.writeW L f n x l).ans = k.ans := Core.writeAt_ans _ _ _ _ _ _ _ _
@[simp] theorem Core.writeW_blocked (k : Core) (L : Nat) (f : RFile) (n : Nat) (x : W) (l : List (Nat × W)) : (k.writeW L f n x l).blocked = k.blocked := Core.writeAt_blocked _ _ _ _ _ _ _ _
@[simp] theorem Core.writeW_mask (k : Core) (L : Nat) (f : RFile) (n : Nat) (x : W) (l : List (Nat × W)) : (k.writeW L f n x l).mask = k.mask := Core.writeAt_mask _ _ _ _ _ _ _ _
@[simp] theorem Core.writeW_halted (k : Core) (L : Nat) (f : RFile) (n : Nat) (x : W) (l : List (Nat × W)) : (k.writeW L f n x l).halted = k.halted := Core.writeAt_halted _ _ _ _ _ _ _ _
@[simp] theorem Core.writeW_haltReq (k : Core) (L : Nat) (f : RFile) (n : Nat) (x : W) (l : List (Nat × W)) : (k.writeW L f n x l).haltReq = k.haltReq := Core.writeAt_haltReq _ _ _ _ _ _ _ _
@[simp] theorem Core.writeW_hstatus (k : Core) (L : Nat) (f : RFile) (n : Nat) (x : W) (l : List (Nat × W)) : (k.writeW L f n x l).hstatus = k.hstatus := Core.writeAt_hstatus _ _ _ _ _ _ _ _
@[simp] theorem Core.writeW_held (k : Core) (L : Nat) (f : RFile) (n : Nat) (x : W) (l : List (Nat × W)) : (k.writeW L f n x l).held = k.held := Core.writeAt_held _ _ _ _ _ _ _ _
@[simp] theorem Core.writeW_trapCount (k : Core) (L : Nat) (f : RFile) (n : Nat) (x : W) (l : List (Nat × W)) : (k.writeW L f n x l).trapCount = k.trapCount := Core.writeAt_trapCount _ _ _ _ _ _ _ _
@[simp] theorem Core.writeW_msgid (k : Core) (L : Nat) (f : RFile) (n : Nat) (x : W) (l : List (Nat × W)) : (k.writeW L f n x l).msgid = k.msgid := Core.writeAt_msgid _ _ _ _ _ _ _ _
@[simp] theorem Core.writeW_hpCount (k : Core) (L : Nat) (f : RFile) (n : Nat) (x : W) (l : List (Nat × W)) : (k.writeW L f n x l).hpCount = k.hpCount := Core.writeAt_hpCount _ _ _ _ _ _ _ _
@[simp] theorem Core.writeW_lowSel (k : Core) (L : Nat) (f : RFile) (n : Nat) (x : W) (l : List (Nat × W)) : (k.writeW L f n x l).lowSel = k.lowSel := Core.writeAt_lowSel _ _ _ _ _ _ _ _
@[simp] theorem Core.writeW_hiSel (k : Core) (L : Nat) (f : RFile) (n : Nat) (x : W) (l : List (Nat × W)) : (k.writeW L f n x l).hiSel = k.hiSel := Core.writeAt_hiSel _ _ _ _ _ _ _ _
@[simp] theorem Core.writeW_lowSusp (k : Core) (L : Nat) (f : RFile) (n : Nat) (x : W) (l : List (Nat × W)) : (k.writeW L f n x l).lowSusp = k.lowSusp := Core.writeAt_lowSusp _ _ _ _ _ _ _ _
@[simp] theorem Core.writeW_seqTop (k : Core) (L : Nat) (f : RFile) (n : Nat) (x : W) (l : List (Nat × W)) : (k.writeW L f n x l).seqTop = k.seqTop := Core.writeAt_seqTop _ _ _ _ _ _ _ _
@[simp] theorem Core.writeW_recs (k : Core) (L : Nat) (f : RFile) (n : Nat) (x : W) (l : List (Nat × W)) : (k.writeW L f n x l).recs = k.recs := Core.writeAt_recs _ _ _ _ _ _ _ _
@[simp] theorem Core.writeW_joins (k : Core) (L : Nat) (f : RFile) (n : Nat) (x : W) (l : List (Nat × W)) : (k.writeW L f n x l).joins = k.joins := Core.writeAt_joins _ _ _ _ _ _ _ _
@[simp] theorem Core.writeW_slots (k : Core) (L : Nat) (f : RFile) (n : Nat) (x : W) (l : List (Nat × W)) : (k.writeW L f n x l).slots = k.slots := Core.writeAt_slots _ _ _ _ _ _ _ _
@[simp] theorem Core.writeW_pin (k : Core) (L : Nat) (f : RFile) (n : Nat) (x : W) (l : List (Nat × W)) : (k.writeW L f n x l).pin = k.pin := Core.writeAt_pin _ _ _ _ _ _ _ _
@[simp] theorem Core.writeW_restore (k : Core) (L : Nat) (f : RFile) (n : Nat) (x : W) (l : List (Nat × W)) : (k.writeW L f n x l).restore = k.restore := Core.writeAt_restore _ _ _ _ _ _ _ _
@[simp] theorem Core.writeW_resv (k : Core) (L : Nat) (f : RFile) (n : Nat) (x : W) (l : List (Nat × W)) : (k.writeW L f n x l).resv = k.resv := Core.writeAt_resv _ _ _ _ _ _ _ _
@[simp] theorem Core.writeW_launch (k : Core) (L : Nat) (f : RFile) (n : Nat) (x : W) (l : List (Nat × W)) : (k.writeW L f n x l).launch = k.launch := Core.writeAt_launch _ _ _ _ _ _ _ _
@[simp] theorem Core.writeW_heldLaunch (k : Core) (L : Nat) (f : RFile) (n : Nat) (x : W) (l : List (Nat × W)) : (k.writeW L f n x l).heldLaunch = k.heldLaunch := Core.writeAt_heldLaunch _ _ _ _ _ _ _ _
@[simp] theorem Core.writeW_inj (k : Core) (L : Nat) (f : RFile) (n : Nat) (x : W) (l : List (Nat × W)) : (k.writeW L f n x l).inj = k.inj := Core.writeAt_inj _ _ _ _ _ _ _ _
@[simp] theorem Core.writeW_ext (k : Core) (L : Nat) (f : RFile) (n : Nat) (x : W) (l : List (Nat × W)) : (k.writeW L f n x l).ext = k.ext := Core.writeAt_ext _ _ _ _ _ _ _ _
@[simp] theorem Core.writeW_coll (k : Core) (L : Nat) (f : RFile) (n : Nat) (x : W) (l : List (Nat × W)) : (k.writeW L f n x l).coll = k.coll := Core.writeAt_coll _ _ _ _ _ _ _ _
@[simp] theorem Core.writeW_bars (k : Core) (L : Nat) (f : RFile) (n : Nat) (x : W) (l : List (Nat × W)) : (k.writeW L f n x l).bars = k.bars := Core.writeAt_bars _ _ _ _ _ _ _ _
@[simp] theorem Core.writeW_barOut (k : Core) (L : Nat) (f : RFile) (n : Nat) (x : W) (l : List (Nat × W)) : (k.writeW L f n x l).barOut = k.barOut := Core.writeAt_barOut _ _ _ _ _ _ _ _
@[simp] theorem Core.writeW_nextOut (k : Core) (L : Nat) (f : RFile) (n : Nat) (x : W) (l : List (Nat × W)) : (k.writeW L f n x l).nextOut = k.nextOut := Core.writeAt_nextOut _ _ _ _ _ _ _ _
@[simp] theorem Core.writeW_sendNo (k : Core) (L : Nat) (f : RFile) (n : Nat) (x : W) (l : List (Nat × W)) : (k.writeW L f n x l).sendNo = k.sendNo := Core.writeAt_sendNo _ _ _ _ _ _ _ _
@[simp] theorem Core.writeW_fenced (k : Core) (L : Nat) (f : RFile) (n : Nat) (x : W) (l : List (Nat × W)) : (k.writeW L f n x l).fenced = k.fenced := Core.writeAt_fenced _ _ _ _ _ _ _ _
@[simp] theorem Core.writeW_seen (k : Core) (L : Nat) (f : RFile) (n : Nat) (x : W) (l : List (Nat × W)) : (k.writeW L f n x l).seen = k.seen := Core.writeAt_seen _ _ _ _ _ _ _ _
@[simp] theorem Core.writeW_deficit (k : Core) (L : Nat) (f : RFile) (n : Nat) (x : W) (l : List (Nat × W)) : (k.writeW L f n x l).deficit = k.deficit := Core.writeAt_deficit _ _ _ _ _ _ _ _

/-! ### Core.promise -/

@[simp] theorem Core.promise_lo (k : Core) (L : Nat) (f : RFile) (n : Nat) : ((k.promise L f n).2).lo = k.lo := rfl
@[simp] theorem Core.promise_hi (k : Core) (L : Nat) (f : RFile) (n : Nat) : ((k.promise L f n).2).hi = k.hi := rfl
@[simp] theorem Core.promise_v (k : Core) (L : Nat) (f : RFile) (n : Nat) : ((k.promise L f n).2).v = k.v := rfl
@[simp] theorem Core.promise_c (k : Core) (L : Nat) (f : RFile) (n : Nat) : ((k.promise L f n).2).c = k.c := rfl
@[simp] theorem Core.promise_q (k : Core) (L : Nat) (f : RFile) (n : Nat) : ((k.promise L f n).2).q = k.q := rfl
@[simp] theorem Core.promise_streams (k : Core) (L : Nat) (f : RFile) (n : Nat) : ((k.promise L f n).2).streams = k.streams := rfl
@[simp] theorem Core.promise_ctl (k : Core) (L : Nat) (f : RFile) (n : Nat) : ((k.promise L f n).2).ctl = k.ctl := rfl
@[simp] theorem Core.promise_regPoison (k : Core) (L : Nat) (f : RFile) (n : Nat) : ((k.promise L f n).2).regPoison = k.regPoison := rfl
@[simp] theorem Core.promise_vq (k : Core) (L : Nat) (f : RFile) (n : Nat) : ((k.promise L f n).2).vq = k.vq := rfl
@[simp] theorem Core.promise_ptrap (k : Core) (L : Nat) (f : RFile) (n : Nat) : ((k.promise L f n).2).ptrap = k.ptrap := rfl
@[simp] theorem Core.promise_async (k : Core) (L : Nat) (f : RFile) (n : Nat) : ((k.promise L f n).2).async = k.async := rfl
@[simp] theorem Core.promise_wait (k : Core) (L : Nat) (f : RFile) (n : Nat) : ((k.promise L f n).2).wait = k.wait := rfl
@[simp] theorem Core.promise_req (k : Core) (L : Nat) (f : RFile) (n : Nat) : ((k.promise L f n).2).req = k.req := rfl
@[simp] theorem Core.promise_ans (k : Core) (L : Nat) (f : RFile) (n : Nat) : ((k.promise L f n).2).ans = k.ans := rfl
@[simp] theorem Core.promise_blocked (k : Core) (L : Nat) (f : RFile) (n : Nat) : ((k.promise L f n).2).blocked = k.blocked := rfl
@[simp] theorem Core.promise_mask (k : Core) (L : Nat) (f : RFile) (n : Nat) : ((k.promise L f n).2).mask = k.mask := rfl
@[simp] theorem Core.promise_halted (k : Core) (L : Nat) (f : RFile) (n : Nat) : ((k.promise L f n).2).halted = k.halted := rfl
@[simp] theorem Core.promise_haltReq (k : Core) (L : Nat) (f : RFile) (n : Nat) : ((k.promise L f n).2).haltReq = k.haltReq := rfl
@[simp] theorem Core.promise_hstatus (k : Core) (L : Nat) (f : RFile) (n : Nat) : ((k.promise L f n).2).hstatus = k.hstatus := rfl
@[simp] theorem Core.promise_held (k : Core) (L : Nat) (f : RFile) (n : Nat) : ((k.promise L f n).2).held = k.held := rfl
@[simp] theorem Core.promise_trapCount (k : Core) (L : Nat) (f : RFile) (n : Nat) : ((k.promise L f n).2).trapCount = k.trapCount := rfl
@[simp] theorem Core.promise_msgid (k : Core) (L : Nat) (f : RFile) (n : Nat) : ((k.promise L f n).2).msgid = k.msgid := rfl
@[simp] theorem Core.promise_hpCount (k : Core) (L : Nat) (f : RFile) (n : Nat) : ((k.promise L f n).2).hpCount = k.hpCount := rfl
@[simp] theorem Core.promise_lowSel (k : Core) (L : Nat) (f : RFile) (n : Nat) : ((k.promise L f n).2).lowSel = k.lowSel := rfl
@[simp] theorem Core.promise_hiSel (k : Core) (L : Nat) (f : RFile) (n : Nat) : ((k.promise L f n).2).hiSel = k.hiSel := rfl
@[simp] theorem Core.promise_lowSusp (k : Core) (L : Nat) (f : RFile) (n : Nat) : ((k.promise L f n).2).lowSusp = k.lowSusp := rfl
@[simp] theorem Core.promise_seqTop (k : Core) (L : Nat) (f : RFile) (n : Nat) : ((k.promise L f n).2).seqTop = k.seqTop := rfl
@[simp] theorem Core.promise_recs (k : Core) (L : Nat) (f : RFile) (n : Nat) : ((k.promise L f n).2).recs = k.recs := rfl
@[simp] theorem Core.promise_joins (k : Core) (L : Nat) (f : RFile) (n : Nat) : ((k.promise L f n).2).joins = k.joins := rfl
@[simp] theorem Core.promise_slots (k : Core) (L : Nat) (f : RFile) (n : Nat) : ((k.promise L f n).2).slots = k.slots := rfl
@[simp] theorem Core.promise_pin (k : Core) (L : Nat) (f : RFile) (n : Nat) : ((k.promise L f n).2).pin = k.pin := rfl
@[simp] theorem Core.promise_restore (k : Core) (L : Nat) (f : RFile) (n : Nat) : ((k.promise L f n).2).restore = k.restore := rfl
@[simp] theorem Core.promise_resv (k : Core) (L : Nat) (f : RFile) (n : Nat) : ((k.promise L f n).2).resv = k.resv := rfl
@[simp] theorem Core.promise_launch (k : Core) (L : Nat) (f : RFile) (n : Nat) : ((k.promise L f n).2).launch = k.launch := rfl
@[simp] theorem Core.promise_heldLaunch (k : Core) (L : Nat) (f : RFile) (n : Nat) : ((k.promise L f n).2).heldLaunch = k.heldLaunch := rfl
@[simp] theorem Core.promise_inj (k : Core) (L : Nat) (f : RFile) (n : Nat) : ((k.promise L f n).2).inj = k.inj := rfl
@[simp] theorem Core.promise_ext (k : Core) (L : Nat) (f : RFile) (n : Nat) : ((k.promise L f n).2).ext = k.ext := rfl
@[simp] theorem Core.promise_coll (k : Core) (L : Nat) (f : RFile) (n : Nat) : ((k.promise L f n).2).coll = k.coll := rfl
@[simp] theorem Core.promise_bars (k : Core) (L : Nat) (f : RFile) (n : Nat) : ((k.promise L f n).2).bars = k.bars := rfl
@[simp] theorem Core.promise_barOut (k : Core) (L : Nat) (f : RFile) (n : Nat) : ((k.promise L f n).2).barOut = k.barOut := rfl
@[simp] theorem Core.promise_sendNo (k : Core) (L : Nat) (f : RFile) (n : Nat) : ((k.promise L f n).2).sendNo = k.sendNo := rfl
@[simp] theorem Core.promise_fenced (k : Core) (L : Nat) (f : RFile) (n : Nat) : ((k.promise L f n).2).fenced = k.fenced := rfl
@[simp] theorem Core.promise_seen (k : Core) (L : Nat) (f : RFile) (n : Nat) : ((k.promise L f n).2).seen = k.seen := rfl
@[simp] theorem Core.promise_deficit (k : Core) (L : Nat) (f : RFile) (n : Nat) : ((k.promise L f n).2).deficit = k.deficit := rfl
@[simp] theorem Core.promise_checked (k : Core) (L : Nat) (f : RFile) (n : Nat) : ((k.promise L f n).2).checked = k.checked := rfl

end Sys2Proof.Machine
end

