-- ==== Sys2Proof/Laws/Ops.lean ====
section
/-! SUPPORT. Reading after writing: tables, sorted lists, tiles, cores, banks and registers. -/

namespace Sys2Proof.Machine

/-! ### Tables -/

@[simp] theorem vget_vset_same {α : Type} {k : Nat} (v : Vector α (k + 1)) (n : Nat) (x : α) : vget (vset v n x) n = x := by
  simp [vget, vset]

theorem vget_vset_ne {α : Type} {k : Nat} (v : Vector α (k + 1)) {n m : Nat} (h : n % (k + 1) ≠ m % (k + 1)) (x : α) :
    vget (vset v n x) m = vget v m := by
  simp [vget, vset, Vector.getElem_set, h]

theorem vget_vset_mod {α : Type} {k : Nat} (v : Vector α (k + 1)) (n m : Nat) (x : α) :
    vget (vset v n x) m = if n % (k + 1) = m % (k + 1) then x else vget v m := by
  simp [vget, vset, Vector.getElem_set]

/-! ### Lists by key -/

@[simp] theorem lookup_insert_same {α : Type} (l : List (Nat × α)) (k : Nat) (x : α) : lookup (insert l k x) k = some x := by
  induction l with
  | nil => simp [insert, lookup]
  | cons p r ih =>
    obtain ⟨j, y⟩ := p
    unfold insert
    split
    · simp [lookup]
    · split
      · simp [lookup]
      · rename_i h1 h2
        simp [lookup, ih, Ne.symm h2]

theorem lookup_insert_ne {α : Type} (l : List (Nat × α)) {k j : Nat} (h : k ≠ j) (x : α) : lookup (insert l k x) j = lookup l j := by
  induction l with
  | nil => simp [insert, lookup, h]
  | cons p r ih =>
    obtain ⟨i, y⟩ := p
    unfold insert
    split
    · simp [lookup, h]
    · split
      · rename_i h1 h2; subst h2
        simp [lookup, h]
      · simp [lookup, ih]

theorem lookup_insert {α : Type} (l : List (Nat × α)) (k j : Nat) (x : α) :
    lookup (insert l k x) j = if k = j then some x else lookup l j := by
  split
  · rename_i h; subst h; simp
  · rename_i h; exact lookup_insert_ne l h x

/-! ### Tiles -/

@[simp] theorem State.tile_setTile (s : State) (t : Site) (x : Tile) : (s.setTile t x).tile t = x := by
  simp [State.tile, State.setTile]
theorem State.tile_setTile_ne (s : State) {t u : Site} (h : Site.num t ≠ Site.num u) (x : Tile) : (s.setTile t x).tile u = s.tile u := by
  simp [State.tile, State.setTile, lookup_insert_ne _ h]
@[simp] theorem State.tile_modTile (s : State) (t : Site) (f : Tile → Tile) : (s.modTile t f).tile t = f (s.tile t) := by
  simp [State.modTile]
theorem State.tile_modTile_ne (s : State) {t u : Site} (h : Site.num t ≠ Site.num u) (f : Tile → Tile) :
    (s.modTile t f).tile u = s.tile u := by
  simp [State.modTile, State.tile_setTile_ne _ h]
@[simp] theorem State.here_modHere (s : State) (f : Tile → Tile) : (s.modHere f).here = f s.here := by
  simp [State.here, State.modHere]

/-! ### Cores -/

@[simp] theorem Tile.core_setCore (t : Tile) (k : CoreKind) (c : Core) : (t.setCore k c).core k = c := by cases k <;> rfl
theorem Tile.core_setCore_ne (t : Tile) {k j : CoreKind} (h : k ≠ j) (c : Core) : (t.setCore k c).core j = t.core j := by
  cases k <;> cases j <;> first | rfl | exact absurd rfl h
@[simp] theorem State.core_setCore (s : State) (c : CoreId) (x : Core) : (s.setCore c x).core c = x := by
  simp [State.core, State.setCore]
@[simp] theorem State.core_modCore (s : State) (c : CoreId) (f : Core → Core) : (s.modCore c f).core c = f (s.core c) := by
  simp [State.modCore]
@[simp] theorem State.me_modMe (s : State) (f : Core → Core) : (s.modMe f).me = f s.me := by
  simp [State.me, State.modMe]
@[simp] theorem State.me_modCore_cur (s : State) (f : Core → Core) : (s.modCore s.cur f).me = f s.me := by
  simp [State.me]
/-- Changing one core of a tile changes no other field of the tile but that core. -/
@[simp] theorem State.here_modMe (s : State) (f : Core → Core) : (s.modMe f).here = s.here.setCore s.cur.kind (f s.me) := by
  simp [State.here, State.modMe, State.modCore, State.setCore, State.me]
@[simp] theorem State.tile_modCore (s : State) (c : CoreId) (f : Core → Core) :
    (s.modCore c f).tile c.site = (s.tile c.site).setCore c.kind (f (s.core c)) := by
  simp [State.modCore, State.setCore]
theorem State.tile_modCore_ne (s : State) (c : CoreId) {u : Site} (h : Site.num c.site ≠ Site.num u) (f : Core → Core) :
    (s.modCore c f).tile u = s.tile u := by
  simp [State.modCore, State.setCore, State.tile_modTile_ne _ h]
@[simp] theorem State.tile_modMe (s : State) (f : Core → Core) :
    (s.modMe f).tile s.cur.site = s.here.setCore s.cur.kind (f s.me) := State.here_modMe s f
theorem State.tile_modMe_ne (s : State) {u : Site} (h : Site.num s.cur.site ≠ Site.num u) (f : Core → Core) :
    (s.modMe f).tile u = s.tile u := State.tile_modCore_ne s s.cur h f

/-! ### Banks and activations -/

@[simp] theorem Core.bank_setBank (k : Core) (h : Bool) (b : Bank) : (k.setBank h b).bank h = b := by cases h <;> rfl
@[simp] theorem Core.bank_setBank_not (k : Core) (h : Bool) (b : Bank) : (k.setBank h b).bank (!h) = k.bank (!h) := by cases h <;> rfl
@[simp] theorem Core.bank_modBank (k : Core) (h : Bool) (f : Bank → Bank) : (k.modBank h f).bank h = f (k.bank h) := by
  simp [Core.modBank]
@[simp] theorem Core.bank_modBank_not (k : Core) (h : Bool) (f : Bank → Bank) : (k.modBank h f).bank (!h) = k.bank (!h) := by
  simp [Core.modBank]
@[simp] theorem Core.lev_block (k : Core) (a b c : Nat) : (k.block a b c).lev = k.lev := by
  unfold Core.block; split <;> rfl
@[simp] theorem Core.act_block (k : Core) (a b c : Nat) : (k.block a b c).act = k.act := by
  unfold Core.block; split <;> rfl

/-! ### Registers that are constants (R22) -/

@[simp] theorem Core.g_zero (k : Core) : k.g 0 = 0 := rfl
@[simp] theorem Core.p_zero (k : Core) : k.p 0 = BitVec.allOnes 64 := rfl
/-- A write to g0 changes nothing (R22). -/
theorem Core.putReg_g0 (k : Core) (h : Bool) (n : Nat) (hn : n % 32 = 0) (x : V) (l : List (Nat × W)) : k.putReg .g h n x l = k := by
  simp [Core.putReg, hn]
/-- A write to p0 changes nothing (R22). -/
theorem Core.putReg_p0 (k : Core) (h : Bool) (n : Nat) (hn : n % 8 = 0) (x : V) (l : List (Nat × W)) : k.putReg .p h n x l = k := by
  simp [Core.putReg, hn]

/-- A g register after its own write. -/
theorem Bank.setG_same (b : Bank) (n : Nat) (x : W) (h : n % 32 ≠ 0) : vget (b.setG n x).g n = x := by
  simp [Bank.setG, h]
/-- A g register after the write of another. -/
theorem Bank.setG_ne (b : Bank) {n m : Nat} (x : W) (h : n % 32 ≠ m % 32) : vget (b.setG n x).g m = vget b.g m := by
  unfold Bank.setG; split
  · rfl
  · exact vget_vset_ne _ h x
theorem Bank.setP_same (b : Bank) (n : Nat) (x : W) (h : n % 8 ≠ 0) : vget (b.setP n x).p n = x := by
  simp [Bank.setP, h]
theorem Bank.setP_ne (b : Bank) {n m : Nat} (x : W) (h : n % 8 ≠ m % 8) : vget (b.setP n x).p m = vget b.p m := by
  unfold Bank.setP; split
  · rfl
  · exact vget_vset_ne _ h x
@[simp] theorem Bank.setG_p (b : Bank) (n : Nat) (x : W) : (b.setG n x).p = b.p := by unfold Bank.setG; split <;> rfl
@[simp] theorem Bank.setG_act (b : Bank) (n : Nat) (x : W) : (b.setG n x).act = b.act := by unfold Bank.setG; split <;> rfl
@[simp] theorem Bank.setP_g (b : Bank) (n : Nat) (x : W) : (b.setP n x).g = b.g := by unfold Bank.setP; split <;> rfl
@[simp] theorem Bank.setP_act (b : Bank) (n : Nat) (x : W) : (b.setP n x).act = b.act := by unfold Bank.setP; split <;> rfl

end Sys2Proof.Machine
end

