-- ==== Sys2Proof/Laws/Issue.lean ====
section
/-! SUPPORT. What issuing an instruction comes to: the shared checks, then its own body. -/

namespace Sys2Proof.Machine

/-- The checks of one form add to the shared ones only where they find something. -/
theorem issueFault_ck (i : Instr) (r : Row) (e : Enc) (ck : Ck) (s : State) (hp : ck.priv = false) (hr : ck.rights = false)
    (hb : ck.bad = false) (h : (issueFault i r e {} s).isNone = true) : issueFault i r e ck s = none := by
  have h0 : issueFault i r e {} s = none := by simpa using h
  obtain ⟨_, _, _, info⟩ := ck
  simp only at hp hr hb
  subst hp hr hb
  unfold issueFault at h0 ⊢
  dsimp only at h0 ⊢
  generalize (r.sv && !s.me.sup || false) = b1 at h0 ⊢
  generalize (Option.any (fun k => k != s.cur.kind) r.rights || false) = b2 at h0 ⊢
  generalize (s.me.lev && decide (2 ≤ r.page ∧ r.page ≤ 5)) = b3 at h0 ⊢
  generalize (r.page == 4 && if s.me.sup = true then !s.here.claimed && !isClaim i else s.here.claimed) = b4 at h0 ⊢
  generalize (rowBad r e || false) = b5 at h0 ⊢
  cases b1 <;> cases b2 <;> cases b3 <;> cases b4 <;> cases b5 <;> first | rfl | cases h0

/-- Reading registers of which none is awaited and none poisoned goes on to what follows. -/
theorem reading_ready {l : List (RFile × Nat)} {body : State → Eff} {s : State}
    (h : (l.all fun x => !s.me.mustWait x.1 x.2 && (s.me.poisonOf x.1 x.2).isNone) = true) : reading l body s = body s := by
  induction l with
  | nil => rfl
  | cons x r ih =>
    simp only [List.all_cons, Bool.and_eq_true, Bool.not_eq_true', Core.mustWait, Option.isSome_eq_false_iff, Option.isNone_iff_eq_none] at h
    rw [reading, h.1.1, h.1.2]
    exact ih h.2

/-- With its operands ready and its predicate true, an instruction runs its body on the state it sees. -/
theorem execute_clear {i : Instr} {r : Row} {e : Enc} {body : State → Eff} {s : State}
    (ho : ((reads i r e).all fun x => !(seen s).me.mustWait x.1 x.2 && ((seen s).me.poisonOf x.1 x.2).isNone) = true)
    (hp : (byLane i r || ((seen s).me.pred e).getLsbD 0) = true) : execute i r e body s = finish (seen s) e (body (seen s)) := by
  rw [reads, List.all_append, Bool.and_eq_true] at ho
  change finish (seen s) e (reading (readsP e) _ (seen s)) = _
  rw [reading_ready ho.1]
  simp only [executes, hp, Bool.not_true, Bool.false_eq_true, if_false, reading_ready ho.2, ite_self]

/-- An instruction against which nothing speaks runs its body on the state it sees. -/
theorem issue_clear {i : Instr} {ck : Ck} {body : Row → Enc → State → Eff} {s : State} {r : Row} {e : Enc} (hr : rowOf i = some r)
    (he : encOf i = some e) (h : clear i s = true) (hp : ck.priv = false) (hg : ck.rights = false) (hb : ck.bad = false) :
    issue i ck body s = .next (finish (seen s) e (body r e (seen s))) := by
  simp only [clear, mayIssue, operandsReady, predicated, hr, he, Bool.and_eq_true] at h
  obtain ⟨⟨⟨ha, hf⟩, ho⟩, hp'⟩ := h
  have ha' : s.me.act.isNone = false := by
    cases h : s.me.act <;> simp_all
  unfold issue
  rw [hr, he]
  dsimp only
  rw [ha', issueFault_ck i r e ck s hp hg hb hf]
  exact congrArg Host.Outcome.next (execute_clear ho hp')

end Sys2Proof.Machine
end

