-- ==== Sys2Proof/Laws/Mem.lean ====
section
/-! SUPPORT. Sparse memory: reading after writing, and that every operation keeps the canonical form. -/

namespace Sys2Proof.Machine

/-! ### Reading after writing -/

theorem Mem.byteAt_put (m : Mem) (a k : Nat) (b : Byte) (lo : Nat) (h : Mem.wfFrom lo m = true) :
    Mem.byteAt (Mem.put m a b) k = if k = a then b else Mem.byteAt m k := by
  induction m generalizing lo with
  | nil =>
    simp only [Mem.put]
    by_cases hb : b = 0
    · rw [if_pos hb, hb]; simp [Mem.byteAt]
    · rw [if_neg hb]; by_cases hk : k = a
      · subst hk; simp [Mem.byteAt]
      · simp [Mem.byteAt, hk, Ne.symm hk]
  | cons p r ih =>
    obtain ⟨j, x⟩ := p
    simp only [Mem.wfFrom, Bool.and_eq_true, decide_eq_true_eq] at h
    have rest : ∀ lo k, Mem.wfFrom lo r = true → k < lo → Mem.byteAt r k = 0 := by
      clear ih h
      induction r with
      | nil => intros; rfl
      | cons q r ih =>
        intro lo k h hk
        obtain ⟨i, y⟩ := q
        simp only [Mem.wfFrom, Bool.and_eq_true, decide_eq_true_eq] at h
        have : i ≠ k := by omega
        simp only [Mem.byteAt, this, if_false]
        exact ih (i + 1) k h.2 (by omega)
    simp only [Mem.put]
    split
    · rename_i hlt
      have ha : Mem.byteAt ((j, x) :: r) a = 0 := by
        simp only [Mem.byteAt, show ¬j = a by omega, if_false]
        exact rest (j + 1) a h.2 (by omega)
      split
      · rename_i hb
        split
        · rename_i hk; rw [hk, ha, hb]
        · rfl
      · simp only [Mem.byteAt, eq_comm]
    · split
      · rename_i hj
        have ha : Mem.byteAt r a = 0 := rest (j + 1) a h.2 (by omega)
        split
        · rename_i hb
          simp only [Mem.byteAt]
          split
          · rename_i hk; rw [hk, ha, hb]
          · rename_i hk
            simp [show ¬j = k by omega]
        · simp only [Mem.byteAt]
          subst hj
          by_cases hk : k = a
          · simp [hk]
          · simp [hk, Ne.symm hk]
      · rename_i h1 h2
        simp only [Mem.byteAt]
        split
        · rename_i hj
          have : k ≠ a := by omega
          simp [this]
        · exact ih (j + 1) h.2

/-- A write at or above the bound of a canonical list keeps it canonical. -/
theorem Mem.wfFrom_put (m : Mem) (a lo : Nat) (b : Byte) (h : Mem.wfFrom lo m = true) (ha : lo ≤ a) :
    Mem.wfFrom lo (Mem.put m a b) = true := by
  induction m generalizing lo with
  | nil =>
    simp only [Mem.put]
    split
    · rfl
    · rename_i hb; simpa [Mem.wfFrom, ha] using hb
  | cons p r ih =>
    obtain ⟨j, x⟩ := p
    have h0 := h
    simp only [Mem.wfFrom, Bool.and_eq_true, decide_eq_true_eq] at h
    have weaken : ∀ r lo lo', lo' ≤ lo → Mem.wfFrom lo r = true → Mem.wfFrom lo' r = true := by
      intro r lo lo' hl hr
      cases r with
      | nil => rfl
      | cons q r =>
        simp only [Mem.wfFrom, Bool.and_eq_true, decide_eq_true_eq] at hr ⊢
        exact ⟨⟨by omega, hr.1.2⟩, hr.2⟩
    simp only [Mem.put]
    split
    · split
      · exact h0
      · rename_i hlt hb
        simp only [Mem.wfFrom, Bool.and_eq_true, decide_eq_true_eq, bne_iff_ne, ne_eq]
        exact ⟨⟨ha, hb⟩, ⟨by omega, by simpa using h.1.2⟩, h.2⟩
    · split
      · split
        · exact weaken r _ _ (by omega) h.2
        · rename_i hb
          simp only [Mem.wfFrom, Bool.and_eq_true, decide_eq_true_eq, bne_iff_ne, ne_eq]
          subst_vars
          exact ⟨⟨ha, hb⟩, h.2⟩
      · simp only [Mem.wfFrom, Bool.and_eq_true, decide_eq_true_eq]
        exact ⟨h.1, ih (j + 1) h.2 (by omega)⟩

theorem Mem.wf_put (m : Mem) (a : Nat) (b : Byte) (h : m.wf = true) : (Mem.put m a b).wf = true :=
  Mem.wfFrom_put m a 0 b h (Nat.zero_le a)

theorem Mem.wf_store (m : Mem) (a : Nat) (bs : List Byte) (h : m.wf = true) : (Mem.store m a bs).wf = true := by
  induction bs generalizing m a with
  | nil => exact h
  | cons b r ih => exact ih _ _ (Mem.wf_put m a b h)

theorem Mem.wf_setWord (m : Mem) (a : Nat) (x : W) (h : m.wf = true) : (Mem.setWord m a x).wf = true := Mem.wf_store m a _ h

/-- A byte after a store: the stored one inside the range, the old one outside. -/
theorem Mem.byteAt_store (m : Mem) (a k : Nat) (bs : List Byte) (h : m.wf = true) :
    Mem.byteAt (Mem.store m a bs) k = if a ≤ k ∧ k < a + bs.length then bs.getD (k - a) 0 else Mem.byteAt m k := by
  induction bs generalizing m a with
  | nil => rw [if_neg (by simp)]; rfl
  | cons b r ih =>
    rw [Mem.store, ih _ _ (Mem.wf_put m a b h), Mem.byteAt_put m a k b 0 h]
    by_cases hk : k = a
    · subst hk; rw [if_neg (by omega), if_pos rfl, if_pos (by simp)]; simp
    · by_cases h1 : a + 1 ≤ k ∧ k < a + 1 + r.length
      · have h2 : a ≤ k ∧ k < a + (b :: r).length := by simp; omega
        obtain ⟨n, hn⟩ : ∃ n, k - a = n + 1 := ⟨k - a - 1, by omega⟩
        have h3 : k - (a + 1) = n := by omega
        rw [if_pos h1, if_pos h2, hn, h3]
        simp
      · have h2 : ¬(a ≤ k ∧ k < a + (b :: r).length) := by simp; omega
        rw [if_neg h1, if_neg h2, if_neg hk]

/-- A store leaves every byte outside its range. -/
theorem Mem.byteAt_store_out (m : Mem) (a k : Nat) (bs : List Byte) (h : m.wf = true) (hk : k < a ∨ a + bs.length ≤ k) :
    Mem.byteAt (Mem.store m a bs) k = Mem.byteAt m k := by
  rw [Mem.byteAt_store m a k bs h, if_neg (by omega)]

/-! ### Ranges -/

theorem Mem.wfFrom_filter (m : Mem) (lo : Nat) (p : Host.Cell → Bool) (h : Mem.wfFrom lo m = true) :
    Mem.wfFrom lo (m.filter p) = true := by
  induction m generalizing lo with
  | nil => rfl
  | cons q r ih =>
    obtain ⟨j, x⟩ := q
    simp only [Mem.wfFrom, Bool.and_eq_true, decide_eq_true_eq] at h
    have weaken : ∀ r : Mem, ∀ lo lo', lo' ≤ lo → Mem.wfFrom lo r = true → Mem.wfFrom lo' r = true := by
      intro r lo lo' hl hr
      cases r with
      | nil => rfl
      | cons q r =>
        simp only [Mem.wfFrom, Bool.and_eq_true, decide_eq_true_eq] at hr ⊢
        exact ⟨⟨by omega, hr.1.2⟩, hr.2⟩
    by_cases hp : p (j, x) = true
    · rw [List.filter_cons_of_pos hp]
      simp only [Mem.wfFrom, Bool.and_eq_true, decide_eq_true_eq]
      exact ⟨h.1, ih _ h.2⟩
    · rw [List.filter_cons_of_neg hp]
      exact weaken _ _ _ (by omega) (ih _ h.2)

/-- The canonical form, as what `splice` and `slice` need of it: keys above a bound, strictly rising, no byte zero. -/
theorem Mem.wfFrom_iff (m : Mem) (lo : Nat) :
    Mem.wfFrom lo m = true ↔ (∀ c ∈ m, lo ≤ c.1 ∧ c.2 ≠ 0) ∧ m.Pairwise fun c d => c.1 < d.1 := by
  induction m generalizing lo with
  | nil => simp [Mem.wfFrom]
  | cons q r ih =>
    obtain ⟨j, x⟩ := q
    simp only [Mem.wfFrom, Bool.and_eq_true, decide_eq_true_eq, ih, List.pairwise_cons, List.mem_cons, bne_iff_ne, ne_eq]
    constructor
    · rintro ⟨⟨h1, h2⟩, h3, h4⟩
      refine ⟨?_, ?_, h4⟩
      · rintro c (rfl | hc)
        · exact ⟨h1, h2⟩
        · exact ⟨by have := (h3 c hc).1; omega, (h3 c hc).2⟩
      · intro c hc; exact (h3 c hc).1
    · rintro ⟨h1, h2, h3⟩
      refine ⟨h1 _ (Or.inl rfl), ?_, h3⟩
      intro c hc
      exact ⟨h2 c hc, (h1 c (Or.inr hc)).2⟩

theorem Mem.wf_slice (m : Mem) (a n : Nat) (h : m.wf = true) : (Mem.slice m a n).wf = true := by
  have hf := (Mem.wfFrom_iff _ _).1 (Mem.wfFrom_filter m 0 (fun c => decide (a ≤ c.1 ∧ c.1 < a + n)) h)
  refine (Mem.wfFrom_iff _ _).2 ⟨?_, ?_⟩
  · intro c hc
    obtain ⟨d, hd, rfl⟩ := List.mem_map.1 hc
    exact ⟨Nat.zero_le _, (hf.1 d hd).2⟩
  · refine List.pairwise_map.2 (hf.2.imp_of_mem ?_)
    intro c d hc hd hcd
    have h1 := List.mem_filter.1 hc
    simp only [decide_eq_true_eq] at h1
    omega

theorem Mem.wf_splice (m : Mem) (a n : Nat) (p : Mem) (h : m.wf = true) (hp : p.wf = true) : (Mem.splice m a n p).wf = true := by
  have h0 := (Mem.wfFrom_iff _ _).1 h
  have hp0 := (Mem.wfFrom_iff _ _).1 hp
  unfold Mem.splice
  refine (Mem.wfFrom_iff _ _).2 ⟨?_, ?_⟩
  · intro c hc
    simp only [List.mem_append, List.mem_filter, List.mem_map] at hc
    rcases hc with (hc | ⟨d, ⟨hd, _⟩, rfl⟩) | hc
    · exact ⟨Nat.zero_le _, (h0.1 c hc.1).2⟩
    · exact ⟨Nat.zero_le _, (hp0.1 d hd).2⟩
    · exact ⟨Nat.zero_le _, (h0.1 c hc.1).2⟩
  · refine List.pairwise_append.2 ⟨List.pairwise_append.2 ⟨h0.2.filter _, ?_, ?_⟩, h0.2.filter _, ?_⟩
    · refine List.pairwise_map.2 ((hp0.2.filter _).imp ?_)
      intro c d hcd; simpa using hcd
    · intro c hc d hd
      simp only [List.mem_filter, List.mem_map, decide_eq_true_eq] at hc hd
      obtain ⟨e, _, rfl⟩ := hd
      dsimp only; omega
    · intro c hc d hd
      simp only [List.mem_append, List.mem_filter, List.mem_map, decide_eq_true_eq] at hc hd
      rcases hc with hc | ⟨e, ⟨_, he⟩, rfl⟩
      · omega
      · dsimp only; omega

/-! ### Bytes and words -/

theorem leNat_leBytes (n x : Nat) : leNat (leBytes n x) = x % 256 ^ n := by
  induction n generalizing x with
  | zero => simp [leBytes, leNat, Nat.mod_one]
  | succ n ih =>
    simp only [leBytes, leNat, ih, BitVec.toNat_ofNat]
    have h : x % 256 ^ (n + 1) = x % 256 + 256 * (x / 256 % 256 ^ n) := by rw [Nat.pow_succ', Nat.mod_mul]
    omega

@[simp] theorem leBytes_length (n x : Nat) : (leBytes n x).length = n := by
  induction n generalizing x with
  | zero => rfl
  | succ n ih => simp [leBytes, ih]

/-- Reading the bytes just stored. -/
theorem Mem.bytes_store_same (m : Mem) (a : Nat) (bs : List Byte) (h : m.wf = true) :
    Mem.bytes (Mem.store m a bs) a bs.length = bs := by
  apply List.ext_getElem
  · simp [Mem.bytes]
  · intro i h1 h2
    simp only [Mem.bytes, List.getElem_map, List.getElem_range, Mem.byteAt_store m a _ bs h]
    simp [h2]

/-- R3: a word read back after its store. -/
theorem Mem.word_setWord (m : Mem) (a : Nat) (x : W) (h : m.wf = true) : Mem.word (Mem.setWord m a x) a = x := by
  have := Mem.bytes_store_same m a (leBytes 8 x.toNat) h
  simp only [leBytes_length] at this
  simp only [Mem.word, Mem.load, Mem.setWord, this, leNat_leBytes, w]
  apply BitVec.eq_of_toNat_eq
  simp [Nat.mod_eq_of_lt x.isLt]

end Sys2Proof.Machine
end

