-- ==== Sys2Proof/Laws/PerInstr.lean ====
section
/-! SUPPORT. The families of statements that are made instruction by instruction. RowFound: in the tables of R44 a well-formed instruction stands
at the page, op and f of its own words. -/

namespace Sys2Proof.Laws.RowFound

/-- The decoder's tables name this instruction at its row's page and the op and f of its words (R44). -/
def Statement (i : Instr) : Prop :=
  ∀ r e, rowOf i = some r → encOf i = some e → wellFormed i = true → (rowAt r.page e.op e.f).map (fun mk => mk e) = some i

/-- What the checks on op and f say. -/
theorem wf_op_f {e : Enc} {r : Row} (h : e.wf r = true) :
    (r.op ≤ e.op ∧ e.op < r.op + r.opN) ∧ (r.fmt = .rr → r.f ≤ e.f ∧ e.f < r.f + r.fN) ∧ e.f < 4 := by
  simp only [Enc.wf, Enc.opOk, Enc.fOk, Bool.and_eq_true, decide_eq_true_eq, Bool.or_eq_true, bne_iff_ne, ne_eq] at h
  refine ⟨h.1.1.1.1.1.1.2, fun hf => ?_, (e.base.extractLsb' 0 2).isLt⟩
  rcases h.1.1.1.1.1.2 with h | h
  · exact absurd hf h
  · exact h

/-- A row of one op and one f. -/
theorem foundM {i : Instr} {r : Row} {e : Enc} (mk : Enc → Instr) (hr : rowOf i = some r) (he : encOf i = some e)
    (hi : modeOk i = true → mk e = i) (h1 : r.opN = 1) (h2 : r.fmt = .rr) (h3 : r.fN = 1) (h : rowAt r.page r.op r.f = some mk) : Statement i := by
  intro r' e' hr' he' hw
  obtain rfl := Option.some.inj (hr.symm.trans hr')
  obtain rfl := Option.some.inj (he.symm.trans he')
  simp only [wellFormed, hr, he, Bool.and_eq_true] at hw
  obtain ⟨ho, hf, _⟩ := wf_op_f hw.1
  have hf := hf h2
  rw [show e.op = r.op by omega, show e.f = r.f by omega, h]
  simp [hi hw.2]

/-- A row of one op and one f that no mode chooses. -/
theorem found1 {i : Instr} {r : Row} {e : Enc} (mk : Enc → Instr) (hr : rowOf i = some r) (he : encOf i = some e) (hi : mk e = i)
    (h1 : r.opN = 1) (h2 : r.fmt = .rr) (h3 : r.fN = 1) (h : rowAt r.page r.op r.f = some mk) : Statement i :=
  foundM mk hr he (fun _ => hi) h1 h2 h3 h

/-- A row of one op whose f is part of an immediate. -/
theorem found4 {i : Instr} {r : Row} {e : Enc} (mk : Enc → Instr) (hr : rowOf i = some r) (he : encOf i = some e) (hi : mk e = i)
    (h1 : r.opN = 1) (h : (List.range 4).map (rowAt r.page r.op) = [some mk, some mk, some mk, some mk]) : Statement i := by
  intro r' e' hr' he' hw
  obtain rfl := Option.some.inj (hr.symm.trans hr')
  obtain rfl := Option.some.inj (he.symm.trans he')
  simp only [wellFormed, hr, he, Bool.and_eq_true] at hw
  obtain ⟨ho, _, hf⟩ := wf_op_f hw.1
  simp only [List.range, List.range.loop, List.map_cons, List.map_nil, List.cons.injEq, and_true] at h
  rw [show e.op = r.op by omega]
  obtain ⟨h0, h1, h2, h3⟩ := h
  have : e.f = 0 ∨ e.f = 1 ∨ e.f = 2 ∨ e.f = 3 := by omega
  rcases this with hx | hx | hx | hx <;> simp [hx, h0, h1, h2, h3, hi]

/-- A row of several ops or values of f: every cell of it names the instruction. -/
theorem foundN {i : Instr} {r : Row} {e : Enc} (mk : Enc → Instr) (hr : rowOf i = some r) (he : encOf i = some e) (hi : mk e = i)
    (h2 : r.fmt = .rr)
    (h : (List.range r.opN).map (fun k => (List.range r.fN).map fun j => rowAt r.page (r.op + k) (r.f + j))
      = List.replicate r.opN (List.replicate r.fN (some mk))) : Statement i := by
  intro r' e' hr' he' hw
  obtain rfl := Option.some.inj (hr.symm.trans hr')
  obtain rfl := Option.some.inj (he.symm.trans he')
  simp only [wellFormed, hr, he, Bool.and_eq_true] at hw
  obtain ⟨ho, hf, _⟩ := wf_op_f hw.1
  have hf := hf h2
  have hk : e.op - r.op < r.opN := by omega
  have hj : e.f - r.f < r.fN := by omega
  have h3 := congrArg (fun l => (l[e.op - r.op]?).bind fun m => m[e.f - r.f]?) h
  simp only [List.getElem?_map, List.getElem?_replicate, List.getElem?_range hk, List.getElem?_range hj, Option.map_some, Option.bind_some,
    hk, hj, if_true, Option.some.injEq] at h3
  rw [show e.op = r.op + (e.op - r.op) by omega, show e.f = r.f + (e.f - r.f) by omega, h3]
  simp [hi]

/-- A step without an encoding has no words. -/
theorem noWords {i : Instr} (h : encOf i = none) : Statement i := by
  intro r e _ he; rw [h] at he; cases he

theorem add : ∀ e, Statement (.add e) := fun _ => found1 .add rfl rfl rfl rfl rfl rfl rfl
theorem sub : ∀ e, Statement (.sub e) := fun _ => found1 .sub rfl rfl rfl rfl rfl rfl rfl
theorem and : ∀ e, Statement (.and e) := fun _ => found1 .and rfl rfl rfl rfl rfl rfl rfl
theorem or : ∀ e, Statement (.or e) := fun _ => found1 .or rfl rfl rfl rfl rfl rfl rfl
theorem xor : ∀ e, Statement (.xor e) := fun _ => found1 .xor rfl rfl rfl rfl rfl rfl rfl
theorem sll : ∀ e, Statement (.sll e) := fun _ => found1 .sll rfl rfl rfl rfl rfl rfl rfl
theorem srl : ∀ e, Statement (.srl e) := fun _ => found1 .srl rfl rfl rfl rfl rfl rfl rfl
theorem sra : ∀ e, Statement (.sra e) := fun _ => found1 .sra rfl rfl rfl rfl rfl rfl rfl
theorem addi : ∀ e, Statement (.addi e) := fun _ => found4 .addi rfl rfl rfl rfl rfl
theorem andi : ∀ e, Statement (.andi e) := fun _ => found4 .andi rfl rfl rfl rfl rfl
theorem ori : ∀ e, Statement (.ori e) := fun _ => found4 .ori rfl rfl rfl rfl rfl
theorem xori : ∀ e, Statement (.xori e) := fun _ => found4 .xori rfl rfl rfl rfl rfl
theorem slli : ∀ e, Statement (.slli e) := fun _ => found4 .slli rfl rfl rfl rfl rfl
theorem srli : ∀ e, Statement (.srli e) := fun _ => found4 .srli rfl rfl rfl rfl rfl
theorem srai : ∀ e, Statement (.srai e) := fun _ => found4 .srai rfl rfl rfl rfl rfl
theorem li : ∀ e, Statement (.li e) := fun _ => found4 .li rfl rfl rfl rfl rfl
theorem lih : ∀ e, Statement (.lih e) := fun _ => found4 .lih rfl rfl rfl rfl rfl
theorem mov : ∀ e, Statement (.mov e) := fun _ => found1 .mov rfl rfl rfl rfl rfl rfl rfl
theorem slt : ∀ e, Statement (.slt e) := fun _ => found1 .slt rfl rfl rfl rfl rfl rfl rfl
theorem sltu : ∀ e, Statement (.sltu e) := fun _ => found1 .sltu rfl rfl rfl rfl rfl rfl rfl
theorem seq : ∀ e, Statement (.seq e) := fun _ => found1 .seq rfl rfl rfl rfl rfl rfl rfl
theorem ld : ∀ e, Statement (.ld e) := fun _ => found4 .ld rfl rfl rfl rfl rfl
theorem ldn : ∀ e, Statement (.ldn e) := fun _ => found4 .ldn rfl rfl rfl rfl rfl
theorem st : ∀ e, Statement (.st e) := fun _ => found4 .st rfl rfl rfl rfl rfl
theorem stn : ∀ e, Statement (.stn e) := fun _ => found4 .stn rfl rfl rfl rfl rfl
theorem bt : ∀ e, Statement (.bt e) := fun _ => found4 .bt rfl rfl rfl rfl rfl
theorem bf : ∀ e, Statement (.bf e) := fun _ => found4 .bf rfl rfl rfl rfl rfl
theorem j : ∀ e, Statement (.j e) := fun _ => found4 .j rfl rfl rfl rfl rfl
theorem jal : ∀ e, Statement (.jal e) := fun _ => found4 .jal rfl rfl rfl rfl rfl
theorem jr : ∀ e, Statement (.jr e) := fun _ => found1 .jr rfl rfl rfl rfl rfl rfl rfl
theorem jalr : ∀ e, Statement (.jalr e) := fun _ => found1 .jalr rfl rfl rfl rfl rfl rfl rfl
theorem ret : ∀ e, Statement (.ret e) := fun _ => found1 .ret rfl rfl rfl rfl rfl rfl rfl
theorem done : ∀ e, Statement (.done e) := fun _ => found1 .done rfl rfl rfl rfl rfl rfl rfl
theorem halt : ∀ e, Statement (.halt e) := fun _ => found1 .halt rfl rfl rfl rfl rfl rfl rfl
theorem requeue : ∀ e, Statement (.requeue e) := fun _ => found1 .requeue rfl rfl rfl rfl rfl rfl rfl
theorem brk : ∀ e, Statement (.brk e) := fun _ => found1 .brk rfl rfl rfl rfl rfl rfl rfl
theorem send : ∀ e, Statement (.send e) := fun _ => found1 .send rfl rfl rfl rfl rfl rfl rfl
theorem sendf : ∀ e, Statement (.sendf e) := fun _ => found1 .sendf rfl rfl rfl rfl rfl rfl rfl
theorem put : ∀ e, Statement (.put e) := fun _ => found1 .put rfl rfl rfl rfl rfl rfl rfl
theorem get : ∀ e, Statement (.get e) := fun _ => found1 .get rfl rfl rfl rfl rfl rfl rfl
theorem qrd : ∀ e, Statement (.qrd e) := fun _ => found1 .qrd rfl rfl rfl rfl rfl rfl rfl
theorem qwr : ∀ e, Statement (.qwr e) := fun _ => found1 .qwr rfl rfl rfl rfl rfl rfl rfl
theorem qtry : ∀ e, Statement (.qtry e) := fun _ => found1 .qtry rfl rfl rfl rfl rfl rfl rfl
theorem qbind : ∀ e, Statement (.qbind e) := fun _ => found1 .qbind rfl rfl rfl rfl rfl rfl rfl
theorem lea : ∀ e, Statement (.lea e) := fun _ => foundN .lea rfl rfl rfl rfl rfl
theorem cmpeq : ∀ e, Statement (.cmpeq e) := fun _ => found1 .cmpeq rfl rfl rfl rfl rfl rfl rfl
theorem cmpne : ∀ e, Statement (.cmpne e) := fun _ => found1 .cmpne rfl rfl rfl rfl rfl rfl rfl
theorem cmplt : ∀ e, Statement (.cmplt e) := fun _ => found1 .cmplt rfl rfl rfl rfl rfl rfl rfl
theorem cmpltu : ∀ e, Statement (.cmpltu e) := fun _ => found1 .cmpltu rfl rfl rfl rfl rfl rfl rfl
theorem cmpieq : ∀ e, Statement (.cmpieq e) := fun _ => found4 .cmpieq rfl rfl rfl rfl rfl
theorem cmpilt : ∀ e, Statement (.cmpilt e) := fun _ => found4 .cmpilt rfl rfl rfl rfl rfl
theorem csel : ∀ e, Statement (.csel e) := fun _ => foundN .csel rfl rfl rfl rfl rfl
theorem seminc : ∀ e, Statement (.seminc e) := fun _ => found1 .seminc rfl rfl rfl rfl rfl rfl rfl
theorem semwait : ∀ e, Statement (.semwait e) := fun _ => found1 .semwait rfl rfl rfl rfl rfl rfl rfl
theorem semtry : ∀ e, Statement (.semtry e) := fun _ => found1 .semtry rfl rfl rfl rfl rfl rfl rfl
theorem semrd : ∀ e, Statement (.semrd e) := fun _ => found1 .semrd rfl rfl rfl rfl rfl rfl rfl
theorem fence : ∀ e, Statement (.fence e) := fun _ => found1 .fence rfl rfl rfl rfl rfl rfl rfl
theorem ifence : ∀ e, Statement (.ifence e) := fun _ => found1 .ifence rfl rfl rfl rfl rfl rfl rfl
theorem cbsync : ∀ e, Statement (.cbsync e) := fun _ => found1 .cbsync rfl rfl rfl rfl rfl rfl rfl
theorem mul : ∀ e, Statement (.mul e) := fun _ => found1 .mul rfl rfl rfl rfl rfl rfl rfl
theorem mulh : ∀ e, Statement (.mulh e) := fun _ => found1 .mulh rfl rfl rfl rfl rfl rfl rfl
theorem mulhu : ∀ e, Statement (.mulhu e) := fun _ => found1 .mulhu rfl rfl rfl rfl rfl rfl rfl
theorem div : ∀ e, Statement (.div e) := fun _ => found1 .div rfl rfl rfl rfl rfl rfl rfl
theorem divu : ∀ e, Statement (.divu e) := fun _ => found1 .divu rfl rfl rfl rfl rfl rfl rfl
theorem rem : ∀ e, Statement (.rem e) := fun _ => found1 .rem rfl rfl rfl rfl rfl rfl rfl
theorem remu : ∀ e, Statement (.remu e) := fun _ => found1 .remu rfl rfl rfl rfl rfl rfl rfl
theorem min : ∀ e, Statement (.min e) := fun _ => found1 .min rfl rfl rfl rfl rfl rfl rfl
theorem max : ∀ e, Statement (.max e) := fun _ => found1 .max rfl rfl rfl rfl rfl rfl rfl
theorem minu : ∀ e, Statement (.minu e) := fun _ => found1 .minu rfl rfl rfl rfl rfl rfl rfl
theorem maxu : ∀ e, Statement (.maxu e) := fun _ => found1 .maxu rfl rfl rfl rfl rfl rfl rfl
theorem clz : ∀ e, Statement (.clz e) := fun _ => found1 .clz rfl rfl rfl rfl rfl rfl rfl
theorem ctz : ∀ e, Statement (.ctz e) := fun _ => found1 .ctz rfl rfl rfl rfl rfl rfl rfl
theorem popc : ∀ e, Statement (.popc e) := fun _ => found1 .popc rfl rfl rfl rfl rfl rfl rfl
theorem brev : ∀ e, Statement (.brev e) := fun _ => found1 .brev rfl rfl rfl rfl rfl rfl rfl
theorem bext : ∀ e, Statement (.bext e) := fun _ => found1 .bext rfl rfl rfl rfl rfl rfl rfl
theorem bexts : ∀ e, Statement (.bexts e) := fun _ => found1 .bexts rfl rfl rfl rfl rfl rfl rfl
theorem bins : ∀ e, Statement (.bins e) := fun _ => found1 .bins rfl rfl rfl rfl rfl rfl rfl
theorem sext : ∀ e, Statement (.sext e) := fun _ => foundN .sext rfl rfl rfl rfl rfl
theorem zext : ∀ e, Statement (.zext e) := fun _ => foundN .zext rfl rfl rfl rfl rfl
theorem pand : ∀ e, Statement (.pand e) := fun _ => found1 .pand rfl rfl rfl rfl rfl rfl rfl
theorem por : ∀ e, Statement (.por e) := fun _ => found1 .por rfl rfl rfl rfl rfl rfl rfl
theorem pxor : ∀ e, Statement (.pxor e) := fun _ => found1 .pxor rfl rfl rfl rfl rfl rfl rfl
theorem pnot : ∀ e, Statement (.pnot e) := fun _ => found1 .pnot rfl rfl rfl rfl rfl rfl rfl
theorem pfromg : ∀ e, Statement (.pfromg e) := fun _ => found1 .pfromg rfl rfl rfl rfl rfl rfl rfl
theorem ptog : ∀ e, Statement (.ptog e) := fun _ => found1 .ptog rfl rfl rfl rfl rfl rfl rfl
theorem pcnt : ∀ e, Statement (.pcnt e) := fun _ => found1 .pcnt rfl rfl rfl rfl rfl rfl rfl
theorem pfirst : ∀ e, Statement (.pfirst e) := fun _ => found1 .pfirst rfl rfl rfl rfl rfl rfl rfl
theorem amo : ∀ e, Statement (.amo e) := fun _ => found1 .amo rfl rfl rfl rfl rfl rfl rfl
theorem amow : ∀ e, Statement (.amow e) := fun _ => found1 .amow rfl rfl rfl rfl rfl rfl rfl
theorem cas : ∀ e, Statement (.cas e) := fun _ => found1 .cas rfl rfl rfl rfl rfl rfl rfl
theorem casw : ∀ e, Statement (.casw e) := fun _ => found1 .casw rfl rfl rfl rfl rfl rfl rfl
theorem bop : ∀ e, Statement (.bop e) := fun _ => found1 .bop rfl rfl rfl rfl rfl rfl rfl
theorem bopw : ∀ e, Statement (.bopw e) := fun _ => found1 .bopw rfl rfl rfl rfl rfl rfl rfl
theorem ramo : ∀ e, Statement (.ramo e) := fun _ => found1 .ramo rfl rfl rfl rfl rfl rfl rfl
theorem ramow : ∀ e, Statement (.ramow e) := fun _ => found1 .ramow rfl rfl rfl rfl rfl rfl rfl
theorem tlrd : ∀ e, Statement (.tlrd e) := fun _ => found1 .tlrd rfl rfl rfl rfl rfl rfl rfl
theorem tlwait : ∀ e, Statement (.tlwait e) := fun _ => found1 .tlwait rfl rfl rfl rfl rfl rfl rfl
theorem joinset : ∀ e, Statement (.joinset e) := fun _ => found1 .joinset rfl rfl rfl rfl rfl rfl rfl
theorem joinarr : ∀ e, Statement (.joinarr e) := fun _ => found1 .joinarr rfl rfl rfl rfl rfl rfl rfl
theorem crrd : ∀ e, Statement (.crrd e) := fun _ => found1 .crrd rfl rfl rfl rfl rfl rfl rfl
theorem crwr : ∀ e, Statement (.crwr e) := fun _ => found1 .crwr rfl rfl rfl rfl rfl rfl rfl
theorem hmask : ∀ e, Statement (.hmask e) := fun _ => found1 .hmask rfl rfl rfl rfl rfl rfl rfl
theorem hunmask : ∀ e, Statement (.hunmask e) := fun _ => found1 .hunmask rfl rfl rfl rfl rfl rfl rfl
theorem hret : ∀ e, Statement (.hret e) := fun _ => found1 .hret rfl rfl rfl rfl rfl rfl rfl
theorem cyc : ∀ e, Statement (.cyc e) := fun _ => found1 .cyc rfl rfl rfl rfl rfl rfl rfl
theorem latrd : ∀ e, Statement (.latrd e) := fun _ => found1 .latrd rfl rfl rfl rfl rfl rfl rfl
theorem vadd : ∀ e, Statement (.vadd e) := fun _ => found1 .vadd rfl rfl rfl rfl rfl rfl rfl
theorem vsub : ∀ e, Statement (.vsub e) := fun _ => found1 .vsub rfl rfl rfl rfl rfl rfl rfl
theorem vmul : ∀ e, Statement (.vmul e) := fun _ => found1 .vmul rfl rfl rfl rfl rfl rfl rfl
theorem vfma : ∀ e, Statement (.vfma e) := fun _ => found1 .vfma rfl rfl rfl rfl rfl rfl rfl
theorem vfms : ∀ e, Statement (.vfms e) := fun _ => found1 .vfms rfl rfl rfl rfl rfl rfl rfl
theorem vdiv : ∀ e, Statement (.vdiv e) := fun _ => found1 .vdiv rfl rfl rfl rfl rfl rfl rfl
theorem vsqrt : ∀ e, Statement (.vsqrt e) := fun _ => found1 .vsqrt rfl rfl rfl rfl rfl rfl rfl
theorem vmin : ∀ e, Statement (.vmin e) := fun _ => found1 .vmin rfl rfl rfl rfl rfl rfl rfl
theorem vmax : ∀ e, Statement (.vmax e) := fun _ => found1 .vmax rfl rfl rfl rfl rfl rfl rfl
theorem vabs : ∀ e, Statement (.vabs e) := fun _ => found1 .vabs rfl rfl rfl rfl rfl rfl rfl
theorem vneg : ∀ e, Statement (.vneg e) := fun _ => found1 .vneg rfl rfl rfl rfl rfl rfl rfl
theorem vand : ∀ e, Statement (.vand e) := fun _ => found1 .vand rfl rfl rfl rfl rfl rfl rfl
theorem vor : ∀ e, Statement (.vor e) := fun _ => found1 .vor rfl rfl rfl rfl rfl rfl rfl
theorem vxor : ∀ e, Statement (.vxor e) := fun _ => found1 .vxor rfl rfl rfl rfl rfl rfl rfl
theorem vnot : ∀ e, Statement (.vnot e) := fun _ => found1 .vnot rfl rfl rfl rfl rfl rfl rfl
theorem vshl : ∀ e, Statement (.vshl e) := fun _ => found1 .vshl rfl rfl rfl rfl rfl rfl rfl
theorem vshr : ∀ e, Statement (.vshr e) := fun _ => found1 .vshr rfl rfl rfl rfl rfl rfl rfl
theorem vsra : ∀ e, Statement (.vsra e) := fun _ => found1 .vsra rfl rfl rfl rfl rfl rfl rfl
theorem vcmpeq : ∀ e, Statement (.vcmpeq e) := fun _ => found1 .vcmpeq rfl rfl rfl rfl rfl rfl rfl
theorem vcmpne : ∀ e, Statement (.vcmpne e) := fun _ => found1 .vcmpne rfl rfl rfl rfl rfl rfl rfl
theorem vcmplt : ∀ e, Statement (.vcmplt e) := fun _ => found1 .vcmplt rfl rfl rfl rfl rfl rfl rfl
theorem vcmple : ∀ e, Statement (.vcmple e) := fun _ => found1 .vcmple rfl rfl rfl rfl rfl rfl rfl
theorem vsel : ∀ e, Statement (.vsel e) := fun _ => foundN .vsel rfl rfl rfl rfl rfl
theorem vcvt : ∀ e, Statement (.vcvt e) := fun _ => foundN .vcvt rfl rfl rfl rfl rfl
theorem vquant : ∀ e, Statement (.vquant e) := fun _ => foundN .vquant rfl rfl rfl rfl rfl
theorem vdeq : ∀ e, Statement (.vdeq e) := fun _ => foundN .vdeq rfl rfl rfl rfl rfl
theorem vredsum : ∀ e, Statement (.vredsum e) := fun _ => found1 .vredsum rfl rfl rfl rfl rfl rfl rfl
theorem vredmax : ∀ e, Statement (.vredmax e) := fun _ => found1 .vredmax rfl rfl rfl rfl rfl rfl rfl
theorem vredmin : ∀ e, Statement (.vredmin e) := fun _ => found1 .vredmin rfl rfl rfl rfl rfl rfl rfl
theorem vredsumw : ∀ e, Statement (.vredsumw e) := fun _ => found1 .vredsumw rfl rfl rfl rfl rfl rfl rfl
theorem vdot : ∀ e, Statement (.vdot e) := fun _ => found1 .vdot rfl rfl rfl rfl rfl rfl rfl
theorem vdotc : ∀ e, Statement (.vdotc e) := fun _ => found1 .vdotc rfl rfl rfl rfl rfl rfl rfl
theorem vcmul : ∀ e, Statement (.vcmul e) := fun _ => found1 .vcmul rfl rfl rfl rfl rfl rfl rfl
theorem vcmulc : ∀ e, Statement (.vcmulc e) := fun _ => found1 .vcmulc rfl rfl rfl rfl rfl rfl rfl
theorem vexp2 : ∀ e, Statement (.vexp2 e) := fun _ => found1 .vexp2 rfl rfl rfl rfl rfl rfl rfl
theorem vlog2 : ∀ e, Statement (.vlog2 e) := fun _ => found1 .vlog2 rfl rfl rfl rfl rfl rfl rfl
theorem vrcp : ∀ e, Statement (.vrcp e) := fun _ => found1 .vrcp rfl rfl rfl rfl rfl rfl rfl
theorem vrsq : ∀ e, Statement (.vrsq e) := fun _ => found1 .vrsq rfl rfl rfl rfl rfl rfl rfl
theorem vsinpi : ∀ e, Statement (.vsinpi e) := fun _ => found1 .vsinpi rfl rfl rfl rfl rfl rfl rfl
theorem vcospi : ∀ e, Statement (.vcospi e) := fun _ => found1 .vcospi rfl rfl rfl rfl rfl rfl rfl
theorem viota : ∀ e, Statement (.viota e) := fun _ => found1 .viota rfl rfl rfl rfl rfl rfl rfl
theorem vbcast : ∀ e, Statement (.vbcast e) := fun _ => found1 .vbcast rfl rfl rfl rfl rfl rfl rfl
theorem vins : ∀ e, Statement (.vins e) := fun _ => found1 .vins rfl rfl rfl rfl rfl rfl rfl
theorem vextr : ∀ e, Statement (.vextr e) := fun _ => found1 .vextr rfl rfl rfl rfl rfl rfl rfl
theorem vperm : ∀ e, Statement (.vperm e) := fun _ => found1 .vperm rfl rfl rfl rfl rfl rfl rfl
theorem vslup : ∀ e, Statement (.vslup e) := fun _ => found1 .vslup rfl rfl rfl rfl rfl rfl rfl
theorem vsldn : ∀ e, Statement (.vsldn e) := fun _ => found1 .vsldn rfl rfl rfl rfl rfl rfl rfl
theorem vsbind : ∀ e, Statement (.vsbind e) := fun _ => found1 .vsbind rfl rfl rfl rfl rfl rfl rfl
theorem vsunbind : ∀ e, Statement (.vsunbind e) := fun _ => found1 .vsunbind rfl rfl rfl rfl rfl rfl rfl
theorem vmov : ∀ e, Statement (.vmov e) := fun _ => found1 .vmov rfl rfl rfl rfl rfl rfl rfl
theorem vld : ∀ e, Statement (.vld e) := fun _ => found4 .vld rfl rfl rfl rfl rfl
theorem vst : ∀ e, Statement (.vst e) := fun _ => found4 .vst rfl rfl rfl rfl rfl
theorem vlds : ∀ e, Statement (.vlds e) := fun _ => found1 .vlds rfl rfl rfl rfl rfl rfl rfl
theorem vsts : ∀ e, Statement (.vsts e) := fun _ => found1 .vsts rfl rfl rfl rfl rfl rfl rfl
theorem vgath : ∀ e, Statement (.vgath e) := fun _ => found1 .vgath rfl rfl rfl rfl rfl rfl rfl
theorem vscat : ∀ e, Statement (.vscat e) := fun _ => found1 .vscat rfl rfl rfl rfl rfl rfl rfl
theorem vldb : ∀ e, Statement (.vldb e) := fun _ => found4 .vldb rfl rfl rfl rfl rfl
theorem vbred : ∀ e, Statement (.vbred e) := fun _ => found1 .vbred rfl rfl rfl rfl rfl rfl rfl
theorem vsend : ∀ e, Statement (.vsend e) := fun _ => found1 .vsend rfl rfl rfl rfl rfl rfl rfl
theorem mcfg : ∀ e, Statement (.mcfg e) := fun _ => found1 .mcfg rfl rfl rfl rfl rfl rfl rfl
theorem mld : ∀ e, Statement (.mld e) := fun _ => found1 .mld rfl rfl rfl rfl rfl rfl rfl
theorem mldc : ∀ e, Statement (.mldc e) := fun _ => found1 .mldc rfl rfl rfl rfl rfl rfl rfl
theorem mlds : ∀ e, Statement (.mlds e) := fun _ => found1 .mlds rfl rfl rfl rfl rfl rfl rfl
theorem mldm : ∀ e, Statement (.mldm e) := fun _ => found1 .mldm rfl rfl rfl rfl rfl rfl rfl
theorem mst : ∀ e, Statement (.mst e) := fun _ => found1 .mst rfl rfl rfl rfl rfl rfl rfl
theorem mstc : ∀ e, Statement (.mstc e) := fun _ => found1 .mstc rfl rfl rfl rfl rfl rfl rfl
theorem mma : ∀ e, Statement (.mma e) := fun _ => found1 .mma rfl rfl rfl rfl rfl rfl rfl
theorem mmax : ∀ e, Statement (.mmax e) := fun _ => found1 .mmax rfl rfl rfl rfl rfl rfl rfl
theorem mmas : ∀ e, Statement (.mmas e) := fun _ => found1 .mmas rfl rfl rfl rfl rfl rfl rfl
theorem mmac : ∀ e, Statement (.mmac e) := fun _ => found1 .mmac rfl rfl rfl rfl rfl rfl rfl
theorem zclr : ∀ e, Statement (.zclr e) := fun _ => found1 .zclr rfl rfl rfl rfl rfl rfl rfl
theorem zld : ∀ e, Statement (.zld e) := fun _ => found1 .zld rfl rfl rfl rfl rfl rfl rfl
theorem zst : ∀ e, Statement (.zst e) := fun _ => found1 .zst rfl rfl rfl rfl rfl rfl rfl
theorem zout : ∀ e, Statement (.zout e) := fun _ => found1 .zout rfl rfl rfl rfl rfl rfl rfl
theorem mchjoin : ∀ e, Statement (.mchjoin e) := fun _ => found1 .mchjoin rfl rfl rfl rfl rfl rfl rfl
theorem mchleave : ∀ e, Statement (.mchleave e) := fun _ => found1 .mchleave rfl rfl rfl rfl rfl rfl rfl
theorem mchmma : ∀ e, Statement (.mchmma e) := fun _ => found1 .mchmma rfl rfl rfl rfl rfl rfl rfl
theorem mchdim : ∀ e, Statement (.mchdim e) := fun _ => found1 .mchdim rfl rfl rfl rfl rfl rfl rfl
theorem mdep : ∀ e, Statement (.mdep e) := fun _ => found1 .mdep rfl rfl rfl rfl rfl rfl rfl
theorem mwait : ∀ e, Statement (.mwait e) := fun _ => found1 .mwait rfl rfl rfl rfl rfl rfl rfl
theorem mid : ∀ e, Statement (.mid e) := fun _ => found1 .mid rfl rfl rfl rfl rfl rfl rfl
theorem mfence : ∀ e, Statement (.mfence e) := fun _ => found1 .mfence rfl rfl rfl rfl rfl rfl rfl
theorem mclaim : ∀ e, Statement (.mclaim e) := fun _ => found1 .mclaim rfl rfl rfl rfl rfl rfl rfl
theorem mrelease : ∀ e, Statement (.mrelease e) := fun _ => found1 .mrelease rfl rfl rfl rfl rfl rfl rfl
theorem mtr : ∀ e, Statement (.mtr e) := fun _ => found1 .mtr rfl rfl rfl rfl rfl rfl rfl
theorem lload : ∀ e, Statement (.lload e) := fun _ => found1 .lload rfl rfl rfl rfl rfl rfl rfl
theorem lunload : ∀ e, Statement (.lunload e) := fun _ => found1 .lunload rfl rfl rfl rfl rfl rfl rfl
theorem lquery : ∀ e, Statement (.lquery e) := fun _ => found1 .lquery rfl rfl rfl rfl rfl rfl rfl
theorem lsave : ∀ e, Statement (.lsave e) := fun _ => found1 .lsave rfl rfl rfl rfl rfl rfl rfl
theorem lrest : ∀ e, Statement (.lrest e) := fun _ => found1 .lrest rfl rfl rfl rfl rfl rfl rfl
theorem cxOneSource : ∀ e, Statement (.cxOneSource e) := fun _ => foundN .cxOneSource rfl rfl rfl rfl rfl
theorem cxTwoSources : ∀ e, Statement (.cxTwoSources e) := fun _ => foundN .cxTwoSources rfl rfl rfl rfl rfl
theorem cxThreeSources : ∀ e, Statement (.cxThreeSources e) := fun _ => foundN .cxThreeSources rfl rfl rfl rfl rfl
theorem cbegin : ∀ e, Statement (.cbegin e) := fun _ => found1 .cbegin rfl rfl rfl rfl rfl rfl rfl
theorem cwait : ∀ e, Statement (.cwait e) := fun _ => found1 .cwait rfl rfl rfl rfl rfl rfl rfl
theorem cabort : ∀ e, Statement (.cabort e) := fun _ => found1 .cabort rfl rfl rfl rfl rfl rfl rfl
theorem cstat : ∀ e, Statement (.cstat e) := fun _ => found1 .cstat rfl rfl rfl rfl rfl rfl rfl
theorem dpost : ∀ e, Statement (.dpost e) := fun _ => found1 .dpost rfl rfl rfl rfl rfl rfl rfl
theorem xnext : ∀ e, Statement (.xnext e) := fun _ => found1 .xnext rfl rfl rfl rfl rfl rfl rfl
theorem xend : ∀ e, Statement (.xend e) := fun _ => found1 .xend rfl rfl rfl rfl rfl rfl rfl
theorem xstat : ∀ e, Statement (.xstat e) := fun _ => found1 .xstat rfl rfl rfl rfl rfl rfl rfl
theorem cpy : ∀ e, Statement (.cpy e) := fun _ => found1 .cpy rfl rfl rfl rfl rfl rfl rfl
theorem cpy2d : ∀ e, Statement (.cpy2d e) := fun _ => found1 .cpy2d rfl rfl rfl rfl rfl rfl rfl
theorem cpycan : ∀ e, Statement (.cpycan e) := fun _ => found1 .cpycan rfl rfl rfl rfl rfl rfl rfl
theorem bararr : ∀ e, Statement (.bararr e) := fun _ => found1 .bararr rfl rfl rfl rfl rfl rfl rfl
theorem barwait : ∀ e, Statement (.barwait e) := fun _ => found1 .barwait rfl rfl rfl rfl rfl rfl rfl
theorem barsync : ∀ e, Statement (.barsync e) := fun _ => found1 .barsync rfl rfl rfl rfl rfl rfl rfl
theorem bartry : ∀ e, Statement (.bartry e) := fun _ => found1 .bartry rfl rfl rfl rfl rfl rfl rfl
theorem capmov : ∀ e, Statement (.capmov e) := fun _ => found1 .capmov rfl rfl rfl rfl rfl rfl rfl
theorem caprest : ∀ e, Statement (.caprest e) := fun _ => found1 .caprest rfl rfl rfl rfl rfl rfl rfl
theorem capld : ∀ e, Statement (.capld e) := fun _ => found1 .capld rfl rfl rfl rfl rfl rfl rfl
theorem capst : ∀ e, Statement (.capst e) := fun _ => found1 .capst rfl rfl rfl rfl rfl rfl rfl
theorem capmint : ∀ e, Statement (.capmint e) := fun _ => found1 .capmint rfl rfl rfl rfl rfl rfl rfl
theorem capinfo : ∀ e, Statement (.capinfo e) := fun _ => found1 .capinfo rfl rfl rfl rfl rfl rfl rfl
theorem caprevoke : ∀ e, Statement (.caprevoke e) := fun _ => found1 .caprevoke rfl rfl rfl rfl rfl rfl rfl
theorem wake : ∀ e, Statement (.wake e) := fun _ => found1 .wake rfl rfl rfl rfl rfl rfl rfl
theorem haltc : ∀ e, Statement (.haltc e) := fun _ => found1 .haltc rfl rfl rfl rfl rfl rfl rfl
theorem inspect : ∀ e, Statement (.inspect e) := fun _ => found1 .inspect rfl rfl rfl rfl rfl rfl rfl
theorem trap : ∀ e, Statement (.trap e) := fun _ => found1 .trap rfl rfl rfl rfl rfl rfl rfl
theorem ecall : ∀ e, Statement (.ecall e) := fun _ => found1 .ecall rfl rfl rfl rfl rfl rfl rfl
theorem sretResume : ∀ e, Statement (.sretResume e) := fun e => foundM sretRow rfl rfl (fun h => by
  have h : (e.fc == 0 || decide (4 ≤ e.fc)) = true := h
  simp only [Bool.or_eq_true, beq_iff_eq, decide_eq_true_eq] at h
  unfold sretRow
  split <;> first | omega | rfl) rfl rfl rfl rfl
theorem sretRedeliver : ∀ e, Statement (.sretRedeliver e) := fun e => foundM sretRow rfl rfl (fun h => by
  have h : (e.fc == 1) = true := h
  simp only [beq_iff_eq] at h
  unfold sretRow
  simp only [h]) rfl rfl rfl rfl
theorem sretDrop : ∀ e, Statement (.sretDrop e) := fun e => foundM sretRow rfl rfl (fun h => by
  have h : (e.fc == 2) = true := h
  simp only [beq_iff_eq] at h
  unfold sretRow
  simp only [h]) rfl rfl rfl rfl
theorem sretHalt : ∀ e, Statement (.sretHalt e) := fun e => foundM sretRow rfl rfl (fun h => by
  have h : (e.fc == 3) = true := h
  simp only [beq_iff_eq] at h
  unfold sretRow
  simp only [h]) rfl rfl rfl rfl
theorem ovlret : ∀ e, Statement (.ovlret e) := fun _ => found1 .ovlret rfl rfl rfl rfl rfl rfl rfl
theorem ctxsave : ∀ e, Statement (.ctxsave e) := fun _ => found1 .ctxsave rfl rfl rfl rfl rfl rfl rfl
theorem ctxload : ∀ e, Statement (.ctxload e) := fun _ => found1 .ctxload rfl rfl rfl rfl rfl rfl rfl
theorem xbound : ∀ e, Statement (.xbound e) := fun _ => found1 .xbound rfl rfl rfl rfl rfl rfl rfl
theorem migr : ∀ e, Statement (.migr e) := fun _ => found1 .migr rfl rfl rfl rfl rfl rfl rfl
theorem fpModeWrite : ∀ x0, Statement (.fpModeWrite x0) := fun _ => noWords rfl
theorem fpFlagsClear : ∀ x0, Statement (.fpFlagsClear x0) := fun _ => noWords rfl
theorem sroundSeedWrite : ∀ x0, Statement (.sroundSeedWrite x0) := fun _ => noWords rfl
theorem codeWindowWrite : ∀ x0 x1, Statement (.codeWindowWrite x0 x1) := fun _ _ => noWords rfl
theorem mcfgRegisterWrite : ∀ x0 x1, Statement (.mcfgRegisterWrite x0 x1) := fun _ _ => noWords rfl
theorem taskEntryWrite : ∀ x0 x1, Statement (.taskEntryWrite x0 x1) := fun _ _ => noWords rfl
theorem ringEnable : ∀ x0 x1, Statement (.ringEnable x0 x1) := fun _ _ => noWords rfl
theorem ringDisable : ∀ x0 x1, Statement (.ringDisable x0 x1) := fun _ _ => noWords rfl
theorem ringConsWrite : ∀ x0 x1, Statement (.ringConsWrite x0 x1) := fun _ _ => noWords rfl
theorem engctxWrite : ∀ x0 x1, Statement (.engctxWrite x0 x1) := fun _ _ => noWords rfl
theorem vectorQueueExecute : ∀ x0, Statement (.vectorQueueExecute x0) := fun _ => noWords rfl
theorem matrixCommandStart : ∀ x0, Statement (.matrixCommandStart x0) := fun _ => noWords rfl
theorem matrixCommandRetire : ∀ x0 x1, Statement (.matrixCommandRetire x0 x1) := fun _ _ => noWords rfl
theorem chainFormed : ∀ x0, Statement (.chainFormed x0) := fun _ => noWords rfl
theorem overlayEntry : ∀ x0, Statement (.overlayEntry x0) := fun _ => noWords rfl
theorem bankRmw : ∀ x0 x1, Statement (.bankRmw x0 x1) := fun _ _ => noWords rfl
theorem packetHop : ∀ x0 x1, Statement (.packetHop x0 x1) := fun _ _ => noWords rfl
theorem packetArrival : ∀ x0, Statement (.packetArrival x0) := fun _ => noWords rfl
theorem ackArrival : ∀ x0, Statement (.ackArrival x0) := fun _ => noWords rfl
theorem unreachableReturn : ∀ x0, Statement (.unreachableReturn x0) := fun _ => noWords rfl
theorem reinjection : ∀ x0 x1, Statement (.reinjection x0 x1) := fun _ _ => noWords rfl
theorem reservationLapse : ∀ x0 x1 x2, Statement (.reservationLapse x0 x1 x2) := fun _ _ _ => noWords rfl
theorem putArrival : ∀ x0, Statement (.putArrival x0) := fun _ => noWords rfl
theorem getRequestArrival : ∀ x0, Statement (.getRequestArrival x0) := fun _ => noWords rfl
theorem getReplyArrival : ∀ x0, Statement (.getReplyArrival x0) := fun _ => noWords rfl
theorem ramoRequestArrival : ∀ x0, Statement (.ramoRequestArrival x0) := fun _ => noWords rfl
theorem ramoResultArrival : ∀ x0, Statement (.ramoResultArrival x0) := fun _ => noWords rfl
theorem clusterAccess : ∀ x0, Statement (.clusterAccess x0) := fun _ => noWords rfl
theorem clusterAccessReply : ∀ x0, Statement (.clusterAccessReply x0) := fun _ => noWords rfl
theorem handlerDispatch : ∀ x0, Statement (.handlerDispatch x0) := fun _ => noWords rfl
theorem hpPreemption : ∀ x0, Statement (.hpPreemption x0) := fun _ => noWords rfl
theorem watchdog : ∀ x0, Statement (.watchdog x0) := fun _ => noWords rfl
theorem maskOverrun : ∀ x0, Statement (.maskOverrun x0) := fun _ => noWords rfl
theorem wakeRequest : ∀ x0, Statement (.wakeRequest x0) := fun _ => noWords rfl
theorem haltcRequest : ∀ x0, Statement (.haltcRequest x0) := fun _ => noWords rfl
theorem inspectRequest : ∀ x0, Statement (.inspectRequest x0) := fun _ => noWords rfl
theorem inspectReply : ∀ x0, Statement (.inspectReply x0) := fun _ => noWords rfl
theorem engineOperationStart : ∀ x0, Statement (.engineOperationStart x0) := fun _ => noWords rfl
theorem engineBurst : ∀ x0, Statement (.engineBurst x0) := fun _ => noWords rfl
theorem translationResolved : ∀ x0 x1 x2 x3 x4 x5 x6, Statement (.translationResolved x0 x1 x2 x3 x4 x5 x6) := fun _ _ _ _ _ _ _ => noWords rfl
theorem engineOperationComplete : ∀ x0, Statement (.engineOperationComplete x0) := fun _ => noWords rfl
theorem engineContextBind : ∀ x0 x1 x2 x3 x4, Statement (.engineContextBind x0 x1 x2 x3 x4) := fun _ _ _ _ _ => noWords rfl
theorem ownerTransferStart : ∀ x0 x1, Statement (.ownerTransferStart x0 x1) := fun _ _ => noWords rfl
theorem ownerTransferComplete : ∀ x0, Statement (.ownerTransferComplete x0) := fun _ => noWords rfl
theorem qdoorWrite : ∀ x0 x1, Statement (.qdoorWrite x0 x1) := fun _ _ => noWords rfl
theorem qinfoVenWrite : ∀ x0 x1, Statement (.qinfoVenWrite x0 x1) := fun _ _ => noWords rfl
theorem launchPacketTake : ∀ x0, Statement (.launchPacketTake x0) := fun _ => noWords rfl
theorem placementAdmission : ∀ x0, Statement (.placementAdmission x0) := fun _ => noWords rfl
theorem launchMessageDelivery : ∀ x0 x1, Statement (.launchMessageDelivery x0 x1) := fun _ _ => noWords rfl
theorem launchMessageWrite : ∀ x0, Statement (.launchMessageWrite x0) := fun _ => noWords rfl
theorem clusterLeave : ∀ x0 x1, Statement (.clusterLeave x0 x1) := fun _ _ => noWords rfl
theorem launchStatusWord : ∀ x0 x1, Statement (.launchStatusWord x0 x1) := fun _ _ => noWords rfl
theorem regionBind : ∀ x0 x1 x2 x3 x4, Statement (.regionBind x0 x1 x2 x3 x4) := fun _ _ _ _ _ => noWords rfl
theorem regionUnbind : ∀ x0, Statement (.regionUnbind x0) := fun _ => noWords rfl
theorem transitTableWrite : ∀ x0 x1 x2, Statement (.transitTableWrite x0 x1 x2) := fun _ _ _ => noWords rfl
theorem bindingMapWrite : ∀ x0 x1 x2, Statement (.bindingMapWrite x0 x1 x2) := fun _ _ _ => noWords rfl
theorem quiescenceEvaluation : ∀ x0 x1, Statement (.quiescenceEvaluation x0 x1) := fun _ _ => noWords rfl
theorem trapDelivery : ∀ x0, Statement (.trapDelivery x0) := fun _ => noWords rfl
theorem islandTrapAnswer : ∀ x0 x1 x2, Statement (.islandTrapAnswer x0 x1 x2) := fun _ _ _ => noWords rfl
theorem asyncTrapTake : ∀ x0, Statement (.asyncTrapTake x0) := fun _ => noWords rfl
theorem placementTeardown : ∀ x0, Statement (.placementTeardown x0) := fun _ => noWords rfl
theorem preemptionSwapOut : ∀ x0 x1, Statement (.preemptionSwapOut x0 x1) := fun _ _ => noWords rfl
theorem swapIn : ∀ x0 x1, Statement (.swapIn x0 x1) := fun _ _ => noWords rfl
theorem swappedTargetService : ∀ x0, Statement (.swappedTargetService x0) := fun _ => noWords rfl
theorem migration : ∀ x0 x1, Statement (.migration x0 x1) := fun _ _ => noWords rfl
theorem forwardingClosed : ∀ x0, Statement (.forwardingClosed x0) := fun _ => noWords rfl
theorem collectiveJoinRequest : ∀ x0, Statement (.collectiveJoinRequest x0) := fun _ => noWords rfl
theorem collectiveJoinAnswer : ∀ x0, Statement (.collectiveJoinAnswer x0) := fun _ => noWords rfl
theorem collectiveResult : ∀ x0 x1 x2 x3, Statement (.collectiveResult x0 x1 x2 x3) := fun _ _ _ _ => noWords rfl
theorem rootJoinTimeout : ∀ x0 x1 x2 x3, Statement (.rootJoinTimeout x0 x1 x2 x3) := fun _ _ _ _ => noWords rfl
theorem nodeTimeout : ∀ x0 x1 x2 x3, Statement (.nodeTimeout x0 x1 x2 x3) := fun _ _ _ _ => noWords rfl
theorem collectiveAbortRequest : ∀ x0, Statement (.collectiveAbortRequest x0) := fun _ => noWords rfl
theorem abortReceipt : ∀ x0 x1 x2 x3, Statement (.abortReceipt x0 x1 x2 x3) := fun _ _ _ _ => noWords rfl
theorem barrierArrival : ∀ x0, Statement (.barrierArrival x0) := fun _ => noWords rfl
theorem demandPostReceipt : ∀ x0, Statement (.demandPostReceipt x0) := fun _ => noWords rfl
theorem dpostAnswer : ∀ x0, Statement (.dpostAnswer x0) := fun _ => noWords rfl
theorem mainEndReport : ∀ x0, Statement (.mainEndReport x0) := fun _ => noWords rfl
theorem labelAssign : ∀ x0 x1, Statement (.labelAssign x0 x1) := fun _ _ => noWords rfl
theorem calendarEntryDelivery : ∀ x0 x1 x2, Statement (.calendarEntryDelivery x0 x1 x2) := fun _ _ _ => noWords rfl
theorem exchangePhaseStart : ∀ x0, Statement (.exchangePhaseStart x0) := fun _ => noWords rfl
theorem readyReceipt : ∀ x0, Statement (.readyReceipt x0) := fun _ => noWords rfl
theorem endMarkerArrival : ∀ x0, Statement (.endMarkerArrival x0) := fun _ => noWords rfl
theorem phaseCompletionReport : ∀ x0, Statement (.phaseCompletionReport x0) := fun _ => noWords rfl
theorem heartbeat : ∀ x0 x1, Statement (.heartbeat x0 x1) := fun _ _ => noWords rfl
theorem takeover : ∀ x0 x1 x2, Statement (.takeover x0 x1 x2) := fun _ _ _ => noWords rfl
theorem takeoverReceipt : ∀ x0 x1 x2, Statement (.takeoverReceipt x0 x1 x2) := fun _ _ _ => noWords rfl
theorem lostEntryWrite : ∀ x0, Statement (.lostEntryWrite x0) := fun _ => noWords rfl
theorem frameReceive : ∀ x0 x1 x2, Statement (.frameReceive x0 x1 x2) := fun _ _ _ => noWords rfl
theorem xoffRepeat : ∀ x0 x1 x2, Statement (.xoffRepeat x0 x1 x2) := fun _ _ _ => noWords rfl
theorem consumeWordReread : ∀ x0 x1, Statement (.consumeWordReread x0 x1) := fun _ _ => noWords rfl
theorem ingruleEnable : ∀ x0 x1 x2 x3 x4 x5 x6 x7, Statement (.ingruleEnable x0 x1 x2 x3 x4 x5 x6 x7) := fun _ _ _ _ _ _ _ _ => noWords rfl
theorem peerPauseReceive : ∀ x0 x1 x2, Statement (.peerPauseReceive x0 x1 x2) := fun _ _ _ => noWords rfl
theorem egressTransmit : ∀ x0 x1, Statement (.egressTransmit x0 x1) := fun _ _ => noWords rfl
theorem linkTraining : ∀ x0 x1, Statement (.linkTraining x0 x1) := fun _ _ => noWords rfl
theorem keyChange : ∀ x0 x1 x2, Statement (.keyChange x0 x1 x2) := fun _ _ _ => noWords rfl
theorem caprevokeAnswer : ∀ x0, Statement (.caprevokeAnswer x0) := fun _ => noWords rfl
theorem ecallAnswer : ∀ x0, Statement (.ecallAnswer x0) := fun _ => noWords rfl
theorem ecallVersion : ∀ x0, Statement (.ecallVersion x0) := fun _ => noWords rfl
theorem ecallClockSet : ∀ x0, Statement (.ecallClockSet x0) := fun _ => noWords rfl
theorem ecallClockGet : ∀ x0, Statement (.ecallClockGet x0) := fun _ => noWords rfl
theorem ecallGateway : ∀ x0, Statement (.ecallGateway x0) := fun _ => noWords rfl
theorem ecallStorage : ∀ x0, Statement (.ecallStorage x0) := fun _ => noWords rfl
theorem ecallAttest : ∀ x0, Statement (.ecallAttest x0) := fun _ => noWords rfl
theorem thermalThrottle : ∀ x0 x1 x2, Statement (.thermalThrottle x0 x1 x2) := fun _ _ _ => noWords rfl
theorem thermalRecovery : ∀ x0 x1 x2, Statement (.thermalRecovery x0 x1 x2) := fun _ _ _ => noWords rfl
theorem overtempHalt : ∀ x0, Statement (.overtempHalt x0) := fun _ => noWords rfl
theorem coolantLimitReport : ∀ x0 x1, Statement (.coolantLimitReport x0 x1) := fun _ _ => noWords rfl
theorem powerOn : ∀ x0 x1 x2 x3, Statement (.powerOn x0 x1 x2 x3) := fun _ _ _ _ => noWords rfl
theorem siteFailure : ∀ x0, Statement (.siteFailure x0) := fun _ => noWords rfl
theorem routeBundleStage : ∀ x0 x1 x2, Statement (.routeBundleStage x0 x1 x2) := fun _ _ _ => noWords rfl
theorem routeFlip : ∀ x0 x1 x2, Statement (.routeFlip x0 x1 x2) := fun _ _ _ => noWords rfl
theorem scrubPass : ∀ x0 x1 x2 x3, Statement (.scrubPass x0 x1 x2 x3) := fun _ _ _ _ => noWords rfl
theorem flitReceive : ∀ x0 x1 x2 x3, Statement (.flitReceive x0 x1 x2 x3) := fun _ _ _ _ => noWords rfl
theorem linkRetrain : ∀ x0 x1 x2, Statement (.linkRetrain x0 x1 x2) := fun _ _ _ => noWords rfl
theorem cabortDecision : ∀ x0, Statement (.cabortDecision x0) := fun _ => noWords rfl
theorem migrRequest : ∀ x0 x1, Statement (.migrRequest x0 x1) := fun _ _ => noWords rfl
theorem migrAnswer : ∀ x0, Statement (.migrAnswer x0) := fun _ => noWords rfl
theorem virtualDeviceBind : ∀ x0 x1 x2 x3 x4 x5 x6 x7 x8 x9 x10, Statement (.virtualDeviceBind x0 x1 x2 x3 x4 x5 x6 x7 x8 x9 x10) := fun _ _ _ _ _ _ _ _ _ _ _ => noWords rfl
theorem grantReport : ∀ x0 x1 x2, Statement (.grantReport x0 x1 x2) := fun _ _ _ => noWords rfl

end Sys2Proof.Laws.RowFound
end

