-- ==== Sys2Proof/Laws/Shared.lean ====
section
/-! SUPPORT. What the shared operations can do, said once: issuing and finishing an instruction, advancing past it, taking a trap, the
address checks, and the stores of a tile. -/

namespace Sys2Proof.Machine

/-! ### Issuing -/

/-- Issuing always answers a next state. -/
theorem issue_answers (i : Instr) (ck : Ck) (body : Row → Enc → State → Eff) (s : State) : ∃ t, issue i ck body s = .next t := by
  unfold issue
  split
  · split
    · exact ⟨_, rfl⟩
    · split
      · exact ⟨_, rfl⟩
      · exact ⟨_, rfl⟩
  · exact ⟨_, rfl⟩

/-- Without a running activation nothing issues. -/
theorem issue_idle {i : Instr} {ck : Ck} {body : Row → Enc → State → Eff} {s : State} (h : s.me.act = none) : issue i ck body s = .next s := by
  unfold issue
  split
  · rw [h]; rfl
  · rfl

/-- A check of R43 that fails is the trap that the instruction takes, with no other effect. -/
theorem issue_faults {i : Instr} {ck : Ck} {body : Row → Enc → State → Eff} {s : State} {r : Row} {e : Enc} {c : Nat} {d : W}
    (hr : rowOf i = some r) (he : encOf i = some e) (ha : s.me.act.isSome = true) (hf : issueFault i r e ck s = some (c, d)) :
    issue i ck body s = .next (takeTrap s s.cur c d s.me.pc) := by
  have ha' : s.me.act.isNone = false := by
    cases h : s.me.act with
    | none => rw [h] at ha; cases ha
    | some _ => rfl
  unfold issue
  rw [hr, he]
  dsimp only
  rw [ha', hf]
  rfl

/-! ### Finishing -/

@[simp] theorem finish_ok (s0 s : State) (e : Enc) : finish s0 e (.ok s) = advance s s0.cur s0.me.mask.isSome (npc s0.me.pc e) := rfl
@[simp] theorem finish_trap (s0 s : State) (e : Enc) (c : Nat) (d : W) : finish s0 e (.trap c d s) = takeTrap s s0.cur c d s0.me.pc := rfl
@[simp] theorem finish_wait (s0 s : State) (e : Enc) (k o : Nat) :
    finish s0 e (.wait k o s) = s.modCore s0.cur fun x => x.block k o 0xFFFF := rfl
@[simp] theorem finish_hold (s0 s : State) (e : Enc) : finish s0 e (.hold s) = s := rfl
@[simp] theorem finish_over (s0 s : State) (e : Enc) : finish s0 e (.over s) = s := rfl
/-- R32: a jump to an even address. -/
theorem finish_jump_even (s0 s : State) (e : Enc) {t : W} (h : t.getLsbD 0 = false) :
    finish s0 e (.jump t s) = advance s s0.cur s0.me.mask.isSome t := by
  show (if t.getLsbD 0 then _ else _) = _
  rw [h]
  rfl
/-- R32: a jump to an odd address traps with ALIGN. -/
theorem finish_jump_odd (s0 s : State) (e : Enc) {t : W} (h : t.getLsbD 0 = true) :
    finish s0 e (.jump t s) = takeTrap s0 s0.cur 0x09 t s0.me.pc := by
  show (if t.getLsbD 0 then _ else _) = _
  rw [h]
  rfl

/-! ### What blocking and entering code leave alone -/

@[simp] theorem Core.unblock_act (k : Core) : k.unblock.act = k.act := Core.act_block k 0 0 0xFFFF
@[simp] theorem Core.enter_ctl (k : Core) (pc : W) (f : Act → Act) : (k.enter pc f).ctl = k.ctl := Core.modAct_ctl k _

/-! ### Advancing -/

/-- Advancing changes no control register. -/
theorem advance_ctl (s : State) (c : CoreId) (o : Bool) (pc : W) : ((advance s c o pc).core c).ctl = (s.core c).ctl := by
  unfold advance
  rw [State.core_modCore]
  exact (Core.unblock_ctl _).trans (Core.modAct_ctl _ _)
/-- Advancing one core changes no other tile. -/
theorem advance_tile_ne (s : State) (c : CoreId) (o : Bool) (pc : W) {u : Site} (h : Site.num c.site ≠ Site.num u) :
    (advance s c o pc).tile u = s.tile u := State.tile_modCore_ne s c h _
/-- Advancing one core changes of its tile nothing but that core. -/
theorem advance_tile (s : State) (c : CoreId) (o : Bool) (pc : W) :
    ∃ k, (advance s c o pc).tile c.site = (s.tile c.site).setCore c.kind k := ⟨_, State.tile_modCore s c _⟩
/-- Advancing leaves the memory of every tile alone. -/
theorem advance_mem (s : State) (c : CoreId) (o : Bool) (pc : W) : ((advance s c o pc).tile c.site).mem = (s.tile c.site).mem := by
  obtain ⟨k, h⟩ := advance_tile s c o pc
  rw [h, Tile.setCore_mem]

/-! ### Taking a trap -/

/-- R364: TRAP_PC after a delivery is the address given, an even one of 22 bits. -/
theorem deliver_trapPc (s : State) (c : CoreId) (cause : Nat) (d tpc : W) (as ov ab : Bool) :
    ((deliver s c cause d tpc as ov ab).core c).ctl.trapPc = w (tpc.toNat % 2 ^ 22 / 2 * 2) := by
  unfold deliver
  rw [State.core_modCore]
  dsimp only
  split
  · rw [Core.unblock_ctl, Core.enter_ctl]
    generalize hk : Core.mk .. = k
    have : k.ctl.trapPc = w (tpc.toNat % 2 ^ 22 / 2 * 2) := by rw [← hk]
    cases k.act.isSome
    · rw [← this]
      show (k.modBank false fun b => { b with act := some ⟨0, [], 0, 0, 0, 0, false, false, 0, 0, 0, true⟩ }).ctl.trapPc = _
      rw [Core.modBank_ctl]
    · exact this
  · rw [Core.block_ctl]
/-- R364: without delegation, or while a trap is handled, the core is held for its home island with the cause. -/
theorem deliver_held (s : State) (c : CoreId) (cause : Nat) (d tpc : W) (as ov ab : Bool)
    (h : (s.core c).ctl.trapDeleg.getLsbD cause = false ∨ (s.core c).active = true) :
    ((deliver s c cause d tpc as ov ab).core c).held = some cause := by
  unfold deliver
  rw [State.core_modCore]
  dsimp only
  rw [if_neg, Core.block_held]
  obtain h | h := h <;> simp [h]

/-! ### Address checks -/

/-- R171: the checks of several addresses pass exactly where each passes, and then give one place for each. -/
theorem places_ok {s : State} {c : CoreId} {k : Acc} {l : List (W × Nat)} {ps : List Loc} (h : places s c k l = .ok ps) :
    ps.length = l.length ∧ ∀ x ∈ l, x.1.toNat % x.2 = 0 ∧ ∃ p ∈ ps, place s c k x.1 = .ok p := by
  induction l generalizing ps with
  | nil => cases h; exact ⟨rfl, by simp⟩
  | cons x r ih =>
    obtain ⟨a, al⟩ := x
    unfold places at h
    split at h
    · cases h
    · next ha =>
      split at h
      · cases h
      · next p hp =>
        split at h
        · cases h
        · next qs hq =>
          cases h
          obtain ⟨h1, h2⟩ := ih hq
          refine ⟨by simp [h1], ?_⟩
          intro y hy
          obtain rfl | hy := List.mem_cons.mp hy
          · exact ⟨by simpa using ha, p, by simp, hp⟩
          · obtain ⟨h3, q, h4, h5⟩ := h2 y hy
            exact ⟨h3, q, List.mem_cons_of_mem _ h4, h5⟩

/-! ### Stores -/

@[simp] theorem Tile.store_mem (t : Tile) (a : Nat) (bs : List Byte) : (t.store a bs).mem = Mem.store t.mem a bs := rfl
@[simp] theorem Tile.setWord_mem (t : Tile) (a : Nat) (x : W) : (t.setWord a x).mem = Mem.store t.mem a (leBytes 8 x.toNat) := rfl
@[simp] theorem Tile.store_core (t : Tile) (a : Nat) (bs : List Byte) (k : CoreKind) : (t.store a bs).core k = t.core k := by cases k <;> rfl
/-- A store leaves every byte outside it alone, and keeps the canonical form. -/
theorem Tile.store_frame (t : Tile) (a k : Nat) (bs : List Byte) (h : t.mem.wf = true) (hk : k < a ∨ a + bs.length ≤ k) :
    Mem.byteAt (t.store a bs).mem k = Mem.byteAt t.mem k := Mem.byteAt_store_out t.mem a k bs h hk
theorem Tile.store_wf (t : Tile) (a : Nat) (bs : List Byte) (h : t.mem.wf = true) : (t.store a bs).mem.wf = true := Mem.wf_store t.mem a bs h
@[simp] theorem Tile.poisonAt_mem (t : Tile) (l : List Nat) : (t.poisonAt l).mem = t.mem := rfl

end Sys2Proof.Machine
end

