-- ==== Sys2Proof/Tests/Slice0.lean ====
section
/-! SUPPORT. Tests: the words of the spec's encodings, ill-formed terms that the checks refuse, single steps, and for every obligation with
hypotheses the states and operands that meet them. Expected values come from the spec's text. -/

namespace Sys2Proof.Tests

open Sys2Proof Sys2Proof.Machine

section

set_option Elab.async false
set_option linter.unusedVariables false

/-! ## Words

The fields of each word are written apart, as the encoding tables of the spec's chapter on registers and words give them. -/

/-- The worked table of that chapter: legal words. -/
theorem test_worked_words :
    decodeWords [0xF940, 0xF81F, 0x1188] = .ok (.addi { Enc.plain 0x1188 with reg := some 0b010000, imms := [0x1F] }, []) ∧
    decodeWords [0xFA22, 0xFD40, 0xFB08, 0x05DC] = .ok (.vadd ⟨true, 2, some 4, none, some 0x08, none, [], 0x05DC⟩, []) ∧
    decodeWords [0x05DC] = .ok (.add (.plain 0x05DC), []) ∧
    decodeWords [0xF800, 0xF800, 0xF800, 0xF800, 0x1188] = .ok (.addi { Enc.plain 0x1188 with imms := [0, 0, 0, 0] }, []) ∧
    decodeWords [0xFA10, 0x0000] = .ok (.mul (.paged 0), []) ∧
    decodeWords [0xFA20, 0xF980, 0x05DC] = .ok (.vadd { Enc.paged 0x05DC with reg := some 0b100000 }, []) := ⟨rfl, rfl, rfl, rfl, rfl, rfl⟩
/-- The immediate of its ADDI is 1000, and that of its longest ADDI is 8. -/
theorem test_worked_immediates : ({ Enc.plain 0x1188 with imms := [0x1F] } : Enc).immS .ri = 1000 ∧
    ({ Enc.plain 0x1188 with imms := [0, 0, 0, 0] } : Enc).immS .ri = 8 := by decide +kernel
/-- The same table: words that trap. -/
theorem test_worked_traps :
    decodeWords [0xF800, 0xF800, 0xF800, 0xF800, 0xF800, 0x1188] = .error (.head 0xF800) ∧
    decodeWords [0xFB08, 0xFB08, 0x05DC] = .error (.head 0xFB08) ∧
    decodeWords [0xFE00, 0x0000] = .error (.head 0xFE00) ∧
    decodeWords [0xF901, 0x1188] = .error (.head 0xF901) ∧
    decodeWords [0xFB08, 0x1188] = .error (.head 0xFB08) ∧
    decodeWords [0xF940, 0x9000] = .error (.head 0xF940) ∧
    decodeWords [0xFA80, 0x0000] = .error (.opcode 0x0000 8) ∧
    decodeWords [0xFA10, 0x9000] = .error (.opcode 0x9000 1) := ⟨rfl, rfl, rfl, rfl, rfl, rfl, rfl, rfl⟩
/-- Page 0: SUB, ADDI, BT, J, RET, DONE, SEND, SEMWAIT and FENCE. -/
theorem test_words_page0 :
    decodeWords [0b00000_001_010_011_01] = .ok (.sub (.plain 0x014D), []) ∧
    decodeWords [0b00010_001_010_11111] = .ok (.addi (.plain 0x115F), []) ∧
    decodeWords [0b10000_011_00000100] = .ok (.bt (.plain 0x8304), []) ∧
    decodeWords [0b10010_11111111111] = .ok (.j (.plain 0x97FF), []) ∧
    decodeWords [0b10100_000_000_000_10] = .ok (.ret (.plain 0xA002), []) ∧
    decodeWords [0b10101_000_000_000_00] = .ok (.done (.plain 0xA800), []) ∧
    decodeWords [0b10110_001_010_011_00] = .ok (.send (.plain 0xB14C), []) ∧
    decodeWords [0b11101_001_010_011_01] = .ok (.semwait (.plain 0xE94D), []) ∧
    decodeWords [0b11111_100_010_01_000, 0b11110_000_000_000_00] =
      .ok (.fence { Enc.plain 0xF000 with ord := some 0b01001 }, []) := ⟨rfl, rfl, rfl, rfl, rfl, rfl, rfl, rfl, rfl⟩
/-- Page 1: DIV, PAND, AMO, TLWAIT, JOINARR, CRWR and HRET. -/
theorem test_words_page1 :
    decodeWords [0b11111_010_0001_0000, 0b00001_001_010_011_00] = .ok (.div (.paged 0x094C), []) ∧
    decodeWords [0b11111_010_0001_0000, 0b00111_001_010_011_00] = .ok (.pand (.paged 0x394C), []) ∧
    decodeWords [0b11111_010_0001_0000, 0b11111_011_00001001, 0b01001_001_010_011_00] =
      .ok (.amo { Enc.paged 0x494C with fn := some 9 }, []) ∧
    decodeWords [0b11111_010_0001_0000, 0b01101_001_010_011_01] = .ok (.tlwait (.paged 0x694D), []) ∧
    decodeWords [0b11111_010_0001_0000, 0b01110_001_010_011_01] = .ok (.joinarr (.paged 0x714D), []) ∧
    decodeWords [0b11111_010_0001_0000, 0b01111_001_010_011_01] = .ok (.crwr (.paged 0x794D), []) ∧
    decodeWords [0b11111_010_0001_0000, 0b10000_000_000_000_10] = .ok (.hret (.paged 0x8002), []) := ⟨rfl, rfl, rfl, rfl, rfl, rfl, rfl⟩
/-- Pages 2 and 3: VSQRT, VCMPLE, VSBIND, VGATH and VSEND. -/
theorem test_words_vector :
    decodeWords [0b11111_010_0010_0000, 0b00001_001_010_000_11] = .ok (.vsqrt (.paged 0x0943), []) ∧
    decodeWords [0b11111_010_0010_0000, 0b00101_001_010_011_11] = .ok (.vcmple (.paged 0x294F), []) ∧
    decodeWords [0b11111_010_0010_0000, 0b10000_001_010_011_00] = .ok (.vsbind (.paged 0x814C), []) ∧
    decodeWords [0b11111_010_0011_0000, 0b00100_001_010_011_00] = .ok (.vgath (.paged 0x214C), []) ∧
    decodeWords [0b11111_010_0011_0000, 0b01000_001_010_011_00] = .ok (.vsend (.paged 0x414C), []) := ⟨rfl, rfl, rfl, rfl, rfl⟩
/-- Pages 4 and 5: MLDC, MCHMMA, MTR, LSAVE and slot 1 with two sources. -/
theorem test_words_matrix_custom :
    decodeWords [0b11111_010_0100_0000, 0b00001_001_010_011_01] = .ok (.mldc (.paged 0x094D), []) ∧
    decodeWords [0b11111_010_0100_0000, 0b00101_001_010_011_10] = .ok (.mchmma (.paged 0x294E), []) ∧
    decodeWords [0b11111_010_0100_0000, 0b01000_001_010_000_00] = .ok (.mtr (.paged 0x4140), []) ∧
    decodeWords [0b11111_010_0101_0000, 0b00001_001_010_000_00] = .ok (.lsave (.paged 0x0940), []) ∧
    decodeWords [0b11111_010_0101_0000, 0b00011_001_010_011_01] = .ok (.cxTwoSources (.paged 0x194D), []) := ⟨rfl, rfl, rfl, rfl, rfl⟩
/-- Pages 6 and 7: DPOST, CPYCAN, BARTRY, CAPMINT, ECALL, SRET with mode 3 and MIGR. -/
theorem test_words_system :
    decodeWords [0b11111_010_0110_0000, 0b00001_001_010_000_00] = .ok (.dpost (.paged 0x0940), []) ∧
    decodeWords [0b11111_010_0110_0000, 0b00010_001_010_000_10] = .ok (.cpycan (.paged 0x1142), []) ∧
    decodeWords [0b11111_010_0110_0000, 0b00011_001_010_000_11] = .ok (.bartry (.paged 0x1943), []) ∧
    decodeWords [0b11111_010_0111_0000, 0b00001_001_010_011_00] = .ok (.capmint (.paged 0x094C), []) ∧
    decodeWords [0b11111_010_0111_0000, 0b00011_001_010_000_01] = .ok (.ecall (.paged 0x1941), []) ∧
    decodeWords [0b11111_010_0111_0000, 0b00011_000_010_011_10] = .ok (.sretHalt (.paged 0x184E), []) ∧
    decodeWords [0b11111_010_0111_0000, 0b00100_001_000_000_11] = .ok (.migr (.paged 0x2103), []) := ⟨rfl, rfl, rfl, rfl, rfl, rfl, rfl⟩

/-! ## Ill-formed terms: one for each check of `WellFormed` -/

theorem test_five_prefixes : Enc.headsOk { Enc.plain 0x1188 with imms := [0, 0, 0, 0, 0] } = false ∧
    wellFormed (.addi { Enc.plain 0x1188 with imms := [0, 0, 0, 0, 0] }) = false := by decide
theorem test_page_left_out : wellFormed (.mul (.plain 0)) = false ∧ wellFormed (.add { Enc.plain 0 with look := 2 }) = false := by decide
theorem test_other_op : wellFormed (.add (.plain 0x0800)) = false := by decide
theorem test_other_f : wellFormed (.sub (.plain 0x014C)) = false := by decide
theorem test_imm_not_accepted : wellFormed (.add { Enc.plain 0x014C with imms := [1] }) = false := by decide
theorem test_fn_reserved : wellFormed (.vadd { Enc.paged 0x014C with fn := some 23 }) = false ∧
    wellFormed (.addi { Enc.plain 0x1188 with fn := some 8 }) = false := by decide
theorem test_scope_reserved : wellFormed (.ld { Enc.plain 0x6580 with ord := some 0b11001 }) = false := by decide
theorem test_reg_not_accepted : wellFormed (.ret { Enc.plain 0xA002 with reg := some 0b010000 }) = false ∧
    wellFormed (.addi { Enc.plain 0x1188 with reg := some 0b000001 }) = false := by decide
theorem test_pred_not_accepted : wellFormed (.done { Enc.plain 0xA800 with pred := some 2 }) = false := by decide
theorem test_other_mode : wellFormed (.sretHalt (.paged 0x184A)) = false := by decide
theorem test_no_words : wellFormed (.fpModeWrite 0) = false := by decide

/-! ## States that the tests start from -/

/-- The words of a form, with these fields a, b and c and no operand prefix. -/
def word (mk : Enc → Instr) (a b c : Nat) : Enc :=
  match rowOf (mk (.plain 0)) with
  | some r => { Enc.plain (BitVec.ofNat 16 (r.op * 2 ^ 11 + a * 2 ^ 8 + b * 2 ^ 5 + c * 2 ^ 2 + r.f)) with page := r.page != 0 }
  | none => .plain 0
/-- The same words with PX.IMM, PX.FN, PX.ORD, PX.REG or PX.PRED payloads. -/
def imms (l : List (BitVec 8)) (e : Enc) : Enc := { e with imms := l }
def fn (n : BitVec 8) (e : Enc) : Enc := { e with fn := some n }
def ord (n : BitVec 5) (e : Enc) : Enc := { e with ord := some n }
def regs (n : BitVec 6) (e : Enc) : Enc := { e with reg := some n }
def pred (n : BitVec 4) (e : Enc) : Enc := { e with pred := some n }
/-- The row of a form. -/
def row (mk : Enc → Instr) : Row := (rowOf (mk (.plain 0))).getD { page := 0, op := 0, fmt := .rr, a := .zero, b := .zero, c := .zero }
/-- A low activation of user code at 0x8000 that was started for no message. -/
def act0 : Act := ⟨0x8000, [0], 0, 0, 0, 0, false, false, 0, 0, 0, true⟩
/-- A binding map: name 1 at tile (0, 0), 2 at (1, 0), 3 moving, 4 unbound, 5 forwarded, 6 swapped out. -/
def names : Mem := Mem.store [] (mapAddr 1) [0x00, 0x00, 0x01, 0x00, 0x01, 0x40, 0xFF, 0xFF, 0x01, 0xC0, 0x02, 0x80]
/-- Tile (0, 0) is name 1 of region 5 and tile (1, 0) name 2, each a member of the other's cluster; the core of this kind of tile (0, 0)
runs `act0`. -/
def world (kind : CoreKind) : State :=
  let place := fun (name : Nat) (t : Tile) => { t with
    bound := true, vni := 5, name := name, logX := name - 1, mem := names, cluster := [(0, 1), (1, 2), (2, 3)], router := { t.router with transit := [0, 5] } }
  let s : State := { State.reset with
    cur := ⟨⟨0, 0⟩, kind⟩
    regions := [⟨5, [(1, ⟨0, 0⟩), (2, ⟨1, 0⟩)], 7, 9, none, 16, 0, false, false, (7, 9), [], []⟩] }
  ((s.modTile ⟨0, 0⟩ (place 1)).modTile ⟨1, 0⟩ (place 2)).modMe fun k => { k with lo := { k.lo with act := some act0 }, blocked := ⟨0, 0, 0xFFFF, 0⟩ }
/-- The same with other contents of the core that runs, and of its tile. -/
def on (kind : CoreKind) (f : Core → Core) : State := (world kind).modMe f
def inTile (kind : CoreKind) (h : Tile → Tile) : State := (world kind).modHere h
/-- The state after an instruction, and that there is one. -/
def afterO (o : Host.Outcome State Fault Refusal) (s : State) : State := match o with
  | .next t => t
  | _ => s
def after (i : Instr) (s : State) : State := afterO (exec i s) s
def isNext (i : Instr) (s : State) : Bool := match exec i s with
  | .next _ => true
  | _ => false
/-- A core with these values in general registers. -/
def gs (l : List (Nat × W)) (k : Core) : Core :=
  k.modBank k.lev fun b => { b with g := l.foldl (fun g x => vset g x.1 x.2) b.g }
/-- Capabilities for names 2 and 1 of region 5, each with every right and the channels 0 to 63; the key is 7. -/
def cap2 : Cap := 0xBB7A2F4492E067FF005000000200FC00
def cap1 : Cap := 0x0D4618950AA3DAFF005000000100FC00
/-- The same capability for name 3, with a seal of nothing. -/
def cap3 : Cap := 0x00000000000000FF005000000300FC00
/-- A core with these values in capability registers. -/
def cs (l : List (Nat × Cap)) (k : Core) : Core := { k with c := l.foldl (fun c x => vset c x.1 x.2) k.c }
/-- A core whose running activation is changed. -/
def runs (f : Act → Act) (k : Core) : Core := k.modAct f
/-- Ring 3 enabled at 0x4000 with 8 granules, these indices. -/
def ring3 (cons prod : Nat) (k : Core) : Core := { k with ctl := { k.ctl with ring := vset k.ctl.ring 3 (ringValue 0x100 0 true cons prod) } }
/-- The flow core at supervisor level. -/
def superFlow : State := on .flow (runs fun a => { a with sup := true })

/-- Sv48 page tables that map the pages of 4 KiB at each edge address below 2 MiB to the physical one beside it, to read and to write. -/
def pages (l : List (Nat × Nat)) : List (Nat × W) :=
  [(0x1000, 0x801), (0x2000, 0xC01), (0x3000, 0x1001)] ++ l.map fun x => (0x4000 + 8 * (x.1 / 4096), BitVec.ofNat 64 (x.2 / 4096 * 1024 + 0xC7))
/-- A state in which the PASIDs have these tables. -/
def paged (pasids : List Nat) (l : List (Nat × Nat)) (s : State) : State :=
  { s with pasids := pasids.map (⟨·, false, 1⟩), tables := pages l }

/-! ## Single steps -/

/-- A field of the state after an instruction. -/
def ranG (i : Instr) (s : State) (n : Nat) : Option W := if isNext i s then some ((after i s).me.g n) else none
/-- The first instruction after reset runs at the address placed for it. -/
theorem test_first_step : (match step (State.reset.withFetchWord 32 0x1188F81F) with
    | .next t => some t.me.pc
    | _ => none) = some 0x8004 := by decide +kernel
/-- R83: sums wrap to 64 bits. -/
theorem test_add_wraps : ranG (.add (word .add 1 2 3)) (on .flow (gs [(2, 0xFFFFFFFFFFFFFFFF), (3, 5)])) 1 = some 4 := by decide +kernel
/-- R22: writes to g0 are discarded. -/
theorem test_g0_reads_zero : ranG (.add (word .add 0 2 3)) (on .flow (gs [(2, 7), (3, 5)])) 0 = some 0 := by decide +kernel
/-- R90: the truncated quotient, and the sign of the remainder. -/
theorem test_div_truncates : ranG (.div (word .div 1 2 3)) (on .flow (gs [(2, -7), (3, 2)])) 1 = some (-3) := by decide +kernel
theorem test_rem_sign : ranG (.rem (word .rem 1 2 3)) (on .flow (gs [(2, -7), (3, 2)])) 1 = some (-1) := by decide +kernel
/-- R3: memory is little-endian. -/
theorem test_store_low_byte_first : (after (.st (word .st 1 2 0)) (on .flow (gs [(1, 0x1122334455667788), (2, 0x100)]))).here.mem.byteAt 0x100 = 0x88 := by
  decide +kernel
/-- R84: an immediate shift of 64 traps, and the trap holds the PC. -/
theorem test_trap_pc : (after (.slli (imms [2] (word .slli 1 2 0))) (on .flow id)).me.ctl.trapPc = 0x8000 := by decide +kernel

/-- An agent's step is next; a core instruction stands where an agent's step should. -/
def agentTurn : State := { State.reset with moves := [⟨.agent (.fpModeWrite 0), 2⟩] }
def badTurn : State := { State.reset with moves := [⟨.agent (.add (.plain 0x014C)), 2⟩] }
def outsideTurn : State := { State.reset with moves := [⟨.outside (.setPowerCap 20000), 2⟩] }
/-- The word at the PC was another ADD before a write that no fetch need have seen yet. -/
def rewritten : State := (State.reset.withFetchWord 16 0x014C).modTile ⟨0, 0⟩ fun t => { t with past := [⟨0x8000, 0x014C, false⟩] }
/-- g2 and g3 hold 5 and 7, −5 and 2. -/
def small : State := on .flow (gs [(2, 5), (3, 7)])
def signs : State := on .flow (gs [(2, -5), (3, 2)])
/-- The shape core in a high-priority handler, and the matrix unit claimed by the supervisor. -/
def highShape : State := on .shape fun k => { k with hi := { k.hi with act := some act0 }, lowSusp := true }
def superMath : State := on .math (runs fun a => { a with sup := true })
def claimed : State := inTile .math fun t => { t with claimed := true }
/-- g2 waits for a result, and is poisoned. -/
def waiting : State := on .flow fun k => runs (fun a => { a with pos := [1] }) { k with outst := [⟨0, .g, false, 2, 0, false, 1, none⟩] }
def waitingFar : State := on .flow fun k => runs (fun a => { a with pos := [1] }) { k with outst := [⟨0, .g, false, 2, 0, false, 1, some 2⟩] }
def taintedP : State := on .flow fun k => { k with regPoison := [⟨.p, false, 1, 0, 0x100⟩] }
def tainted : State := on .flow fun k => { k with regPoison := [⟨.g, false, 2, 0, 0x100⟩] }
/-- The activation holds a message; its traps are delegated. -/
def actM : Act := { act0 with noMsg := false }
def message : State := on .flow (runs fun _ => actM)
def delegated : State := message.modMe fun k => { k with ctl := { k.ctl with trapDeleg := 0xFFFFFFFF, trapVec := 0x9000 } }

/-- g2 holds a value to be written, in a user core, a supervisor core and the math core. -/
def wr (x : W) : State := on .flow (gs [(2, x)])
def wrSup (x : W) : State := on .flow fun k => runs (fun a => { a with sup := true }) (gs [(2, x)] k)
def wrMath (x : W) : State := on .math (gs [(2, x)])
/-- CRRD and CRWR of a control register. -/
def rd (n : Nat) : Enc := imms [BitVec.ofNat 8 (n / 256), BitVec.ofNat 8 n] (word .crrd 1 0 0)
def cw (n : Nat) : Enc := imms [BitVec.ofNat 8 (n / 256), BitVec.ofNat 8 n] (word .crwr 0 2 0)
/-- Ring 3 of the flow core: enabled at 0x4000 with 8 granules, CONS 1, PROD 3, two polled records. -/
def ringed : State := on .flow fun k => { k with
  ctl := { k.ctl with ring := vset k.ctl.ring 3 (ringValue 0x100 0 true 1 3) }
  recs := [⟨3, 1, 1, false, 8, 0, false⟩, ⟨3, 2, 1, false, 8, 0, false⟩] }
/-- A ring stands in what the write would make the code window. -/
def ringedLow : State := ringed.modMe fun k => { k with ctl := { k.ctl with codeBase := 0x4000, xbound := 0x4000 } }

/-- g2 an address, g3 and g1 operands, the eight bytes there 0xFFFFFFFF80000001, a code window [0x8000, 0x8040). -/
def accessing (a x y : W) : State := ((world .flow).modHere fun t => { t with mem := Mem.store t.mem a.toNat [1, 0, 0, 0x80, 0xFF, 0xFF, 0xFF, 0xFF] }).modMe fun k =>
  gs [(2, a), (3, x), (1, y)] { k with ctl := { k.ctl with codeBase := 0x8000, xbound := 0x8040, rowinLo := 0x6000, rowinHi := 0x6040 } }
/-- Such a state in which member 2 has left its cluster. -/
def oneLeft (a : W) : State := (accessing a 0 0).modHere fun t => { t with left := [2] }
/-- The word at g2 is poisoned. -/
def poisonAt (a : W) : State := (accessing a 5 6).modHere fun t => { t with poison := [a.toNat / 8 * 8] }
/-- An access through a cluster window: the member's byte is to be reached; the access has been performed. -/
def through (i : Instr) (done : Bool) : State := (accessing 0x10400100 5 6).modMe fun k => { k with wait := some ⟨i, 1, done, [(2, ⟨1, 0⟩)], []⟩ }
/-- A RAMO of the core to the word is on its way. -/
def ramoOnWord : State := { accessing 0x100 0 0 with nextPkt := 2, pkts := [⟨1, 5, 1, ⟨⟨0, 0⟩, .flow⟩, 1, .tile, ⟨0, 0⟩, ⟨0, 0⟩, 0, .flow, 0, 0, 0, 0, 64, false, 0, 0,
  false, 0, [], .ramoReq 0x100 8 0 1 0x8000 false 0⟩] }
/-- Bank operations of the flow core: an f32 ADD at 0x104 behind a 64-bit ADD at 0x200. -/
def banked : State := (accessing 0x100 0 0).modHere fun t => { t with
  bankq := [⟨⟨⟨0, 0⟩, .flow⟩, 0x200, 8, 0, 5, 0x8000, false⟩, ⟨⟨⟨0, 0⟩, .flow⟩, 0x104, 4, 0, 0xFFFFFFFFFFFFFFFF, 0x8002, false⟩] }
def bankedBad : State := banked.modHere fun t => { t with poison := [0x100] }
/-- A collective that takes and gives 4 words. -/
def coll : Coll := ⟨5, 1, 1, 0, 1, false, true, true, 4, 4, 0, 0, 0, 0, false, 0, 0, 0⟩
def queues (a : W) (inj ext : List W) : State := on .flow fun k => gs [(1, 9), (2, a)] { k with coll := some coll, inj := inj, ext := ext }

/-- c1 and c2 are capabilities for names 2 and 1, c3 is malformed; g2 holds an address, g3 an operand. -/
def caps (a x : W) : State := ((world .flow).modHere fun t => { t with mem := Mem.store t.mem a.toNat [1, 2, 3, 4, 5, 6, 7, 8, 9] }).modMe fun k =>
  cs [(1, cap2), (2, cap1)] (gs [(2, a), (3, x)] k)
/-- The same on the shape core, with v2 all sevens and p1 lane 0 and 63 active. -/
def capsShape : State := (on .shape fun k => cs [(1, cap2)] (gs [(3, 0x3F0040)] { k with v := vset k.v 2 (BitVec.ofNat 512 (2 ^ 512 / 255 * 7)) })).modMe fun k =>
  k.modBank false fun b => { b with p := vset b.p 1 0x8000000000000001 }
/-- The last word that a local payload may take. -/
def edgeSend : State := caps 0x2BFFF0 0x3F0010
/-- The flow core with port q1 bound as the word says. -/
def port (x : BitVec 8) (f : Core → Core) : State := (caps 0x8000 0).modMe fun k => f { k with q := vset k.q 1 ⟨true, x, cap2, 0⟩ }
/-- An inbound port of channel 3 whose ring holds one message of 12 bytes. -/
def inPort : State := (port 3 fun k => { k with
  ctl := { k.ctl with ring := vset k.ctl.ring 3 (ringValue 0x100 0 true 0 1) }, recs := [⟨3, 0, 1, false, 12, 0, false⟩] }).modHere fun t =>
    { t with mem := Mem.store t.mem 0x4010 [1, 2, 3, 4, 5, 6, 7, 8, 9, 10, 11, 12] }
/-- The same at its last word, while a bank operation of the core is to come. -/
def bankPends (s : State) : State := s.modHere fun t => { t with bankq := [⟨⟨⟨0, 0⟩, .flow⟩, 0x100, 8, 0, 5, 0x8000, false⟩] }
def lastWord : State := bankPends (inPort.modMe fun k => { k with q := vset k.q 1 { vget k.q 1 with read := 8 } })
def emptyPort : State := port 3 fun k => { k with ctl := { k.ctl with ring := vset k.ctl.ring 3 (ringValue 0x100 0 true 0 0) } }
def outPort : State := port 0x7F id
/-- Semaphore 2 holds `v`, g3 `n`; these wait. -/
def sem (v : BitVec 32) (n : W) (q : List SemWaiter) : State := ((world .flow).modHere fun t => { t with sems := vset t.sems 2 v, semq := q }).modMe (gs [(3, n)])
def sends : Enc := word .send 1 2 3
def ramos : Enc := word .ramo 2 1 3
/-- A RAMO of the core to this word of name 2 is on its way. -/
def ramoFlies : State := { caps 0x2BFFF8 5 with nextPkt := 2, pkts := [⟨1, 5, 1, ⟨⟨0, 0⟩, .flow⟩, 2, .tile, ⟨1, 0⟩, ⟨0, 0⟩, 0, .flow, 0, 0, 0, 0, 64, false, 0, 0,
  false, 0, [], .ramoReq 0x2BFFF8 8 0 1 0x8000 false 0⟩] }
/-- A descriptor at 0x100 is cached, and a residency there is bound to slot 3. -/
def withBuf : State := (inTile .flow fun t => { t with cbCache := [⟨0x100, [], []⟩, ⟨0x200, [], []⟩], slices := vset t.slices 1 (some ⟨0x100, [], none, false⟩) }).modMe fun k =>
  gs [(2, 0x100)] { k with slots := vset k.slots 3 ⟨true, 0x100, true, 1⟩ }
/-- A join request under way for a descriptor at 0x200 that the tile is to cache. -/
def asksKeep : Tile := { Tile.reset with flow := { Core.reset with req := some (.join [] [] 0x200 true) } }
/-- A packet of the flow core is on its way, unacknowledged. -/
def pktPut (n : Nat) : Pkt := ⟨n, 5, 1, ⟨⟨0, 0⟩, .flow⟩, 2, .tile, ⟨1, 0⟩, ⟨0, 0⟩, 0, .flow, 0, 0, 0, 0, 64, false, 0, 0, false, 0, [], .put 0x100 [1, 2] []⟩
def unfenced : State := { world .flow with pkts := [pktPut 1], nextPkt := 2 }

/-- Packet 1, from the flow core of tile (1, 0), for channel 3 of the flow core of tile (0, 0), where it stands; and as a packet still on
the other tile. -/
def pkt (vc state : Nat) (b : Body) : Pkt :=
  ⟨1, 5, vc, ⟨⟨1, 0⟩, .flow⟩, 1, .tile, ⟨0, 0⟩, ⟨0, 0⟩, 3, .flow, 3, 1, 0, 0, 64, false, state, 0, true, 0, [], b⟩
def far : Pkt := { pkt 0 0 .wake with at_ := ⟨1, 0⟩, arr := 0, hops := 0, landed := false }
def near : Pkt := { pkt 0 0 .wake with landed := false }
/-- The only packet of a state in which the flow core of tile (0, 0) is changed. -/
def has (p : Pkt) (f : Core → Core := id) : State := { on .flow f with pkts := [p], nextPkt := 2 }
/-- A message of `n` bytes. -/
def msg (n : Nat) : Body := .message 0x4008000000010010 (List.replicate n 7) []
/-- The link between the two tiles is down; the far router does not permit the region. -/
def cut : State := { has far with links := [⟨0, ⟨0, 0, []⟩, ⟨0, 0, []⟩, true, 0, false, false⟩] }
def barred : State := (has far).modTile ⟨1, 0⟩ fun t => { t with router := { t.router with transit := [0] } }
/-- A tile that holds bytes at 0x100, where a RAMO of the sender's core is to be performed; the same poisoned. -/
def servant (b : Body) : State := (has (pkt 1 0 b)).modHere fun t => { t with mem := Mem.store t.mem 0x100 [1, 2, 3, 4, 5, 6, 7, 8] }
def servantBad (b : Body) : State := (servant b).modHere fun t => { t with poison := [0x100] }
def haltedCore (b : Body) : State := has (pkt 4 0 b) fun k => { k with halted := true }
/-- Replies for the flow core of tile (0, 0), which waits for them. -/
def reply3 (b : Body) (f : Core → Core) : State := has (pkt 3 0 b) f
def waits (i : Instr) (k : Core) : Core := { k with wait := some ⟨i, 1, true, [], []⟩ }
/-- The flow core of tile (0, 0) waits for an LD through a cluster window, whose request stands at the member. -/
def asking (done : Bool) : State :=
  let p : Pkt := ⟨1, 5, 1, ⟨⟨0, 0⟩, .flow⟩, 2, .tile, ⟨1, 0⟩, ⟨1, 0⟩, 1, .flow, 0, 1, 0, 0, 64, false, 0, 0, true, 0, [], .cluster⟩
  { ((world .flow).modMe fun k => gs [(2, 0x10400100)] { k with wait := some ⟨.ld (word .ld 1 2 0), 1, done, [], []⟩ }) with pkts := [p], nextPkt := 2 }
def asked1 : State := ({ (asking false).active ⟨1, 0⟩ with cur := ⟨⟨0, 0⟩, .flow⟩ }).modCore ⟨⟨0, 0⟩, .flow⟩ fun k => { k with wait := some ⟨.ld (word .ld 1 2 0), 1, true, [(2, ⟨1, 0⟩)], []⟩ }
/-- Packets of the flow core of tile (0, 0) that have come back to it. -/
def sent (state : Nat) (b : Body) : State :=
  { (on .flow fun k => { k with resv := [(1, [0])] }) with pkts := [{ pkt 0 state b with src := ⟨⟨0, 0⟩, .flow⟩, name := 2, dst := ⟨1, 0⟩ }], nextPkt := 2 }
/-- Name 6 is swapped out; its saved image; a packet that its island has taken. -/
def image6 (f : Tile → Tile) : Saved := ⟨0, 5, 6, 2, [7], f { Tile.reset with vni := 5, name := 6, mem := names }⟩
def swapped (b : Body) (saved : List Saved) : State :=
  { has { pkt 0 0 b with name := 6, to_ := .island 2 } with saved := saved, owners := [⟨7, .fabric, []⟩] }

/-- The router at the packet takes none of its region; the image's flow core runs, or has channel 3 with these granules written; the
name's entry of the region is where its image is parked. -/
def cutOff (s : State) : State := s.modTile (s.pkts.headD far).at_ fun t => { t with router := { t.router with transit := [0] } }
def runs6 (t : Tile) : Tile := { t with flow := { t.flow with lo := { t.flow.lo with act := some act0 } } }
def ringed6 (prod : Nat) (t : Tile) : Tile := { t with flow := { t.flow with ctl := { t.flow.ctl with
  ring := vset t.flow.ctl.ring 3 (ringValue 0x100 0 true 0 prod) } } }
def parked6 (s : State) : State := { s with regions := s.regions.map fun r => { r with names := r.names ++ [(6, parked 5 6)] } }

/-- A handler channel: ring 3 at 0x4000, its first record at granule 1, a second after it; TASK3 starts at 0x9000, high where `hi`. -/
def channel (hi : Bool) (k : Core) : Core := { k with
  ctl := { k.ctl with ring := vset k.ctl.ring 3 (ringValue 0x100 0 true 1 3), task := vset k.ctl.task 3 (if hi then 0x300009000 else 0x100009000) }
  recs := [⟨3, 1, 1, false, 16, 0, false⟩, ⟨3, 2, 1, false, 16, 0, false⟩] }
/-- The activation that runs holds the first record. -/
def actR : Act := { act0 with noMsg := false, chan := 3, record := 1, recLen := 1, desc := 0x4008000000010010 }
def handler (f : Core → Core) : State := (on .flow fun k => f (runs (fun _ => actR) (channel false k))).modHere fun t =>
  { t with mem := Mem.store t.mem 0x4040 (leBytes 8 0x4008000000010010 ++ leBytes 8 9 ++ [1, 2, 3, 4, 5, 6, 7, 8, 9, 10, 11, 12, 13, 14, 15, 16]) }
/-- The same at the high level. -/
def highHandler : State := handler fun k => { channel true k with lo := { k.lo with act := none }, hi := { k.hi with act := some actR } }
/-- A launch waits for this core's part. -/
def launched : State := { (handler fun k => gs [(2, 0x80000003)] { k with launch := some 7 }) with
  launches := [{ ctx := 7, place := 0, ch := [], seq := 5, doneaddr := 0x1000, args := [], admitted := true, sent := [], ends := [], count := 4, err := 1, tiles := [], doomed := false }] }
/-- A send stands in the buffer for the name that moves. -/
def held : State := handler fun k => k.modBank false fun b => { b with sends := [⟨.put cap3 0x100 [1] [], 1, [0, 0, 0, 0]⟩] }
/-- The running activation ends a resumable trap of its own; the trap is not resumable. -/
def trapped (resumable : Bool) (f : Core → Core) : State := handler fun k => f { runs (fun a => { a with pos := [20, 0], sup := true }) k with
  ctl := { k.ctl with trapCause := if resumable then 0x19C else 0x103, trapPc := 0x8002, trapVec := 0x9000 } }
def idling (resumable : Bool) : State := on .flow fun k => { runs (fun a => { a with sup := true }) k with
  ctl := { k.ctl with trapCause := if resumable then 0x19C else 0x103, trapPc := 0x8002, trapVec := 0x9000 } }
/-- An overlay handler is armed; it runs. -/
def overlay (running : Bool) : State := on .flow fun k => { runs (fun a => { a with resumable := running }) k with
  lo := { (runs (fun a => { a with resumable := running }) k).lo with resume := 0x8010 }
  ctl := { k.ctl with ovlVec := 0x9000, codeBase := 0x8000, xbound := 0x9040 } }
/-- Its activation has come to an address outside the code window. -/
def overlayOut : State := (overlay false).modMe (runs fun a => { a with pc := 0x7000 })
/-- A join counter that waits for 5. -/
def joined : State := on .flow fun k => gs [(2, 5), (3, 0x3F)] { k with joins := vset k.joins 2 ⟨true, 5, 0x3F⟩ }
/-- Cores at a dispatch point and in a low handler, with a record to take. -/
def dispatching : State := (handler fun k => { k with lo := { k.lo with act := none }, lowSel := ⟨3, 1⟩, blocked := Blocked.idle }).modHere id
def preempting : State := handler fun k => runs (fun _ => act0) { channel true k with hiSel := ⟨3, 1⟩ }
/-- At a dispatch point with a low activation suspended, without and with a high record to take. -/
def suspended : State := on .flow fun k => { k with lowSusp := true }
def betweenHigh : State := handler fun k => runs (fun _ => act0) { channel true k with hiSel := ⟨3, 1⟩, lowSusp := true }
/-- What is due at a boundary. -/
def overdue : State := on .flow (runs fun a => { a with cycles := 0x01000001 })
def maskedOut : State := on .flow fun k => { k with mask := some 256 }
def lateTrap : State := on .flow fun k => { k with ptrap := some ⟨0x19, 0x100, 0x8000, 0, false⟩ }
def asyncDue1 : State := on .flow fun k => { k with async := [⟨0x16, 0x20002, true⟩] }
/-- A core held for its island after this cause. -/
def heldCore (cause : W) (f : Core → Core) : State := handler fun k => f { runs (fun a => { a with pos := [20, 0] }) k with
  held := some (cause.toNat % 64), blocked := ⟨2, cause.toNat % 64, 0xFFFF, 0⟩, ctl := { k.ctl with trapCause := cause, trapPc := 0x8002 } }

/-- The shape core with v1 to v3 full of patterns, g2 an address, g3 an operand, p1 every second lane, streams unbound, and an open vector
queue of `n` entries. -/
def vec (g2 g3 : W) (n : Nat) (f : Core → Core := id) : State := ((world .shape).modHere fun t => { t with
    mem := Mem.store t.mem 0x1000 ((List.range 64).map fun i => BitVec.ofNat 8 (3 * i + 1)) }).modMe fun k =>
  let v := vset (vset (vset k.v 1 (BitVec.ofNat 512 0x0102030405060708)) 2 (BitVec.ofNat 512 (2 ^ 512 / 255 * 0x85))) 3 (BitVec.ofNat 512 (2 ^ 512 / 65535 * 0x0703))
  f ((gs [(2, g2), (3, g3)] { k with v := v, vq := List.replicate n ⟨.vmov (word .vmov 1 2 0), 0x7000, [0], 0, 0, 0, 0, 0, none, 0⟩ }).modBank false fun b =>
    { b with p := vset b.p 1 0x5555555555555555 })
/-- v1 has a stream bound to it; the ring of channel 3 is enabled. -/
def streamed (n : Nat) : State := vec 0 3 n fun k => { k with
  ctl := { k.ctl with ring := vset k.ctl.ring 3 (ringValue 0x100 0 true 0 0) }, streams := vset k.streams 0 ⟨some 5, 0⟩ }
/-- A stream form's words, whose field a names v12. -/
def a12 (e : Enc) : Enc := regs 0x10 e
/-- One entry in the queue of the shape core. -/
def entry (i : Instr) (p x y sel : W) (out : Option Nat) : VEntry := ⟨i, 0x8000, [0], p, x, y, sel, 0, out, 0⟩
def shape : CoreId := ⟨⟨0, 0⟩, .shape⟩
def queue1 (q : VEntry) (f : Core → Core := id) : State := vec 0 0 0 fun k => f { k with vq := [q] }
def outst1 (k : Core) : Core := { k with outst := [⟨2, .p, false, 1, 0, false, 1, none⟩, ⟨3, .g, false, 1, 0, false, 1, none⟩] }
/-- The addition of v2 and v3 in i32; a move of the bound register v12. -/
def qAdd : VEntry := entry (.vadd (fn 2 (word .vadd 1 2 3))) 0x5555 0 0 0 none
/-- A lane of that sum. -/
def laneAdd (b c : Nat → Nat) (_ : Nat → Nat) (j : Nat) : Nat := fit false true 32 (laneInt 2 32 (b j) + laneInt 2 32 (c j))
def qMovS : VEntry := entry (.vmov (regs 0x4 (word .vmov 1 4 0))) 0xFFFFFFFFFFFFFFFF 0 0 0 none
def bindV (n : Option Nat) (f : Core → Core) (k : Core) : Core := f { k with streams := vset k.streams 0 ⟨n, 0⟩ }

/-- What the head of the shape core's queue takes of its streams, and the state after. -/
def takenOf (s : State) : List (V × List (Nat × W)) × State :=
  match takeAll ((chargeLane s shape).modCore shape fun k => k.settleV (some [0])) shape [2, 3] with
  | .ok l t => (l, t)
  | _ => ([], s)
/-- The shape and the math core wait for the lanes. -/
def bothWait : State := (queue1 qAdd).modCore ⟨⟨0, 0⟩, .math⟩ fun k => { k with vq := [qAdd] }

/-- A configuration: type, rows, row length and the bits above them. -/
def mc (ty rows klen high : Nat) : W := BitVec.ofNat 64 (ty + (rows - 1) * 2 ^ 5 + (klen - 1) * 2 ^ 10 + high * 2 ^ 18)
/-- `n` bytes of a pattern. -/
def bytesOf (n k : Nat) : List Byte := (List.range n).map fun i => BitVec.ofNat 8 (k * i + 1)
/-- The same bytes as cells from an address. -/
def cells (a n k : Nat) : Mem := (List.range n).map fun i => (a + i, BitVec.ofNat 8 (k * i + 1))
/-- The math core with m1 and m2 configured, g2 a base and g3 a stride, bytes at 0x1000 and in m1, m2 and z0. -/
def mat (m1 m2 : W) (g2 g3 : W) (f : Tile → Tile := id) : State := ((world .math).modHere fun t => f { t with
    mcfg := vset (vset t.mcfg 1 m1) 2 m2
    mem := cells 0x1000 64 7 ++ t.mem
    mdata := cells 3072 12 5 ++ cells 3168 12 9 ++ cells 6144 12 3 ++ cells 6240 12 11
    mscale := cells 768 3 25 ++ cells 1536 3 31
    mmeta := Mem.store [] 6144 [0x20, 0x53]
    z := cells 0 24 1 }).modMe (gs [(2, g2), (3, g3)])
/-- An open command with what it latched. -/
def cmd (i : Instr) (a b c : W) : MCmd := ⟨1, i, 0x7000, [0], a, b, c, 0x1000, 0x10, 0, 0x13579BDF, [], true, [], 0, [], []⟩
/-- The state in which it is the only one, and has started. -/
def open1 (q : MCmd) (f : Tile → Tile := id) : State := (mat q.cfgB q.cfgC 0x1000 0x10 fun t => f { t with mwin := [q], lastId := 1 }).modMe (runs fun a => { a with pos := [1] })
def site0 : Site := ⟨0, 0⟩
def i8 : W := mc 0 2 4 0
def full (i : Instr) (n : Nat) : Tile → Tile := fun t => { t with lastId := n, mwin := (List.range n).map fun k => { cmd i i8 i8 i8 with id := k + 1, started := false } }
/-- The member of a chain: its state, places, and operands that have arrived. -/
def chained (st cp rp : Nat) (l : List Latched) (t : Tile) : Tile :=
  { t with chain := ⟨st, [], cp, rp, 2, 1, 7, 0x701020000, 1, none, l⟩ }
def lat (isA : Bool) (c : W) : Latched := ⟨0, isA, c, cells 0 4 5 ++ cells 96 4 7, []⟩
/-- Commands: one that the sequencer may start, and two of which the later waits. -/
def pend1 (q : MCmd) : MCmd := { q with started := false }
def zclr1 : MCmd := pend1 (cmd (.zclr (word .zclr 0 0 0)) i8 i8 i8)
def mma2 : MCmd := { pend1 (cmd (.mma (word .mma 0 1 2)) i8 i8 i8) with id := 2, pos := [1] }
def dep2 : MCmd := { pend1 (cmd (.mld (word .mld 4 2 3)) i8 i8 i8) with id := 2, deps := [1] }
def step1 : MCmd := pend1 (cmd (.mchmma (word .mchmma 0 1 2)) i8 i8 i8)
def two (a b : MCmd) : State := mat i8 i8 0 0 fun t => { t with mwin := [a, b], lastId := 2 }
/-- A step at the west edge; the members of the chain stand at both tiles. -/
def west : State := (mat i8 i8 0 0 fun t => chained 2 0 1 [] { t with mwin := [step1], lastId := 1 }).modTile ⟨1, 0⟩ (chained 2 1 1 [])
/-- A load through the window of the cluster's second member, as the only command; the same while it was performed elsewhere; and a load
behind a command that reads what it writes. -/
def memberQ : MCmd := { pend1 (cmd (.mld (word .mld 1 2 3)) i8 i8 i8) with base := 0x10400100 }
def movedQ : MCmd := { memberQ with started := true, sites := [(2, ⟨5, 5⟩)] }
def windowed (q : MCmd) : State := mat i8 i8 0 0 fun t => { t with mwin := [q], lastId := 1 }
def load2 : MCmd := { pend1 (cmd (.mld (word .mld 1 2 3)) i8 i8 i8) with id := 2, pos := [1] }
/-- The matrix state saved at 0x1000; claimed. -/
def area (m : W) (f : Tile → Tile) : State := (mat i8 i8 0x100000 0 f).modHere fun t => { t with mem := Mem.store (Mem.store t.mem 0x100000 (leBytes 8 m.toNat)) 0x100080 [9] }

/-- The words of a graph of one source for slot 2: cell 0 adds it to itself. -/
def graph1 : List W := [0x4C47 + 2 * 2 ^ 16 + 2 ^ 20 + 16 * 2 ^ 24 + 2 ^ 32 + 3 * 2 ^ 40 + 2 ^ 50, 0x101,
  2 + 0x40 * 2 ^ 8, 2 + 0x40 * 2 ^ 8 + 2 ^ 24, 2 + 0xFF * 2 ^ 16, 0xF + 48 * 2 ^ 32]
/-- 64-bit words from an address up. -/
def place64 (a : Nat) (l : List W) (t : Tile) : Tile := { t with mem := Mem.store t.mem a (l.flatMap fun x => leBytes 8 x.toNat) }
/-- A custom core with an image at 0x1000, g2 its address and a graph of another address in slice 0. -/
def lupin (a : W) (f : Tile → Tile) (h : Core → Core := id) : State :=
  ((world .shape).modHere fun t => f (place64 0x1000 graph1 t)).modMe fun k => h (gs [(2, a), (7, 0xF0)] k)
/-- Its slot n names slice 0, which holds an image of that address. -/
def named (n addr : Nat) (k : Core) : Core := { k with slots := vset k.slots n ⟨true, addr, true, 0⟩ }
def held0 (addr : Nat) (synced : Bool) (t : Tile) : Tile := { t with slices := vset t.slices 0 (some ⟨addr, graph1, none, synced⟩) }

def calling (n : Nat) (h : Core → Core := id) : State := lupin 0 (held0 0x2000 false) fun k => h { k with slots := vset k.slots 0 ⟨true, 0x2000, n == 1, 0⟩, pin := some 0 }
def cx1 : Enc := word .cxOneSource 4 2 0
/-- A CX of three sources with no active lane, whose v[a] is bound to a channel with a record, at the head of the queue. -/
def idle3 : VEntry := { entry (.cxThreeSources (a12 (word .cxThreeSources 4 2 3))) 0 0 0 0 none with slice := 4 }
def popsA (k : Core) : Core := bindV (some 3) (fun k => { k with
  vq := [idle3], recs := [⟨3, 0, 4, false, 200, 0, false⟩], ctl := { k.ctl with ring := vset k.ctl.ring 3 (ringValue 0x100 0 true 0 4) } }) k
def queueFull (k : Core) : Core := { k with vq := List.replicate 16 ⟨.vadd (.plain 0), 0x7000, [0], 0, 0, 0, 0, 0, none, 0⟩ }

/-- A supervisor core whose area at 0x10000 holds one graph for slot 2. -/
def area1 (h : W) (f : Tile → Tile := id) (g : Core → Core := id) : State := ((lupin 0x10000 (fun t =>
  f (place64 0x10100 graph1 (place64 0x10050 [0x200000008] (place64 0x10000 [h] t)))) fun k => g (runs (fun a => { a with sup := true }) k)))

/-- A copy operation of 128 bytes between edge address 0x4000 and local address 0x2000. -/
def op2 (w2 : W) (ph : Nat) : EOp := ⟨1, [0x4000, 0x2000, w2], false, 0, ph, 0, 0, false, 0, [], []⟩
/-- Engine 6 is bound to slot 1 of tile (0, 0) with these operations. -/
def engine (ops : List EOp) : Engine := ⟨6, 8, ⟨0, 0⟩, none, 1, 0, ops.length, ops, none⟩
def copying (x : Engine) (g3 : W) (h : State → State := id) : State :=
  h { ((world .flow).modHere fun t => place64 0x1000 [0x4000, 0x2000, 0x80] { t with flow := { t.flow with ctl := { t.flow.ctl with
      engctx := vset t.flow.ctl.engctx 1 (BitVec.ofNat 64 (0x8000000001800000 + 0x200 * 64 + 3)) } } }).modMe (gs [(3, g3)]) with
    engines := [x], pasids := [⟨8, false, 1⟩], tables := pages [(0x4000, 0x204000)], owners := [⟨1, .fabric, []⟩], edge := Mem.store [] 0x204000 [5, 6, 7] }
/-- A bank operation of the core on bytes that the operation touches is to come. -/
def overlapping (s : State) : State := s.modHere fun t => { t with bankq := [⟨⟨⟨0, 0⟩, .flow⟩, 0x2078, 8, 0, 5, 0x8000, false⟩] }
/-- One on a byte of a ring, which a record is to be copied into. -/
def ringBusy (s : State) : State := s.modHere fun t => { t with bankq := [⟨⟨⟨0, 0⟩, .flow⟩, 0x20, 8, 0, 5, 0x8000, false⟩] }
def cpys : Enc := word .cpy 1 1 3
def cpy2ds : Enc := word .cpy2d 1 1 3

/-- The operation that a core latches, by its descriptor at g[c]. -/
def latchedOp (u : State) (e : Enc) (count ticket : Nat) : EOp :=
  let a := (u.me.g e.c).toNat
  let w2 := (u.here.word (a + 16)).toNat
  ⟨ticket, (List.range count).map fun j => u.here.word (a + 8 * j), decide (count = 5), if 2 ≤ w2 / 2 ^ 32 % 4 then u.me.capReg (w2 / 2 ^ 48 % 16) else 0,
    0, 0, 0, false, 0, [], []⟩

def oneOp (o : EOp) : State := copying (engine [o]) 0
def faulted (o : EOp) : Engine := { engine [o] with fault := some 0x4000 }
/-- The page of the copy's edge address has the entry's bit 54 set, which is reserved. -/
def reservedPage : State := { oneOp (op2 0x80 1) with tables := pages [] ++ [(0x4020, 0x400000000810C7)] }
def unmapped (s : State) : State := { s with tables := [] }
def leafless (s : State) : State := { s with tables := pages [] }
def opAt (l : W) (w2 : W) : EOp := ⟨1, [0x4000, l, w2], false, 0, 0, 0, 0, false, 0, [], []⟩
/-- The tile's own name is moving. -/
def mapMoves (s : State) : State := s.modHere fun t => { t with mem := Mem.store t.mem (mapAddr 1) [0x00, 0x40] }
/-- A page of 2 MiB. -/
def bigPage : State := { world .flow with pasids := [⟨8, false, 1⟩], tables := [(0x1000, 0x801), (0x2000, 0xC01), (0x3008, 0x1000C3)] }
def none0 : List EOp := []

/-- A descriptor of a sum of one element of 64 bits in group 1 over the flow cores of two tiles, with a timeout. -/
def sum2 : List W := [0x100010030, 4, 0x1020000]
/-- The same with a field that breaks a rule, and one of which tile (0, 0) is no member. -/
def sumBad : List W := [0x100010038, 4, 0x1020000]
def sumOther : List W := [0x100010030, 4, 0x1010001]
/-- A barrier's descriptor over the same cores. -/
def bar2 : List W := [0, 4, 0x1020000]
def meet (d : List W) (a : W) (f : Core → Core := id) (h : State → State := id) : State :=
  h (((world .flow).modHere fun t => { t with mem := Mem.store t.mem 0x1000 (d.flatMap fun x => leBytes 8 x.toNat) }).modMe fun k => f (gs [(2, a)] k))
/-- The instance numbered 1 in a state, current or not, with these word counts. -/
def part (st : Nat) (usable : Bool) (out : Nat) : Coll := ⟨5, 1, 1, 0, st, false, usable, true, 1, 1, out, out, out, 0, false, 2, 1, 0x1000⟩
def has1 (y : Coll) (k : Core) : Core := { k with coll := some y }
def caching (s : State) : State := s.modHere fun t => { t with cbCache := [⟨0x1000, sum2, []⟩] }
def cachingOther (s : State) : State := s.modHere fun t => { t with cbCache := [⟨0x1000, sumOther, []⟩] }
def c00 : CoreId := ⟨⟨0, 0⟩, .flow⟩
def c10 : CoreId := ⟨⟨1, 0⟩, .flow⟩
def noList : List (BitVec 32) := []

/-- The instance at the root, and a core that asks to join it. -/
def inst (st : Nat) (joined answered : List Nat) (contrib : List (List W)) : Inst :=
  ⟨5, 1, 0xFFFF, sum2, [], [c00, c10], joined, answered, [], st, true, contrib, [], [], [], 1, 1⟩
def asks (d : List W) (x : List Inst) (ans : Option W) : State :=
  { meet sum2 0x1000 fun k => { k with req := some (.join d [] 0x1000 true), ans := ans, wait := some ⟨.cbegin (word .cbegin 1 2 0), 0, true, [], []⟩ } with insts := x }
def mem2 : List CoreId := [c00, c10]
def sumNone : List W := [0x100010030, 4, 0x2020000]
/-- 256 lost instances that a core has still to hear of. -/
def lostOnes : List Inst := (List.range 256).map fun n => { inst 5 [1] [1] [] with group := 100 + n }
def noQuota (s : State) : State := { s with regions := s.regions.map fun r => { r with quota := 0 } }
def noInsts : List Inst := []
/-- Two cores ask in one root cycle, the second for a group that is one instance further on. -/
def sum2b : List W := [0x100020030, 4, 0x1020000]
def twoAsk : State := { (asks sum2 [] none).modCore c10 fun k => { k with req := some (.join sum2b [] 0x1000 true), ans := none } with
  groups := [⟨5, 2, 1⟩] }

def y2 (st : Nat) : Coll := { part st true 0 with seq := 0xFFFF }
def runsAt (x : Inst) (y : Coll) (f : Core → Core) : State := { meet sum2 0x1000 fun k => f { k with coll := some y, inj := [7] } with insts := [x] }
def done5 : Inst := { inst 5 [0, 1] [0, 1] [[], []] with cause := 3, causeRank := 1 }
def noRest : List W := []
def aborts (ans : Option W) (k : Core) : Core := { k with req := some (.abort 0xFFFF), ans := ans, wait := some ⟨.cabort (word .cabort 1 2 0), 0, true, [], []⟩ }

def bid (e : Enc) : Enc := imms [3] e
def gen (b : Bar) (k : Core) : Core := k.setBar b
def arrived4 : Bar := ⟨3, 4, 0, 0, 0, [0, 1, 2, 3]⟩
def arrivals : Bar := ⟨3, 3, 1, 1, 7, [2]⟩
def barArrs : Enc := bid (word .bararr 1 2 0)
def barSyncs : Enc := bid (word .barsync 1 2 0)
/-- The BARSYNC at the PC has arrived at this generation. -/
def heldAt (n : BitVec 16) (k : Core) : Core := (gen arrivals k).modBank false fun b => { b with barHeld := [⟨0x8000, [0], 3, n⟩] }

def arr : BarArr := ⟨3, 2, bar2, []⟩
def noArr : List BarArr := []
def bg (who : List CoreId) (st : Option Nat) : BarGen := ⟨5, 3, 2, bar2, [], [c00, c10], who, st, 0⟩
def arriving (l : List BarGen) : State := { meet bar2 0 fun k => { gen arrivals k with barOut := [arr] } with barGens := l }

def cb1 : Enc := word .cbegin 1 2 0
/-- The flow core of tile (0, 0) has a RAMO on its way to the word at 0x1008. -/
def ramoOn : State := { meet sum2 0x1000 with nextPkt := 2, pkts := [⟨1, 5, 1, c00, 1, .tile, ⟨0, 0⟩, ⟨0, 0⟩, 0, .flow, 0, 0, 0, 0, 64, false, 0, 0,
  false, 0, [], .ramoReq 0x1008 8 0 1 0x8000 false 0⟩] }
def u12 (s : State) (name : Nat) : State := (inject (seen s) c00 1 name .flow 0 .cluster).getD s

/-- The demand vector of rank r of two, in exchange 9, round `resid`, which sends 64 bytes from 0x6000 to the other rank. -/
def demand (r : Nat) (resid : Bool) (bytes : Nat) : List W :=
  [BitVec.ofNat 64 (9 + 2 ^ 16 + r * 2 ^ 32 + 2 * 2 ^ 48), BitVec.ofNat 64 ((if resid then 8 else 0) + 0x1020100),
    0x500004004000, 0x700000001000, BitVec.ofNat 64 (1 - r + bytes * 2 ^ 32), 0x6000]
/-- An interface of rank 0 of that exchange. -/
def xif0 : XIf := { openXif (demand 0 false 64) (openExch (demand 0 false 64) 1024 []) with rxOff := [(1, 0x40)] }
/-- The flow core with g2 and g3, a vector at 0x1000, and what the interface of its tile holds. -/
def exchanging (l : List W) (x : Option XIf) (g2 g3 : W) (f : Core → Core := id) : State :=
  ((world .flow).modHere fun t => { t with
    mem := Mem.store (Mem.store t.mem 0x1000 (l.flatMap fun y => leBytes 8 y.toNat)) 0x4000 [1, 2, 3], xif := x }).modMe fun k => f (gs [(2, g2), (3, g3)] k)
def calPhase (w0 : W) (n : Nat) : CalEntry := ⟨0x1 + w0, BitVec.ofNat 64 (n + n * 2 ^ 32)⟩
def calPlain (k : Nat) : CalEntry := ⟨BitVec.ofNat 64 k, 0⟩
def holding (r q : List CalEntry) : XIf := { xif0 with ring := r, queue := q, written := r.length + q.length, popped := q.length }
def noCal : List CalEntry := []
def demandHead (r : Nat) : List W := (demand r false 64).take 4
def demandPair (r : Nat) : List W := (demand r false 64).drop 4
def stream0 (last : Bool) : XStream := ⟨1, false, 64, 0x6000, 64, 0, 0, last⟩
def xnexts : Enc := word .xnext 1 0 0
def xends : Enc := word .xend 1 2 3
def xstats : Enc := word .xstat 1 2 0

/-- The exchange at its arbiter, with these posts, and with rank 0 asking. -/
def post0 (r : Nat) : Post := postOf ⟨r, 0⟩ (demand r false 64)
def exch0 (posts : List Post) : Exch := { openExch (demand 0 false 64) 1024 [] with posts := posts }
def posting (l : List W) (xs : List Exch) (x : Option XIf) (ans : Option W) : State :=
  { exchanging [] x 0 0 (fun k => { k with req := some (.dpost l), ans := ans, wait := some ⟨.dpost (word .dpost 1 2 0), 0, true, [], []⟩ }) with exchs := xs }
def at00 : CoreId := ⟨⟨0, 0⟩, .flow⟩
def d0 : List W := demand 0 false 64
def d0r : List W := demand 0 true 64
def full4 : List Exch := List.replicate 4 { exch0 [] with xid := 7 }
/-- No arbiter answers the core's post. -/
def noArbiter (s : State) (c : CoreId) (l : List W) : Bool :=
  match s.exch (vXid l) (vdevNum s (s.tile c.site).vni) with
  | some x => s.arbitersDown.contains x.serving
  | none => s.arbitersDown.contains (vPrimary l) && s.arbitersDown.contains (vStandby l)
/-- The arbiters of the exchange have failed. -/
def deaf (s : State) : State := { s with arbitersDown := [vPrimary d0, vStandby d0] }
def over0 : XIf := { xif0 with mainOver := true }
def twice0 : Post := { post0 0 with residual := [(1, 64, 0x6000)] }
def otherX : XIf := { xif0 with xid := 8 }

/-- A planned exchange with one grant of rank 0 to rank 1 and the entries still to deliver. -/
def grant0 (label : Option Nat) : Grant := ⟨0, 0, 1, 64, false, label, [0, 1], false⟩
def planned0 (label : Option Nat) (q : List (Nat × CalEntry)) : Exch := { exch0 [post0 0, post0 1] with planned := true, grants := [grant0 label], queue := q }
def phase0 : CalEntry := calPhase (0x10 + 2 ^ 32) 64
def arbited (x : Exch) (i : XIf) : State := { exchanging [] (some i) 0 0 with exchs := [x] }

/-- Rank 0 sends to rank 1 and receives from it in one phase. -/
def both : CalEntry := ⟨BitVec.ofNat 64 (0x31 + 2 ^ 32 + 2 ^ 42), 0x4000000040⟩
def other : XIf := { xif0 with rank := 1 }
def phasing (i : XIf) : State := (arbited (planned0 (some 0) []) i).modTile ⟨1, 0⟩ fun t => { t with xif := some other }
def headed (started ready : Bool) (ms : List Marker) : XIf :=
  { xif0 with queue := [both], written := 1, popped := 1, started := started, readies := if ready then [(0, 1)] else [], markers := ms }
def marker0 (final : Bool) : Marker := ⟨0, 1, false, [5, 6, 7, 8, 9, 10, 11, 12], [], 8, final, []⟩
def paused0 : XIf := { headed false false [] with paused := true }
def noWords : List Nat := []
def s00 : Site := ⟨0, 0⟩
def s10 : Site := ⟨1, 0⟩
def oneWord : List Nat := [0]

def reporting (done ends : List Nat) : XIf := { xif0 with phaseDone := done, ends := ends }
def noNat : List Nat := []

def taken (reports : List Nat) : Exch := { planned0 (some 0) [] with serving := 2, hasStandby := false, taking := true, reports := reports }
def after1 : XIf := { xif0 with serving := 2, failover := true, phaseDone := [0] }
/-- Both arbiters of the exchange have failed, or one of them. -/
def failed (l : List Nat) (x : Exch) (i : XIf) : State := { arbited x i with arbitersDown := l }

/-- A flow core at supervisor level with a capability register, general registers and 16 bytes at 0x1000. -/
def capped (x : Cap) (g2 g3 : W) (f : Core → Core := id) : State :=
  ((world .flow).modHere fun t => { t with mem := Mem.store t.mem 0x1000 (List.replicate 16 0x5A) }).modMe fun k => f (cs [(1, x), (2, x)] (gs [(2, g2), (3, g3)] (runs (fun a => { a with sup := true }) k)))
def body (s : State) (b : Body) : State := (inject (seen s) s.cur 4 2 .flow 0 b).getD s
def g00 : CoreId := ⟨⟨0, 0⟩, .flow⟩
def g10 : CoreId := ⟨⟨1, 0⟩, .flow⟩

def caplds : Enc := word .capld 1 2 0
def capsts : Enc := word .capst 1 2 0
def m00 : Site := ⟨0, 0⟩
def badCap : State := (capped cap2 0x1000 0).modHere fun t => { t with poison := [0x1008] }

def mints : Enc := word .capmint 1 2 3

def revokes : Enc := word .caprevoke 1 2 0

def wakes : Enc := word .wake 0 2 0
def haltcs : Enc := word .haltc 0 2 3
def inspects : Enc := word .inspect 1 2 3
def status5 : Body := .haltc (BitVec.ofNat 32 ((5 : W).toNat % 2 ^ 31 + 2 ^ 31))
/-- The region takes no packet. -/
def stalledRegion (s : State) : State := { s with regions := s.regions.map fun r => { r with stalled := true } }

def region5 (rev : Option CoreId) : Region := ⟨5, [(1, ⟨0, 0⟩), (2, ⟨1, 0⟩)], 7, 9, rev, 16, 0, false, false, (7, 9), [], []⟩
def revoking (rev : Option CoreId) : State :=
  { capped cap2 0 0 fun k => { k with req := some (.caprevoke 0), ans := none, wait := some ⟨.caprevoke (word .caprevoke 1 2 0), 0, true, [], []⟩ } with regions := [region5 rev] }

/-- An image of a flow core at 0x10000: its first word, and a value in g5. -/
def imaged (h g2 g3 : W) (f : Core → Core := id) : State := (capped cap2 g2 g3 f).modHere fun t => { t with
  mem := Mem.store (Mem.store t.mem 0x10000 (leBytes 8 h.toNat)) 0x10068 [9] }
def ctx : Enc := word .ctxload 0 2 0
def saves : Enc := word .ctxsave 0 2 0
def image704 : List (Site × Nat) := run m00 0x10000 704
/-- A suspended0 low activation, a result still to come, an image with a poisoned first word. -/
def suspended0 : State := imaged 0 0x10000 0 fun k => gs [(2, 0x10000)] { k with lowSusp := true, hi := { k.hi with act := k.lo.act } }
def awaiting : State := imaged 0 0x10000 0 fun k => { k with outst := [⟨1, .g, false, 5, 0, false, 0, none⟩] }
def badImage : State := (imaged 0x104358 0x10000 0).modHere fun t => { t with poison := [0x10000] }

def migrating (ans : Option W) (f : Tile → Tile := id) : State :=
  (capped cap2 0 0 fun k => { k with req := some .migr, ans := ans, wait := some ⟨.migr (word .migr 1 0 0), 0, true, [], []⟩ }).modHere f
/-- The same in a device of one row. -/
def inDevice (cols : Nat) (s : State) : State := { s with vdevs := [⟨0, 0, 0, cols, 1, [5], [], [], [], [16], 4⟩] }

/-- Queue context 4, whose ring of four slots is at 0x4000 of PASID 8, and edge memory with the words of a packet in its first slot. -/
def qctx4 (tail : BitVec 16) : QCtx := ⟨4, 0, 0, 0, 0, 8, 2, 0x4000, tail, 0, false, 3, true⟩
/-- A placement of tiles 1 and 2 as one cluster, with an image for tile 1. -/
def image1 : Image := ⟨[(0x8000, 0x5A), (0x8001, 0x14)], (0x8000, 0x8040), [(.flow, 3, 0x8000)], [(.flow, 3, 0x4000, 512)], [], []⟩
def place2 (adm : Option Nat) : Place := ⟨2, 0, 5, [[(1, 0), (2, 1)]], [(1, image1)], adm, false, 0⟩
def packet (w0 done : W) : List W := [w0, 11, 12, 0x77, done, 0, 0, 0]
def queued4 (tail : BitVec 16) (l : List W) (p : Option Nat) (ls : List Launch) (h : Core → Core := id) : State :=
  { on .flow h with
    qctxs := [qctx4 tail], pasids := [⟨8, false, 1⟩], tables := pages [(0x4000, 0x204000)], places := [place2 p], launches := ls,
    edge := Mem.store [] 0x204000 (l.flatMap fun x => leBytes 8 x.toNat) }
def good : List W := packet 0x830002 0x4100

def slot0 : Nat × Bool := (0x204000, false)
def done0 : Nat × Bool := (0x204100, false)

/-- Its launch at several points of its life. -/
def launch4 (adm : Bool) (sent tiles : List Site) (ends : List CoreId) : Launch :=
  ⟨4, 2, [(.flow, 3)], bytes16, 0x77, 0x4100, adm, sent, ends, tiles, 6, 1, false⟩
where
  /-- The arguments. -/
  bytes16 : List Byte := [11, 0, 0, 0, 0, 0, 0, 0, 12, 0, 0, 0, 0, 0, 0, 0]
def l00 : Site := ⟨0, 0⟩
def l10 : Site := ⟨1, 0⟩
def both2 : List Site := [⟨0, 0⟩, ⟨1, 0⟩]
def ended2 : List CoreId := [⟨⟨0, 0⟩, .flow⟩, ⟨⟨1, 0⟩, .flow⟩]
def live (l : Launch) (h : Core → Core := id) : State := queued4 0 [] (if l.admitted then some 4 else none) [l] h
def handles (k : Core) : Core := { k with halted := true, ctl := { k.ctl with task := vset k.ctl.task 3 0x100008000, ring := vset k.ctl.ring 3 (ringValue 0x100 0 true 0 0) } }
/-- An old ring of the core lies where the image's code window comes to lie. -/
def misplaced (k : Core) : Core := { k with ctl := { k.ctl with ring := vset k.ctl.ring 5 (ringValue 0x200 0 true 0 0) } }

def msg16 : List Byte := launch4.bytes16
def noHeld : List (Nat × W × List Byte) := []
def messaged (prod : Nat) (en : Bool) : State := on .flow fun k =>
  { k with heldLaunch := [(3, 0x400C00000077F010, msg16)], ctl := { k.ctl with ring := vset k.ctl.ring 3 (ringValue 0x100 0 en 0 prod) } }
def f00 : CoreId := ⟨⟨0, 0⟩, .flow⟩

def done2 : Launch := launch4 true both2 [] ended2
def leaves (t : Tile) : Tile := { t with left := [0, 1, 2] }
def closing (l : Launch) : State := ((live l).modTile ⟨0, 0⟩ leaves).modTile ⟨1, 0⟩ leaves
def cluster2 : List (Nat × Nat) := [(1, 0), (2, 1)]
def quiet4 : State := live done2 fun k => { k with lo := { k.lo with act := none }, blocked := Blocked.idle }
def moreTiles : Launch := launch4 true both2 [⟨0, 0⟩] ended2
def flying4 : Pkt := ⟨1, 5, 0, f00, 2, .tile, ⟨1, 0⟩, ⟨0, 0⟩, 0, .flow, 0, 0, 0, 0, 64, false, 0, 0, false, 0, [], .put 0x100 [1] []⟩

def t00 : Site := ⟨0, 0⟩
def t10 : Site := ⟨1, 0⟩
def t20 : Site := ⟨2, 0⟩
def booted (f : Tile → Tile := id) : State := { (world .flow).modHere f with booted := true }

def dev0 : VDev := ⟨3, 0, 0, 2, 1, [5], [4], [8], [6], [12], 2⟩

def region0 : Region := ⟨5, [(1, ⟨0, 0⟩), (2, ⟨1, 0⟩)], 7, 9, none, 16, 0, false, false, (7, 9), [], []⟩

/-- A placement of name 1, in memory or swapped out; its image is kept by island 3. -/
def place1 (sw : Bool) : Place := ⟨2, 0, 5, [[(1, 0)]], [], some 4, sw, 0⟩
def noAct (k : Core) : Core := { k with lo := { k.lo with act := none } }
def placing (sw : Bool) (saved : List Saved) (f : Core → Core := id) (h : Tile → Tile := id) : State :=
  { ((world .flow).modMe f).modHere h with booted := true, places := [place1 sw], saved := saved, owners := [⟨0, .fabric, []⟩, ⟨1, .fabric, []⟩] }
def saved1 : Saved := ⟨2, 5, 1, 3, [0, 1], { Tile.reset with bound := true, vni := 5, name := 1, mem := names }⟩

def moving (m h : Bool) (f : Core → Core := id) : State := { booted with places := [] }.modMe f |>.modHere fun t => { t with moving := m, hold := h, stopped := m }

def forwards (l : List Pkt) : State := { booted fun t => { t with fwd := some t20, stopped := true } with pkts := l }

/-- A frame of an EtherType, and ports with a rule that takes it. -/
def frame (n : Nat) : List Byte := List.replicate 12 2 ++ [0x88, 0xB5] ++ List.replicate n 3
def rule0 (w0 w3 : W) (x : Cap) : Rule := ⟨2, w0, x, w3, 0x4000, 0x810, 0x5000, 0, 0, 0, 0, 0, 0, 0x80, 0x40, true⟩
def takes0 : W := BitVec.ofNat 64 (1 + 4 + 0x88B5 * 2 ^ 22 + 4 * 2 ^ 54)
def port3 (r : Rule) : EthPort := ⟨3, [r], 0, [], [(1, [5]), (0, [6, 7]), (0, [8])], [2], [], [], [], 0⟩
def porting (r : Rule) (en : Bool) : State := { on .flow fun k => { k with
    recs := [⟨3, 0, 1, false, 24, 0, true⟩], ctl := { k.ctl with ring := vset k.ctl.ring 3 (ringValue 0x100 0 en 0 1) } } with
  ports := [port3 r], pasids := [⟨8, false, 1⟩], tables := pages [(0x4000, 0x204000), (0x5000, 0x205000)], owners := [⟨1, .fabric, []⟩], edge := Mem.store [] 0x205000 [0x50] }
def rule1 : Rule := rule0 takes0 3 cap1
def ruleX (paused : Bool) : Rule := { rule0 (takes0 + 0x20) (3 + 2 ^ 8) cap1 with paused := paused }
def ruleE (c : W) : Rule := { rule0 (takes0 + 0x1000000000000000) 3 cap1 with e2 := c }
def pl (n : Nat) : List Byte := List.replicate n 3

def f8 : List Byte := frame 8
/-- Another frame's last beat has come first to the merge point. -/
def later (r : Rule) : EthPort := { port3 r with tickets := [(frame 9, 2, 6)] }
def reached (r : Rule) : EthPort := { port3 r with tickets := [(f8, 2, 6)] }

def w3a : W := 3 + 5 * 2 ^ 8 + 2 * 2 ^ 23

def h00 : CoreId := ⟨⟨0, 0⟩, .flow⟩
/-- A core asks for a service about a block; 64-bit words at 0x10000 and above. -/
def asksFor (svc : Nat) (a : W) (ans : Option W) (l : List (Nat × W)) (h : State → State := id) : State :=
  h (((world .flow).modHere fun t => { t with mem := l.foldr (fun x m => Mem.store m x.1 (leBytes 8 x.2.toNat)) t.mem }).modMe fun k =>
    { k with req := some (.ecall svc a), ans := ans, wait := some ⟨.ecall (word .ecall 1 2 0), 0, true, [], []⟩ })
def block : W := 0x10000
def freq (f n : Nat) : List (Nat × W) := (List.range n).map fun i => (0x10008 + 8 * i, BitVec.ofNat 64 (f * 0x1000100010001))
def inDev (s : State) : State := { s with vdevs := [⟨0, 0, 0, 2, 1, [5], [4], [8], [], [16], 4⟩], ports := [port3 rule1] }
def storing (rd : W) : List (Nat × W) := [(0x10000, rd + 9 * 2 ^ 16), (0x10008, 0x1000), (0x10010, 0x4000), (0x10018, 0)]
/-- Queue context 4, whose launch runs here, and storage object 9 of 8 KiB. -/
def withObject (s : State) : State := { s.modMe (fun k => { k with launch := some 4 }) with
  storage := [⟨9, 0x2000, Mem.store [] 0x1000 [1, 2, 3], [], false⟩], qctxs := [⟨4, 0, 0, 0, 0, 8, 2, 0x4000, 0, 0, false, 3, true⟩], pasids := [⟨8, false, 1⟩], tables := pages [(0x4000, 0x204000)] }
def obj9 : Storage := ⟨9, 0x2000, Mem.store [] 0x1000 [1, 2, 3], [], false⟩
def withBad (s : State) : State := { withObject s with storage := [{ obj9 with fails := true }] }
def noPl : List (Nat × Nat × Nat × Bool) := []
def onePage : List (Nat × Nat × Nat × Bool) := [(0, 0x1000, 0x204000, false)]

def slow : State := { world .flow with plan := List.replicate 83 1600 }

def stage1 : FwStage := ⟨[], [], [], 0⟩
def p00 : Site := ⟨0, 0⟩
def p10 : Site := ⟨1, 0⟩
def fused0 : List Site := [⟨3, 3⟩, ⟨200, 0⟩]
def failed0 : List Site := [⟨0, 0⟩]
def pktTo (d : Site) : Pkt := ⟨1, 5, 0, ⟨p00, .flow⟩, 2, .tile, d, p00, 0, .flow, 0, 0, 0, 0, 64, false, 0, 0, false, 0, [], .put 0x100 [1] []⟩

def noBytes : List Byte := []
def selOne : State := (world .flow).modHere fun t => { t with router := { t.router with sel := [5], fails := 2 } }
def stagedAt (e : Nat) (l : List Pkt) (b : Bool) : State := { (world .flow).modHere fun t => { t with router := { t.router with staged := true, epoch1 := e, vnis := [5], routers := [⟨0, 0⟩] } } with
  pkts := l, regions := [⟨5, [(1, ⟨0, 0⟩), (2, ⟨1, 0⟩)], 7, 9, none, 16, 0, false, b, (7, 9), [], []⟩] }
def r00 : List Site := [p00]
def v5 : List Nat := [5]

def linked (replays tries : Nat) (down returned barred : Bool) : State :=
  { world .flow with links := [⟨0, ⟨4, replays, []⟩, ⟨0, 0, []⟩, down, tries, returned, barred⟩] }
def flit : List Byte := [1, 2, 3]

/-- The form writes g[a] itself. -/
def writesA (i : Instr) : Bool := match i with
  | .st _ | .stn _ | .bop _ | .bopw _ => false
  | _ => true

/-- A device that is the first virtual function of host link 0, with MSI-X vectors, a CXL.mem window and a queue context. -/
def outer : State := { world .flow with
  vdevs := [⟨0, 0, 0, 2, 1, [5], [4, 5], [8], [], [16], 4⟩], funcs := [⟨0, 1, 4, [(1, 0x80000000, 0)], [1, 2], [(0x200000, 0x200000)]⟩]
  qctxs := [⟨4, 0, 0, 1, 0, 8, 4, 0x4000, 0, 0, false, 3, true⟩], pasids := [⟨8, false, 1⟩], tables := pages [(0x4000, 0x204000)]
  edge := Mem.store [] 0x204000 [5, 6, 7], storage := [obj9] }
/-- The fabric owns the region of the window. -/
def outerF : State := { outer with owners := [⟨1, .fabric, []⟩] }
/-- The first upward tree link of island 0 is down. -/
def treeDown : State := { world .flow with links := [⟨95256, ⟨0, 0, []⟩, ⟨0, 0, []⟩, true, 0, false, false⟩] }

/-! ## Lemmas that show a hypothesis without evaluating all of it -/

theorem ok_of {ε α : Type} {e : Except ε α} {x : α} (h : e.toOption = some x) : e = .ok x := by
  cases e with
  | error _ => cases h
  | ok y => exact congrArg _ (Option.some.inj h)
theorem error_of {ε α : Type} {e : Except ε α} {x : ε} (h : (e.casesOn some fun _ => none) = some x) : e = .error x := by
  cases e with
  | error y => exact congrArg _ (Option.some.inj h)
  | ok _ => cases h
theorem next_of {i : Instr} {s : State} (h : isNext i s = true) : exec i s = .next (after i s) := by
  unfold isNext at h
  unfold after afterO
  split at h
  · next t e => rw [e]
  · cases h
/-- Words of a tile, with no code window and no ROWIN. -/
theorem addrFault_plain {s : State} {a : Nat} {wr : Bool}
    (h : a % 8 = 0 ∧ (a < 0x002C0000 ∨ (a < 0x00300000 ∧ s.me.sup = true)) ∧
      s.me.ctl.xbound.toNat ≤ s.me.ctl.codeBase.toNat ∧ s.me.ctl.rowinHi.toNat ≤ s.me.ctl.rowinLo.toNat) : addrFault s a 8 wr false = none := by
  obtain ⟨h1, h2, h3, h4⟩ := h
  have h5 : a < 0x00300000 := by omega
  unfold addrFault
  rw [if_neg (by omega), if_pos h5, if_neg, if_neg (by omega), if_neg (by omega)]
  rintro ⟨x, y⟩
  obtain h | h := h2
  · omega
  · rw [h.2] at y; cases y
/-- Words from `a` lie in tile memory that the activation may access, with no window. -/
abbrev plainWords (s : State) (a : W) (n : Nat) : Prop :=
  a.toNat % 8 = 0 ∧ (a.toNat + 8 * n ≤ 0x002C0000 ∨ (a.toNat + 8 * n ≤ 0x00300000 ∧ s.me.sup = true)) ∧
    s.me.ctl.xbound.toNat ≤ s.me.ctl.codeBase.toNat ∧ s.me.ctl.rowinHi.toNat ≤ s.me.ctl.rowinLo.toNat
theorem plainWords_fault {s : State} {a : W} {n : Nat} (h : plainWords s a n) (wr : Bool) (j : Nat) (hj : j < n) :
    addrFault s (a + BitVec.ofNat 64 (8 * j)).toNat 8 wr false = none := by
  obtain ⟨h1, h2, h3⟩ := h
  have e : (a + BitVec.ofNat 64 (8 * j)).toNat = a.toNat + 8 * j := by
    rw [BitVec.toNat_add, BitVec.toNat_ofNat]; omega
  refine addrFault_plain ⟨by omega, ?_, h3⟩
  rw [e]
  obtain h | h := h2
  · left; omega
  · right; exact ⟨by omega, h.2⟩
theorem localWords_of {s : State} {a : W} {n : Nat} {wr : Bool} (h : plainWords s a n) : localWords s a n wr :=
  ⟨by have := h.2.1; omega, fun j hj => plainWords_fault h wr j hj⟩
/-- A block in such words, while no packet is under way. -/
theorem blockAt_of {s : State} {a : W} {n o : Nat} {wr : Bool} {site : Site}
    (h : plainWords s a n ∧ s.pkts = [] ∧ site = s.cur.site ∧ o = a.toNat) : blockAt s a n wr (run site o n) := by
  obtain ⟨h, hp, rfl, rfl⟩ := h
  refine ⟨by simp [run], fun j hj => ?_⟩
  have e : (a + BitVec.ofNat 64 (8 * j)).toNat = a.toNat + 8 * j := by
    rw [BitVec.toNat_add, BitVec.toNat_ofNat]; have := h.2.1; omega
  have hb : (a + BitVec.ofNat 64 (8 * j)).toNat < 0x00300000 := by have := h.2.1; omega
  have ht : target s (a + BitVec.ofNat 64 (8 * j)).toNat = some (s.cur.site, (a + BitVec.ofNat 64 (8 * j)).toNat) := if_pos hb
  refine ⟨plainWords_fault h wr j hj, by simp [ramoPending, ramoHits, hp], fun hr => ?_, by rw [ht]; rfl, by rw [ht]; simp [run, hj, e]⟩
  unfold isRemote at hr
  rw [decide_eq_false (by omega)] at hr
  cases hr
theorem blockReads_of {s : State} {a : W} {n : Nat} {ws : List W} (h : plainWords s a n ∧ s.pkts = [] ∧ s.here.poison = [])
    (hw : ws = (run s.cur.site a.toNat n).map (wordOf s)) : blockReads s a n ws := by
  refine ⟨_, blockAt_of ⟨h.1, h.2.1, rfl, rfl⟩, ?_, hw⟩
  intro p hp
  obtain ⟨j, -, rfl⟩ := List.mem_map.mp hp
  change (s.here).badWords _ 8 = []
  unfold Tile.badWords Tile.bad
  rw [h.2.2]
  rfl
theorem descReads_none {s : State} {a : W} {b : Bool} {d : List W} (h : blockReads s a 3 d)
    (hd : descBad s s.here.vni d b = true ∨ dList d = false) : descReads s a b d [] :=
  ⟨h, by rw [if_pos hd]⟩
theorem descReads_list {s : State} {a : W} {b : Bool} {d ws : List W} {l : List (BitVec 32)} (h : blockReads s a 3 d)
    (hd : ¬(descBad s s.here.vni d b = true ∨ dList d = false)) (hl : blockReads s (dListAddr d) (ceilDiv (dCount d) 2) ws)
    (he : l = entriesOf (dCount d) ws) : descReads s a b d l :=
  ⟨h, by rw [if_neg hd]; exact ⟨ws, hl, he⟩⟩
theorem all_of {α : Type} {l : List α} {P : α → Prop} [DecidablePred P] (h : l.all (fun x => decide (P x)) = true) : ∀ a, a ∈ l → P a := by
  simpa using h
theorem any_of {α : Type} {l : List α} {P : α → Prop} [DecidablePred P] (h : l.any (fun x => decide (P x)) = true) : ∃ a, a ∈ l ∧ P a := by
  simpa using h
theorem below_of {α : Type} {l : List α} {i : Nat} {P : α → Prop} (h : ∀ y ∈ l.take i, P y) : ∀ j y, j < i → l[j]? = some y → P y := by
  intro j y hj hy
  exact h y (List.mem_of_getElem? (i := j) (by rw [List.getElem?_take, if_pos hj]; exact hy))
theorem upTo_of {lo n : Nat} {P : Nat → Prop} (h : ∀ j, j < n → P (lo + j)) : ∀ b, lo ≤ b → b < lo + n → P b := by
  intro b h1 h2
  have := h (b - lo) (by omega)
  rwa [Nat.add_sub_cancel' h1] at this
theorem between_of {lo hi : Nat} {P : Nat → Prop} (h : ∀ j, j < hi + 1 - lo → P (lo + j)) : ∀ b, lo ≤ b → b ≤ hi → P b := by
  intro b h1 h2
  have := h (b - lo) (by omega)
  rwa [Nat.add_sub_cancel' h1] at this
theorem under_of {lo hi : Nat} {P : Nat → Prop} (h : ∀ j, j < hi - lo → P (lo + j)) : ∀ b, lo ≤ b → b < hi → P b := by
  intro b h1 h2
  have := h (b - lo) (by omega)
  rwa [Nat.add_sub_cancel' h1] at this
theorem foot_of {i : Instr} {cfg : W} {P : Nat → Nat → Bool → Prop} (h : ∀ x ∈ (footOf i cfg).toList, P x.1 x.2.1 x.2.2) :
    ∀ n len st, footOf i cfg = some (n, len, st) → P n len st := by
  intro n len st e
  rw [e] at h
  exact h (n, len, st) (List.mem_singleton.mpr rfl)
theorem slot_of {α : Type} {m : Nat} {f : Nat → Option α} {P : α → Prop} (h : ∀ n, n < m → ∀ r ∈ (f n).toList, P r) :
    ∀ n r, n < m → f n = some r → P r := by
  intro n r hn e
  have := h n hn
  rw [e] at this
  exact this r (List.mem_singleton.mpr rfl)
theorem kinds_of {P : CoreKind → Prop} (h : P .flow ∧ P .shape ∧ P .math) : ∀ k, P k := by
  intro k
  cases k
  · exact h.1
  · exact h.2.1
  · exact h.2.2
theorem streams_of {v : Vector Stream 4} (h : v = Vector.replicate 4 ⟨none, 0⟩) : ∀ m, 12 ≤ m → (vget v (m - 12)).chan = none := by
  intro m _
  subst h
  simp [vget]
/-- An instance in progress, as a test. -/
def progressing (k : Core) : Bool :=
  k.coll.any fun y => y.usable && y.state != 4 && y.state != 5 && y.state != 6 && !(y.state == 3 && y.norerun)
theorem progressing_iff (k : Core) : progressing k = true ↔ inProgress k := by
  unfold progressing inProgress
  cases k.coll with
  | none => simp
  | some y =>
    by_cases h : y.state = 3
    · simp [h]
    · simp [h, and_assoc]
theorem inProgress_of {k : Core} (h : progressing k = true) : inProgress k := (progressing_iff k).mp h
theorem idle_of {k : Core} (h : progressing k = false) : ¬inProgress k := fun x => by rw [(progressing_iff k).mpr x] at h; cases h
/-- A binding map entry that names no move, as a test. -/
def still (x : Entry) : Bool := match x with
  | .moving _ => false
  | _ => true
theorem ownBound_of {s : State} {t : Site} (h : still (resolve (s.tile t) (s.tile t).name) = true) : ownBound s t := by
  intro d e
  rw [e] at h
  cases h
theorem canInject_of {u : State} {vc name chan : Nat} {kind : CoreKind} {body : Body}
    (h : u.me.reserved + reserveSize body ≤ 65536 ∧ u.pkts = [] ∧ (u.region u.here.vni).all (!·.stalled) = true ∧
      still (resolve u.here name) = true) : canInject u vc name kind chan body := by
  obtain ⟨h1, h2, h3, h4⟩ := h
  refine ⟨h1, fun q hq => ?_, fun r hr => ?_, fun d e => ?_⟩
  · rw [h2] at hq; cases hq
  · rw [hr] at h3; simpa using h3
  · rw [e] at h4; cases h4
/-- The seal of `cap2`. -/
theorem seal_cap2 : sealOf 7 cap2.toNat = cseal cap2 := by decide +kernel
theorem capOk_cap2 {s : State} {c : Cap} {r : Nat} {chan : Option Nat}
    (h : c = cap2 ∧ s.here.vni = 5 ∧ s.keysOf 5 (some s.cur.site) = (7, 9) ∧ cright c r = true ∧ ∀ n ∈ chan.toList, cclo c ≤ n ∧ n ≤ cchi c) :
    capOk s c r chan = true := by
  obtain ⟨rfl, h1, h2, h3, h4⟩ := h
  have e : cvni cap2 = 5 := by decide +kernel
  have hs : sealCheckIn s 5 cap2 (some s.cur.site) = some false := by
    unfold sealCheckIn
    rw [if_neg (by decide +kernel), e]
    simp only [h2]
    exact if_pos seal_cap2.symm
  unfold capOk capCheck capCheckIn
  refine (Bool.or_eq_true ..).mpr (.inr ?_)
  change (match sealCheckIn s s.here.vni cap2 (some s.cur.site) with | none => some 0x0D | some _ => _).isNone = true
  rw [h1, hs]
  simp only [h3]
  cases chan with
  | none => rfl
  | some n => simp [if_pos (h4 n (List.mem_singleton.mpr rfl))]
/-- The first sixteen names of region 5 of a state with `regions` of its own. -/
theorem names_inj {s : State} {vni : Nat} (h : s.region vni = some ⟨5, [(1, ⟨0, 0⟩), (2, ⟨1, 0⟩)], 7, 9, none, 16, 0, false, false, (7, 9), [], []⟩) :
    ∀ (n m : Nat) (x y : Site), s.siteOfName vni n = some x → s.siteOfName vni m = some y → Site.num x = Site.num y → n = m := by
  intro n m x y hx hy e
  unfold State.siteOfName at hx hy
  rw [h] at hx hy
  have two : ∀ (n : Nat) (x : Site), lookup [(1, (⟨0, 0⟩ : Site)), (2, ⟨1, 0⟩)] n = some x → Site.num x + 1 = n := by
    intro n x h
    unfold lookup lookup lookup at h
    split at h
    · cases h; subst n; rfl
    · split at h
      · cases h; subst n; rfl
      · cases h
  rw [← two n x hx, ← two m y hy, e]
theorem grid_of {P : Nat → Prop} (h : ∀ a, a < 126 → ∀ b, b < 126 → P (126 * a + b)) : ∀ n, n < 126 * 126 → P n := by
  intro n hn
  have := h (n / 126) (by omega) (n % 126) (by omega)
  rwa [Nat.div_add_mod] at this
theorem none_of {α : Type} {l : List α} {P : α → Prop} (h : l = []) : ∀ x, x ∈ l → P x := by
  subst h
  intro x hx
  cases hx
theorem noneIn_of {α β : Type} {l : List α} {f : α → List β} {P : α → β → Prop} (h : ∀ v ∈ l, f v = []) : ¬∃ v, v ∈ l ∧ ∃ u, u ∈ f v ∧ P v u := by
  rintro ⟨v, hv, u, hu, -⟩
  rw [h v hv] at hu
  cases hu
theorem oneMember {u : State} {b name : Nat} {f : Nat → Nat} (h : ∀ k, k < b → (memberAt u.here (f k)).all (·.2 == name) = true) :
    ∀ (k m' other : Nat), k < b → isRemote u (f k) = true → memberAt u.here (f k) = some (m', other) → other = name := by
  intro k m' other hk _ e
  simpa [e] using h k hk
theorem kinds_all {P : Site → CoreKind → Prop} {l : List Site} [∀ x k, Decidable (P x k)]
    (h : l.all (fun x => decide (P x .flow ∧ P x .shape ∧ P x .math)) = true) : ∀ x, x ∈ l → ∀ k, P x k := by
  intro x hx k
  have := List.all_eq_true.mp h x hx
  exact kinds_of (of_decide_eq_true this) k
theorem vdev_alone {s : State} {vni : Nat} {t : Site} (hg : s.grid vni = (0, 0, 1, 1)) (hv : inVdev s vni t = true) : t.x = 0 ∧ t.y < 14 := by
  unfold inVdev at hv
  rw [hg] at hv
  unfold logOf at hv
  by_cases k : t.y % 14 = skipRow s.dead t.x (t.y / 14)
  · simp [k] at hv
  · simp only [k, if_false, decide_eq_true_eq] at hv
    omega
theorem isEmpty_alone {s : State} {vni : Nat} {c : Site} (hg : s.grid vni = (0, 0, 1, 1))
    (h : ∀ y, y < 14 → ¬(siteOf (126 * y) ≠ c ∧ freeTile s vni (siteOf (126 * y)) = true)) :
    ¬∃ n, n < 126 * 126 ∧ siteOf n ≠ c ∧ freeTile s vni (siteOf n) = true := by
  rintro ⟨n, -, h1, h2⟩
  have hv : inVdev s vni (siteOf n) = true := by
    unfold freeTile at h2
    simp only [Bool.and_eq_true] at h2
    exact h2.1.2
  have := vdev_alone hg hv
  have : n % 126 = 0 ∧ n / 126 < 14 := this
  have e : n = 126 * (n / 126) := by omega
  exact h (n / 126) this.2 (by rw [← e]; exact ⟨h1, h2⟩)
theorem found_of {α : Type} {o : Option α} {P : α → Prop} (h : ∀ y ∈ o.toList, P y) : ∀ y, o = some y → P y := by
  rintro y rfl
  exact h y (List.mem_singleton.mpr rfl)
theorem some_of {α : Type} {x : Option α} {d : α} (h : x.isSome = true) : x = some (x.getD d) := by
  cases x with
  | none => cases h
  | some _ => rfl
theorem moving_of {x : Entry} (h : still x = false) : ∃ d, x = .moving d := by
  cases x <;> first | exact ⟨_, rfl⟩ | cases h
theorem inactive_of {p : W} {m : Nat} {B : Nat → Prop} (h : ∀ j, j < m → p.getLsbD j = false) : ∀ j, ¬(j < m ∧ p.getLsbD j = true ∧ B j) := by
  rintro j ⟨hm, hp, -⟩
  rw [h j hm] at hp
  cases hp
theorem ramo_none {s : State} (h : s.pkts = []) (f : Nat → Nat) (m : Nat) : ∀ j, j < m → ramoPending s (f j) 8 = false := by
  intro j _
  simp [ramoPending, ramoHits, h]
theorem accessor_of {l : List (Bool × Accessor)} {f : Bool} (h : l.all (fun x => x.1 != f || x.2 == .other) = true) : ∀ k, (f, k) ∈ l → k = .other := by
  intro k hk
  simpa using List.all_eq_true.mp h _ hk
theorem residual_none {o : Option Post} {P : Post → Nat × Nat × Nat → Prop} (h : o.all (·.residual.isEmpty) = true) :
    ¬∃ p q, o = some p ∧ q ∈ p.residual ∧ P p q := by
  rintro ⟨p, q, rfl, hq, -⟩
  rw [List.isEmpty_iff.mp h] at hq
  cases hq
/-- The site that a binding map entry binds, as a test. -/
def atBound (x : Entry) (f : Site → Bool) : Bool := match x with
  | .bound d => f d
  | _ => true
theorem bound_of {x : Entry} {P : Site → Prop} [DecidablePred P] (h : atBound x (fun d => decide (P d)) = true) : ∀ d, x = .bound d → P d := by
  rintro d rfl
  exact of_decide_eq_true h
theorem ends_of {o : Option (Site × Site)} {P : Site → Site → Prop} (h : ∀ x ∈ o.toList, P x.1 x.2) : ∀ a b, o = some (a, b) → P a b := by
  rintro a b rfl
  exact h _ (List.mem_singleton.mpr rfl)
theorem before_of {j : Nat} {f : Nat → Option (Site × Nat)} {P : Site → Nat → Prop} (h : ∀ k, k < j → ∀ x ∈ (f k).toList, P x.1 x.2) :
    ∀ (k : Nat) (site : Site) (o : Nat), k < j → f k = some (site, o) → P site o := by
  intro k site o hk e
  have := h k hk
  rw [e] at this
  exact this _ (List.mem_singleton.mpr rfl)

/-! ## The hypotheses of the obligations are met -/

/-- States and operands that meet the hypotheses of `DecodeOfEncode`, clause by clause. -/
theorem meets_DecodeOfEncode :
  let i : Instr := (Instr.vadd ⟨true, 2, some 4, none, some 0x08, none, [], 0x05DC⟩);
    let rest : List (BitVec 16) := [0x1234];
    wellFormed i = true :=
  by decide +kernel

/-- States and operands that meet the hypotheses of `DecodedIsWellFormed`, clause by clause. -/
theorem meets_DecodedIsWellFormed :
  let ws : List (BitVec 16) := [0x014C, 0x1234];
    let i : Instr := (Instr.add (.plain 0x014C));
    let rest : List (BitVec 16) := [0x1234];
    decodeWords ws = Except.ok (i, rest) :=
  ok_of (by decide +kernel)

/-- States and operands that meet the hypotheses of `EmptyCellsRejected`, clause by clause. -/
theorem meets_EmptyCellsRejected :
  (let page : Nat := 8;
    (8 ≤ page)) ∧
  (let f : Nat := 3;
    (f < 4)) ∧
  (let p : BitVec 4 := 8;
    let base : BitVec 16 := 0x9000;
    (isHead base = false) ∧ (emptyCell p.toNat (Enc.plain base).op (Enc.plain base).f = true)) ∧
  (let base : BitVec 16 := 0xF003;
    (isHead base = false) ∧ (emptyCell 0 (Enc.plain base).op (Enc.plain base).f = true)) :=
  by and_intros <;> decide +kernel

/-- States and operands that meet the hypotheses of `StepRunsTheDecodedInstruction`, clause by clause. -/
theorem meets_StepRunsTheDecodedInstruction :
  (let s : State := (State.reset.withFetchWord 16 0x014C);
    let u : State := ((State.reset.withFetchWord 16 0x014C).tick ⟨0,0⟩ 1);
    let i : Instr := (Instr.add (.plain 0x014C));
    ((turnOf s = some u) ∧ (boundaryQuiet u = true)) ∧
    (holdsInstr u i)) ∧
  (let s : State := rewritten;
    let u : State := (rewritten.tick ⟨0,0⟩ 1);
    let i : Instr := (Instr.add (.plain 0x014C));
    ((turnOf s = some u) ∧ (boundaryQuiet u = true)) ∧
    (fetch u.here u.me u.fresh = Except.ok i)) ∧
  ((let t : Tile := rewritten.here;
    let c : Core := rewritten.me;
    let no : Nat := 5;
    let a : Nat := 0x8000;
    ((staleWords t c a).any fun x => x.torn) = false) ∧
  (let s : State := outsideTurn;
    let x : Outside := (Outside.setPowerCap 20000);
    let dt : Nat := 2;
    let r : List Move := ([] : List Move);
    s.moves = { turn := Turn.outside x, dt := dt } :: r) ∧
  (let s : State := agentTurn;
    let i : Instr := (Instr.fpModeWrite 0);
    let dt : Nat := 2;
    let r : List Move := ([] : List Move);
    (s.moves = { turn := Turn.agent i, dt := dt } :: r) ∧ (encOf i = none)) ∧
  (let s : State := badTurn;
    let i : Instr := (Instr.add (.plain 0x014C));
    let dt : Nat := 2;
    let r : List Move := ([] : List Move);
    (s.moves = { turn := Turn.agent i, dt := dt } :: r) ∧ ((encOf i).isSome = true))) :=
  ⟨⟨by decide +kernel, ⟨by decide +kernel, by decide +kernel, ok_of (by decide +kernel)⟩⟩,     ⟨by decide +kernel, ok_of
      (by decide +kernel)⟩,     by and_intros <;> decide +kernel⟩

/-- States and operands that meet the hypotheses of `ScalarFormsComplete`, clause by clause. -/
theorem meets_ScalarFormsComplete :
  (let i : Instr := (Instr.add (word .add 1 2 3));
    let e : Enc := (word .add 1 2 3);
    let s : State := small;
    let f : RFile := (RFile.g);
    let x : W := (12 : W);
    (encOf i = some e) ∧ (clear i s = true) ∧ (scalarValue i (seen s).me (seen s).here = some (f, x))) ∧
  (let i : Instr := (Instr.slli (imms [1] (word .slli 1 2 7)));
    let e : Enc := (imms [1] (word .slli 1 2 7));
    let s : State := small;
    let f : RFile := (RFile.g);
    let x : W := ((5:W) <<< 60);
    (encOf i = some e) ∧ (clear i s = true) ∧ (scalarValue i (seen s).me (seen s).here = some (f, x))) :=
  by and_intros <;> decide +kernel

/-- States and operands that meet the hypotheses of `BinsCompletes`, clause by clause. -/
theorem meets_BinsCompletes :
  (let e : Enc := (imms [0x40, 0x00] (word .bins 1 2 0));
    let s : State := (on .flow (gs [(1, 5), (2, 7)]));
    (clear (Instr.bins e) s = true) ∧ (specOk (fieldSpec e (seen s).me) = true)) ∧
  (let e : Enc := (imms [0x01, 63] (word .bins 1 2 0));
    let s : State := (on .flow (gs [(1, 5), (2, 7)]));
    (clear (Instr.bins e) s = true) ∧ (specOk (fieldSpec e (seen s).me) = true)) :=
  by and_intros <;> decide +kernel

/-- States and operands that meet the hypotheses of `ScalarTraps`, clause by clause. -/
theorem meets_ScalarTraps :
  (let e : Enc := (imms [8] (word .slli 1 2 0));
    let s : State := (world .flow);
    (mayIssue (Instr.slli e) s = true) ∧ (64 ≤ e.immU Fmt.ri)) ∧
  (let e : Enc := (imms [2] (word .srli 1 2 0));
    let s : State := (world .flow);
    (mayIssue (Instr.srli e) s = true) ∧ (64 ≤ e.immU Fmt.ri)) ∧
  (let e : Enc := (imms [2] (word .srai 1 2 0));
    let s : State := (world .flow);
    (mayIssue (Instr.srai e) s = true) ∧ (64 ≤ e.immU Fmt.ri)) ∧
  (let e : Enc := (imms [1, 0, 0, 0] (word .lih 1 0 0));
    let s : State := (world .flow);
    (mayIssue (Instr.lih e) s = true) ∧ (2 ^ 32 ≤ e.immU Fmt.i8)) ∧
  (let i : Instr := (Instr.bext (imms [0x41, 0] (word .bext 1 2 0)));
    let e : Enc := (imms [0x41, 0] (word .bext 1 2 0));
    let s : Machine.State := (world .flow);
    (i = Instr.bext e ∨ i = Instr.bexts e ∨ i = Instr.bins e) ∧ (mayIssue i s = true) ∧ (e.imms.isEmpty = false) ∧ (specOk e.immHigh = false)) ∧
  (let i : Instr := (Instr.bins (word .bins 1 2 3));
    let e : Enc := (word .bins 1 2 3);
    let s : Machine.State := (on .flow (gs [(3, 0x4001)]));
    (i = Instr.bext e ∨ i = Instr.bexts e ∨ i = Instr.bins e) ∧ (clear i s = true) ∧ (e.imms.isEmpty = true) ∧ (specOk (BitVec.toNat ((seen s).me.g
      e.c)) = false)) :=
  by and_intros <;> decide +kernel

/-- States and operands that meet the hypotheses of `ControlTransfers`, clause by clause. -/
theorem meets_ControlTransfers :
  (let i : Instr := (Instr.jr (word .jr 0 2 0));
    let e : Enc := (word .jr 0 2 0);
    let s : State := (on .flow (gs [(2, 0x8000)]));
    let target : W := (0x8000 : W);
    let link : Option Nat := (none : Option Nat);
    (encOf i = some e) ∧ (clear i s = true) ∧ (transferTo i (seen s).me = some (target, link)) ∧ (BitVec.getLsbD target 0 = false)) ∧
  (let i : Instr := (Instr.jalr (word .jalr 2 2 0));
    let e : Enc := (word .jalr 2 2 0);
    let s : State := (on .flow (gs [(2, 0x8001)]));
    let target : W := (0x8001 : W);
    let link : Option Nat := (some 2 : Option Nat);
    (encOf i = some e) ∧ (clear i s = true) ∧ (transferTo i (seen s).me = some (target, link)) ∧ (BitVec.getLsbD target 0 = true)) ∧
  (let i : Instr := (Instr.bt (word .bt 2 0 0));
    let e : Enc := (word .bt 2 0 0);
    let s : State := (world .flow);
    (encOf i = some e) ∧ (clear i s = true) ∧ (isBranch i = true) ∧ (transferTo i (seen s).me = none)) :=
  by and_intros <;> decide +kernel

/-- States and operands that meet the hypotheses of `IssueChecks`, clause by clause. -/
theorem meets_IssueChecks :
  (let i : Instr := (Instr.ctxsave (word .ctxsave 0 1 0));
    let r : Row := (row .ctxsave);
    let e : Enc := (word .ctxsave 0 1 0);
    let s : State := (world .flow);
    (rowOf i = some r) ∧ (encOf i = some e) ∧ (s.me.act.isSome = true) ∧ (r.sv = true ∧ s.me.sup = false)) ∧
  (let i : Instr := (Instr.dpost (word .dpost 0 1 0));
    let r : Row := (row .dpost);
    let e : Enc := (word .dpost 0 1 0);
    let s : State := (world .math);
    (rowOf i = some r) ∧ (encOf i = some e) ∧ (s.me.act.isSome = true) ∧ (¬(r.sv = true ∧ s.me.sup = false)) ∧ (∃ k, r.rights = some k ∧ k ≠
      s.cur.kind)) ∧
  (let i : Instr := (Instr.mma (word .mma 0 1 0));
    let r : Row := (row .mma);
    let e : Enc := (word .mma 0 1 0);
    let s : State := (world .flow);
    (rowOf i = some r) ∧ (encOf i = some e) ∧ (s.me.act.isSome = true) ∧ (¬(r.sv = true ∧ s.me.sup = false)) ∧ (∃ k, r.rights = some k ∧ k ≠
      s.cur.kind)) ∧
  (let i : Instr := (Instr.vadd (word .vadd 0 1 0));
    let r : Row := (row .vadd);
    let e : Enc := (word .vadd 0 1 0);
    let s : State := highShape;
    (rowOf i = some r) ∧ (encOf i = some e) ∧ (s.me.act.isSome = true) ∧ (byIndex i = false) ∧ (¬(r.sv = true ∧ s.me.sup = false)) ∧ (¬∃ k,
      r.rights = some k ∧ k ≠ s.cur.kind) ∧ (s.me.lev = true ∧ 2 ≤ r.page ∧ r.page ≤ 5)) ∧
  (let i : Instr := (Instr.zclr (word .zclr 0 0 0));
    let r : Row := (row .zclr);
    let e : Enc := (word .zclr 0 0 0);
    let s : State := superMath;
    (rowOf i = some r) ∧ (encOf i = some e) ∧ (s.me.act.isSome = true) ∧ (byIndex i = false) ∧ (¬(r.sv = true ∧ s.me.sup = false)) ∧ (¬∃ k,
      r.rights = some k ∧ k ≠ s.cur.kind) ∧ (¬(s.me.lev = true ∧ 2 ≤ r.page ∧ r.page ≤ 5)) ∧ (r.page = 4 ∧ (s.me.sup = true ∧ s.here.claimed
      = false ∧ isClaim i = false ∨ s.me.sup = false ∧ s.here.claimed = true))) ∧
  (let i : Instr := (Instr.slli (imms [8] (word .slli 1 2 0)));
    let r : Row := (row .slli);
    let e : Enc := (imms [8] (word .slli 1 2 0));
    let s : State := (world .flow);
    (rowOf i = some r) ∧ (encOf i = some e) ∧ (s.me.act.isSome = true) ∧ (byIndex i = false) ∧ (¬(r.sv = true ∧ s.me.sup = false)) ∧ (¬∃ k,
      r.rights = some k ∧ k ≠ s.cur.kind) ∧ (¬(s.me.lev = true ∧ 2 ≤ r.page ∧ r.page ≤ 5)) ∧ (¬(r.page = 4 ∧ (s.me.sup = true ∧
      s.here.claimed = false ∧ isClaim i = false ∨ s.me.sup = false ∧ s.here.claimed = true))) ∧ (rowBad r e = true ∨ formOk i = false)) :=
  by and_intros <;> decide +kernel

/-- States and operands that meet the hypotheses of `Products`, clause by clause. -/
theorem meets_Products :
  (let e : Enc := (word .mul 1 2 3);
    let s : State := small;
    clear (Instr.mul e) s = true) ∧
  (let e : Enc := (word .mulh 1 2 3);
    let s : State := (on .flow (gs [(2, -5), (3, 7)]));
    clear (Instr.mulh e) s = true) ∧
  (let e : Enc := (word .mulhu 1 2 3);
    let s : State := (on .flow (gs [(2, -5), (3, 7)]));
    clear (Instr.mulhu e) s = true) :=
  by and_intros <;> decide +kernel

/-- States and operands that meet the hypotheses of `MinAndMax`, clause by clause. -/
theorem meets_MinAndMax :
  (let e : Enc := (word .min 1 2 3);
    let s : State := signs;
    clear (Instr.min e) s = true) ∧
  (let e : Enc := (word .max 1 2 3);
    let s : State := signs;
    clear (Instr.max e) s = true) ∧
  (let e : Enc := (word .minu 1 2 3);
    let s : State := signs;
    clear (Instr.minu e) s = true) ∧
  (let e : Enc := (word .maxu 1 2 3);
    let s : State := signs;
    clear (Instr.maxu e) s = true) :=
  by and_intros <;> decide +kernel

/-- States and operands that meet the hypotheses of `PredicateFalse`, clause by clause. -/
theorem meets_PredicateFalse :
  let i : Instr := (Instr.ld (pred 1 (word .ld 1 2 0)));
    let r : Row := (row .ld);
    let e : Enc := (pred 1 (word .ld 1 2 0));
    let s : State := (world .flow);
    (rowOf i = some r) ∧ (encOf i = some e) ∧ (mayIssue i s = true) ∧ ((readsP e).all (readable (seen s).me) = true) ∧ (formOk i = true) ∧
      (byIndex i = false) ∧ (byLane i r = false) ∧ (BitVec.getLsbD ((seen s).me.pred e) 0 = false) :=
  by decide +kernel

/-- States and operands that meet the hypotheses of `OperandsNotReady`, clause by clause. -/
theorem meets_OperandsNotReady :
  (let i : Instr := (Instr.add (word .add 1 2 3));
    let r : Row := (row .add);
    let e : Enc := (word .add 1 2 3);
    let s : State := waiting;
    let l : List (RFile × Nat) := ([] : List (RFile × Nat));
    let rest : List (RFile × Nat) := [(.g, 3)];
    let x : RFile × Nat := (RFile.g, 2);
    let o : Outst := (⟨0, .g, false, 2, 0, false, 1, none⟩ : Outst);
    (rowOf i = some r) ∧ (encOf i = some e) ∧ (mayIssue i s = true) ∧ (formOk i = true) ∧ (byIndex i = false) ∧ (reads i r e = l ++ x ::
      rest) ∧ (l.all (readable (seen s).me) = true) ∧ (l.length < (readsP e).length ∨ executes i r e (seen s).me = true ∧ idle i r e (seen
      s).me = false) ∧ ((seen s).me.awaited x.fst x.snd = some o) ∧ (o.far = none)) ∧
  (let i : Instr := (Instr.add (word .add 1 2 3));
    let r : Row := (row .add);
    let e : Enc := (word .add 1 2 3);
    let s : State := waitingFar;
    let l : List (RFile × Nat) := ([] : List (RFile × Nat));
    let rest : List (RFile × Nat) := [(.g, 3)];
    let x : RFile × Nat := (RFile.g, 2);
    let o : Outst := (⟨0, .g, false, 2, 0, false, 1, some 2⟩ : Outst);
    let peer : Nat := 2;
    (rowOf i = some r) ∧ (encOf i = some e) ∧ (mayIssue i s = true) ∧ (formOk i = true) ∧ (byIndex i = false) ∧ (reads i r e = l ++ x ::
      rest) ∧ (l.all (readable (seen s).me) = true) ∧ (l.length < (readsP e).length ∨ executes i r e (seen s).me = true ∧ idle i r e (seen
      s).me = false) ∧ ((seen s).me.awaited x.fst x.snd = some o) ∧ (o.far = some peer)) ∧
  (let i : Instr := (Instr.add (word .add 1 2 3));
    let r : Row := (row .add);
    let e : Enc := (word .add 1 2 3);
    let s : State := tainted;
    let l : List (RFile × Nat) := ([] : List (RFile × Nat));
    let rest : List (RFile × Nat) := [(.g, 3)];
    let x : RFile × Nat := (RFile.g, 2);
    let d : W := (0x100 : W);
    (rowOf i = some r) ∧ (encOf i = some e) ∧ (mayIssue i s = true) ∧ (formOk i = true) ∧ (byIndex i = false) ∧ (reads i r e = l ++ x ::
      rest) ∧ (l.all (readable (seen s).me) = true) ∧ (l.length < (readsP e).length ∨ executes i r e (seen s).me = true ∧ idle i r e (seen
      s).me = false) ∧ ((seen s).me.awaited x.fst x.snd = none) ∧ ((seen s).me.poisonOf x.fst x.snd = some d)) ∧
  (let i : Instr := (Instr.add (pred 2 (word .add 1 2 3)));
    let r : Row := (row .add);
    let e : Enc := (pred 2 (word .add 1 2 3));
    let s : State := taintedP;
    let l : List (RFile × Nat) := ([] : List (RFile × Nat));
    let rest : List (RFile × Nat) := [(.g, 2), (.g, 3)];
    let x : RFile × Nat := (RFile.p, 1);
    let d : W := (0x100 : W);
    (rowOf i = some r) ∧ (encOf i = some e) ∧ (mayIssue i s = true) ∧ (formOk i = true) ∧ (byIndex i = false) ∧ (reads i r e = l ++ x ::
      rest) ∧ (l.all (readable (seen s).me) = true) ∧ (l.length < (readsP e).length ∨ executes i r e (seen s).me = true ∧ idle i r e (seen
      s).me = false) ∧ ((seen s).me.awaited x.fst x.snd = none) ∧ ((seen s).me.poisonOf x.fst x.snd = some d)) :=
  by and_intros <;> decide +kernel

/-- States and operands that meet the hypotheses of `LookaheadWindow`, clause by clause. -/
theorem meets_LookaheadWindow :
  (let k : Core := (world .flow).me;
    let a : Act := act0;
    let p : Nat := 0;
    let rest : List Nat := noNat;
    let f : RFile := RFile.v;
    let L : Nat := 2;
    let n : Nat := 4;
    let later : Nat := 3;
    (k.act = some a) ∧ (a.pos = p :: rest) ∧ (f ∈ [RFile.g, RFile.p, RFile.v, RFile.c]) ∧ (isBanked f = true → 1 ≤ n) ∧ (n < regCount f) ∧ (L ≤ 15)
      ∧ (∀ (z : Pend), z ∈ k.pend → z.file = f → z.num < regCount f ∧ (isBanked f = false → z.hi = false)) ∧ (1 ≤ later)) ∧
  (let k : Core := (world .flow).me;
    let a : Act := act0;
    let p : Nat := 0;
    let rest : List Nat := noNat;
    let f : RFile := RFile.v;
    let L : Nat := 2;
    let n : Nat := 4;
    let later : Nat := 3;
    let m : Nat := 2;
    (k.act = some a) ∧ (a.pos = p :: rest) ∧ (f ∈ [RFile.g, RFile.p, RFile.v, RFile.c]) ∧ (isBanked f = true → 1 ≤ n) ∧ (n < regCount f) ∧ (L ≤ 15)
      ∧ (∀ (z : Pend), z ∈ k.pend → z.file = f → z.num < regCount f ∧ (isBanked f = false → z.hi = false)) ∧ (1 ≤ m) ∧ (m ≤ L) ∧ (m ≤ later)) :=
  by and_intros <;> decide +kernel

/-- States and operands that meet the hypotheses of `TrapEntry`, clause by clause. -/
theorem meets_TrapEntry :
  (let s : State := message;
    let c : CoreId := (⟨⟨0,0⟩,.flow⟩:CoreId);
    let cause : Nat := 0x03;
    let detail : W := (5:W);
    let pc : W := (0x8000:W);
    let a : Act := actM;
    ((s.core c).act = some a) ∧ (a.noMsg = false) ∧ (abortCause cause false = true) ∧ (cause ≠ 7) ∧ (cause ≠ 19) ∧ (cause < 30) ∧ (mustDrain
      s c = false)) ∧
  (let s : State := delegated;
    let c : CoreId := (⟨⟨0,0⟩,.flow⟩:CoreId);
    let cause : Nat := 0x03;
    let detail : W := (5:W);
    let pc : W := (0x8000:W);
    let a : Act := actM;
    ((s.core c).act = some a) ∧ (a.noMsg = false) ∧ (abortCause cause false = true) ∧ (cause ≠ 7) ∧ (cause ≠ 19) ∧ (cause < 30) ∧ (mustDrain
      s c = false)) ∧
  (let s : Machine.State := message;
    let c : CoreId := (⟨⟨0,0⟩,.flow⟩:CoreId);
    let cause : Nat := 0x03;
    let a : Act := actM;
    ((s.core c).act = some a) ∧ (a.noMsg = false) ∧ (abortCause cause false = true) ∧ (cause ≠ 7) ∧ (cause ≠ 19) ∧ (cause < 30) ∧ (mustDrain s c =
      false)) ∧
  (let s : Machine.State := message;
    let c : CoreId := (⟨⟨0, 0⟩, .flow⟩ : CoreId);
    let cause : Nat := 0x03;
    let a : Act := actM;
    ((s.core c).act = some a) ∧ (a.noMsg = false) ∧ (abortCause cause false = true) ∧ (cause ≠ 7) ∧ (cause ≠ 19) ∧ (cause < 30) ∧ (mustDrain s c =
      false) ∧ ((s.tile c.site).mem.wf = true)) ∧
  (let s : Machine.State := message;
    let c : CoreId := (⟨⟨0, 0⟩, .flow⟩ : CoreId);
    let cause : Nat := 0x03;
    let a : Act := actM;
    let j : Nat := 0x300000;
    ((s.core c).act = some a) ∧ (a.noMsg = false) ∧ (abortCause cause false = true) ∧ (cause ≠ 7) ∧ (cause ≠ 19) ∧ (cause < 30) ∧ (mustDrain s c =
      false) ∧ ((s.tile c.site).mem.wf = true) ∧ (j < 3137536 + 2048 * c.kind.code + 64 * ((s.core c).trapCount % 32) ∨ 3137536 + 2048 * c.kind.code
      + 64 * ((s.core c).trapCount % 32) + 64 ≤ j)) ∧
  (let s : Machine.State := delegated;
    let c : CoreId := (⟨⟨0, 0⟩, .flow⟩ : CoreId);
    let cause : Nat := 0x03;
    let a : Act := actM;
    ((s.core c).act = some a) ∧ (a.noMsg = false) ∧ (abortCause cause false = true) ∧ (cause ≠ 7) ∧ (cause ≠ 19) ∧ (cause < 30) ∧ (mustDrain s c =
      false) ∧ (BitVec.getLsbD (s.core c).ctl.trapDeleg cause = true ∧ BitVec.toNat (s.core c).ctl.trapVec % 2 ^ 22 / 2 ≠ 0 ∧ (s.core c).active =
      false)) ∧
  (let s : Machine.State := message;
    let c : CoreId := (⟨⟨0, 0⟩, .flow⟩ : CoreId);
    let cause : Nat := 0x03;
    let a : Act := actM;
    ((s.core c).act = some a) ∧ (a.noMsg = false) ∧ (abortCause cause false = true) ∧ (cause ≠ 7) ∧ (cause ≠ 19) ∧ (cause < 30) ∧ (mustDrain s c =
      false) ∧ (¬(BitVec.getLsbD (s.core c).ctl.trapDeleg cause = true ∧ BitVec.toNat (s.core c).ctl.trapVec % 2 ^ 22 / 2 ≠ 0 ∧ (s.core c).active =
      false))) :=
  by and_intros <;> decide +kernel

/-- States and operands that meet the hypotheses of `ScalarFrame`, clause by clause. -/
theorem meets_ScalarFrame :
  (let i : Instr := (Instr.add (word .add 1 2 3));
    let e : Enc := (word .add 1 2 3);
    let s : State := small;
    let t : State := (after (.add (word .add 1 2 3)) small);
    let f : RFile := (RFile.g);
    let x : W := (12 : W);
    ((encOf i = some e) ∧ (clear i s = true) ∧ (scalarValue i (seen s).me (seen s).here = some (f, x))) ∧
    (exec i s = Host.Outcome.next t)) ∧
  (let i : Instr := (Instr.cmpeq (word .cmpeq 1 2 3));
    let e : Enc := (word .cmpeq 1 2 3);
    let s : State := small;
    let t : State := (after (.cmpeq (word .cmpeq 1 2 3)) small);
    let f : RFile := (RFile.p);
    let x : W := (0 : W);
    ((encOf i = some e) ∧ (clear i s = true) ∧ (scalarValue i (seen s).me (seen s).here = some (f, x))) ∧
    (exec i s = Host.Outcome.next t)) :=
  ⟨⟨by decide +kernel, next_of (by decide +kernel)⟩,
    ⟨by decide +kernel, next_of (by decide +kernel)⟩⟩

/-- States and operands that meet the hypotheses of `MemoriesStayCanonical`, clause by clause. -/
theorem meets_MemoriesStayCanonical :
  let s : State := (world .flow);
    let s' : State := (match step (world .flow) with | .next t => t | _ => world .flow);
    (MemsWf s) ∧
    (step s = Host.Outcome.next s') :=
  ⟨by delta MemsWf TileWf; decide +kernel, rfl⟩

/-- States and operands that meet the hypotheses of `CrrdReads`, clause by clause. -/
theorem meets_CrrdReads :
  (let e : Enc := (rd 0x040);
    let s : State := (wrSup 0);
    let x : W := (0x01000000 : W);
    (clear (Instr.crrd e) s = true) ∧ (indexAllowed s e.immHigh = true) ∧ (crGet (seen s) s.cur e.immHigh = some x) ∧ (e.immHigh = 17 →
      flagsDone (seen s) s.cur = true) ∧ (e.immHigh = 18 → drawsDone (seen s) s.cur = true)) ∧
  (let e : Enc := (rd 0x011);
    let s : State := (world .flow);
    let x : W := (0 : W);
    (clear (Instr.crrd e) s = true) ∧ (indexAllowed s e.immHigh = true) ∧ (crGet (seen s) s.cur e.immHigh = some x) ∧ (e.immHigh = 17 →
      flagsDone (seen s) s.cur = true) ∧ (e.immHigh = 18 → drawsDone (seen s) s.cur = true)) ∧
  (let e : Enc := (rd 0x01F);
    let s : State := (world .flow);
    (mayIssue (Instr.crrd e) s = true) ∧ (indexAllowed s e.immHigh = true) ∧ (crGet s s.cur e.immHigh = none)) ∧
  (let e : Enc := (rd 0x030);
    let s : State := (world .flow);
    (mayIssue (Instr.crrd e) s = true) ∧ (crSv e.immHigh = true) ∧ (s.me.sup = false)) ∧
  (let e : Enc := (rd 0x060);
    let s : State := (world .flow);
    (mayIssue (Instr.crrd e) s = true) ∧ (crSv e.immHigh = false ∨ s.me.sup = true) ∧ (crMath e.immHigh = true) ∧ (s.cur.kind ≠
      CoreKind.math)) :=
  by and_intros <;> decide +kernel

/-- States and operands that meet the hypotheses of `CrwrWrites`, clause by clause. -/
theorem meets_CrwrWrites :
  (let e : Enc := (cw 0x022);
    let s : State := (wrSup 0x123456);
    let old : W := (0:W);
    let x : W := (boundOf 0x123456);
    (clear (Instr.crwr e) s = true) ∧ (indexAllowed s e.immHigh = true) ∧ (e.immHigh < 256 ∨ earlierDone (seen s) s.cur 1 = true) ∧ (crGet
      (seen s) s.cur e.immHigh = some old) ∧ (stored e.immHigh ((seen s).me.g e.b) old = some x)) ∧
  (let e : Enc := (cw 0x030);
    let s : State := (wrSup 0xFFFF);
    let old : W := (0:W);
    let x : W := (0x3F:W);
    (clear (Instr.crwr e) s = true) ∧ (indexAllowed s e.immHigh = true) ∧ (e.immHigh < 256 ∨ earlierDone (seen s) s.cur 1 = true) ∧ (crGet
      (seen s) s.cur e.immHigh = some old) ∧ (stored e.immHigh ((seen s).me.g e.b) old = some x)) ∧
  (let e : Enc := (cw 0x041);
    let s : State := (wrSup 0);
    let old : W := (8:W);
    let x : W := (1:W);
    (clear (Instr.crwr e) s = true) ∧ (indexAllowed s e.immHigh = true) ∧ (e.immHigh < 256 ∨ earlierDone (seen s) s.cur 1 = true) ∧ (crGet
      (seen s) s.cur e.immHigh = some old) ∧ (stored e.immHigh ((seen s).me.g e.b) old = some x)) ∧
  (let e : Enc := (cw 0x13F);
    let s : State := (wrSup 0xFFFFFFFFFFFFFFFF);
    let old : W := (0:W);
    let x : W := (0x1F003FFFFE:W);
    (clear (Instr.crwr e) s = true) ∧ (indexAllowed s e.immHigh = true) ∧ (e.immHigh < 256 ∨ earlierDone (seen s) s.cur 1 = true) ∧ (crGet
      (seen s) s.cur e.immHigh = some old) ∧ (stored e.immHigh ((seen s).me.g e.b) old = some x)) ∧
  (let e : Enc := (cw 0x003);
    let s : State := (wr 5);
    (clear (Instr.crwr e) s = true) ∧ (indexAllowed s e.immHigh = true) ∧ (e.immHigh < 256 ∨ earlierDone (seen s) s.cur 1 = true) ∧
      (readOnlyIndex e.immHigh = true)) :=
  by and_intros <;> decide +kernel

/-- States and operands that meet the hypotheses of `RegisterWriteSteps`, clause by clause. -/
theorem meets_RegisterWriteSteps :
  (let v : W := (6 : W);
    let s : State := (world .flow);
    (bits (BitVec.toNat v) 0 3 ≠ 1) ∧ (bits (BitVec.toNat v) 0 3 ≠ 7)) ∧
  (let v : W := (7 : W);
    let s : State := (world .flow);
    (bits (BitVec.toNat v) 0 3 = 1 ∨ bits (BitVec.toNat v) 0 3 = 7) ∧ (s.me.act.isSome = true)) ∧
  (let v : W := (0x4000 : W);
    let s : Machine.State := ringed.modMe fun k => { k with ctl := { k.ctl with xbound := 0x5000 } };
    (ringsOverlap s.here (BitVec.toNat (boundOf v)) (BitVec.toNat s.me.ctl.xbound) = true) ∧ (s.me.act.isSome = true)) ∧
  (let v : W := (7 : W);
    let s : State := (world .flow);
    flagsDone s s.cur = true) ∧
  (let v : W := (0 : W);
    let s : State := (world .flow);
    drawsDone s s.cur = true) ∧
  (let v : W := (0x8000 : W);
    let s : State := (world .flow);
    ringsOverlap s.here (BitVec.toNat (boundOf v)) (BitVec.toNat s.me.ctl.xbound) = false) ∧
  (let v : W := (0x9000 : W);
    let s : State := (world .flow);
    ringsOverlap s.here (BitVec.toNat s.me.ctl.codeBase) (BitVec.toNat (boundOf v)) = false) ∧
  (let v : W := (0x5000 : W);
    let s : State := ringedLow;
    (ringsOverlap s.here (BitVec.toNat s.me.ctl.codeBase) (BitVec.toNat (boundOf v)) = true) ∧ (s.me.act.isSome = true)) ∧
  (let n : Nat := 7;
    let v : W := (0x5000 : W);
    let s : State := (world .math);
    (s.cur.kind = CoreKind.math) ∧ (s.here.namesM n = false)) ∧
  (let n : Nat := 3;
    let v : W := (0xFFFFFFFFFFFFFFFF : W);
    let s : State := (world .flow);
    s.cur.kind = CoreKind.flow) ∧
  (let n : Nat := 3;
    let v : W := (0xFFFFFFFFFFFFFFFF : W);
    let s : State := (world .shape);
    s.cur.kind ≠ CoreKind.flow) :=
  by and_intros <;> decide +kernel

/-- States and operands that meet the hypotheses of `CrwrIsTheWriteStep`, clause by clause. -/
theorem meets_CrwrIsTheWriteStep :
  (let e : Enc := (cw 0x010);
    let s : State := (wr 6);
    (clear (Instr.crwr e) s = true) ∧ (indexAllowed s e.immHigh = true) ∧ (e.immHigh < 256 ∨ earlierDone (seen s) s.cur 1 = true) ∧
      (e.immHigh = 16) ∧ (bits (BitVec.toNat ((seen s).me.g e.b)) 0 3 ≠ 1) ∧ (bits (BitVec.toNat ((seen s).me.g e.b)) 0 3 ≠ 7)) ∧
  (let e : Enc := (cw 0x011);
    let s : State := (wr 6);
    (clear (Instr.crwr e) s = true) ∧ (indexAllowed s e.immHigh = true) ∧ (e.immHigh < 256 ∨ earlierDone (seen s) s.cur 1 = true) ∧
      (e.immHigh = 17) ∧ (flagsDone (seen s) s.cur = true)) ∧
  (let e : Enc := (cw 0x012);
    let s : State := (wr 6);
    (clear (Instr.crwr e) s = true) ∧ (indexAllowed s e.immHigh = true) ∧ (e.immHigh < 256 ∨ earlierDone (seen s) s.cur 1 = true) ∧
      (e.immHigh = 18) ∧ (drawsDone (seen s) s.cur = true)) ∧
  (let e : Enc := (cw 0x020);
    let s : State := (wrSup 0x8000);
    (clear (Instr.crwr e) s = true) ∧ (indexAllowed s e.immHigh = true) ∧ (e.immHigh < 256 ∨ earlierDone (seen s) s.cur 1 = true) ∧
      (e.immHigh = 32) ∧ (ringsOverlap (seen s).here (BitVec.toNat (boundOf ((seen s).me.g e.b))) (BitVec.toNat (seen s).me.ctl.xbound) =
      false)) ∧
  (let e : Enc := (cw 0x021);
    let s : State := (wrSup 0x9000);
    (clear (Instr.crwr e) s = true) ∧ (indexAllowed s e.immHigh = true) ∧ (e.immHigh < 256 ∨ earlierDone (seen s) s.cur 1 = true) ∧
      (e.immHigh = 33) ∧ (ringsOverlap (seen s).here (BitVec.toNat (seen s).me.ctl.codeBase) (BitVec.toNat (boundOf ((seen s).me.g e.b))) =
      false)) ∧
  (let e : Enc := (cw 0x067);
    let s : State := (wrMath 5);
    let n : Nat := 7;
    (clear (Instr.crwr e) s = true) ∧ (indexAllowed s e.immHigh = true) ∧ (e.immHigh < 256 ∨ earlierDone (seen s) s.cur 1 = true) ∧ (n < 8)
      ∧ (e.immHigh = 96 + n) ∧ ((seen s).here.namesM n = false)) ∧
  (let e : Enc := (cw 0x083);
    let s : State := (wrSup 5);
    let n : Nat := 3;
    (clear (Instr.crwr e) s = true) ∧ (indexAllowed s e.immHigh = true) ∧ (e.immHigh < 256 ∨ earlierDone (seen s) s.cur 1 = true) ∧ (n < 4)
      ∧ (e.immHigh = 128 + n)) ∧
  (let e : Enc := (cw 0x13F);
    let s : Machine.State := (wrSup 5);
    let n : Nat := 63;
    (clear (Instr.crwr e) s = true) ∧ (indexAllowed s e.immHigh = true) ∧ (e.immHigh < 256 ∨ earlierDone (seen s) s.cur 1 = true) ∧ (n < 64) ∧
      (e.immHigh = 256 + n)) ∧
  (let e : Enc := (cw 0x17F);
    let s : State := (wr 5);
    let n : Nat := 63;
    (clear (Instr.crwr e) s = true) ∧ (indexAllowed s e.immHigh = true) ∧ (e.immHigh < 256 ∨ earlierDone (seen s) s.cur 1 = true) ∧ (n < 64)
      ∧ (e.immHigh = 320 + n) ∧ ((seen s).me.sup = false)) ∧
  (let e : Enc := (cw 0x010);
    let s : Machine.State := (wr 7);
    (clear (Instr.crwr e) s = true) ∧ (indexAllowed s e.immHigh = true) ∧ (e.immHigh < 256 ∨ earlierDone (seen s) s.cur 1 = true) ∧ (e.immHigh = 16)
      ∧ (bits (BitVec.toNat ((seen s).me.g e.b)) 0 3 = 1 ∨ bits (BitVec.toNat ((seen s).me.g e.b)) 0 3 = 7)) ∧
  (let e : Enc := (cw 0x020);
    let s : Machine.State := ((wrSup 0x4000).modMe fun k => { k with ctl := { k.ctl with ring := vset k.ctl.ring 3 (ringValue 0x100 0 true 1 3), xbound := 0x5000 } });
    (clear (Instr.crwr e) s = true) ∧ (indexAllowed s e.immHigh = true) ∧ (e.immHigh < 256 ∨ earlierDone (seen s) s.cur 1 = true) ∧ (e.immHigh = 32)
      ∧ (ringsOverlap (seen s).here (BitVec.toNat (boundOf ((seen s).me.g e.b))) (BitVec.toNat (seen s).me.ctl.xbound) = true)) ∧
  (let e : Enc := (cw 0x021);
    let s : Machine.State := ((wrSup 0x5000).modMe fun k => { k with ctl := { k.ctl with ring := vset k.ctl.ring 3 (ringValue 0x100 0 true 1 3), codeBase := 0x4000 } });
    (clear (Instr.crwr e) s = true) ∧ (indexAllowed s e.immHigh = true) ∧ (e.immHigh < 256 ∨ earlierDone (seen s) s.cur 1 = true) ∧ (e.immHigh = 33)
      ∧ (ringsOverlap (seen s).here (BitVec.toNat (seen s).me.ctl.codeBase) (BitVec.toNat (boundOf ((seen s).me.g e.b))) = true)) ∧
  (let e : Enc := (cw 0x17F);
    let s : Machine.State := (wrSup 0x100100);
    let n : Nat := 63;
    (clear (Instr.crwr e) s = true) ∧ (indexAllowed s e.immHigh = true) ∧ (e.immHigh < 256 ∨ earlierDone (seen s) s.cur 1 = true) ∧ (n < 64) ∧
      (e.immHigh = 320 + n) ∧ ((seen s).me.sup = true) ∧ (ringEn ((seen s).me.ring n) = false) ∧ (BitVec.getLsbD ((seen s).me.g e.b) 20 = true) ∧
      (ringPlaced (seen s).here (ringValue (W.bits ((seen s).me.g e.b) 0 16) ((W.bits ((seen s).me.g e.b) 16 4).min 11) true 0 0) = true)) ∧
  (let e : Enc := (cw 0x144);
    let s : Machine.State := ((wrSup 0x10FFFF).modMe fun k => { k with ctl := { k.ctl with ring := vset k.ctl.ring 3 (ringValue 0x100 0 true 1 3) } });
    let n : Nat := 4;
    (clear (Instr.crwr e) s = true) ∧ (indexAllowed s e.immHigh = true) ∧ (e.immHigh < 256 ∨ earlierDone (seen s) s.cur 1 = true) ∧ (n < 64) ∧
      (e.immHigh = 320 + n) ∧ ((seen s).me.sup = true) ∧ (ringEn ((seen s).me.ring n) = false) ∧ (BitVec.getLsbD ((seen s).me.g e.b) 20 = true) ∧
      (ringPlaced (seen s).here (ringValue (W.bits ((seen s).me.g e.b) 0 16) ((W.bits ((seen s).me.g e.b) 16 4).min 11) true 0 0) = false)) ∧
  (let e : Enc := (cw 0x143);
    let s : Machine.State := ((wrSup 0x100).modMe fun k => { k with ctl := { k.ctl with ring := vset k.ctl.ring 3 (ringValue 0x100 0 true 1 3) } });
    let n : Nat := 3;
    (clear (Instr.crwr e) s = true) ∧ (indexAllowed s e.immHigh = true) ∧ (e.immHigh < 256 ∨ earlierDone (seen s) s.cur 1 = true) ∧ (n < 64) ∧
      (e.immHigh = 320 + n) ∧ ((seen s).me.sup = true) ∧ (ringEn ((seen s).me.ring n) = true) ∧ (¬(W.bits ((seen s).me.g e.b) 0 16 ≠ W.bits ((seen
      s).me.ring n) 0 16 ∨ (W.bits ((seen s).me.g e.b) 16 4).min 11 ≠ W.bits ((seen s).me.ring n) 16 4)) ∧ (BitVec.getLsbD ((seen s).me.g e.b) 20 =
      false)) ∧
  (let e : Enc := (cw 0x143);
    let s : Machine.State := ((wrSup 0x100100).modMe fun k => { k with ctl := { k.ctl with ring := vset k.ctl.ring 3 (ringValue 0x100 0 true 1 3) } });
    let n : Nat := 3;
    (clear (Instr.crwr e) s = true) ∧ (indexAllowed s e.immHigh = true) ∧ (e.immHigh < 256 ∨ earlierDone (seen s) s.cur 1 = true) ∧ (n < 64) ∧
      (e.immHigh = 320 + n) ∧ ((seen s).me.sup = true) ∧ (ringEn ((seen s).me.ring n) = true) ∧ (¬(W.bits ((seen s).me.g e.b) 0 16 ≠ W.bits ((seen
      s).me.ring n) 0 16 ∨ (W.bits ((seen s).me.g e.b) 16 4).min 11 ≠ W.bits ((seen s).me.ring n) 16 4)) ∧ (BitVec.getLsbD ((seen s).me.g e.b) 20 =
      true) ∧ (ringPlaced (seen s).here ((seen s).me.ring n) = true)) ∧
  (let e : Enc := (cw 0x143);
    let s : Machine.State := ((wrSup 0x200).modMe fun k => { k with ctl := { k.ctl with ring := vset k.ctl.ring 3 (ringValue 0x100 0 true 1 3) } });
    let n : Nat := 3;
    (clear (Instr.crwr e) s = true) ∧ (indexAllowed s e.immHigh = true) ∧ (e.immHigh < 256 ∨ earlierDone (seen s) s.cur 1 = true) ∧ (n < 64) ∧
      (e.immHigh = 320 + n) ∧ ((seen s).me.sup = true) ∧ (ringEn ((seen s).me.ring n) = true) ∧ (W.bits ((seen s).me.g e.b) 0 16 ≠ W.bits ((seen
      s).me.ring n) 0 16 ∨ (W.bits ((seen s).me.g e.b) 16 4).min 11 ≠ W.bits ((seen s).me.ring n) 16 4)) :=
  by and_intros <;> decide +kernel

/-- States and operands that meet the hypotheses of `RingWrites`, clause by clause. -/
theorem meets_RingWrites :
  (let n : Nat := 63;
    let v : W := (0x100100 : W);
    let s : State := (world .flow);
    (BitVec.getLsbD v 20 = true) ∧ (ringEn (s.me.ring n) = false) ∧ (ringPlaced s.here (ringValue (W.bits v 0 16) ((W.bits v 16 4).min 11)
      true 0 0) = true)) ∧
  (let n : Nat := 3;
    let v : W := (0x100 : W);
    let s : State := ringed;
    (n < 64) ∧ (BitVec.getLsbD v 20 = false) ∧ (ringEn (s.me.ring n) = true) ∧ (W.bits v 0 16 = W.bits (s.me.ring n) 0 16) ∧ ((W.bits v 16
      4).min 11 = W.bits (s.me.ring n) 16 4)) ∧
  (let n : Nat := 4;
    let v : W := (0x10FFFF : W);
    let s : Machine.State := ringed;
    (BitVec.getLsbD v 20 = true) ∧ (ringEn (s.me.ring n) = false) ∧ (s.me.act.isSome = true) ∧ (ringPlaced s.here (ringValue (W.bits v 0 16)
      ((W.bits v 16 4).min 11) true 0 0) = false)) ∧
  (let n : Nat := 3;
    let v : W := (0x200 : W);
    let s : Machine.State := ringed;
    (BitVec.getLsbD v 20 = false) ∧ (ringEn (s.me.ring n) = true) ∧ (s.me.act.isSome = true) ∧ (W.bits v 0 16 ≠ W.bits (s.me.ring n) 0 16 ∨ (W.bits
      v 16 4).min 11 ≠ W.bits (s.me.ring n) 16 4)) ∧
  (let n : Nat := 3;
    let v : W := (0x3000000 : W);
    let s : State := ringed;
    (s.me.isPolled n = true) ∧ ((W.bits v 24 16 + 65536 - ringCons (s.me.ring n)) % 65536 ≤ (ringProd (s.me.ring n) + 65536 - ringCons
      (s.me.ring n)) % 65536)) ∧
  (let n : Nat := 3;
    let v : W := (0x4000000 : W);
    let s : State := ringed;
    s.me.isPolled n = false ∨ (ringProd (s.me.ring n) + 65536 - ringCons (s.me.ring n)) % 65536 < (W.bits v 24 16 + 65536 - ringCons
      (s.me.ring n)) % 65536) ∧
  (let n : Nat := 4;
    let v : W := (0x4000000 : W);
    let s : State := ringed;
    s.me.isPolled n = false ∨ (ringProd (s.me.ring n) + 65536 - ringCons (s.me.ring n)) % 65536 < (W.bits v 24 16 + 65536 - ringCons
      (s.me.ring n)) % 65536) :=
  by and_intros <;> decide +kernel

/-- States and operands that meet the hypotheses of `AddressFaults`, clause by clause. -/
theorem meets_AddressFaults :
  (let i : Instr := (Instr.ld (word .ld 1 2 0));
    let e : Enc := (word .ld 1 2 0);
    let s : State := (accessing 0x101 0 0);
    let a : W := (0x101:W);
    let n : Nat := 8;
    let write : Bool := false;
    let queue : Bool := true;
    let cause : Nat := 0x09;
    (encOf i = some e) ∧ (clear i s = true) ∧ (formOk i = true) ∧ (memAccess i (seen s).me = some (a, n, write, queue)) ∧ (addrFault (seen
      s) (BitVec.toNat a) n write queue = some cause)) ∧
  (let i : Instr := (Instr.st (word .st 1 2 0));
    let e : Enc := (word .st 1 2 0);
    let s : State := (accessing 0x2C0000 0 0);
    let a : W := (0x2C0000:W);
    let n : Nat := 8;
    let write : Bool := true;
    let queue : Bool := true;
    let cause : Nat := 0x0B;
    (encOf i = some e) ∧ (clear i s = true) ∧ (formOk i = true) ∧ (memAccess i (seen s).me = some (a, n, write, queue)) ∧ (addrFault (seen
      s) (BitVec.toNat a) n write queue = some cause)) ∧
  (let i : Instr := (Instr.ld (word .ld 1 2 0));
    let e : Enc := (word .ld 1 2 0);
    let s : State := (accessing 0x8038 0 0);
    let a : W := (0x8038:W);
    let n : Nat := 8;
    let write : Bool := false;
    let queue : Bool := true;
    let cause : Nat := 0x08;
    (encOf i = some e) ∧ (clear i s = true) ∧ (formOk i = true) ∧ (memAccess i (seen s).me = some (a, n, write, queue)) ∧ (addrFault (seen
      s) (BitVec.toNat a) n write queue = some cause)) ∧
  (let i : Instr := (Instr.amo (word .amo 1 2 3));
    let e : Enc := (word .amo 1 2 3);
    let s : State := (accessing 0x6000 0 0);
    let a : W := (0x6000:W);
    let n : Nat := 8;
    let write : Bool := true;
    let queue : Bool := false;
    let cause : Nat := 0x0B;
    (encOf i = some e) ∧ (clear i s = true) ∧ (formOk i = true) ∧ (memAccess i (seen s).me = some (a, n, write, queue)) ∧ (addrFault (seen
      s) (BitVec.toNat a) n write queue = some cause)) ∧
  (let i : Instr := (Instr.stn (fn 2 (word .stn 1 2 0)));
    let e : Enc := (fn 2 (word .stn 1 2 0));
    let s : State := (accessing 0x300000 0 0);
    let a : W := (0x300000:W);
    let n : Nat := 1;
    let write : Bool := true;
    let queue : Bool := false;
    let cause : Nat := 0x0A;
    (encOf i = some e) ∧ (clear i s = true) ∧ (formOk i = true) ∧ (memAccess i (seen s).me = some (a, n, write, queue)) ∧ (addrFault (seen
      s) (BitVec.toNat a) n write queue = some cause)) ∧
  (let i : Instr := (Instr.ldn (fn 4 (word .ldn 1 2 0)));
    let e : Enc := (fn 4 (word .ldn 1 2 0));
    let s : State := (oneLeft 0x10800000);
    let a : W := (0x10800000:W);
    let n : Nat := 1;
    let write : Bool := false;
    let queue : Bool := false;
    let cause : Nat := 0x0C;
    (encOf i = some e) ∧ (clear i s = true) ∧ (formOk i = true) ∧ (memAccess i (seen s).me = some (a, n, write, queue)) ∧ (addrFault (seen
      s) (BitVec.toNat a) n write queue = some cause)) :=
  by and_intros <;> decide +kernel

/-- States and operands that meet the hypotheses of `AccessesComplete`, clause by clause. -/
theorem meets_AccessesComplete :
  (let i : Instr := (Instr.ld (word .ld 1 2 0));
    let e : Enc := (word .ld 1 2 0);
    let s : State := (accessing 0x2BFFF8 0 0);
    let t : State := ((accessed (Instr.ld (word .ld 1 2 0)) (seen (accessing 0x2BFFF8 0 0)) (⟨0,0⟩:Site) 0x2BFFF8 (0x2BFFF8:W)).getD (world
      .flow));
    let a : W := (0x2BFFF8:W);
    let n : Nat := 8;
    let write : Bool := false;
    let queue : Bool := true;
    let site : Site := (⟨0,0⟩:Site);
    let o : Nat := 0x2BFFF8;
    ((encOf i = some e) ∧ (clear i s = true) ∧ (formOk i = true) ∧ (memAccess i (seen s).me = some (a, n, write, queue)) ∧ (addrFault (seen
      s) (BitVec.toNat a) n write queue = none) ∧ (isLoad i = true ∨ mayRelease e (seen s) = true) ∧ (ramoPending (seen s) (BitVec.toNat a)
      n = false) ∧ (target (seen s) (BitVec.toNat a) = some (site, o)) ∧ (isRemote (seen s) (BitVec.toNat a) = true → Option.any (fun x =>
      x.done) (seen s).me.wait = true)) ∧
    (accessed i (seen s) site o a = some t)) ∧
  (let i : Instr := (Instr.ldn (fn 0 (word .ldn 1 2 0)));
    let e : Enc := (fn 0 (word .ldn 1 2 0));
    let s : State := (accessing 0x100 0 0);
    let t : State := ((accessed (Instr.ldn (fn 0 (word .ldn 1 2 0))) (seen (accessing 0x100 0 0)) (⟨0,0⟩:Site) 0x100 (0x100:W)).getD (world
      .flow));
    let a : W := (0x100:W);
    let n : Nat := 4;
    let write : Bool := false;
    let queue : Bool := false;
    let site : Site := (⟨0,0⟩:Site);
    let o : Nat := 0x100;
    ((encOf i = some e) ∧ (clear i s = true) ∧ (formOk i = true) ∧ (memAccess i (seen s).me = some (a, n, write, queue)) ∧ (addrFault (seen
      s) (BitVec.toNat a) n write queue = none) ∧ (isLoad i = true ∨ mayRelease e (seen s) = true) ∧ (ramoPending (seen s) (BitVec.toNat a)
      n = false) ∧ (target (seen s) (BitVec.toNat a) = some (site, o)) ∧ (isRemote (seen s) (BitVec.toNat a) = true → Option.any (fun x =>
      x.done) (seen s).me.wait = true)) ∧
    (accessed i (seen s) site o a = some t)) ∧
  (let i : Instr := (Instr.st (word .st 1 2 0));
    let e : Enc := (word .st 1 2 0);
    let s : State := (accessing 0x6040 7 9);
    let t : State := ((accessed (Instr.st (word .st 1 2 0)) (seen (accessing 0x6040 7 9)) (⟨0,0⟩:Site) 0x6040 (0x6040:W)).getD (world
      .flow));
    let a : W := (0x6040:W);
    let n : Nat := 8;
    let write : Bool := true;
    let queue : Bool := true;
    let site : Site := (⟨0,0⟩:Site);
    let o : Nat := 0x6040;
    ((encOf i = some e) ∧ (clear i s = true) ∧ (formOk i = true) ∧ (memAccess i (seen s).me = some (a, n, write, queue)) ∧ (addrFault (seen
      s) (BitVec.toNat a) n write queue = none) ∧ (isLoad i = true ∨ mayRelease e (seen s) = true) ∧ (ramoPending (seen s) (BitVec.toNat a)
      n = false) ∧ (target (seen s) (BitVec.toNat a) = some (site, o)) ∧ (isRemote (seen s) (BitVec.toNat a) = true → Option.any (fun x =>
      x.done) (seen s).me.wait = true)) ∧
    (accessed i (seen s) site o a = some t)) ∧
  (let i : Instr := (Instr.stn (fn 1 (word .stn 1 2 0)));
    let e : Enc := (fn 1 (word .stn 1 2 0));
    let s : State := (accessing 0x100 7 9);
    let t : State := ((accessed (Instr.stn (fn 1 (word .stn 1 2 0))) (seen (accessing 0x100 7 9)) (⟨0,0⟩:Site) 0x100 (0x100:W)).getD (world
      .flow));
    let a : W := (0x100:W);
    let n : Nat := 2;
    let write : Bool := true;
    let queue : Bool := false;
    let site : Site := (⟨0,0⟩:Site);
    let o : Nat := 0x100;
    ((encOf i = some e) ∧ (clear i s = true) ∧ (formOk i = true) ∧ (memAccess i (seen s).me = some (a, n, write, queue)) ∧ (addrFault (seen
      s) (BitVec.toNat a) n write queue = none) ∧ (isLoad i = true ∨ mayRelease e (seen s) = true) ∧ (ramoPending (seen s) (BitVec.toNat a)
      n = false) ∧ (target (seen s) (BitVec.toNat a) = some (site, o)) ∧ (isRemote (seen s) (BitVec.toNat a) = true → Option.any (fun x =>
      x.done) (seen s).me.wait = true)) ∧
    (accessed i (seen s) site o a = some t)) ∧
  (let i : Instr := (Instr.amo (fn 3 (word .amo 1 2 3)));
    let e : Enc := (fn 3 (word .amo 1 2 3));
    let s : State := (accessing 0x100 7 9);
    let t : State := ((accessed (Instr.amo (fn 3 (word .amo 1 2 3))) (seen (accessing 0x100 7 9)) (⟨0,0⟩:Site) 0x100 (0x100:W)).getD (world
      .flow));
    let a : W := (0x100:W);
    let n : Nat := 8;
    let write : Bool := true;
    let queue : Bool := false;
    let site : Site := (⟨0,0⟩:Site);
    let o : Nat := 0x100;
    ((encOf i = some e) ∧ (clear i s = true) ∧ (formOk i = true) ∧ (memAccess i (seen s).me = some (a, n, write, queue)) ∧ (addrFault (seen
      s) (BitVec.toNat a) n write queue = none) ∧ (isLoad i = true ∨ mayRelease e (seen s) = true) ∧ (ramoPending (seen s) (BitVec.toNat a)
      n = false) ∧ (target (seen s) (BitVec.toNat a) = some (site, o)) ∧ (isRemote (seen s) (BitVec.toNat a) = true → Option.any (fun x =>
      x.done) (seen s).me.wait = true)) ∧
    (accessed i (seen s) site o a = some t)) ∧
  (let i : Instr := (Instr.amow (fn 9 (word .amow 1 2 3)));
    let e : Enc := (fn 9 (word .amow 1 2 3));
    let s : State := (accessing 0x104 7 9);
    let t : State := ((accessed (Instr.amow (fn 9 (word .amow 1 2 3))) (seen (accessing 0x104 7 9)) (⟨0,0⟩:Site) 0x104 (0x104:W)).getD
      (world .flow));
    let a : W := (0x104:W);
    let n : Nat := 4;
    let write : Bool := true;
    let queue : Bool := false;
    let site : Site := (⟨0,0⟩:Site);
    let o : Nat := 0x104;
    ((encOf i = some e) ∧ (clear i s = true) ∧ (formOk i = true) ∧ (memAccess i (seen s).me = some (a, n, write, queue)) ∧ (addrFault (seen
      s) (BitVec.toNat a) n write queue = none) ∧ (isLoad i = true ∨ mayRelease e (seen s) = true) ∧ (ramoPending (seen s) (BitVec.toNat a)
      n = false) ∧ (target (seen s) (BitVec.toNat a) = some (site, o)) ∧ (isRemote (seen s) (BitVec.toNat a) = true → Option.any (fun x =>
      x.done) (seen s).me.wait = true)) ∧
    (accessed i (seen s) site o a = some t)) ∧
  (let i : Instr := (Instr.cas (word .cas 1 2 3));
    let e : Enc := (word .cas 1 2 3);
    let s : State := (accessing 0x100 7 0xFFFFFFFF80000001);
    let t : State := ((accessed (Instr.cas (word .cas 1 2 3)) (seen (accessing 0x100 7 0xFFFFFFFF80000001)) (⟨0,0⟩:Site) 0x100
      (0x100:W)).getD (world .flow));
    let a : W := (0x100:W);
    let n : Nat := 8;
    let write : Bool := true;
    let queue : Bool := false;
    let site : Site := (⟨0,0⟩:Site);
    let o : Nat := 0x100;
    ((encOf i = some e) ∧ (clear i s = true) ∧ (formOk i = true) ∧ (memAccess i (seen s).me = some (a, n, write, queue)) ∧ (addrFault (seen
      s) (BitVec.toNat a) n write queue = none) ∧ (isLoad i = true ∨ mayRelease e (seen s) = true) ∧ (ramoPending (seen s) (BitVec.toNat a)
      n = false) ∧ (target (seen s) (BitVec.toNat a) = some (site, o)) ∧ (isRemote (seen s) (BitVec.toNat a) = true → Option.any (fun x =>
      x.done) (seen s).me.wait = true)) ∧
    (accessed i (seen s) site o a = some t)) ∧
  (let i : Instr := (Instr.casw (word .casw 1 2 3));
    let e : Enc := (word .casw 1 2 3);
    let s : State := (accessing 0x100 7 8);
    let t : State := ((accessed (Instr.casw (word .casw 1 2 3)) (seen (accessing 0x100 7 8)) (⟨0,0⟩:Site) 0x100 (0x100:W)).getD (world
      .flow));
    let a : W := (0x100:W);
    let n : Nat := 4;
    let write : Bool := true;
    let queue : Bool := false;
    let site : Site := (⟨0,0⟩:Site);
    let o : Nat := 0x100;
    ((encOf i = some e) ∧ (clear i s = true) ∧ (formOk i = true) ∧ (memAccess i (seen s).me = some (a, n, write, queue)) ∧ (addrFault (seen
      s) (BitVec.toNat a) n write queue = none) ∧ (isLoad i = true ∨ mayRelease e (seen s) = true) ∧ (ramoPending (seen s) (BitVec.toNat a)
      n = false) ∧ (target (seen s) (BitVec.toNat a) = some (site, o)) ∧ (isRemote (seen s) (BitVec.toNat a) = true → Option.any (fun x =>
      x.done) (seen s).me.wait = true)) ∧
    (accessed i (seen s) site o a = some t)) ∧
  (let i : Instr := (Instr.bop (fn 1 (word .bop 0 2 3)));
    let e : Enc := (fn 1 (word .bop 0 2 3));
    let s : State := (through (.bop (fn 1 (word .bop 0 2 3))) true);
    let t : State := ((accessed (Instr.bop (fn 1 (word .bop 0 2 3))) (seen (through (.bop (fn 1 (word .bop 0 2 3))) true)) (⟨1,0⟩:Site)
      0x100 (0x10400100:W)).getD (world .flow));
    let a : W := (0x10400100:W);
    let n : Nat := 8;
    let write : Bool := true;
    let queue : Bool := false;
    let site : Site := (⟨1,0⟩:Site);
    let o : Nat := 0x100;
    ((encOf i = some e) ∧ (clear i s = true) ∧ (formOk i = true) ∧ (memAccess i (seen s).me = some (a, n, write, queue)) ∧ (addrFault (seen
      s) (BitVec.toNat a) n write queue = none) ∧ (isLoad i = true ∨ mayRelease e (seen s) = true) ∧ (ramoPending (seen s) (BitVec.toNat a)
      n = false) ∧ (target (seen s) (BitVec.toNat a) = some (site, o)) ∧ (isRemote (seen s) (BitVec.toNat a) = true → Option.any (fun x =>
      x.done) (seen s).me.wait = true)) ∧
    (accessed i (seen s) site o a = some t)) ∧
  (let i : Instr := (Instr.bopw (fn 1 (word .bopw 0 2 3)));
    let e : Enc := (fn 1 (word .bopw 0 2 3));
    let s : State := (accessing 0x100 7 8);
    let t : State := ((accessed (Instr.bopw (fn 1 (word .bopw 0 2 3))) (seen (accessing 0x100 7 8)) (⟨0,0⟩:Site) 0x100 (0x100:W)).getD
      (world .flow));
    let a : W := (0x100:W);
    let n : Nat := 4;
    let write : Bool := true;
    let queue : Bool := false;
    let site : Site := (⟨0,0⟩:Site);
    let o : Nat := 0x100;
    ((encOf i = some e) ∧ (clear i s = true) ∧ (formOk i = true) ∧ (memAccess i (seen s).me = some (a, n, write, queue)) ∧ (addrFault (seen
      s) (BitVec.toNat a) n write queue = none) ∧ (isLoad i = true ∨ mayRelease e (seen s) = true) ∧ (ramoPending (seen s) (BitVec.toNat a)
      n = false) ∧ (target (seen s) (BitVec.toNat a) = some (site, o)) ∧ (isRemote (seen s) (BitVec.toNat a) = true → Option.any (fun x =>
      x.done) (seen s).me.wait = true)) ∧
    (accessed i (seen s) site o a = some t)) ∧
  (let i : Instr := (Instr.st (word .st 1 2 0));
    let e : Enc := (word .st 1 2 0);
    let s : State := (through (.st (word .st 1 2 0)) true);
    let t : State := ((accessed (Instr.st (word .st 1 2 0)) (seen (through (.st (word .st 1 2 0)) true)) (⟨1,0⟩:Site) 0x100
      (0x10400100:W)).getD (world .flow));
    let a : W := (0x10400100:W);
    let n : Nat := 8;
    let write : Bool := true;
    let queue : Bool := true;
    let site : Site := (⟨1,0⟩:Site);
    let o : Nat := 0x100;
    ((encOf i = some e) ∧ (clear i s = true) ∧ (formOk i = true) ∧ (memAccess i (seen s).me = some (a, n, write, queue)) ∧ (addrFault (seen
      s) (BitVec.toNat a) n write queue = none) ∧ (isLoad i = true ∨ mayRelease e (seen s) = true) ∧ (ramoPending (seen s) (BitVec.toNat a)
      n = false) ∧ (target (seen s) (BitVec.toNat a) = some (site, o)) ∧ (isRemote (seen s) (BitVec.toNat a) = true → Option.any (fun x =>
      x.done) (seen s).me.wait = true)) ∧
    (accessed i (seen s) site o a = some t)) ∧
  (let i : Instr := (Instr.ld (word .ld 1 2 0));
    let e : Enc := (word .ld 1 2 0);
    let s : State := (poisonAt 0x100);
    let t : State := ((accessed (Instr.ld (word .ld 1 2 0)) (seen (poisonAt 0x100)) (⟨0,0⟩:Site) 0x100 (0x100:W)).getD (world .flow));
    let a : W := (0x100:W);
    let n : Nat := 8;
    let write : Bool := false;
    let queue : Bool := true;
    let site : Site := (⟨0,0⟩:Site);
    let o : Nat := 0x100;
    ((encOf i = some e) ∧ (clear i s = true) ∧ (formOk i = true) ∧ (memAccess i (seen s).me = some (a, n, write, queue)) ∧ (addrFault (seen
      s) (BitVec.toNat a) n write queue = none) ∧ (isLoad i = true ∨ mayRelease e (seen s) = true) ∧ (ramoPending (seen s) (BitVec.toNat a)
      n = false) ∧ (target (seen s) (BitVec.toNat a) = some (site, o)) ∧ (isRemote (seen s) (BitVec.toNat a) = true → Option.any (fun x =>
      x.done) (seen s).me.wait = true)) ∧
    (accessed i (seen s) site o a = some t)) :=
  ⟨⟨by decide +kernel, some_of (by decide +kernel)⟩,     ⟨by decide +kernel, some_of (by decide +kernel)⟩,     ⟨by decide +kernel, some_of
      (by decide +kernel)⟩,     ⟨by decide +kernel, some_of (by decide +kernel)⟩,     ⟨by decide +kernel, some_of (by decide +kernel)⟩,
      ⟨by decide +kernel, some_of (by decide +kernel)⟩,     ⟨by decide +kernel, some_of (by decide +kernel)⟩,     ⟨by decide +kernel,
      some_of (by decide +kernel)⟩,     ⟨by decide +kernel, some_of (by decide +kernel)⟩,     ⟨by decide +kernel, some_of
      (by decide +kernel)⟩,     ⟨by decide +kernel, some_of (by decide +kernel)⟩,     ⟨by decide +kernel, some_of (by decide +kernel)⟩⟩

/-- States and operands that meet the hypotheses of `AtomicOnPoison`, clause by clause. -/
theorem meets_AtomicOnPoison :
  let i : Instr := (Instr.amo (word .amo 1 2 3));
    let e : Enc := (word .amo 1 2 3);
    let s : State := (poisonAt 0x100);
    let a : W := (0x100:W);
    let n : Nat := 8;
    let write : Bool := true;
    let queue : Bool := false;
    let site : Site := (⟨0,0⟩:Site);
    let o : Nat := 0x100;
    (encOf i = some e) ∧ (clear i s = true) ∧ (formOk i = true) ∧ (memAccess i (seen s).me = some (a, n, write, queue)) ∧ (addrFault (seen
      s) (BitVec.toNat a) n write queue = none) ∧ (mayRelease e (seen s) = true) ∧ (ramoPending (seen s) (BitVec.toNat a) n = false) ∧
      (target (seen s) (BitVec.toNat a) = some (site, o)) ∧ (isRemote (seen s) (BitVec.toNat a) = true → Option.any (fun x => x.done) (seen
      s).me.wait = true) ∧ (isLoad i = false) ∧ (isBop i = false) ∧ (accessed i (seen s) site o a = none) :=
  by decide +kernel

/-- States and operands that meet the hypotheses of `RemoteAccessesWait`, clause by clause. -/
theorem meets_RemoteAccessesWait :
  (let i : Instr := (Instr.st (word .st 1 2 0));
    let e : Enc := (word .st 1 2 0);
    let s : State := ramoOnWord;
    let a : W := (0x100:W);
    let n : Nat := 8;
    let write : Bool := true;
    let queue : Bool := true;
    (encOf i = some e) ∧ (clear i s = true) ∧ (formOk i = true) ∧ (memAccess i (seen s).me = some (a, n, write, queue)) ∧ (addrFault (seen
      s) (BitVec.toNat a) n write queue = none) ∧ (isLoad i = true ∨ mayRelease e (seen s) = true) ∧ (BitVec.toNat a < 3145728 ∨ (memberAt
      s.here (BitVec.toNat a)).isSome = true) ∧ (ramoPending (seen s) (BitVec.toNat a) n = true)) ∧
  (let i : Instr := (Instr.ld (word .ld 1 2 0));
    let e : Enc := (word .ld 1 2 0);
    let s : State := (accessing 0x10400100 7 8);
    let a : W := (0x10400100:W);
    let n : Nat := 8;
    let write : Bool := false;
    let queue : Bool := true;
    let k : Nat := 1;
    let name : Nat := 2;
    ((encOf i = some e) ∧ (clear i s = true) ∧ (formOk i = true) ∧ (memAccess i (seen s).me = some (a, n, write, queue)) ∧ (addrFault (seen
      s) (BitVec.toNat a) n write queue = none) ∧ (isLoad i = true ∨ mayRelease e (seen s) = true) ∧ (BitVec.toNat a < 3145728 ∨ (memberAt
      s.here (BitVec.toNat a)).isSome = true) ∧ (ramoPending (seen s) (BitVec.toNat a) n = false) ∧ (memberAt s.here (BitVec.toNat a) = some
      (k, name)) ∧ (name ≠ s.here.name) ∧ ((seen s).me.wait = none)) ∧
    (canInject (seen s) 1 name s.cur.kind 0 Body.cluster)) ∧
  (let i : Instr := (Instr.ld (word .ld 1 2 0));
    let e : Enc := (word .ld 1 2 0);
    let s : State := (accessing 0x10800100 7 8);
    let a : W := (0x10800100:W);
    let n : Nat := 8;
    let write : Bool := false;
    let queue : Bool := true;
    let k : Nat := 2;
    let name : Nat := 3;
    ((encOf i = some e) ∧ (clear i s = true) ∧ (formOk i = true) ∧ (memAccess i (seen s).me = some (a, n, write, queue)) ∧ (addrFault (seen
      s) (BitVec.toNat a) n write queue = none) ∧ (isLoad i = true ∨ mayRelease e (seen s) = true) ∧ (BitVec.toNat a < 3145728 ∨ (memberAt
      s.here (BitVec.toNat a)).isSome = true) ∧ (ramoPending (seen s) (BitVec.toNat a) n = false) ∧ (memberAt s.here (BitVec.toNat a) = some
      (k, name)) ∧ (name ≠ s.here.name) ∧ ((seen s).me.wait = none)) ∧
    (∃ d, resolve (seen s).here name = Entry.moving d)) ∧
  (let i : Instr := (Instr.ld (word .ld 1 2 0));
    let e : Enc := (word .ld 1 2 0);
    let s : Machine.State := ((accessing 0x10400100 7 8).modMe fun k => { k with wait := some ⟨.ld (word .ld 1 2 0), 1, true, [], []⟩ });
    let a : W := (0x10400100:W);
    let n : Nat := 8;
    let write : Bool := false;
    let queue : Bool := true;
    let k : Nat := 1;
    let name : Nat := 2;
    let x : Wait := (⟨.ld (word .ld 1 2 0), 1, true, [], []⟩ : Wait);
    ((encOf i = some e) ∧ (clear i s = true) ∧ (formOk i = true) ∧ (memAccess i (seen s).me = some (a, n, write, queue)) ∧ (addrFault (seen s)
      (BitVec.toNat a) n write queue = none) ∧ (isLoad i = true ∨ mayRelease e (seen s) = true) ∧ (BitVec.toNat a < 3145728 ∨ (memberAt s.here
      (BitVec.toNat a)).isSome = true) ∧ (ramoPending (seen s) (BitVec.toNat a) n = false) ∧ (memberAt s.here (BitVec.toNat a) = some (k, name)) ∧
      (name ≠ s.here.name) ∧ ((seen s).me.wait = some x) ∧ (x.done = true) ∧ (siteFor (seen s) name = none)) ∧ (canInject (seen s) 1 name s.cur.kind
      0 Body.cluster)) ∧
  (let i : Instr := (Instr.st (word .st 1 2 0));
    let e : Enc := (word .st 1 2 0);
    let s : State := (through (.st (word .st 1 2 0)) false);
    let a : W := (0x10400100:W);
    let n : Nat := 8;
    let write : Bool := true;
    let queue : Bool := true;
    let k : Nat := 1;
    let name : Nat := 2;
    let x : Wait := (⟨.st (word .st 1 2 0), 1, false, [(2, ⟨1, 0⟩)], []⟩ : Wait);
    (encOf i = some e) ∧ (clear i s = true) ∧ (formOk i = true) ∧ (memAccess i (seen s).me = some (a, n, write, queue)) ∧ (addrFault (seen
      s) (BitVec.toNat a) n write queue = none) ∧ (isLoad i = true ∨ mayRelease e (seen s) = true) ∧ (BitVec.toNat a < 3145728 ∨ (memberAt
      s.here (BitVec.toNat a)).isSome = true) ∧ (ramoPending (seen s) (BitVec.toNat a) n = false) ∧ (memberAt s.here (BitVec.toNat a) = some
      (k, name)) ∧ (name ≠ s.here.name) ∧ ((seen s).me.wait = some x) ∧ (x.done = false)) :=
  ⟨by and_intros <;> decide +kernel,
    ⟨by decide +kernel, canInject_of (by decide +kernel)⟩,
    ⟨by decide +kernel, moving_of (by decide +kernel)⟩,
    ⟨by and_intros <;> decide +kernel, canInject_of (by decide +kernel)⟩,
    by and_intros <;> decide +kernel⟩

/-- States and operands that meet the hypotheses of `AccessFrame`, clause by clause. -/
theorem meets_AccessFrame :
  (let i : Instr := (Instr.st (word .st 1 2 0));
    let e : Enc := (word .st 1 2 0);
    let s : Machine.State := (accessing 0x100 7 9);
    let t : Machine.State := (after (.st (word .st 1 2 0)) (accessing 0x100 7 9));
    let a : W := (0x100:W);
    let n : Nat := 8;
    let write : Bool := true;
    let queue : Bool := true;
    let site : Site := (⟨0,0⟩:Site);
    let o : Nat := 0x100;
    let x : Site := (⟨0, 0⟩ : Site);
    let b : Nat := 0x108;
    (encOf i = some e) ∧ (MemsWf s) ∧ ((clear i s = true) ∧ (formOk i = true) ∧ (memAccess i (seen s).me = some (a, n, write, queue)) ∧ (addrFault
      (seen s) (BitVec.toNat a) n write queue = none) ∧ (isLoad i = true ∨ mayRelease e (seen s) = true) ∧ (ramoPending (seen s) (BitVec.toNat a) n
      = false) ∧ (target (seen s) (BitVec.toNat a) = some (site, o)) ∧ (isRemote (seen s) (BitVec.toNat a) = true → Option.any (fun x => x.done)
      (seen s).me.wait = true) ∧ ((accessed i (seen s) site o a).isSome = true)) ∧ (exec i s = Host.Outcome.next t) ∧ (Site.num x ≠ Site.num site ∨
      isLoad i = true ∨ isBop i = true ∨ b < o ∨ o + n ≤ b)) ∧
  (let i : Instr := (Instr.st (word .st 1 2 0));
    let e : Enc := (word .st 1 2 0);
    let s : Machine.State := (accessing 0x100 7 9);
    let t : Machine.State := (after (.st (word .st 1 2 0)) (accessing 0x100 7 9));
    let a : W := (0x100:W);
    let n : Nat := 8;
    let write : Bool := true;
    let queue : Bool := true;
    let site : Site := (⟨0,0⟩:Site);
    let o : Nat := 0x100;
    let m : Nat := 2;
    (encOf i = some e) ∧ (MemsWf s) ∧ ((clear i s = true) ∧ (formOk i = true) ∧ (memAccess i (seen s).me = some (a, n, write, queue)) ∧ (addrFault
      (seen s) (BitVec.toNat a) n write queue = none) ∧ (isLoad i = true ∨ mayRelease e (seen s) = true) ∧ (ramoPending (seen s) (BitVec.toNat a) n
      = false) ∧ (target (seen s) (BitVec.toNat a) = some (site, o)) ∧ (isRemote (seen s) (BitVec.toNat a) = true → Option.any (fun x => x.done)
      (seen s).me.wait = true) ∧ ((accessed i (seen s) site o a).isSome = true)) ∧ (exec i s = Host.Outcome.next t) ∧ (¬(writesA i = true ∧ m % 32 =
      e.a % 32))) ∧
  (let i : Instr := (Instr.amo (word .amo 1 2 3));
    let e : Enc := (word .amo 1 2 3);
    let s : State := (accessing 0x100 7 9);
    let t : State := (after (.amo (word .amo 1 2 3)) (accessing 0x100 7 9));
    let a : W := (0x100:W);
    let n : Nat := 8;
    let write : Bool := true;
    let queue : Bool := false;
    let site : Site := (⟨0,0⟩:Site);
    let o : Nat := 0x100;
    (encOf i = some e) ∧
    (MemsWf s) ∧
    ((clear i s = true) ∧ (formOk i = true) ∧ (memAccess i (seen s).me = some (a, n, write, queue)) ∧ (addrFault (seen s) (BitVec.toNat a) n
      write queue = none) ∧ (isLoad i = true ∨ mayRelease e (seen s) = true) ∧ (ramoPending (seen s) (BitVec.toNat a) n = false) ∧ (target
      (seen s) (BitVec.toNat a) = some (site, o)) ∧ (isRemote (seen s) (BitVec.toNat a) = true → Option.any (fun x => x.done) (seen
      s).me.wait = true) ∧ ((accessed i (seen s) site o a).isSome = true)) ∧
    (exec i s = Host.Outcome.next t)) ∧
  (let i : Instr := (Instr.st (word .st 1 2 0));
    let e : Enc := (word .st 1 2 0);
    let s : State := (accessing 0x100 7 9);
    let t : State := (after (.st (word .st 1 2 0)) (accessing 0x100 7 9));
    let a : W := (0x100:W);
    let n : Nat := 8;
    let write : Bool := true;
    let queue : Bool := true;
    let site : Site := (⟨0,0⟩:Site);
    let o : Nat := 0x100;
    (encOf i = some e) ∧
    (MemsWf s) ∧
    ((clear i s = true) ∧ (formOk i = true) ∧ (memAccess i (seen s).me = some (a, n, write, queue)) ∧ (addrFault (seen s) (BitVec.toNat a) n
      write queue = none) ∧ (isLoad i = true ∨ mayRelease e (seen s) = true) ∧ (ramoPending (seen s) (BitVec.toNat a) n = false) ∧ (target
      (seen s) (BitVec.toNat a) = some (site, o)) ∧ (isRemote (seen s) (BitVec.toNat a) = true → Option.any (fun x => x.done) (seen
      s).me.wait = true) ∧ ((accessed i (seen s) site o a).isSome = true)) ∧
    (exec i s = Host.Outcome.next t)) ∧
  (let i : Instr := (Instr.bop (word .bop 0 2 3));
    let e : Enc := (word .bop 0 2 3);
    let s : State := (accessing 0x100 7 9);
    let t : State := (after (.bop (word .bop 0 2 3)) (accessing 0x100 7 9));
    let a : W := (0x100:W);
    let n : Nat := 8;
    let write : Bool := true;
    let queue : Bool := false;
    let site : Site := (⟨0,0⟩:Site);
    let o : Nat := 0x100;
    (encOf i = some e) ∧
    (MemsWf s) ∧
    ((clear i s = true) ∧ (formOk i = true) ∧ (memAccess i (seen s).me = some (a, n, write, queue)) ∧ (addrFault (seen s) (BitVec.toNat a) n
      write queue = none) ∧ (isLoad i = true ∨ mayRelease e (seen s) = true) ∧ (ramoPending (seen s) (BitVec.toNat a) n = false) ∧ (target
      (seen s) (BitVec.toNat a) = some (site, o)) ∧ (isRemote (seen s) (BitVec.toNat a) = true → Option.any (fun x => x.done) (seen
      s).me.wait = true) ∧ ((accessed i (seen s) site o a).isSome = true)) ∧
    (exec i s = Host.Outcome.next t)) :=
  ⟨⟨by decide +kernel, by delta MemsWf TileWf; decide +kernel, by and_intros <;> decide +kernel, next_of (by decide +kernel), by decide +kernel⟩,
    ⟨by decide +kernel, by delta MemsWf TileWf; decide +kernel, by and_intros <;> decide +kernel, next_of (by decide +kernel), by decide +kernel⟩,
    ⟨by decide +kernel, by delta MemsWf TileWf; decide +kernel, by decide +kernel, next_of (by decide +kernel)⟩,
    ⟨by decide +kernel, by delta MemsWf TileWf; decide +kernel, by decide +kernel, next_of (by decide +kernel)⟩,
    ⟨by decide +kernel, by delta MemsWf TileWf; decide +kernel, by decide +kernel, next_of (by decide +kernel)⟩⟩

/-- States and operands that meet the hypotheses of `BankPerforms`, clause by clause. -/
theorem meets_BankPerforms :
  (let site : Site := (⟨0,0⟩:Site);
    let i : Nat := 1;
    let x : BankOp := (⟨⟨⟨0, 0⟩, .flow⟩, 0x104, 4, 0, 0xFFFFFFFFFFFFFFFF, 0x8002, false⟩ : BankOp);
    let s : State := banked;
    (((s.tile site).mem.wf = true) ∧ ((s.tile site).bankq[i]? = some x)) ∧
    (∀ (j : Nat) (y : BankOp), j < i → (s.tile site).bankq[j]? = some y → ¬(y.addr / 8 = x.addr / 8 ∧ y.src = x.src)) ∧
    ((s.tile site).bad x.addr = false)) ∧
  (let site : Site := (⟨0,0⟩:Site);
    let i : Nat := 1;
    let x : BankOp := (⟨⟨⟨0, 0⟩, .flow⟩, 0x104, 4, 0, 0xFFFFFFFFFFFFFFFF, 0x8002, false⟩ : BankOp);
    let s : State := bankedBad;
    (((s.tile site).mem.wf = true) ∧ ((s.tile site).bankq[i]? = some x)) ∧
    (∀ (j : Nat) (y : BankOp), j < i → (s.tile site).bankq[j]? = some y → ¬(y.addr / 8 = x.addr / 8 ∧ y.src = x.src)) ∧
    (((s.tile site).bad x.addr = true) ∧ ((s.core x.src).ptrap = none))) :=
  ⟨⟨by decide +kernel, below_of (by decide +kernel), by decide +kernel⟩,     ⟨by decide +kernel, below_of (by decide +kernel),
      by decide +kernel⟩⟩

/-- States and operands that meet the hypotheses of `QueueAccesses`, clause by clause. -/
theorem meets_QueueAccesses :
  (let e : Enc := (word .ld 1 2 0);
    let s : State := (queues 0x300800 [] [7]);
    let y : Coll := coll;
    let x : W := (7:W);
    let rest : List W := ([]:List W);
    ((seen s).me.coll = some y) ∧ (e.pred = none) ∧ (y.usable = true) ∧ (y.state ≠ 5) ∧ (y.state ≠ 6) ∧ (clear (Instr.ld e) s = true) ∧
      ((seen s).me.g e.b + BitVec.ofInt 64 (8 * e.immS Fmt.ri) = 3147776) ∧ (y.popped + 1 < y.outWords) ∧ ((seen s).me.ext = x :: rest)) ∧
  (let e : Enc := (word .ld 1 2 0);
    let s : State := (queues 0x300800 [] []);
    let y : Coll := coll;
    ((seen s).me.coll = some y) ∧ (e.pred = none) ∧ (y.usable = true) ∧ (y.state ≠ 5) ∧ (y.state ≠ 6) ∧ (clear (Instr.ld e) s = true) ∧
      ((seen s).me.g e.b + BitVec.ofInt 64 (8 * e.immS Fmt.ri) = 3147776) ∧ (y.popped < y.outWords) ∧ ((seen s).me.ext = [])) ∧
  (let e : Enc := (word .st 1 2 0);
    let s : State := (queues 0x300000 (List.replicate 63 0) []);
    let y : Coll := coll;
    ((seen s).me.coll = some y) ∧ (e.pred = none) ∧ (y.usable = true) ∧ (y.state ≠ 5) ∧ (y.state ≠ 6) ∧ (clear (Instr.st e) s = true) ∧
      ((seen s).me.g e.b + BitVec.ofInt 64 (8 * e.immS Fmt.ri) = 3145728) ∧ (y.pushed < y.inWords) ∧ ((seen s).me.inj.length < 64)) ∧
  (let e : Enc := (word .st 1 2 0);
    let s : State := (queues 0x300000 (List.replicate 64 0) []);
    let y : Coll := coll;
    ((seen s).me.coll = some y) ∧ (e.pred = none) ∧ (y.usable = true) ∧ (y.state ≠ 5) ∧ (y.state ≠ 6) ∧ (clear (Instr.st e) s = true) ∧
      ((seen s).me.g e.b + BitVec.ofInt 64 (8 * e.immS Fmt.ri) = 3145728) ∧ (y.pushed < y.inWords) ∧ (64 ≤ (seen s).me.inj.length)) :=
  by and_intros <;> decide +kernel

/-- States and operands that meet the hypotheses of `SendsComplete`, clause by clause. -/
theorem meets_SendsComplete :
  (let e : Enc := (word .send 1 2 3);
    let s : State := edgeSend;
    ((sendRoom (seen s).me = true) ∧ (mayRelease e (seen s) = true) ∧ (clear (Instr.send e) s = true) ∧ (badSend (wordGiven e (seen s).me) =
      false)) ∧
    (capOk (seen s) ((seen s).me.capReg e.a) 0 (some (chanOf (wordGiven e (seen s).me))) = true) ∧
    ((BitVec.toNat ((seen s).me.g e.b) % 8 = 0) ∧ (footOk (seen s) ((seen s).me.g e.b) (lenOf (wordGiven e (seen s).me) / 8) = true))) ∧
  (let e : Enc := (word .put 1 2 3);
    let s : State := (caps 0x100 0x10000000010);
    ((sendRoom (seen s).me = true) ∧ (mayRelease e (seen s) = true) ∧ (clear (Instr.put e) s = true) ∧ (badPut (wordGiven e (seen s).me) =
      false)) ∧
    (capOk (seen s) ((seen s).me.capReg e.a) 0 none = true) ∧
    ((BitVec.toNat ((seen s).me.g e.b) % 8 = 0) ∧ (footOk (seen s) ((seen s).me.g e.b) (lenOf (wordGiven e (seen s).me) / 8) = true))) ∧
  (let e : Enc := (imms [0x3F, 0, 0] (word .sendf 1 2 3));
    let s : State := (caps 5 6);
    ((sendRoom (seen s).me = true) ∧ (mayRelease e (seen s) = true) ∧ (clear (Instr.sendf e) s = true) ∧ (formOk (Instr.sendf e) = true)) ∧
    (capOk (seen s) ((seen s).me.capReg e.a) 0 (some (chanOf e.immHigh)) = true)) ∧
  (let e : Enc := (pred 2 (imms [0x3F, 0, 0] (word .vsend 1 2 0)));
    let s : State := capsShape;
    ((sendRoom (seen s).me = true) ∧ (mayRelease e (seen s) = true) ∧ (clear (Instr.vsend e) s = true) ∧ (formOk (Instr.vsend e) = true) ∧
      ((seen s).me.vq = []) ∧ ((seen s).me.pend = []) ∧ (e.b < 12) ∧ ((seen s).me.vmarks e.b = [])) ∧
    (capOk (seen s) ((seen s).me.capReg e.a) 0 (some (chanOf e.immHigh)) = true) ∧
    (∃ j, j < 64 ∧ BitVec.getLsbD ((seen s).me.pred e) j = true)) :=
  ⟨⟨by decide +kernel, capOk_cap2 (by decide +kernel), by decide +kernel⟩,     ⟨by decide +kernel, capOk_cap2 (by decide +kernel),
      by decide +kernel⟩,     ⟨by decide +kernel, capOk_cap2 (by decide +kernel)⟩,     ⟨by decide +kernel, capOk_cap2 (by decide +kernel),
      by decide +kernel⟩⟩

/-- States and operands that meet the hypotheses of `SendTraps`, clause by clause. -/
theorem meets_SendTraps :
  (let e : Enc := (word .send 3 2 3);
    let s : Machine.State := (caps 0x100 0x10);
    let cause : Nat := 0x0D;
    (clear (Instr.send e) s = true) ∧ (formOk (Instr.send e) = true) ∧ (hasPassed (seen s).me = false) ∧ (capCheck (seen s) s.cur.site ((seen
      s).me.capReg e.a) 0 (some (chanOf (wordGiven e (seen s).me))) = some cause)) ∧
  (let e : Enc := (word .send 1 2 3);
    let s : State := (caps 0x100 0x11);
    ((clear (Instr.send e) s = true) ∧ (formOk (Instr.send e) = true)) ∧
    (capOk (seen s) ((seen s).me.capReg e.a) 0 (some (chanOf (wordGiven e (seen s).me))) = true) ∧
    (badSend (wordGiven e (seen s).me) = true)) ∧
  (let e : Enc := (word .send 1 2 3);
    let s : State := (caps 0x104 0x10);
    ((clear (Instr.send e) s = true) ∧ (formOk (Instr.send e) = true)) ∧
    (capOk (seen s) ((seen s).me.capReg e.a) 0 (some (chanOf (wordGiven e (seen s).me))) = true) ∧
    ((badSend (wordGiven e (seen s).me) = false) ∧ (BitVec.toNat ((seen s).me.g e.b) % 8 ≠ 0))) :=
  ⟨by and_intros <;> decide +kernel,
    ⟨by decide +kernel, capOk_cap2 (by decide +kernel), by decide +kernel⟩,
    ⟨by decide +kernel, capOk_cap2 (by decide +kernel), by decide +kernel⟩⟩

/-- States and operands that meet the hypotheses of `RemoteRequests`, clause by clause. -/
theorem meets_RemoteRequests :
  (let e : Enc := (word .get 1 2 3);
    let s : State := (caps 0x2BFFF0 0x10000000000);
    ((clear (Instr.get e) s = true) ∧ (badPut (wordGiven e (seen s).me) = false)) ∧
    (capOk (seen s) ((seen s).me.capReg e.a) 0 none = true) ∧
    ((BitVec.toNat ((seen s).me.g e.b) % 8 = 0) ∧ (∀ (j : Nat), j < lenOf (wordGiven e (seen s).me) / 8 → have a := BitVec.toNat ((seen
      s).me.g e.b + BitVec.ofNat 64 (8 * j)); addrFault (seen s) a 8 true false = none ∧ ramoPending (seen s) a 8 = false) ∧ (lenOf
      (wordGiven e (seen s).me) = 0))) ∧
  (let e : Enc := (word .get 1 2 3);
    let s : Machine.State := (caps 0x2BFFF0 0x10000000010);
    ((clear (Instr.get e) s = true) ∧ (badPut (wordGiven e (seen s).me) = false)) ∧ (capOk (seen s) ((seen s).me.capReg e.a) 0 none = true) ∧
      ((BitVec.toNat ((seen s).me.g e.b) % 8 = 0) ∧ (∀ (j : Nat), j < lenOf (wordGiven e (seen s).me) / 8 → have a := BitVec.toNat ((seen s).me.g
      e.b + BitVec.ofNat 64 (8 * j)); addrFault (seen s) a 8 true false = none ∧ ramoPending (seen s) a 8 = false) ∧ (lenOf (wordGiven e (seen
      s).me) ≠ 0 ∧ ramoHits (seen s) s.cur (cname ((seen s).me.capReg e.a)) (remoteOf (wordGiven e (seen s).me)) (lenOf (wordGiven e (seen s).me)) =
      false ∧ (seen s).me.wait = none) ∧ (∀ (j : Nat), j < lenOf (wordGiven e (seen s).me) / 8 → isRemote (seen s) ((fun j => BitVec.toNat ((seen
      s).me.g e.b + BitVec.ofNat 64 (8 * j))) j) = false)) ∧ (canInject (seen s) 1 (cname ((seen s).me.capReg e.a)) (capKind ((seen s).me.capReg
      e.a)) 0 (Body.getReq (remoteOf (wordGiven e (seen s).me)) (lenOf (wordGiven e (seen s).me)) (BitVec.toNat ((seen s).me.g e.b))))) ∧
  (let e : Enc := (word .get 1 2 3);
    let s : Machine.State := (caps 0x10400100 0x10000000010);
    let name : Nat := 2;
    let v' : Machine.State := ((inject ((seen (caps 0x10400100 0x10000000010)).modMe Core.passed) (caps 0x10400100 0x10000000010).cur 1 2 (caps 0x10400100 0x10000000010).cur.kind 0 Body.cluster).getD (caps 0 0));
    ((clear (Instr.get e) s = true) ∧ (badPut (wordGiven e (seen s).me) = false)) ∧ (capOk (seen s) ((seen s).me.capReg e.a) 0 none = true) ∧
      ((BitVec.toNat ((seen s).me.g e.b) % 8 = 0) ∧ (∀ (j : Nat), j < lenOf (wordGiven e (seen s).me) / 8 → have a := BitVec.toNat ((seen s).me.g
      e.b + BitVec.ofNat 64 (8 * j)); addrFault (seen s) a 8 true false = none ∧ ramoPending (seen s) a 8 = false) ∧ (lenOf (wordGiven e (seen
      s).me) ≠ 0 ∧ ramoHits (seen s) s.cur (cname ((seen s).me.capReg e.a)) (remoteOf (wordGiven e (seen s).me)) (lenOf (wordGiven e (seen s).me)) =
      false ∧ (seen s).me.wait = none) ∧ (8 ≤ lenOf (wordGiven e (seen s).me)) ∧ (∀ (j : Nat), j < lenOf (wordGiven e (seen s).me) / 8 → isRemote
      (seen s) ((fun j => BitVec.toNat ((seen s).me.g e.b + BitVec.ofNat 64 (8 * j))) j) = true ∧ nameOf (seen s) ((fun j => BitVec.toNat ((seen
      s).me.g e.b + BitVec.ofNat 64 (8 * j))) j) = name) ∧ (inject ((seen s).modMe Core.passed) s.cur 1 name s.cur.kind 0 Body.cluster = some v'))) ∧
  (let e : Enc := (word .ramo 2 1 3);
    let s : Machine.State := (caps 0x2BFFF8 5);
    let i : Instr := (Instr.ramo (word .ramo 2 1 3));
    let n : Nat := 8;
    ((i = Instr.ramo e ∧ n = 8 ∨ i = Instr.ramow e ∧ n = 4) ∧ (clear i s = true) ∧ (formOk i = true)) ∧ (capOk (seen s) ((seen s).me.capReg e.b) 0
      none = true) ∧ ((BitVec.toNat ((seen s).me.g e.a) % n = 0) ∧ (BitVec.toNat ((seen s).me.g e.a) + n ≤ 2883584) ∧ (mayRelease e (seen s) = true)
      ∧ (ramoHits (seen s) s.cur (cname ((seen s).me.capReg e.b)) (BitVec.toNat ((seen s).me.g e.a)) n = false)) ∧ (canInject (seen s) 1 (cname
      ((seen s).me.capReg e.b)) (capKind ((seen s).me.capReg e.b)) 0 (Body.ramoReq (BitVec.toNat ((seen s).me.g e.a)) n e.fnv ((seen s).me.g e.c)
      s.me.pc (seen s).me.lev (((seen s).modMe Core.passed).me.promise e.L RFile.g e.a (some (cname ((seen s).me.capReg e.b)))).fst))) ∧
  (let e : Enc := (word .ramo 2 1 3);
    let s : State := ramoFlies;
    let i : Instr := (Instr.ramo (word .ramo 2 1 3));
    let n : Nat := 8;
    ((i = Instr.ramo e ∧ n = 8 ∨ i = Instr.ramow e ∧ n = 4) ∧ (clear i s = true) ∧ (formOk i = true)) ∧
    (capOk (seen s) ((seen s).me.capReg e.b) 0 none = true) ∧
    ((BitVec.toNat ((seen s).me.g e.a) % n = 0) ∧ (BitVec.toNat ((seen s).me.g e.a) + n ≤ 2883584) ∧ (mayRelease e (seen s) = true) ∧
      (ramoHits (seen s) s.cur (cname ((seen s).me.capReg e.b)) (BitVec.toNat ((seen s).me.g e.a)) n = true))) ∧
  (let e : Enc := (fn 9 (ord 2 (word .ramow 2 1 3)));
    let s : Machine.State := (caps 0x2BFFF8 5);
    let i : Instr := (Instr.ramow (fn 9 (ord 2 (word .ramow 2 1 3))));
    let n : Nat := 4;
    ((i = Instr.ramo e ∧ n = 8 ∨ i = Instr.ramow e ∧ n = 4) ∧ (clear i s = true) ∧ (formOk i = true)) ∧ (capOk (seen s) ((seen s).me.capReg e.b) 0
      none = true) ∧ ((BitVec.toNat ((seen s).me.g e.a) % n = 0) ∧ (BitVec.toNat ((seen s).me.g e.a) + n ≤ 2883584) ∧ (mayRelease e (seen s) = true)
      ∧ (ramoHits (seen s) s.cur (cname ((seen s).me.capReg e.b)) (BitVec.toNat ((seen s).me.g e.a)) n = false)) ∧ (canInject (seen s) 1 (cname
      ((seen s).me.capReg e.b)) (capKind ((seen s).me.capReg e.b)) 0 (Body.ramoReq (BitVec.toNat ((seen s).me.g e.a)) n e.fnv ((seen s).me.g e.c)
      s.me.pc (seen s).me.lev (((seen s).modMe Core.passed).me.promise e.L RFile.g e.a (some (cname ((seen s).me.capReg e.b)))).fst))) ∧
  (let e : Enc := (ord 1 (word .ramo 2 1 3));
    let s : Machine.State := (caps 0x2BFFF8 5);
    let i : Instr := (Instr.ramo (ord 1 (word .ramo 2 1 3)));
    let n : Nat := 8;
    ((i = Instr.ramo e ∧ n = 8 ∨ i = Instr.ramow e ∧ n = 4) ∧ (clear i s = true) ∧ (formOk i = true)) ∧ (capOk (seen s) ((seen s).me.capReg e.b) 0
      none = true) ∧ ((BitVec.toNat ((seen s).me.g e.a) % n = 0) ∧ (BitVec.toNat ((seen s).me.g e.a) + n ≤ 2883584) ∧ (mayRelease e (seen s) = true)
      ∧ (ramoHits (seen s) s.cur (cname ((seen s).me.capReg e.b)) (BitVec.toNat ((seen s).me.g e.a)) n = false)) ∧ (canInject (seen s) 1 (cname
      ((seen s).me.capReg e.b)) (capKind ((seen s).me.capReg e.b)) 0 (Body.ramoReq (BitVec.toNat ((seen s).me.g e.a)) n e.fnv ((seen s).me.g e.c)
      s.me.pc (seen s).me.lev (((seen s).modMe Core.passed).me.promise e.L RFile.g e.a (some (cname ((seen s).me.capReg e.b)))).fst))) :=
  ⟨⟨by decide +kernel, capOk_cap2 (by decide +kernel), by decide +kernel⟩,
    ⟨by and_intros <;> decide +kernel, capOk_cap2 (by decide +kernel), by and_intros <;> decide +kernel, canInject_of (by decide +kernel)⟩,
    ⟨by and_intros <;> decide +kernel, capOk_cap2 (by decide +kernel), by and_intros <;> decide +kernel⟩,
    ⟨by and_intros <;> decide +kernel, capOk_cap2 (by decide +kernel), by and_intros <;> decide +kernel, canInject_of (by decide +kernel)⟩,
    ⟨by decide +kernel, capOk_cap2 (by decide +kernel), by decide +kernel⟩,
    ⟨by and_intros <;> decide +kernel, capOk_cap2 (by decide +kernel), by and_intros <;> decide +kernel, canInject_of (by decide +kernel)⟩,
    ⟨by and_intros <;> decide +kernel, capOk_cap2 (by decide +kernel), by and_intros <;> decide +kernel, canInject_of (by decide +kernel)⟩⟩

/-- States and operands that meet the hypotheses of `PortsComplete`, clause by clause. -/
theorem meets_PortsComplete :
  (let e : Enc := (imms [128] (word .qbind 1 0 0));
    let s : State := (world .flow);
    (clear (Instr.qbind e) s = true) ∧ (wordGiven e (seen s).me = 128)) ∧
  (let e : Enc := (imms [127] (word .qbind 1 1 0));
    let s : State := (caps 0 0);
    ((clear (Instr.qbind e) s = true) ∧ (64 ≤ wordGiven e (seen s).me) ∧ (wordGiven e (seen s).me < 128) ∧ (readable (seen s).me (RFile.c,
      e.b) = true)) ∧
    (capOk (seen s) ((seen s).me.capReg e.b) 0 (some (wordGiven e (seen s).me - 64)) = true)) ∧
  (let e : Enc := (imms [63] (word .qbind 1 1 0));
    let s : State := (caps 0 0);
    (clear (Instr.qbind e) s = true) ∧ (wordGiven e (seen s).me < 64) ∧ (chanTaken (seen s).me e.a (wordGiven e (seen s).me) = false) ∧ (∀
      (r : Rec), r ∈ (seen s).me.recs → 0 < r.len ∨ r.pad = true)) ∧
  (let e : Enc := (word .qrd 1 1 0);
    let s : Machine.State := inPort;
    let i : Instr := (Instr.qrd (word .qrd 1 1 0));
    let r : Rec := (⟨3, 0, 1, false, 12, 0, false⟩ : Rec);
    (i = Instr.qrd e ∨ i = Instr.qtry e) ∧ (clear i s = true) ∧ (inbound (seen s).me e.b = true) ∧ ((seen s).me.headRec (vget (seen s).me.q
      e.b).chan = some r) ∧ (r.len ≤ (vget (seen s).me.q e.b).read + 8 → mayFree (seen s) = true)) ∧
  (let e : Enc := (word .qtry 2 1 3);
    let s : Machine.State := lastWord;
    let i : Instr := (Instr.qtry (word .qtry 2 1 3));
    let r : Rec := (⟨3, 0, 1, false, 12, 0, false⟩ : Rec);
    (i = Instr.qrd e ∨ i = Instr.qtry e) ∧ (clear i s = true) ∧ (inbound (seen s).me e.b = true) ∧ ((seen s).me.headRec (vget (seen s).me.q
      e.b).chan = some r) ∧ (r.len ≤ (vget (seen s).me.q e.b).read + 8) ∧ (mayFree (seen s) = false)) ∧
  (let e : Enc := (word .qrd 1 1 0);
    let s : State := emptyPort;
    (clear (Instr.qrd e) s = true) ∧ (inbound (seen s).me e.b = true) ∧ ((seen s).me.headRec (vget (seen s).me.q e.b).chan = none)) ∧
  (let e : Enc := (word .qtry 2 1 3);
    let s : State := emptyPort;
    (clear (Instr.qtry e) s = true) ∧ (inbound (seen s).me e.b = true) ∧ ((seen s).me.headRec (vget (seen s).me.q e.b).chan = none)) ∧
  (let e : Enc := (word .qwr 1 2 0);
    let s : State := outPort;
    ((clear (Instr.qwr e) s = true) ∧ ((vget (seen s).me.q e.a).bound = true) ∧ ((vget (seen s).me.q e.a).outbound = true)) ∧
    (capOk (seen s) (vget (seen s).me.q e.a).cap 0 (some (vget (seen s).me.q e.a).chan) = true) ∧
    (canInject (seen s) (if (seen s).me.lev = true then 5 else 0) (cname (vget (seen s).me.q e.a).cap) (capKind (vget (seen s).me.q
      e.a).cap) (vget (seen s).me.q e.a).chan (Body.message 0 (leBytes 8 (BitVec.toNat ((seen s).me.g e.b))) [])) ∧
    (∀ (p : Pkt), p ∈ (seen s).pkts → p.id ≠ (seen s).nextPkt)) ∧
  (let e : Enc := (word .qrd 1 1 0);
    let s : State := outPort;
    let i : Instr := (Instr.qrd (word .qrd 1 1 0));
    (i = Instr.qrd e ∨ i = Instr.qtry e) ∧ (clear i s = true) ∧ (inbound (seen s).me e.b = false)) ∧
  (let e : Enc := (word .qwr 1 2 0);
    let s : State := inPort;
    (clear (Instr.qwr e) s = true) ∧ (((vget (seen s).me.q e.a).bound && (vget (seen s).me.q e.a).outbound) = false)) :=
  ⟨by decide +kernel,
    ⟨by decide +kernel, capOk_cap2 (by decide +kernel)⟩,
    by and_intros <;> decide +kernel,
    by and_intros <;> decide +kernel,
    by and_intros <;> decide +kernel,
    by and_intros <;> decide +kernel,
    by and_intros <;> decide +kernel,
    ⟨by decide +kernel, capOk_cap2 (by decide +kernel), canInject_of (by decide +kernel), by decide +kernel⟩,
    by and_intros <;> decide +kernel,
    by and_intros <;> decide +kernel⟩

/-- States and operands that meet the hypotheses of `Injection`, clause by clause. -/
theorem meets_Injection :
  (let s : State := (caps 0 0);
    let c : CoreId := (⟨⟨0,0⟩,.flow⟩:CoreId);
    let vc : Nat := 1;
    let name : Nat := 2;
    let kind : CoreKind := CoreKind.math;
    let chan : Nat := 0;
    let body : Body := (Body.wake);
    let d : Site := (⟨1,0⟩:Site);
    (name < 16384) ∧ (resolve (s.tile c.site) name = Entry.bound d ∨ resolve (s.tile c.site) name = Entry.forwarded d) ∧ ((s.pkts.all fun q
      => !(q.src == c && q.name == name && q.kind == kind && q.chan == chan && q.vc == vc && (q.state == 1 || q.reinj != 0))) = true ∧
      Option.any (fun x => x.stalled) (s.region (s.tile c.site).vni) = false ∧ (reserveSize body = 0 ∨ (s.core c).reserved + reserveSize
      body ≤ 65536))) ∧
  (let s : Machine.State := { caps 0 0 with pkts := [{ pkt 1 1 .wake with src := ⟨⟨0, 0⟩, .flow⟩, name := 2 }] };
    let c : CoreId := (⟨⟨0, 0⟩, .flow⟩ : CoreId);
    let vc : Nat := 1;
    let name : Nat := 2;
    let kind : CoreKind := CoreKind.flow;
    let chan : Nat := 3;
    (name < 16384) ∧ (∃ q, q ∈ s.pkts ∧ q.src = c ∧ q.name = name ∧ q.kind = kind ∧ q.chan = chan ∧ q.vc = vc ∧ (q.state = 1 ∨ q.reinj ≠ 0))) ∧
  (let s : Machine.State := (stalledRegion (caps 0 0));
    let c : CoreId := (⟨⟨0, 0⟩, .flow⟩ : CoreId);
    let name : Nat := 2;
    let r : Region := ((stalledRegion (caps 0 0)).regions.headD (region5 none));
    (name < 16384) ∧ (s.region (s.tile c.site).vni = some r) ∧ (r.stalled = true)) ∧
  (let s : State := (caps 0 0);
    let c : CoreId := (⟨⟨0,0⟩,.flow⟩:CoreId);
    let vc : Nat := 0;
    let name : Nat := 4;
    let kind : CoreKind := CoreKind.math;
    let chan : Nat := 3;
    let body : Body := (Body.message 0 [] []);
    (name < 16384) ∧ (resolve (s.tile c.site) name = Entry.unbound) ∧ ((s.pkts.all fun q => !(q.src == c && q.name == name && q.kind == kind
      && q.chan == chan && q.vc == vc && (q.state == 1 || q.reinj != 0))) = true ∧ Option.any (fun x => x.stalled) (s.region (s.tile
      c.site).vni) = false ∧ (reserveSize body = 0 ∨ (s.core c).reserved + reserveSize body ≤ 65536))) ∧
  (let s : State := (caps 0 0);
    let c : CoreId := (⟨⟨0,0⟩,.flow⟩:CoreId);
    let vc : Nat := 0;
    let name : Nat := 3;
    let kind : CoreKind := CoreKind.math;
    let chan : Nat := 3;
    let body : Body := (Body.message 0 [] []);
    let d : Site := (⟨1,0⟩:Site);
    (name < 16384) ∧ (resolve (s.tile c.site) name = Entry.moving d)) ∧
  (let s : State := ((caps 0 0).modMe fun k => { k with resv := [(9, List.range 1024)] });
    let c : CoreId := (⟨⟨0,0⟩,.flow⟩:CoreId);
    let vc : Nat := 0;
    let name : Nat := 2;
    let kind : CoreKind := CoreKind.math;
    let chan : Nat := 3;
    let body : Body := (Body.message 0 [1] []);
    (name < 16384) ∧ (reserveSize body ≠ 0) ∧ (65536 < (s.core c).reserved + reserveSize body)) ∧
  (let s : State := (caps 0 0);
    let c : CoreId := (⟨⟨0,0⟩,.flow⟩:CoreId);
    let vc : Nat := 1;
    let name : Nat := 5;
    let kind : CoreKind := CoreKind.math;
    let chan : Nat := 0;
    let body : Body := (Body.wake);
    let d : Site := (⟨1,0⟩:Site);
    (name < 16384) ∧ (resolve (s.tile c.site) name = Entry.bound d ∨ resolve (s.tile c.site) name = Entry.forwarded d) ∧ ((s.pkts.all fun q
      => !(q.src == c && q.name == name && q.kind == kind && q.chan == chan && q.vc == vc && (q.state == 1 || q.reinj != 0))) = true ∧
      Option.any (fun x => x.stalled) (s.region (s.tile c.site).vni) = false ∧ (reserveSize body = 0 ∨ (s.core c).reserved + reserveSize
      body ≤ 65536))) :=
  by and_intros <;> decide +kernel

/-- States and operands that meet the hypotheses of `SemaphoresComplete`, clause by clause. -/
theorem meets_SemaphoresComplete :
  (let e : Enc := (word .seminc 0 2 3);
    let s : State := (sem 5 0xFFFFFFFF []);
    (clear (Instr.seminc e) s = true) ∧ (earlierDone (seen s) s.cur 1 = true) ∧ ((seen s).here.semq = [])) ∧
  (let e : Enc := (word .semwait 0 2 3);
    let s : State := (sem 5 0x100000000 []);
    (clear (Instr.semwait e) s = true) ∧ (BitVec.toNat ((seen s).me.g e.c) % 2 ^ 32 = 0)) ∧
  (let e : Enc := (word .semwait 0 2 3);
    let s : State := (sem 5 5 [⟨.shape, 2, 6, 0x9000⟩]);
    (clear (Instr.semwait e) s = true) ∧ (0 < BitVec.toNat ((seen s).me.g e.c) % 2 ^ 32) ∧ (BitVec.toNat ((seen s).me.g e.c) % 2 ^ 32 ≤
      (vget (seen s).here.sems e.b).toNat) ∧ (∀ (y : SemWaiter), y ∈ (seen s).here.semq → y.kind ≠ s.cur.kind)) ∧
  (let e : Enc := (word .semwait 0 2 3);
    let s : State := (sem 5 6 []);
    (clear (Instr.semwait e) s = true) ∧ ((vget (seen s).here.sems e.b).toNat < BitVec.toNat ((seen s).me.g e.c) % 2 ^ 32) ∧ (∀ (y :
      SemWaiter), y ∈ (seen s).here.semq → y.kind ≠ s.cur.kind)) ∧
  (let e : Enc := (word .semtry 1 2 3);
    let s : State := (sem 5 5 [⟨.shape, 2, 6, 0x9000⟩, ⟨.math, 3, 1, 0⟩]);
    (clear (Instr.semtry e) s = true) ∧ (BitVec.toNat ((seen s).me.g e.c) % 2 ^ 32 ≤ (vget (seen s).here.sems e.b).toNat) ∧ (∀ (y :
      SemWaiter), y ∈ (seen s).here.semq → y.sem = e.b → (vget (seen s).here.sems e.b).toNat < y.t)) ∧
  (let e : Enc := (word .semtry 1 2 3);
    let s : State := (sem 5 5 [⟨.shape, 2, 5, 0x9000⟩]);
    (clear (Instr.semtry e) s = true) ∧ ((vget (seen s).here.sems e.b).toNat < BitVec.toNat ((seen s).me.g e.c) % 2 ^ 32 ∨ ∃ y, y ∈ (seen
      s).here.semq ∧ y.sem = e.b ∧ y.t ≤ (vget (seen s).here.sems e.b).toNat)) ∧
  (let e : Enc := (word .semrd 1 2 0);
    let s : State := (sem 5 5 []);
    clear (Instr.semrd e) s = true) :=
  by and_intros <;> decide +kernel

/-- States and operands that meet the hypotheses of `SemaphoreServes`, clause by clause. -/
theorem meets_SemaphoreServes :
  let e : Enc := (word .seminc 0 2 3);
    let s : State := (sem 5 1 [⟨.shape, 2, 6, 0x9000⟩]);
    let y : SemWaiter := (⟨.shape, 2, 6, 0x9000⟩ : SemWaiter);
    (clear (Instr.seminc e) s = true) ∧ (earlierDone (seen s) s.cur 1 = true) ∧ ((seen s).here.semq = [y]) ∧ (y.sem = e.b) ∧ (0 < y.t) ∧
      (y.t ≤ ((vget (seen s).here.sems e.b).toNat + BitVec.toNat ((seen s).me.g e.c) % 2 ^ 32).min (2 ^ 32 - 1)) ∧ (y.kind ≠ s.cur.kind) :=
  by decide +kernel

/-- States and operands that meet the hypotheses of `FencesComplete`, clause by clause. -/
theorem meets_FencesComplete :
  (let e : Enc := (word .fence 0 0 0);
    let s : State := (world .flow);
    (clear (Instr.fence e) s = true) ∧ (fenceDone e (seen s) = true)) ∧
  (let e : Enc := (ord 15 (word .fence 0 0 0));
    let s : State := unfenced;
    (clear (Instr.fence e) s = true) ∧ (fenceDone e (seen s) = false)) ∧
  (let e : Enc := (word .fence 0 0 0);
    let s : State := (world .flow);
    let scope : Nat := 1;
    (scope = if e.ord.isSome = true then e.scope else 1) ∧ (scope ≠ 0) ∧ ((seen s).me.vq = []) ∧ ((seen s).here.bankq = []) ∧ ((seen s).pkts
      = []) ∧ (∀ (t : Nat × Tile), t ∈ (seen s).tiles → t.snd.bankq = [])) ∧
  (let e : Enc := (ord 0 (word .fence 0 0 0));
    let s : Machine.State := (on .flow outst1);
    let scope : Nat := 0;
    (scope = if e.ord.isSome = true then e.scope else 1) ∧ (scope = 0) ∧ ((seen s).me.vq ≠ [] ∨ (seen s).me.outst ≠ [])) ∧
  (let e : Enc := (word .fence 0 0 0);
    let scope : Nat := 1;
    (scope = if e.ord.isSome = true then e.scope else 1) ∧ (scope ≠ 0)) ∧
  (let s : Machine.State := (bankPends (world .flow));
    let c : CoreId := c00;
    let scope : Nat := 1;
    (scope ≠ 0) ∧ (scope < 8) ∧ (∃ x, x ∈ ((seen s).tile c.site).bankq ∧ x.src = c)) ∧
  (let s : Machine.State := (bankPends (world .flow));
    let c : CoreId := c00;
    let scope : Nat := 7;
    (scope ≠ 0) ∧ (scope < 8) ∧ (∃ x, x ∈ ((seen s).tile c.site).bankq ∧ x.src = c)) ∧
  (let s : Machine.State := (bankPends (world .flow));
    let c : CoreId := c00;
    let scope : Nat := 2;
    (scope ≠ 0) ∧ (scope < 8) ∧ (2 ≤ scope) ∧ (∃ t, t ∈ (seen s).tiles ∧ ∃ x, x ∈ t.snd.bankq ∧ x.src = c)) ∧
  (let s : Machine.State := (queue1 qMovS);
    let c : CoreId := shape;
    let scope : Nat := 1;
    (scope ≠ 0) ∧ (scope < 8) ∧ (∃ x, x ∈ ((seen s).core c).vq ∧ ∃ n, n ∈ queuedSources x.i ∧ 12 ≤ n)) ∧
  (let s : Machine.State := (queue1 qMovS);
    let c : CoreId := shape;
    let scope : Nat := 7;
    (scope ≠ 0) ∧ (scope < 8) ∧ (∃ x, x ∈ ((seen s).core c).vq ∧ ∃ n, n ∈ queuedSources x.i ∧ 12 ≤ n)) ∧
  (let s : Machine.State := (has { pkt 5 0 (.ramoReq 0x100 8 0 1 0x8000 false 0) with src := c00 });
    let c : CoreId := c00;
    let scope : Nat := 1;
    ((scope ≠ 0) ∧ (scope < 8)) ∧ (∃ p, p ∈ (seen s).pkts ∧ p.src = c ∧ p.state < 2 ∧ inReach ((seen s).tile c.site) scope p.name ∧ performedLater
      p.body)) ∧
  (let e : Enc := (word .ifence 0 0 0);
    let s : State := (world .flow);
    (clear (Instr.ifence e) s = true) ∧ (earlierDone (seen s) s.cur 5 = true)) ∧
  (let e : Enc := (word .ifence 0 0 0);
    let s : State := unfenced;
    (clear (Instr.ifence e) s = true) ∧ (earlierDone (seen s) s.cur 5 = false)) ∧
  (let e : Enc := (word .cbsync 0 2 0);
    let s : State := withBuf;
    (clear (Instr.cbsync e) s = true) ∧ (earlierDone (seen s) s.cur 2 = true)) ∧
  (let e : Enc := (word .cbsync 0 2 0);
    let s : State := (withBuf.modHere fun t => { t with bankq := [⟨⟨⟨0, 0⟩, .flow⟩, 0x200, 8, 0, 5, 0x8000, false⟩] });
    (clear (Instr.cbsync e) s = true) ∧ (earlierDone (seen s) s.cur 2 = false)) ∧
  (let e : Enc := (word .cbsync 0 2 0);
    let s : State := withBuf;
    let t : Tile := asksKeep;
    let a : Nat := 0x100;
    let kind : CoreKind := CoreKind.flow;
    let d : List W := ([] : List W);
    let l : List (BitVec 32) := ([] : List (BitVec 32));
    let b : Nat := 0x200;
    ((cbsync t a).core kind).req = some (Req.join d l b true)) ∧
  (let e : Enc := (word .cbsync 0 2 0);
    let s : State := withBuf;
    let t : Tile := (withBuf.here);
    let a : Nat := 0x100;
    let n : Nat := 1;
    let r : Resid := (⟨0x100, [], none, false⟩ : Resid);
    (n < 4) ∧ (vget t.slices n = some r) ∧ (r.addr = a)) ∧
  (let t : Tile := (withBuf.modMe (named 0 0x200)).here;
    let a : Nat := 0x100;
    let n : Nat := 1;
    let r : Resid := (⟨0x100, [], none, false⟩ : Resid);
    let kind : CoreKind := CoreKind.flow;
    let m : Nat := 0;
    (n < 4) ∧ (vget t.slices n = some r) ∧ (r.addr = a) ∧ ((vget ((cbsync t a).core kind).slots m).resident = true)) :=
  ⟨by and_intros <;> decide +kernel,
    by and_intros <;> decide +kernel,
    by and_intros <;> decide +kernel,
    by and_intros <;> decide +kernel,
    by and_intros <;> decide +kernel,
    by and_intros <;> decide +kernel,
    by and_intros <;> decide +kernel,
    by and_intros <;> decide +kernel,
    by and_intros <;> decide +kernel,
    by and_intros <;> decide +kernel,
    ⟨by and_intros <;> decide +kernel, ⟨_, List.mem_cons_self, rfl, by decide +kernel, by delta inReach; decide +kernel, .inr (.inr ⟨_, _, _, _, _, _, _, rfl⟩)⟩⟩,
    by and_intros <;> decide +kernel,
    by and_intros <;> decide +kernel,
    by and_intros <;> decide +kernel,
    by and_intros <;> decide +kernel,
    by and_intros <;> decide +kernel,
    by and_intros <;> decide +kernel,
    by and_intros <;> decide +kernel⟩

/-- States and operands that meet the hypotheses of `PacketHops`, clause by clause. -/
theorem meets_PacketHops :
  (let r : Router := { Router.reset with bank0 := [0x17FFE03F80] };
    let d : Site := (⟨3, 0⟩ : Site);
    let arr : Nat := 0;
    let vni : Nat := 5;
    let e : W := (0x17FFE03F80 : W);
    (List.find? (fun e => deValid e && deHits e d arr) (r.bank vni) = some e)) ∧
  (let r : Router := Router.reset;
    let t : Site := (⟨0, 0⟩ : Site);
    let d : Site := (⟨1, 0⟩ : Site);
    let arr : Nat := 0;
    let vni : Nat := 5;
    (List.find? (fun e => deValid e && deHits e d arr) (r.bank vni) = none) ∧ (t ≠ d)) ∧
  (let n : Nat := 1;
    let waited : Nat := 5;
    let p : Pkt := far;
    let s : State := (has far);
    let m : Site := (⟨0,0⟩:Site);
    (isPkt s n p) ∧
    ((p.to_ = PktTo.tile) ∧ (p.state = 0) ∧ (p.landed = false) ∧ (behind s p = false) ∧ (p.vni ∈ (s.tile p.at_).router.transit ∧ (p.vni ≠ 0
      ∨ 65280 ≤ p.name)) ∧ (Option.map (fun x => x.id) (nextServed (s.tile p.at_).router (if p.at_ = p.dst then 0 else (s.tile
      p.at_).router.out p.at_ p.dst p.arr p.vni) ((s.tile p.at_).router.clock.max (p.since + waited)) (readyAt s p.at_ (if p.at_ = p.dst
      then 0 else (s.tile p.at_).router.out p.at_ p.dst p.arr p.vni) ((s.tile p.at_).router.clock.max (p.since + waited)))) = some n) ∧
      (p.at_ ≠ p.dst) ∧ (neighbour p.at_ (if p.at_ = p.dst then 0 else (s.tile p.at_).router.out p.at_ p.dst p.arr p.vni) = some m) ∧
      (s.linkDown p.at_ (if p.at_ = p.dst then 0 else (s.tile p.at_).router.out p.at_ p.dst p.arr p.vni) = false))) ∧
  (let n : Nat := 1;
    let waited : Nat := 5;
    let p : Pkt := near;
    let s : State := (has near);
    (isPkt s n p) ∧
    ((p.to_ = PktTo.tile) ∧ (p.state = 0) ∧ (p.landed = false) ∧ (behind s p = false) ∧ (p.vni ∈ (s.tile p.at_).router.transit ∧ (p.vni ≠ 0
      ∨ 65280 ≤ p.name)) ∧ (Option.map (fun x => x.id) (nextServed (s.tile p.at_).router (if p.at_ = p.dst then 0 else (s.tile
      p.at_).router.out p.at_ p.dst p.arr p.vni) ((s.tile p.at_).router.clock.max (p.since + waited)) (readyAt s p.at_ (if p.at_ = p.dst
      then 0 else (s.tile p.at_).router.out p.at_ p.dst p.arr p.vni) ((s.tile p.at_).router.clock.max (p.since + waited)))) = some n) ∧
      (p.at_ = p.dst))) ∧
  (let n : Nat := 1;
    let waited : Nat := 5;
    let p : Pkt := far;
    let s : State := cut;
    let m : Site := (⟨0,0⟩:Site);
    (isPkt s n p) ∧
    ((p.to_ = PktTo.tile) ∧ (p.state = 0) ∧ (p.landed = false) ∧ (behind s p = false) ∧ (p.vni ∈ (s.tile p.at_).router.transit ∧ (p.vni ≠ 0
      ∨ 65280 ≤ p.name)) ∧ (Option.map (fun x => x.id) (nextServed (s.tile p.at_).router (if p.at_ = p.dst then 0 else (s.tile
      p.at_).router.out p.at_ p.dst p.arr p.vni) ((s.tile p.at_).router.clock.max (p.since + waited)) (readyAt s p.at_ (if p.at_ = p.dst
      then 0 else (s.tile p.at_).router.out p.at_ p.dst p.arr p.vni) ((s.tile p.at_).router.clock.max (p.since + waited)))) = some n) ∧
      (p.at_ ≠ p.dst) ∧ (neighbour p.at_ (if p.at_ = p.dst then 0 else (s.tile p.at_).router.out p.at_ p.dst p.arr p.vni) = some m) ∧
      (s.linkDown p.at_ (if p.at_ = p.dst then 0 else (s.tile p.at_).router.out p.at_ p.dst p.arr p.vni) = true))) ∧
  (let n : Nat := 1;
    let waited : Nat := 5;
    let p : Pkt := far;
    let s : State := { has far with pkts := [far, { far with id := 2, chan := 4, stall := 7 }] };
    (isPkt s n p) ∧
    ((p.to_ = PktTo.tile) ∧ (p.state = 0) ∧ (p.landed = false) ∧ (behind s p = false) ∧ (p.vni ∈ (s.tile p.at_).router.transit ∧ (p.vni ≠ 0
      ∨ 65280 ≤ p.name)) ∧ (¬Option.map (fun x => x.id) (nextServed (s.tile p.at_).router (if p.at_ = p.dst then 0 else (s.tile
      p.at_).router.out p.at_ p.dst p.arr p.vni) ((s.tile p.at_).router.clock.max (p.since + waited)) (readyAt s p.at_ (if p.at_ = p.dst
      then 0 else (s.tile p.at_).router.out p.at_ p.dst p.arr p.vni) ((s.tile p.at_).router.clock.max (p.since + waited)))) = some n))) ∧
  (let n : Nat := 1;
    let waited : Nat := 5;
    let p : Pkt := far;
    let s : State := (has far);
    (isPkt s n p) ∧
    ((p.to_ = PktTo.tile) ∧ (p.state = 0) ∧ (p.landed = false) ∧ (behind s p = false) ∧ (p.lane < 8) ∧ (p.arr < 5) ∧ (∀ (q : Pkt), q ∈
      readyAt s p.at_ (if p.at_ = p.dst then 0 else (s.tile p.at_).router.out p.at_ p.dst p.arr p.vni) ((s.tile p.at_).router.clock.max
      (p.since + waited)) → q.id = n))) ∧
  (let n : Nat := 1;
    let waited : Nat := 5;
    let p : Pkt := far;
    let s : State := barred;
    (isPkt s n p) ∧
    ((p.to_ = PktTo.tile) ∧ (p.state = 0) ∧ (p.landed = false) ∧ (behind s p = false) ∧ (¬p.vni ∈ (s.tile p.at_).router.transit))) ∧
  (let n : Nat := 1;
    let waited : Nat := 5;
    let p : Pkt := { far with vni := 0 };
    let s : State := (has { far with vni := 0 });
    (isPkt s n p) ∧
    ((p.to_ = PktTo.tile) ∧ (p.state = 0) ∧ (p.landed = false) ∧ (behind s p = false) ∧ (p.vni ∈ (s.tile p.at_).router.transit) ∧ (p.vni =
      0) ∧ (p.name < 65280))) ∧
  (let r : Router := Router.reset;
    let o : Nat := 3;
    let now : Nat := 20;
    let l : List Pkt := [far, { far with id := 2, vc := 1 }];
    let q : Pkt := far;
    nextServed r o now l = some q) ∧
  (let r : Router := Router.reset;
    let o : Nat := 3;
    let now : Nat := 20;
    let l : List Pkt := [far, { far with id := 2, vc := 1 }];
    let q : Pkt := far;
    let y : Pkt := far;
    (nextServed r o now l = some q) ∧ (y ∈ l) ∧ (y.lane < 8)) ∧
  (let r : Router := Router.reset;
    let o : Nat := 3;
    let now : Nat := 20;
    let l : List Pkt := [far, { far with id := 2, vc := 1 }];
    let q : Pkt := far;
    let y : Pkt := far;
    (nextServed r o now l = some q) ∧ (y ∈ l) ∧ (y.lane = q.lane)) ∧
  (let r : Router := Router.reset;
    let o : Nat := 3;
    let now : Nat := 20;
    let l : List Pkt := [far, { far with id := 2, vc := 1 }];
    let q : Pkt := far;
    let y : Pkt := far;
    (nextServed r o now l = some q) ∧ (y ∈ l) ∧ (y.lane = q.lane) ∧ (y.age now = q.age now) ∧ (y.arr < 5)) :=
  ⟨by and_intros <;> decide +kernel,
    by and_intros <;> decide +kernel,
    ⟨by delta isPkt; decide +kernel, by decide +kernel⟩,
    ⟨by delta isPkt; decide +kernel, by decide +kernel⟩,
    ⟨by delta isPkt; decide +kernel, by decide +kernel⟩,
    ⟨by delta isPkt; decide +kernel, by decide +kernel⟩,
    ⟨by delta isPkt; decide +kernel, by decide +kernel⟩,
    ⟨by delta isPkt; decide +kernel, by decide +kernel⟩,
    ⟨by delta isPkt; decide +kernel, by decide +kernel⟩,
    by decide +kernel,
    by and_intros <;> decide +kernel,
    by and_intros <;> decide +kernel,
    by and_intros <;> decide +kernel⟩

/-- States and operands that meet the hypotheses of `MessageArrives`, clause by clause. -/
theorem meets_MessageArrives :
  (let n : Nat := 1;
    let p : Pkt := (pkt 0 0 (msg 16));
    let s : State := (has (pkt 0 0 (msg 16)) (ring3 1 3));
    let d : W := 0x4008000000010010;
    let pl : List Byte := (List.replicate 16 (7:Byte));
    let bad : List Nat := ([]:List Nat);
    (isPkt s n p) ∧
    ((p.body = Body.message d pl bad) ∧ (admitted s p = true) ∧ (ringEn (((s.tile p.dst).core p.kind).ring p.chan) = true) ∧ ((s.tile
      p.dst).mem.wf = true) ∧ (olderOut s p = false) ∧ (((s.tile p.dst).blOf p.kind p.chan).reserved = none) ∧ (((s.tile p.dst).core
      p.kind).isBound p.chan = false) ∧ (ceilDiv (16 + pl.length) 64 ≤ ringGran (((s.tile p.dst).core p.kind).ring p.chan)) ∧ ((if ringProd
      (((s.tile p.dst).core p.kind).ring p.chan) % ringGran (((s.tile p.dst).core p.kind).ring p.chan) + ceilDiv (16 + pl.length) 64 >
      ringGran (((s.tile p.dst).core p.kind).ring p.chan) then ringGran (((s.tile p.dst).core p.kind).ring p.chan) - ringProd (((s.tile
      p.dst).core p.kind).ring p.chan) % ringGran (((s.tile p.dst).core p.kind).ring p.chan) else 0) + ceilDiv (16 + pl.length) 64 ≤
      ringFree (((s.tile p.dst).core p.kind).ring p.chan)))) ∧
  (let n : Nat := 1;
    let p : Pkt := (pkt 0 0 (msg 0x180));
    let s : Machine.State := (has (pkt 0 0 (msg 0x180)) (ring3 4 4));
    let d : W := 0x4008000000010010;
    let pl : List Byte := (List.replicate 0x180 (7:Byte));
    let bad : List Nat := ([]:List Nat);
    (isPkt s n p) ∧ ((p.body = Body.message d pl bad) ∧ (admitted s p = true) ∧ (ringEn (((s.tile p.dst).core p.kind).ring p.chan) = true) ∧
      (ceilDiv (16 + pl.length) 64 ≤ ringGran (((s.tile p.dst).core p.kind).ring p.chan)) ∧ (ringFree (((s.tile p.dst).core p.kind).ring p.chan) <
      (if ringProd (((s.tile p.dst).core p.kind).ring p.chan) % ringGran (((s.tile p.dst).core p.kind).ring p.chan) + ceilDiv (16 + pl.length) 64 >
      ringGran (((s.tile p.dst).core p.kind).ring p.chan) then ringGran (((s.tile p.dst).core p.kind).ring p.chan) - ringProd (((s.tile p.dst).core
      p.kind).ring p.chan) % ringGran (((s.tile p.dst).core p.kind).ring p.chan) else 0) + ceilDiv (16 + pl.length) 64 ∨ olderOut s p = true ∨ ∃ y,
      ((s.tile p.dst).blOf p.kind p.chan).reserved = some y ∧ y.fst ≠ p.src))) ∧
  (let n : Nat := 1;
    let p : Pkt := (pkt 0 0 (msg 16));
    let s : Machine.State := (has (pkt 0 0 (msg 16)));
    let d : W := 0x4008000000010010;
    let pl : List Byte := (List.replicate 16 (7:Byte));
    let bad : List Nat := ([]:List Nat);
    (isPkt s n p) ∧ ((p.body = Body.message d pl bad) ∧ (admitted s p = true) ∧ (ringEn (((s.tile p.dst).core p.kind).ring p.chan) = false ∨
      ringGran (((s.tile p.dst).core p.kind).ring p.chan) < ceilDiv (16 + pl.length) 64))) ∧
  (let n : Nat := 1;
    let p : Pkt := (pkt 0 0 (msg 16));
    let s : Machine.State := (has (pkt 0 0 (msg 16)) (ring3 0 8));
    let d : W := 0x4008000000010010;
    let pl : List Byte := (List.replicate 16 (7:Byte));
    let bad : List Nat := ([]:List Nat);
    (isPkt s n p) ∧ ((p.body = Body.message d pl bad) ∧ (admitted s p = true) ∧ (ringEn (((s.tile p.dst).core p.kind).ring p.chan) = true) ∧
      (ceilDiv (16 + pl.length) 64 ≤ ringGran (((s.tile p.dst).core p.kind).ring p.chan)) ∧ (ringFree (((s.tile p.dst).core p.kind).ring p.chan) <
      (if ringProd (((s.tile p.dst).core p.kind).ring p.chan) % ringGran (((s.tile p.dst).core p.kind).ring p.chan) + ceilDiv (16 + pl.length) 64 >
      ringGran (((s.tile p.dst).core p.kind).ring p.chan) then ringGran (((s.tile p.dst).core p.kind).ring p.chan) - ringProd (((s.tile p.dst).core
      p.kind).ring p.chan) % ringGran (((s.tile p.dst).core p.kind).ring p.chan) else 0) + ceilDiv (16 + pl.length) 64 ∨ olderOut s p = true ∨ ∃ y,
      ((s.tile p.dst).blOf p.kind p.chan).reserved = some y ∧ y.fst ≠ p.src))) ∧
  (let n : Nat := 1;
    let p : Pkt := (pkt 0 0 (msg 0x1F8));
    let s : Machine.State := (has (pkt 0 0 (msg 0x1F8)) (ring3 0 0));
    let d : W := 0x4008000000010010;
    let pl : List Byte := (List.replicate 0x1F8 (7:Byte));
    let bad : List Nat := ([]:List Nat);
    (isPkt s n p) ∧ ((p.body = Body.message d pl bad) ∧ (admitted s p = true) ∧ (ringEn (((s.tile p.dst).core p.kind).ring p.chan) = false ∨
      ringGran (((s.tile p.dst).core p.kind).ring p.chan) < ceilDiv (16 + pl.length) 64))) ∧
  (let n : Nat := 1;
    let p : Pkt := (pkt 0 0 (msg 0x70));
    let s : State := (has (pkt 0 0 (msg 0x70)) (ring3 7 7));
    let d : W := 0x4008000000010010;
    let pl : List Byte := (List.replicate 0x70 (7:Byte));
    let bad : List Nat := ([]:List Nat);
    (isPkt s n p) ∧
    ((p.body = Body.message d pl bad) ∧ (admitted s p = true) ∧ (ringEn (((s.tile p.dst).core p.kind).ring p.chan) = true) ∧ ((s.tile
      p.dst).mem.wf = true) ∧ (olderOut s p = false) ∧ (((s.tile p.dst).blOf p.kind p.chan).reserved = none) ∧ (((s.tile p.dst).core
      p.kind).isBound p.chan = false) ∧ (ceilDiv (16 + pl.length) 64 ≤ ringGran (((s.tile p.dst).core p.kind).ring p.chan)) ∧ ((if ringProd
      (((s.tile p.dst).core p.kind).ring p.chan) % ringGran (((s.tile p.dst).core p.kind).ring p.chan) + ceilDiv (16 + pl.length) 64 >
      ringGran (((s.tile p.dst).core p.kind).ring p.chan) then ringGran (((s.tile p.dst).core p.kind).ring p.chan) - ringProd (((s.tile
      p.dst).core p.kind).ring p.chan) % ringGran (((s.tile p.dst).core p.kind).ring p.chan) else 0) + ceilDiv (16 + pl.length) 64 ≤
      ringFree (((s.tile p.dst).core p.kind).ring p.chan)))) :=
  ⟨⟨by delta isPkt; decide +kernel, by decide +kernel⟩,
    ⟨by delta isPkt; decide +kernel, by and_intros <;> decide +kernel⟩,
    ⟨by delta isPkt; decide +kernel, by and_intros <;> decide +kernel⟩,
    ⟨by delta isPkt; decide +kernel, by and_intros <;> decide +kernel⟩,
    ⟨by delta isPkt; decide +kernel, by and_intros <;> decide +kernel⟩,
    ⟨by delta isPkt; decide +kernel, by decide +kernel⟩⟩

/-- States and operands that meet the hypotheses of `RequestsServed`, clause by clause. -/
theorem meets_RequestsServed :
  (let n : Nat := 1;
    let p : Pkt := (pkt 1 0 (.put 0x2BFFFF [9] []));
    let s : Machine.State := (servant (.put 0x2BFFFF [9] []));
    let a : Nat := 0x2BFFFF;
    let pl : List Byte := [(9:Byte)];
    let bad : List Nat := ([]:List Nat);
    (isPkt s n p) ∧ ((admitted s p = true) ∧ (p.dst.y < 126) ∧ (p.body = Body.put a pl bad) ∧ ((s.tile p.dst).mem.wf = true))) ∧
  (let n : Nat := 1;
    let p : Pkt := (pkt 1 0 (.getReq 0x100 16 0x200));
    let s : Machine.State := (servant (.getReq 0x100 16 0x200));
    let a : Nat := 0x100;
    let len : Nat := 16;
    let loc : Nat := 0x200;
    (isPkt s n p) ∧ ((admitted s p = true) ∧ (p.dst.y < 126) ∧ (p.body = Body.getReq a len loc))) ∧
  (let n : Nat := 1;
    let p : Pkt := (pkt 1 0 (.ramoReq 0x104 4 0 5 0x8000 false 2));
    let s : Machine.State := (servant (.ramoReq 0x104 4 0 5 0x8000 false 2));
    let a : Nat := 0x104;
    let width : Nat := 4;
    let fn : Nat := 0;
    let y : W := (5:W);
    let pc : W := (0x8000:W);
    let hi : Bool := false;
    let out : Nat := 2;
    (isPkt s n p) ∧ ((admitted s p = true) ∧ (p.dst.y < 126) ∧ (p.body = Body.ramoReq a width fn y pc hi out) ∧ (width = 4 ∨ width = 8) ∧ ((s.tile
      p.dst).bad a = false))) ∧
  (let n : Nat := 1;
    let p : Pkt := (pkt 1 0 (.ramoReq 0x104 4 0 5 0x8000 false 2));
    let s : Machine.State := (servantBad (.ramoReq 0x104 4 0 5 0x8000 false 2));
    let a : Nat := 0x104;
    let width : Nat := 4;
    let fn : Nat := 0;
    let y : W := (5:W);
    let pc : W := (0x8000:W);
    let hi : Bool := false;
    let out : Nat := 2;
    (isPkt s n p) ∧ ((admitted s p = true) ∧ (p.dst.y < 126) ∧ (p.body = Body.ramoReq a width fn y pc hi out) ∧ ((s.tile p.dst).bad a = true))) ∧
  (let n : Nat := 1;
    let p : Pkt := (pkt 4 0 .wake);
    let s : Machine.State := (haltedCore .wake);
    (isPkt s n p) ∧ ((admitted s p = true) ∧ (p.dst.y < 126) ∧ (p.body = Body.wake) ∧ (olderOut s p = false))) ∧
  (let n : Nat := 1;
    let p : Pkt := (pkt 4 0 (.haltc 0x80000005));
    let s : Machine.State := (has (pkt 4 0 (.haltc 0x80000005)));
    let st : BitVec 32 := (0x80000005 : BitVec 32);
    (isPkt s n p) ∧ ((admitted s p = true) ∧ (p.dst.y < 126) ∧ (p.body = Body.haltc st) ∧ (olderOut s p = false))) ∧
  (let n : Nat := 2;
    let p : Pkt := { pkt 4 0 .wake with id := 2 };
    let s : Machine.State := { has { pkt 4 0 (.haltc 5) with at_ := ⟨1, 0⟩, landed := false } with pkts := [{ pkt 4 0 (.haltc 5) with at_ := ⟨1, 0⟩, landed := false }, { pkt 4 0 .wake with id := 2 }], nextPkt := 3 };
    let i : Instr := (Instr.wakeRequest 2);
    (isPkt s n p) ∧ ((admitted s p = true) ∧ (p.dst.y < 126) ∧ (olderOut s p = true)) ∧ (i = Instr.wakeRequest n ∧ p.body = Body.wake ∨ (i =
      Instr.haltcRequest n ∧ ∃ st, p.body = Body.haltc st) ∨ i = Instr.inspectRequest n ∧ ∃ item, p.body = Body.inspect item)) ∧
  (let n : Nat := 1;
    let p : Pkt := (pkt 4 0 (.inspect 3));
    let s : Machine.State := (haltedCore (.inspect 3));
    let item : Nat := 3;
    (isPkt s n p) ∧ ((admitted s p = true) ∧ (p.dst.y < 126) ∧ (p.body = Body.inspect item) ∧ (olderOut s p = false))) :=
  ⟨⟨by delta isPkt; decide +kernel, by and_intros <;> decide +kernel⟩,
    ⟨by delta isPkt; decide +kernel, by and_intros <;> decide +kernel⟩,
    ⟨by delta isPkt; decide +kernel, by and_intros <;> decide +kernel⟩,
    ⟨by delta isPkt; decide +kernel, by and_intros <;> decide +kernel⟩,
    ⟨by delta isPkt; decide +kernel, by and_intros <;> decide +kernel⟩,
    ⟨by delta isPkt; decide +kernel, by and_intros <;> decide +kernel⟩,
    ⟨by delta isPkt; decide +kernel, by and_intros <;> decide +kernel, .inl ⟨rfl, rfl⟩⟩,
    ⟨by delta isPkt; decide +kernel, by and_intros <;> decide +kernel⟩⟩

/-- States and operands that meet the hypotheses of `RepliesArrive`, clause by clause. -/
theorem meets_RepliesArrive :
  (let n : Nat := 1;
    let p : Pkt := (pkt 3 0 (.getReply 0x2BFFF8 (List.replicate 8 5) []));
    let s : Machine.State := (reply3 (.getReply 0x2BFFF8 (List.replicate 8 5) []) (waits (.get (word .get 1 2 3))));
    let e : Enc := (word .get 1 2 3);
    let i : Instr := (Instr.get (word .get 1 2 3));
    let a : Nat := 0x2BFFF8;
    let pl : List Byte := (List.replicate 8 (5:Byte));
    (isPkt s n p) ∧ ((admitted s p = true) ∧ (encOf i = some e) ∧ (p.body = Body.getReply a pl []) ∧ (∃ x, (s.core
      { site := p.dst, kind := p.kind }).wait = some x ∧ x.i = i ∧ x.tag = n ∧ x.more = []) ∧ (a % 8 = 0) ∧ (pl.length % 8 = 0) ∧ (a + pl.length ≤
      2883584)) ∧ (∀ (b : Nat), a ≤ b → b < a + pl.length → (s.core { site := p.dst, kind := p.kind }).inCode b = false ∧ (s.core
      { site := p.dst, kind := p.kind }).inRowin b = false) ∧ ((s.tile p.dst).mem.wf = true)) ∧
  (let n : Nat := 1;
    let p : Pkt := (pkt 3 0 (.ramoReply 2 9 none));
    let s : Machine.State := (reply3 (.ramoReply 2 9 none) fun k => { k with outst := [⟨2, .g, false, 1, 0, false, 1, some 2⟩] });
    let e : Enc := (word .ramo 1 2 3);
    let i : Instr := (Instr.ramo (word .ramo 1 2 3));
    let out : Nat := 2;
    let old : W := (9:W);
    (isPkt s n p) ∧ ((admitted s p = true) ∧ (encOf i = some e) ∧ (p.body = Body.ramoReply out old none) ∧ ((s.core
      { site := p.dst, kind := p.kind }).wait = none))) ∧
  (let n : Nat := 1;
    let p : Pkt := (pkt 3 0 (.ramoReply 2 9 (some (0x100, 0x8000, false))));
    let s : Machine.State := (reply3 (.ramoReply 2 9 (some (0x100, 0x8000, false))) fun k => { k with outst := [⟨2, .g, false, 1, 0, false, 1, some 2⟩] });
    let e : Enc := (word .ramo 1 2 3);
    let i : Instr := (Instr.ramo (word .ramo 1 2 3));
    let out : Nat := 2;
    let old : W := (9:W);
    let d : W := (0x100:W);
    let pc : W := (0x8000:W);
    let hi : Bool := false;
    (isPkt s n p) ∧ ((admitted s p = true) ∧ (encOf i = some e) ∧ (p.body = Body.ramoReply out old (some (d, pc, hi))) ∧ ((s.core
      { site := p.dst, kind := p.kind }).wait = none) ∧ ((s.core { site := p.dst, kind := p.kind }).ptrap = none))) ∧
  (let n : Nat := 1;
    let p : Pkt := (pkt 3 0 (.inspectReply 9));
    let s : Machine.State := (reply3 (.inspectReply 9) (waits (.inspect (word .inspect 1 2 3))));
    let e : Enc := (word .inspect 1 2 3);
    let i : Instr := (Instr.inspect (word .inspect 1 2 3));
    let x : W := (9:W);
    (isPkt s n p) ∧ ((admitted s p = true) ∧ (encOf i = some e) ∧ (p.body = Body.inspectReply x) ∧ (∃ x, (s.core
      { site := p.dst, kind := p.kind }).wait = some x ∧ x.i = i ∧ x.tag = n ∧ x.more = []))) ∧
  (let n : Nat := 1;
    let p : Pkt := (pkt 3 0 (.clusterReply none));
    let s : Machine.State := (reply3 (.clusterReply none) (waits (.ld (word .ld 1 2 0))));
    let e : Enc := (word .ld 1 2 0);
    let i : Instr := (Instr.ld (word .ld 1 2 0));
    (isPkt s n p) ∧ ((admitted s p = true) ∧ (encOf i = some e) ∧ (p.body = Body.clusterReply none) ∧ (∃ x, (s.core
      { site := p.dst, kind := p.kind }).wait = some x ∧ x.i = i ∧ x.tag = n ∧ x.more = []))) ∧
  (let n : Nat := 1;
    let p : Pkt := (pkt 3 0 (.clusterReply none));
    let s : Machine.State := (reply3 (.clusterReply none) fun k => { k with wait := some ⟨.vgath (word .vgath 1 2 3), 1, false, [], [2]⟩ });
    let e : Enc := (word .vgath 1 2 3);
    let i : Instr := (Instr.vgath (word .vgath 1 2 3));
    let x : Wait := (⟨.vgath (word .vgath 1 2 3), 1, false, [], [2]⟩ : Wait);
    let m : Nat := 2;
    let l : List Nat := noNat;
    (isPkt s n p) ∧ ((admitted s p = true) ∧ (encOf i = some e) ∧ (p.body = Body.clusterReply none) ∧ ((s.core
      { site := p.dst, kind := p.kind }).wait = some x) ∧ (x.tag = n) ∧ (x.more = m :: l) ∧ (¬n ∈ x.more))) ∧
  (let n : Nat := 1;
    let p : Pkt := (pkt 3 0 (.clusterReply (some (0x19, 0x100))));
    let s : Machine.State := (reply3 (.clusterReply (some (0x19, 0x100))) (waits (.amo (word .amo 1 2 3))));
    let e : Enc := (word .amo 1 2 3);
    let i : Instr := (Instr.amo (word .amo 1 2 3));
    let cause : Nat := 0x19;
    let d : W := (0x100 : W);
    (isPkt s n p) ∧ ((admitted s p = true) ∧ (encOf i = some e) ∧ (p.body = Body.clusterReply (some (cause, d))) ∧ (∃ x, (s.core
      { site := p.dst, kind := p.kind }).wait = some x ∧ x.i = i ∧ x.tag = n ∧ x.more = []))) :=
  ⟨⟨by delta isPkt; decide +kernel, by and_intros <;> decide +kernel, upTo_of (by decide +kernel), by decide +kernel⟩,
    ⟨by delta isPkt; decide +kernel, by and_intros <;> decide +kernel⟩,
    ⟨by delta isPkt; decide +kernel, by and_intros <;> decide +kernel⟩,
    ⟨by delta isPkt; decide +kernel, by and_intros <;> decide +kernel⟩,
    ⟨by delta isPkt; decide +kernel, by and_intros <;> decide +kernel⟩,
    ⟨by delta isPkt; decide +kernel, by and_intros <;> decide +kernel⟩,
    ⟨by delta isPkt; decide +kernel, by and_intros <;> decide +kernel⟩⟩

/-- States and operands that meet the hypotheses of `ClusterAccessPerformed`, clause by clause. -/
theorem meets_ClusterAccessPerformed :
  let n : Nat := 1;
    let p : Pkt := ((asking false).pkts.headD far);
    let s : Machine.State := (asking false);
    let u : Machine.State := asked1;
    let t : Machine.State := ((accessed (.ld (word .ld 1 2 0)) asked1 ⟨1, 0⟩ 0x100 0x10400100).getD asked1);
    let i : Instr := (Instr.ld (word .ld 1 2 0));
    let e : Enc := (word .ld 1 2 0);
    let a : W := (0x10400100:W);
    let width : Nat := 8;
    let write : Bool := false;
    let queue : Bool := true;
    let site : Site := (⟨1,0⟩:Site);
    let o : Nat := 0x100;
    let l : List (Nat × Site) := [];
    (isPkt s n p) ∧ ((admitted s p = true) ∧ (p.body = Body.cluster) ∧ (encOf i = some e) ∧ (u = ({ s.active p.dst with cur := p.src }).modCore
      p.src fun k => { k with wait := some { i := i, tag := n, done := true, sites := Machine.insert l p.name p.dst, more := [] } }) ∧ ((s.core
      p.src).wait = some { i := i, tag := n, done := false, sites := l, more := [] }) ∧ (ramoPending u (BitVec.toNat a) width = false) ∧ (memAccess
      i u.me = some (a, width, write, queue)) ∧ (addrFault u (BitVec.toNat a) width write queue = none) ∧ (isLoad i = true ∨ mayRelease e u = true)
      ∧ (isRemote u (BitVec.toNat a) = true) ∧ (target u (BitVec.toNat a) = some (site, o))) ∧ (accessed i u site o a = some t) :=
  ⟨by delta isPkt; decide +kernel, by and_intros <;> decide +kernel, some_of (by decide +kernel)⟩

/-- States and operands that meet the hypotheses of `SenderSide`, clause by clause. -/
theorem meets_SenderSide :
  (let n : Nat := 1;
    let waited : Nat := 64;
    let p : Pkt := ((sent 3 (msg 16)).pkts.headD far);
    let s : State := (sent 3 (msg 16));
    let d : W := 0x4008000000010010;
    let pl : List Byte := (List.replicate 16 (7:Byte));
    let bad : List Nat := ([]:List Nat);
    (isPkt s n p) ∧
    ((p.body = Body.message d pl bad) ∧ (p.state = 3))) ∧
  (let n : Nat := 1;
    let waited : Nat := 64;
    let p : Pkt := ((sent 2 (msg 16)).pkts.headD far);
    let s : State := (sent 2 (msg 16));
    let d : W := 0x4008000000010010;
    let pl : List Byte := (List.replicate 16 (7:Byte));
    let bad : List Nat := ([]:List Nat);
    (isPkt s n p) ∧
    ((p.body = Body.message d pl bad) ∧ (p.state = 2) ∧ (∀ (x : AsyncEv), x ∈ (s.core p.src).async → x.cause ≠ 22))) ∧
  (let n : Nat := 1;
    let waited : Nat := 64;
    let p : Pkt := ((sent 1 (msg 16)).pkts.headD far);
    let s : Machine.State := (sent 1 (msg 16));
    let x : Site := (⟨1,0⟩:Site);
    (isPkt s n p) ∧ ((p.state = 1) ∧ (isReply p.body = false) ∧ (p.backoff ≤ waited) ∧ (olderOut s p = false) ∧ (resolve (s.tile p.src.site) p.name
      = Entry.bound x) ∧ (noTile s x = false))) :=
  ⟨⟨by delta isPkt; decide +kernel, by decide +kernel⟩,
    ⟨by delta isPkt; decide +kernel, by decide +kernel⟩,
    ⟨by delta isPkt; decide +kernel, by and_intros <;> decide +kernel⟩⟩

/-- States and operands that meet the hypotheses of `ReservationLapses`, clause by clause. -/
theorem meets_ReservationLapses :
  let c : CoreId := (⟨⟨0,0⟩,.flow⟩:CoreId);
    let chan : Nat := 3;
    let waited : Nat := 4096;
    let s : State := (inTile .flow fun t => { t with blist := [⟨.flow, 3, [], some (⟨⟨1, 0⟩, .flow⟩, 16)⟩]});
    4096 ≤ waited :=
  by decide +kernel

/-- States and operands that meet the hypotheses of `SwappedTargets`, clause by clause. -/
theorem meets_SwappedTargets :
  (let n : Nat := 1;
    let island : Nat := 2;
    let p : Pkt := ((swapped (msg 16) []).pkts.headD far);
    let s : Machine.State := (cutOff (swapped (msg 16) []));
    (isPkt s n p) ∧ ((p.to_ = PktTo.island island) ∧ (p.state = 0) ∧ (behind s p = false) ∧ (mustFollow s p = false) ∧ (¬p.vni ∈ (s.tile
      p.at_).router.transit))) ∧
  (let n : Nat := 1;
    let island : Nat := 2;
    let p : Pkt := ((swapped (.put 0x100 [1, 2] []) [image6 id]).pkts.headD far);
    let s : Machine.State := (swapped (.put 0x100 [1, 2] []) [image6 id]);
    let x : Saved := (image6 id);
    let a : Nat := 0x100;
    let pl : List Byte := [(1:Byte), 2];
    let bad : List Nat := ([]:List Nat);
    (isPkt s n p) ∧ ((p.to_ = PktTo.island island) ∧ (p.state = 0) ∧ (behind s p = false) ∧ (mustFollow s p = false) ∧ (p.vni ∈ (s.tile
      p.at_).router.transit) ∧ (s.image p.vni p.name = some x) ∧ (∀ (r : Nat), r ∈ x.regs → (s.own r).owner = Owner.fabric ∧ (s.own r).waiting = [])
      ∧ (olderOut s p = false) ∧ (p.body = Body.put a pl bad) ∧ (x.tile.mem.wf = true))) ∧
  (let n : Nat := 1;
    let island : Nat := 2;
    let p : Pkt := ((swapped (.getReq 0x100 8 0x200) [image6 id]).pkts.headD far);
    let s : Machine.State := (swapped (.getReq 0x100 8 0x200) [image6 id]);
    let x : Saved := (image6 id);
    let a : Nat := 0x100;
    let len : Nat := 8;
    let loc : Nat := 0x200;
    (isPkt s n p) ∧ ((p.to_ = PktTo.island island) ∧ (p.state = 0) ∧ (behind s p = false) ∧ (mustFollow s p = false) ∧ (p.vni ∈ (s.tile
      p.at_).router.transit) ∧ (s.image p.vni p.name = some x) ∧ (∀ (r : Nat), r ∈ x.regs → (s.own r).owner = Owner.fabric ∧ (s.own r).waiting = [])
      ∧ (olderOut s p = false) ∧ (p.body = Body.getReq a len loc))) ∧
  (let n : Nat := 1;
    let island : Nat := 2;
    let p : Pkt := ((swapped (.ramoReq 0x100 8 0 1 0x8000 false 0) [image6 id]).pkts.headD far);
    let s : Machine.State := (swapped (.ramoReq 0x100 8 0 1 0x8000 false 0) [image6 id]);
    let x : Saved := (image6 id);
    let a : Nat := 0x100;
    let width : Nat := 8;
    let fn : Nat := 0;
    let v : W := (1 : W);
    let pc : W := (0x8000 : W);
    let hi : Bool := false;
    let out : Nat := 0;
    (isPkt s n p) ∧ ((p.to_ = PktTo.island island) ∧ (p.state = 0) ∧ (behind s p = false) ∧ (mustFollow s p = false) ∧ (p.vni ∈ (s.tile
      p.at_).router.transit) ∧ (s.image p.vni p.name = some x) ∧ (∀ (r : Nat), r ∈ x.regs → (s.own r).owner = Owner.fabric ∧ (s.own r).waiting = [])
      ∧ (olderOut s p = false) ∧ (p.body = Body.ramoReq a width fn v pc hi out) ∧ (width = 4 ∨ width = 8) ∧ (x.tile.bad a = false))) ∧
  (let n : Nat := 1;
    let island : Nat := 2;
    let p : Pkt := ((swapped (.wake) [image6 id]).pkts.headD far);
    let s : Machine.State := (swapped (.wake) [image6 id]);
    let x : Saved := (image6 id);
    (isPkt s n p) ∧ ((p.to_ = PktTo.island island) ∧ (p.state = 0) ∧ (behind s p = false) ∧ (mustFollow s p = false) ∧ (p.vni ∈ (s.tile
      p.at_).router.transit) ∧ (s.image p.vni p.name = some x) ∧ (∀ (r : Nat), r ∈ x.regs → (s.own r).owner = Owner.fabric ∧ (s.own r).waiting = [])
      ∧ (olderOut s p = false) ∧ (p.body = Body.wake))) ∧
  (let n : Nat := 1;
    let island : Nat := 2;
    let p : Pkt := ((swapped (.haltc 5) [image6 runs6]).pkts.headD far);
    let s : Machine.State := (swapped (.haltc 5) [image6 runs6]);
    let x : Saved := (image6 runs6);
    let st : BitVec 32 := (5 : BitVec 32);
    (isPkt s n p) ∧ ((p.to_ = PktTo.island island) ∧ (p.state = 0) ∧ (behind s p = false) ∧ (mustFollow s p = false) ∧ (p.vni ∈ (s.tile
      p.at_).router.transit) ∧ (s.image p.vni p.name = some x) ∧ (∀ (r : Nat), r ∈ x.regs → (s.own r).owner = Owner.fabric ∧ (s.own r).waiting = [])
      ∧ (olderOut s p = false) ∧ (p.body = Body.haltc st) ∧ ((x.tile.core p.kind).halted = false) ∧ (¬((x.tile.core p.kind).lo.act = none ∧
      (x.tile.core p.kind).hi.act = none ∧ (x.tile.core p.kind).held = none)))) ∧
  (let n : Nat := 1;
    let island : Nat := 2;
    let p : Pkt := ((swapped (.haltc 5) [image6 id]).pkts.headD far);
    let s : Machine.State := (parked6 (swapped (.haltc 5) [image6 id]));
    let x : Saved := (image6 id);
    let st : BitVec 32 := (5 : BitVec 32);
    (isPkt s n p) ∧ ((p.to_ = PktTo.island island) ∧ (p.state = 0) ∧ (behind s p = false) ∧ (mustFollow s p = false) ∧ (p.vni ∈ (s.tile
      p.at_).router.transit) ∧ (s.image p.vni p.name = some x) ∧ (∀ (r : Nat), r ∈ x.regs → (s.own r).owner = Owner.fabric ∧ (s.own r).waiting = [])
      ∧ (olderOut s p = false) ∧ (p.body = Body.haltc st) ∧ ((x.tile.core p.kind).halted = false) ∧ ((x.tile.core p.kind).lo.act = none ∧
      (x.tile.core p.kind).hi.act = none ∧ (x.tile.core p.kind).held = none) ∧ (s.live ((s.siteOfName p.vni p.name).getD p.dst) = Tgt.image p.vni
      p.name))) ∧
  (let n : Nat := 1;
    let island : Nat := 2;
    let p : Pkt := ((swapped (.inspect 0) [image6 id]).pkts.headD far);
    let s : Machine.State := (swapped (.inspect 0) [image6 id]);
    let x : Saved := (image6 id);
    let item : Nat := 0;
    (isPkt s n p) ∧ ((p.to_ = PktTo.island island) ∧ (p.state = 0) ∧ (behind s p = false) ∧ (mustFollow s p = false) ∧ (p.vni ∈ (s.tile
      p.at_).router.transit) ∧ (s.image p.vni p.name = some x) ∧ (∀ (r : Nat), r ∈ x.regs → (s.own r).owner = Owner.fabric ∧ (s.own r).waiting = [])
      ∧ (olderOut s p = false) ∧ (p.body = Body.inspect item))) ∧
  (let n : Nat := 1;
    let island : Nat := 2;
    let p : Pkt := ((swapped (msg 16) [image6 (ringed6 0)]).pkts.headD far);
    let s : Machine.State := (swapped (msg 16) [image6 (ringed6 0)]);
    let x : Saved := (image6 (ringed6 0));
    let d : W := (0x4008000000010010 : W);
    let pl : List Byte := (List.replicate 16 (7 : Byte));
    let bad : List Nat := noNat;
    (isPkt s n p) ∧ ((p.to_ = PktTo.island island) ∧ (p.state = 0) ∧ (behind s p = false) ∧ (mustFollow s p = false) ∧ (p.vni ∈ (s.tile
      p.at_).router.transit) ∧ (s.image p.vni p.name = some x) ∧ (∀ (r : Nat), r ∈ x.regs → (s.own r).owner = Owner.fabric ∧ (s.own r).waiting = [])
      ∧ (p.body = Body.message d pl bad) ∧ (ringEn ((x.tile.core p.kind).ring p.chan) = true) ∧ (x.tile.mem.wf = true) ∧ (olderOut s p = false) ∧
      ((x.tile.blOf p.kind p.chan).reserved = none) ∧ ((x.tile.core p.kind).isBound p.chan = false) ∧ (ceilDiv (16 + pl.length) 64 ≤ ringGran
      ((x.tile.core p.kind).ring p.chan)) ∧ ((if ringProd ((x.tile.core p.kind).ring p.chan) % ringGran ((x.tile.core p.kind).ring p.chan) + ceilDiv
      (16 + pl.length) 64 > ringGran ((x.tile.core p.kind).ring p.chan) then ringGran ((x.tile.core p.kind).ring p.chan) - ringProd ((x.tile.core
      p.kind).ring p.chan) % ringGran ((x.tile.core p.kind).ring p.chan) else 0) + ceilDiv (16 + pl.length) 64 ≤ ringFree ((x.tile.core p.kind).ring
      p.chan)))) ∧
  (let n : Nat := 1;
    let island : Nat := 2;
    let p : Pkt := ((swapped (msg 16) [image6 (ringed6 8)]).pkts.headD far);
    let s : Machine.State := (swapped (msg 16) [image6 (ringed6 8)]);
    let x : Saved := (image6 (ringed6 8));
    let d : W := (0x4008000000010010 : W);
    let pl : List Byte := (List.replicate 16 (7 : Byte));
    let bad : List Nat := noNat;
    (isPkt s n p) ∧ ((p.to_ = PktTo.island island) ∧ (p.state = 0) ∧ (behind s p = false) ∧ (mustFollow s p = false) ∧ (p.vni ∈ (s.tile
      p.at_).router.transit) ∧ (s.image p.vni p.name = some x) ∧ (∀ (r : Nat), r ∈ x.regs → (s.own r).owner = Owner.fabric ∧ (s.own r).waiting = [])
      ∧ (p.body = Body.message d pl bad) ∧ (ringEn ((x.tile.core p.kind).ring p.chan) = true) ∧ (ceilDiv (16 + pl.length) 64 ≤ ringGran
      ((x.tile.core p.kind).ring p.chan)) ∧ (ringFree ((x.tile.core p.kind).ring p.chan) < (if ringProd ((x.tile.core p.kind).ring p.chan) %
      ringGran ((x.tile.core p.kind).ring p.chan) + ceilDiv (16 + pl.length) 64 > ringGran ((x.tile.core p.kind).ring p.chan) then ringGran
      ((x.tile.core p.kind).ring p.chan) - ringProd ((x.tile.core p.kind).ring p.chan) % ringGran ((x.tile.core p.kind).ring p.chan) else 0) +
      ceilDiv (16 + pl.length) 64 ∨ olderOut s p = true ∨ ∃ y, (x.tile.blOf p.kind p.chan).reserved = some y ∧ y.fst ≠ p.src))) ∧
  (let n : Nat := 1;
    let island : Nat := 2;
    let p : Pkt := ((swapped (msg 16) [image6 id]).pkts.headD far);
    let s : Machine.State := (swapped (msg 16) [image6 id]);
    let x : Saved := (image6 id);
    let d : W := 0x4008000000010010;
    let pl : List Byte := (List.replicate 16 (7:Byte));
    let bad : List Nat := ([]:List Nat);
    (isPkt s n p) ∧ ((p.to_ = PktTo.island island) ∧ (p.state = 0) ∧ (behind s p = false) ∧ (mustFollow s p = false) ∧ (p.vni ∈ (s.tile
      p.at_).router.transit) ∧ (s.image p.vni p.name = some x) ∧ (∀ (r : Nat), r ∈ x.regs → (s.own r).owner = Owner.fabric ∧ (s.own r).waiting = [])
      ∧ (p.body = Body.message d pl bad) ∧ (ringEn ((x.tile.core p.kind).ring p.chan) = false ∨ ringGran ((x.tile.core p.kind).ring p.chan) <
      ceilDiv (16 + pl.length) 64))) ∧
  (let n : Nat := 1;
    let island : Nat := 2;
    let p : Pkt := ((swapped (msg 16) [image6 id]).pkts.headD far);
    let s : Machine.State := { swapped (msg 16) [image6 id] with owners := [⟨7, .island, []⟩] };
    let x : Saved := (image6 id);
    (isPkt s n p) ∧ ((p.to_ = PktTo.island island) ∧ (p.state = 0) ∧ (behind s p = false) ∧ (mustFollow s p = false) ∧ (p.vni ∈ (s.tile
      p.at_).router.transit) ∧ (s.image p.vni p.name = some x) ∧ (∃ r, r ∈ x.regs ∧ (s.own r).owner ≠ Owner.fabric))) ∧
  (let n : Nat := 1;
    let island : Nat := 2;
    let p : Pkt := ((swapped (msg 16) []).pkts.headD far);
    let s : Machine.State := (swapped (msg 16) []);
    (isPkt s n p) ∧ ((p.to_ = PktTo.island island) ∧ (p.state = 0) ∧ (behind s p = false) ∧ (mustFollow s p = false) ∧ (p.vni ∈ (s.tile
      p.at_).router.transit) ∧ (s.image p.vni p.name = none))) :=
  ⟨⟨by delta isPkt; decide +kernel, by and_intros <;> decide +kernel⟩,
    ⟨by delta isPkt; decide +kernel, by and_intros <;> decide +kernel⟩,
    ⟨by delta isPkt; decide +kernel, by and_intros <;> decide +kernel⟩,
    ⟨by delta isPkt; decide +kernel, by and_intros <;> decide +kernel⟩,
    ⟨by delta isPkt; decide +kernel, by and_intros <;> decide +kernel⟩,
    ⟨by delta isPkt; decide +kernel, by and_intros <;> decide +kernel⟩,
    ⟨by delta isPkt; decide +kernel, by and_intros <;> decide +kernel⟩,
    ⟨by delta isPkt; decide +kernel, by and_intros <;> decide +kernel⟩,
    ⟨by delta isPkt; decide +kernel, by and_intros <;> decide +kernel⟩,
    ⟨by delta isPkt; decide +kernel, by and_intros <;> decide +kernel⟩,
    ⟨by delta isPkt; decide +kernel, by and_intros <;> decide +kernel⟩,
    ⟨by delta isPkt; decide +kernel, by and_intros <;> decide +kernel⟩,
    ⟨by delta isPkt; decide +kernel, by and_intros <;> decide +kernel⟩⟩

/-- States and operands that meet the hypotheses of `HandlerEnds`, clause by clause. -/
theorem meets_HandlerEnds :
  (let e : Enc := (word .done 0 0 0);
    let s : State := (handler id);
    let a : Act := actR;
    ((seen s).me.act = some a) ∧ (clear (Instr.done e) s = true) ∧ (committed (closeOut (seen s)) = true) ∧ (mayFree (closeOut (seen s)) =
      true)) ∧
  (let e : Enc := (word .hret 0 0 0);
    let s : State := highHandler;
    let a : Act := actR;
    ((seen s).me.act = some a) ∧ (clear (Instr.hret e) s = true) ∧ ((seen s).me.lev = true) ∧ (committed (closeOut (seen s)) = true) ∧
      (mayFree (closeOut (seen s)) = true)) ∧
  (let e : Enc := (word .hret 0 0 0);
    let s : State := (handler id);
    let a : Act := actR;
    ((seen s).me.act = some a) ∧ (clear (Instr.hret e) s = true) ∧ ((seen s).me.lev = false)) ∧
  (let e : Enc := (word .halt 0 2 0);
    let s : State := launched;
    let a : Act := actR;
    ((seen s).me.act = some a) ∧ (clear (Instr.halt e) s = true) ∧ ((seen s).me.lev = false) ∧ (committed (closeOut (seen s)) = true) ∧
      (mayFree (closeOut (seen s)) = true) ∧ (quietCore (closeOut (seen s)) s.cur = true)) ∧
  (let e : Enc := (word .halt 0 2 0);
    let s : State := highHandler;
    let a : Act := actR;
    ((seen s).me.act = some a) ∧ (clear (Instr.halt e) s = true) ∧ ((seen s).me.lev = true)) ∧
  (let e : Enc := (word .requeue 0 0 0);
    let s : State := (world .flow);
    let a : Act := act0;
    ((seen s).me.act = some a) ∧ (clear (Instr.requeue e) s = true) ∧ (committed (closeOut (seen s)) = true) ∧ (mayFree (closeOut (seen s))
      = true) ∧ (a.noMsg = true ∨ a.recLen = 0)) ∧
  (let e : Enc := (word .requeue 0 0 0);
    let s : State := (handler id);
    let a : Act := actR;
    let r : Rec := (⟨3, 1, 1, false, 16, 0, false⟩ : Rec);
    let w' : State := ((requeue ((closeOut (seen (handler id))).modMe fun k => k.freeHead 3) { actR with resumable := false } (Mem.bytes (handler id).here.mem 0x4050 16) []).getD (handler id));
    ((seen s).me.act = some a) ∧ (clear (Instr.requeue e) s = true) ∧ (committed (closeOut (seen s)) = true) ∧ (mayFree (closeOut (seen s))
      = true) ∧ (a.noMsg = false) ∧ (a.recLen ≠ 0) ∧ ((closeOut (seen s)).me.headRec a.chan = some r) ∧ (requeue ((closeOut (seen s)).modMe
      fun k => k.freeHead a.chan) { a with resumable := false } ((closeOut (seen s)).here.mem.bytes (ringAddr ((closeOut (seen s)).me.ring
      a.chan) r.at_ + 16) r.len) ((closeOut (seen s)).here.badWords (ringAddr ((closeOut (seen s)).me.ring a.chan) r.at_ + 16) r.len) = some
      w')) ∧
  (let e : Enc := (word .done 0 0 0);
    let s : State := held;
    let a : Act := actR;
    let i : Instr := (Instr.done (word .done 0 0 0));
    ((seen s).me.act = some a) ∧ (i = Instr.done e ∨ i = Instr.requeue e) ∧ (clear i s = true) ∧ (committed (closeOut (seen s)) = false)) :=
  by and_intros <;> decide +kernel

/-- States and operands that meet the hypotheses of `RequeuedRecord`, clause by clause. -/
theorem meets_RequeuedRecord :
  let s : State := (handler id);
    let a : Act := actR;
    let pl : List Byte := (List.replicate 16 (3:Byte));
    (ringEn (s.me.ring a.chan) = true) ∧ (s.here.mem.wf = true) ∧ ((s.here.blOf s.cur.kind a.chan).reserved = none) ∧ (s.me.isBound a.chan =
      false) ∧ (∀ (q : Pkt), q ∈ s.pkts → q.src ≠ s.cur) ∧ (ringProd (s.me.ring a.chan) % ringGran (s.me.ring a.chan) + ceilDiv (16 +
      pl.length) 64 ≤ ringGran (s.me.ring a.chan)) ∧ (ceilDiv (16 + pl.length) 64 ≤ ringFree (s.me.ring a.chan)) :=
  by decide +kernel

/-- States and operands that meet the hypotheses of `MaskForms`, clause by clause. -/
theorem meets_MaskForms :
  (let e : Enc := (word .hmask 0 0 0);
    let s : State := (world .flow);
    (clear (Instr.hmask e) s = true) ∧ ((seen s).me.lev = false) ∧ ((seen s).me.mask = none)) ∧
  (let e : Enc := (word .hmask 0 0 0);
    let s : State := maskedOut;
    (clear (Instr.hmask e) s = true) ∧ ((seen s).me.lev = true ∨ (seen s).me.mask.isSome = true)) ∧
  (let e : Enc := (word .hunmask 0 0 0);
    let s : State := maskedOut;
    (clear (Instr.hunmask e) s = true) ∧ ((seen s).me.lev = false)) ∧
  (let e : Enc := (word .hunmask 0 0 0);
    let s : State := highHandler;
    (clear (Instr.hunmask e) s = true) ∧ ((seen s).me.lev = true)) :=
  by and_intros <;> decide +kernel

/-- States and operands that meet the hypotheses of `JoinForms`, clause by clause. -/
theorem meets_JoinForms :
  (let e : Enc := (word .joinset 7 2 3);
    let s : State := joined;
    (clear (Instr.joinset e) s = true) ∧ ((if e.imms.isEmpty = true then BitVec.toNat ((seen s).me.g e.c) else e.immHigh) / 64 % 4 = 0) ∧
      (BitVec.toNat ((seen s).me.g e.b) % 2 ^ 32 ≠ 0)) ∧
  (let e : Enc := (word .joinset 7 1 3);
    let s : State := joined;
    (clear (Instr.joinset e) s = true) ∧ ((if e.imms.isEmpty = true then BitVec.toNat ((seen s).me.g e.c) else e.immHigh) / 64 % 4 = 0) ∧
      (BitVec.toNat ((seen s).me.g e.b) % 2 ^ 32 = 0)) ∧
  (let e : Enc := (word .joinset 7 1 2);
    let s : State := (on .flow (gs [(2, 0x40)]));
    (clear (Instr.joinset e) s = true) ∧ (formOk (Instr.joinset e) = true) ∧ ((if e.imms.isEmpty = true then BitVec.toNat ((seen s).me.g
      e.c) else e.immHigh) / 64 % 4 ≠ 0)) ∧
  (let e : Enc := (imms [7] (word .joinarr 7 0 0));
    let s : State := (world .flow);
    (clear (Instr.joinarr e) s = true) ∧ (sendRoom (seen s).me = true)) ∧
  (let e : Enc := (word .joinarr 7 0 0);
    let s : State := joined;
    let c : CoreId := (⟨⟨0,0⟩,.flow⟩:CoreId);
    let hi : Bool := false;
    let j : Nat := 2;
    let m : Nat := 4;
    ((vget (s.core c).joins j).armed = true) ∧ (0 < m) ∧ (m < (vget (s.core c).joins j).count.toNat)) ∧
  (let s : Machine.State := { joined with regions := joined.regions.map fun r => { r with stalled := true } };
    let c : CoreId := (⟨⟨0, 0⟩, .flow⟩ : CoreId);
    let hi : Bool := false;
    let j : Nat := 2;
    let m : Nat := 5;
    ((vget (s.core c).joins j).armed = true) ∧ (0 < m) ∧ ((vget (s.core c).joins j).count.toNat ≤ m) ∧ (injectMsg s c hi (s.tile c.site).name c.kind
      (BitVec.toNat (vget (s.core c).joins j).word % 2 ^ 6) (BitVec.toNat (vget (s.core c).joins j).word / 2 ^ 8 % 2 ^ 8) true (leBytes 8
      (BitVec.toNat (vget (s.core c).joins j).word / 2 ^ 16 % 2 ^ 48 + j % 8 * 2 ^ 48)) [] = none)) ∧
  (let s : Machine.State := joined;
    let c : CoreId := (⟨⟨0, 0⟩, .flow⟩ : CoreId);
    let hi : Bool := false;
    let j : Nat := 2;
    let m : Nat := 5;
    let u : Machine.State := ((injectMsg joined ⟨⟨0, 0⟩, .flow⟩ false (joined.tile ⟨0, 0⟩).name .flow (BitVec.toNat (vget (joined.core ⟨⟨0, 0⟩, .flow⟩).joins 2).word % 2 ^ 6) (BitVec.toNat (vget (joined.core ⟨⟨0, 0⟩, .flow⟩).joins 2).word / 2 ^ 8 % 2 ^ 8) true (leBytes 8 (BitVec.toNat (vget (joined.core ⟨⟨0, 0⟩, .flow⟩).joins 2).word / 2 ^ 16 % 2 ^ 48 + 2 % 8 * 2 ^ 48)) []).getD joined);
    (((vget (s.core c).joins j).armed = true) ∧ (0 < m) ∧ ((vget (s.core c).joins j).count.toNat ≤ m)) ∧ (injectMsg s c hi (s.tile c.site).name
      c.kind (BitVec.toNat (vget (s.core c).joins j).word % 2 ^ 6) (BitVec.toNat (vget (s.core c).joins j).word / 2 ^ 8 % 2 ^ 8) true (leBytes 8
      (BitVec.toNat (vget (s.core c).joins j).word / 2 ^ 16 % 2 ^ 48 + j % 8 * 2 ^ 48)) [] = some u)) ∧
  (let s : Machine.State := joined;
    let c : CoreId := (⟨⟨0, 0⟩, .flow⟩ : CoreId);
    let j : Nat := 1;
    let m : Nat := 5;
    ((vget (s.core c).joins j).armed = false ∨ m = 0)) :=
  ⟨by and_intros <;> decide +kernel,
    by and_intros <;> decide +kernel,
    by and_intros <;> decide +kernel,
    by and_intros <;> decide +kernel,
    by and_intros <;> decide +kernel,
    by and_intros <;> decide +kernel,
    ⟨by and_intros <;> decide +kernel, some_of (by decide +kernel)⟩,
    by and_intros <;> decide +kernel⟩

/-- States and operands that meet the hypotheses of `SoftwareTraps`, clause by clause. -/
theorem meets_SoftwareTraps :
  ((let e : Enc := (word .brk 0 0 0);
    let s : State := (handler id);
    clear (Instr.brk e) s = true) ∧
  (let e : Enc := (word .trap 0 2 0);
    let s : State := (on .flow (gs [(2, 0xFFFFFFFFFFFFFFFF)]));
    clear (Instr.trap e) s = true)) ∧
  (let e : Enc := (imms [0x40] (word .ecall 0 2 0));
    let s : State := ((handler id).modMe fun k => { k with ctl := { k.ctl with trapDeleg := 0xFFFFFFFF, trapVec := 0x9001 } });
    (clear (Instr.ecall e) s = true) ∧
    (toSupervisor (seen s).me 28) ∧
    ((seen s).me.sup = false)) ∧
  (let e : Enc := (imms [0x40] (word .ecall 0 2 0));
    let s : State := (handler id);
    (clear (Instr.ecall e) s = true) ∧
    (¬toSupervisor (seen s).me 28 ∨ (seen s).me.sup = true)) :=
  ⟨by and_intros <;> decide +kernel,     ⟨by decide +kernel, by delta toSupervisor; decide +kernel, by decide +kernel⟩,
      ⟨by decide +kernel, by delta toSupervisor; decide +kernel⟩⟩

/-- States and operands that meet the hypotheses of `SretForms`, clause by clause. -/
theorem meets_SretForms :
  (let e : Enc := (word .sretResume 0 0 0);
    let s : State := (trapped true id);
    let a : Act := ((trapped true id).me.act.getD act0);
    ((seen s).me.act = some a) ∧ (clear (Instr.sretResume e) s = true) ∧ ((seen s).me.active = true) ∧ (BitVec.getLsbD (seen
      s).me.ctl.trapCause 7 = true) ∧ (a.noMsg = false ∨ 2 ≤ a.pos.length)) ∧
  (let e : Enc := (word .sretResume 0 0 0);
    let s : State := (idling true);
    let a : Act := ((idling true).me.act.getD act0);
    ((seen s).me.act = some a) ∧ (clear (Instr.sretResume e) s = true) ∧ ((seen s).me.active = true) ∧ (BitVec.getLsbD (seen
      s).me.ctl.trapCause 7 = true) ∧ (a.noMsg = true) ∧ (a.pos.length ≤ 1) ∧ ((seen s).me.lev = false)) ∧
  (let e : Enc := (word .sretRedeliver 0 0 0);
    let s : State := (trapped false id);
    let a : Act := ((trapped false id).me.act.getD act0);
    ((seen s).me.act = some a) ∧ (clear (Instr.sretRedeliver e) s = true) ∧ ((seen s).me.active = true) ∧ (BitVec.getLsbD (seen
      s).me.ctl.trapCause 7 = true → mustDrain (seen s) s.cur = false) ∧ (((commit (if BitVec.getLsbD (seen s).me.ctl.trapCause 7 = true
      then abortUnder (seen s) else seen s) s.cur (seen s).me.lev).me.bank (seen s).me.lev).sends = [])) ∧
  (let e : Enc := (word .sretDrop 0 0 0);
    let s : State := (trapped false id);
    let a : Act := ((trapped false id).me.act.getD act0);
    ((seen s).me.act = some a) ∧ (clear (Instr.sretDrop e) s = true) ∧ ((seen s).me.active = true) ∧ (BitVec.getLsbD (seen
      s).me.ctl.trapCause 7 = true → mustDrain (seen s) s.cur = false) ∧ (((commit (if BitVec.getLsbD (seen s).me.ctl.trapCause 7 = true
      then abortUnder (seen s) else seen s) s.cur (seen s).me.lev).me.bank (seen s).me.lev).sends = []) ∧ (mayFree (commit (if
      BitVec.getLsbD (seen s).me.ctl.trapCause 7 = true then abortUnder (seen s) else seen s) s.cur (seen s).me.lev) = true)) ∧
  (let e : Enc := (word .sretHalt 0 0 0);
    let s : State := (trapped false id);
    let a : Act := ((trapped false id).me.act.getD act0);
    ((seen s).me.act = some a) ∧ (clear (Instr.sretHalt e) s = true) ∧ ((seen s).me.active = true) ∧ (BitVec.getLsbD (seen
      s).me.ctl.trapCause 7 = true → mustDrain (seen s) s.cur = false) ∧ (((commit (if BitVec.getLsbD (seen s).me.ctl.trapCause 7 = true
      then abortUnder (seen s) else seen s) s.cur (seen s).me.lev).me.bank (seen s).me.lev).sends = []) ∧ (mayFree (commit (if
      BitVec.getLsbD (seen s).me.ctl.trapCause 7 = true then abortUnder (seen s) else seen s) s.cur (seen s).me.lev) = true) ∧ (quietCore
      (commit (if BitVec.getLsbD (seen s).me.ctl.trapCause 7 = true then abortUnder (seen s) else seen s) s.cur (seen s).me.lev) s.cur =
      true)) ∧
  (let e : Enc := (word .sretHalt 0 0 0);
    let s : State := superFlow;
    let a : Act := ((superFlow).me.act.getD act0);
    let i : Instr := (Instr.sretHalt (word .sretHalt 0 0 0));
    ((seen s).me.act = some a) ∧ (i = Instr.sretResume e ∨ i = Instr.sretRedeliver e ∨ i = Instr.sretDrop e ∨ i = Instr.sretHalt e) ∧ (clear
      i s = true) ∧ ((seen s).me.active = false)) ∧
  (let e : Enc := (word .sretResume 0 0 0);
    let s : State := (trapped false id);
    let a : Act := ((trapped false id).me.act.getD act0);
    ((seen s).me.act = some a) ∧ (clear (Instr.sretResume e) s = true) ∧ (BitVec.getLsbD (seen s).me.ctl.trapCause 7 = false)) :=
  by and_intros <;> decide +kernel

/-- States and operands that meet the hypotheses of `OverlayEntryAndReturn`, clause by clause. -/
theorem meets_OverlayEntryAndReturn :
  (let addr : W := (0x7000 : W);
    let s : Machine.State := (on .flow noAct);
    (fetchDue s = false ∨ fetch s.here s.me s.fresh ≠ Except.error (7, addr))) ∧
  (let addr : W := (0x7000 : W);
    let s : Machine.State := (overlayOut);
    (fetchDue s = true) ∧ (fetch s.here s.me s.fresh = Except.error (7, addr)) ∧ ((s.me.sup = false) ∧ (BitVec.toNat s.me.ctl.ovlVec % 2 ^ 22 / 2 ≠
      0) ∧ (s.me.resumable = false) ∧ (s.me.active = false))) ∧
  (let e : Enc := (word .ovlret 0 0 0);
    let s : State := (overlay true);
    (clear (Instr.ovlret e) s = true) ∧ ((seen s).me.resumable = true) ∧ ((seen s).me.active = false) ∧ (earlierDone (seen s) s.cur 5 =
      true)) ∧
  (let e : Enc := (word .ovlret 0 0 0);
    let s : State := ((overlay true).modHere fun t => { t with bankq := [⟨⟨⟨0, 0⟩, .flow⟩, 0x200, 8, 0, 5, 0x8000, false⟩] });
    (clear (Instr.ovlret e) s = true) ∧ ((seen s).me.resumable = true) ∧ ((seen s).me.active = false) ∧ (earlierDone (seen s) s.cur 5 =
      false)) ∧
  (let e : Enc := (word .ovlret 0 0 0);
    let s : State := (overlay false);
    (clear (Instr.ovlret e) s = true) ∧ ((seen s).me.resumable = false ∨ (seen s).me.active = true)) :=
  ⟨.inl (by decide +kernel),
    ⟨by decide +kernel, error_of (by decide +kernel), by and_intros <;> decide +kernel⟩,
    by and_intros <;> decide +kernel,
    by and_intros <;> decide +kernel,
    by and_intros <;> decide +kernel⟩

/-- States and operands that meet the hypotheses of `HandlersStart`, clause by clause. -/
theorem meets_HandlersStart :
  ((let c : CoreId := (⟨⟨0,0⟩,.flow⟩:CoreId);
    let s : State := dispatching;
    let n : Nat := 3;
    let sel : Select := (⟨3, 0⟩ : Select);
    let r : Rec := (⟨3, 1, 1, false, 16, 0, false⟩ : Rec);
    (atEvent (s.core c) = true) ∧ ((s.core c).trapDue = false) ∧ (asyncDue (s.core c) = false) ∧ (canDispatch s c = true) ∧ ((s.core
      c).haltReq = false) ∧ ((s.core c).anyPending true = false) ∧ ((s.core c).lo.act = none) ∧ ((s.core c).hi.act = none) ∧ ((s.core
      c).lowSusp = false) ∧ ((s.core c).choose false = some (n, sel)) ∧ ((s.core c).headRec n = some r)) ∧
  (let c : CoreId := (⟨⟨0,0⟩,.flow⟩:CoreId);
    let s : State := betweenHigh;
    let n : Nat := 3;
    let sel : Select := (⟨3, 0⟩ : Select);
    let r : Rec := (⟨3, 1, 1, false, 16, 0, false⟩ : Rec);
    (atEvent (s.core c) = true) ∧ ((s.core c).trapDue = false) ∧ (asyncDue (s.core c) = false) ∧ (canDispatch s c = true) ∧ ((s.tile
      c.site).stopped = false) ∧ ((s.core c).haltReq = false) ∧ ((s.core c).hpCount < BitVec.toNat (s.core c).ctl.hpLimit % 256) ∧ ((s.core
      c).mask = none) ∧ ((s.core c).active = false) ∧ ((s.core c).choose true = some (n, sel)) ∧ ((s.core c).headRec n = some r)) ∧
  (let c : CoreId := (⟨⟨0,0⟩,.flow⟩:CoreId);
    let s : State := suspended;
    let n : Nat := 3;
    let sel : Select := (⟨3, 0⟩ : Select);
    let r : Rec := (⟨3, 1, 1, false, 16, 0, false⟩ : Rec);
    (atEvent (s.core c) = true) ∧ ((s.core c).trapDue = false) ∧ (asyncDue (s.core c) = false) ∧ (canDispatch s c = true) ∧ ((s.core
      c).anyPending true = false) ∧ ((s.core c).lo.act.isSome = true)) ∧
  (let c : CoreId := (⟨⟨0,0⟩,.flow⟩:CoreId);
    let s : State := preempting;
    let n : Nat := 3;
    let sel : Select := (⟨3, 0⟩ : Select);
    let r : Rec := (⟨3, 1, 1, false, 16, 0, false⟩ : Rec);
    (atEvent (s.core c) = true) ∧ ((s.core c).trapDue = false) ∧ (asyncDue (s.core c) = false) ∧ (hpReady s c = true) ∧ ((s.core c).choose
      true = some (n, sel)) ∧ ((s.core c).headRec n = some r)) ∧
  (let k : Core := dispatching.me;
    let hi : Bool := false;
    (k.pending hi (if hi = true then k.hiSel else k.lowSel).chan = true) ∧ ((if hi = true then k.hiSel else k.lowSel).credit ≠ 0))) ∧
  (let k : Core := { dispatching.me with lowSel := ⟨4, 0⟩ };
    let hi : Bool := false;
    let d : Nat := 63;
    ((k.pending hi (if hi = true then k.hiSel else k.lowSel).chan = false ∨ (if hi = true then k.hiSel else k.lowSel).credit = 0) ∧ (1 ≤ d)
      ∧ (d ≤ 64) ∧ ((if hi = true then k.hiSel else k.lowSel).chan < 64) ∧ (k.pending hi (((if hi = true then k.hiSel else k.lowSel).chan +
      d) % 64) = true)) ∧
    (∀ (j : Nat), 1 ≤ j → j < d → k.pending hi (((if hi = true then k.hiSel else k.lowSel).chan + j) % 64) = false)) :=
  ⟨by and_intros <;> decide +kernel,     ⟨by decide +kernel, under_of (by decide +kernel)⟩⟩

/-- States and operands that meet the hypotheses of `BoundaryTraps`, clause by clause. -/
theorem meets_BoundaryTraps :
  (let c : CoreId := (⟨⟨0,0⟩,.flow⟩:CoreId);
    let s : State := overdue;
    (atEvent (s.core c) = true) ∧ (mustDrain s c = false) ∧ ((s.core c).trapDue = false) ∧ (asyncDue (s.core c) = false) ∧ ((s.core
      c).overBudget = true)) ∧
  (let c : CoreId := (⟨⟨0,0⟩,.flow⟩:CoreId);
    let s : State := maskedOut;
    (atEvent (s.core c) = true) ∧ (mustDrain s c = false) ∧ ((s.core c).trapDue = false) ∧ (asyncDue (s.core c) = false) ∧ ((s.core
      c).act.isSome = true) ∧ ((s.core c).maskFull = true) ∧ ((s.core c).blocked.kind = 0)) ∧
  (let c : CoreId := (⟨⟨0, 0⟩, .flow⟩ : CoreId);
    let s : Machine.State := (lateTrap.modHere fun t => { t with torn := true });
    let p : PTrap := (⟨0x19, 0x100, 0x8000, 0, false⟩ : PTrap);
    (atEvent (s.core c) = true) ∧ (mustDrain s c = false) ∧ ((s.core c).ptrap = some p) ∧ ((s.tile c.site).torn = true)) ∧
  (let c : CoreId := (⟨⟨0,0⟩,.flow⟩:CoreId);
    let s : Machine.State := lateTrap;
    let p : PTrap := (⟨0x19, 0x100, 0x8000, 0, false⟩ : PTrap);
    (atEvent (s.core c) = true) ∧ (mustDrain s c = false) ∧ ((s.core c).ptrap = some p) ∧ ((s.tile c.site).torn = false) ∧ ((s.core c).trapDue =
      true) ∧ (abortCause p.cause false = true) ∧ (p.cause < 30)) ∧
  (let c : CoreId := (⟨⟨0,0⟩,.flow⟩:CoreId);
    let s : State := asyncDue1;
    let a : AsyncEv := (⟨0x16, 0x20002, true⟩ : AsyncEv);
    let rest : List AsyncEv := ([] : List AsyncEv);
    (atEvent (s.core c) = true) ∧ (mustDrain s c = false) ∧ ((s.core c).trapDue = false) ∧ ((s.core c).async = a :: rest) ∧ (asyncDue
      (s.core c) = true) ∧ (a.cause < 30)) :=
  by and_intros <;> decide +kernel

/-- States and operands that meet the hypotheses of `IslandAnswers`, clause by clause. -/
theorem meets_IslandAnswers :
  (let c : CoreId := (⟨⟨0,0⟩,.flow⟩:CoreId);
    let s : State := (heldCore 0x9C id);
    let status : W := (5:W);
    let a : Act := (((heldCore 0x9C id)).me.act.getD act0);
    ((s.core c).held.isSome = true) ∧ ((s.core c).act = some a) ∧ (BitVec.getLsbD (s.core c).ctl.trapCause 7 = true)) ∧
  (let c : CoreId := (⟨⟨0,0⟩,.flow⟩:CoreId);
    let s : State := (heldCore 0x03 id);
    let status : W := (5:W);
    let a : Act := (((heldCore 0x03 id)).me.act.getD act0);
    let mode : Nat := 1;
    ((s.core c).held.isSome = true) ∧ ((s.core c).act = some a) ∧ (1 ≤ mode) ∧ (mode ≤ 3) ∧ (BitVec.getLsbD (s.core c).ctl.trapCause 7 =
      true → mustDrain s c = false) ∧ ((((if BitVec.getLsbD (s.core c).ctl.trapCause 7 = true then abortAct s c (s.core c).lev else s).core
      c).bank (s.core c).lev).sends = []) ∧ (mode ≠ 1 → freeReady (if BitVec.getLsbD (s.core c).ctl.trapCause 7 = true then abortAct s c
      (s.core c).lev else s) c = true) ∧ (mode = 3 → quietCore (if BitVec.getLsbD (s.core c).ctl.trapCause 7 = true then abortAct s c
      (s.core c).lev else s) c = true)) ∧
  (let c : CoreId := (⟨⟨0,0⟩,.flow⟩:CoreId);
    let s : State := (heldCore 0x03 id);
    let status : W := (5:W);
    let a : Act := (((heldCore 0x03 id)).me.act.getD act0);
    let mode : Nat := 3;
    ((s.core c).held.isSome = true) ∧ ((s.core c).act = some a) ∧ (1 ≤ mode) ∧ (mode ≤ 3) ∧ (BitVec.getLsbD (s.core c).ctl.trapCause 7 =
      true → mustDrain s c = false) ∧ ((((if BitVec.getLsbD (s.core c).ctl.trapCause 7 = true then abortAct s c (s.core c).lev else s).core
      c).bank (s.core c).lev).sends = []) ∧ (mode ≠ 1 → freeReady (if BitVec.getLsbD (s.core c).ctl.trapCause 7 = true then abortAct s c
      (s.core c).lev else s) c = true) ∧ (mode = 3 → quietCore (if BitVec.getLsbD (s.core c).ctl.trapCause 7 = true then abortAct s c
      (s.core c).lev else s) c = true)) :=
  by and_intros <;> decide +kernel

/-- States and operands that meet the hypotheses of `VectorFormsIssue`, clause by clause. -/
theorem meets_VectorFormsIssue :
  (let i : Instr := (Instr.vadd (fn 2 (word .vadd 1 2 3)));
    let e : Enc := (fn 2 (word .vadd 1 2 3));
    let s : State := (vec 0 0 15);
    let x : W := (0:W);
    let y : W := (0:W);
    let sel : W := (0:W);
    (encOf i = some e) ∧ (clear i s = true) ∧ (formOk i = true) ∧ (vecOperands i (seen s).me = some (x, y, sel)) ∧ ((seen s).me.streamBound
      e.a = false) ∧ (i = Instr.vdeq e → (seen s).me.streamBound (e.a + 1) = false) ∧ ((seen s).me.vq.length < 16)) ∧
  (let i : Instr := (Instr.vadd (fn 2 (word .vadd 1 2 3)));
    let e : Enc := (fn 2 (word .vadd 1 2 3));
    let s : State := (vec 0 0 16);
    let x : W := (0:W);
    let y : W := (0:W);
    let sel : W := (0:W);
    (encOf i = some e) ∧ (clear i s = true) ∧ (formOk i = true) ∧ (vecOperands i (seen s).me = some (x, y, sel)) ∧ ((seen s).me.streamBound
      e.a = false) ∧ (i = Instr.vdeq e → (seen s).me.streamBound (e.a + 1) = false) ∧ (16 ≤ (seen s).me.vq.length)) ∧
  (let i : Instr := (Instr.vadd (fn 2 (a12 (word .vadd 4 2 3))));
    let e : Enc := (fn 2 (a12 (word .vadd 4 2 3)));
    let s : State := (streamed 0);
    let x : W × W × W := ((0:W), (0:W), (0:W));
    (encOf i = some e) ∧ (clear i s = true) ∧ (formOk i = true) ∧ (vecOperands i (seen s).me = some x) ∧ ((seen s).me.streamBound e.a = true
      ∨ i = Instr.vdeq e ∧ (seen s).me.streamBound (e.a + 1) = true)) ∧
  (let i : Instr := (Instr.vextr (fn 2 (word .vextr 1 2 3)));
    let e : Enc := (fn 2 (word .vextr 1 2 3));
    let s : State := (vec 0 15 16);
    (encOf i = some e) ∧ (clear i s = true) ∧ (formOk i = true) ∧ (isVcmp i = true ∨ i = Instr.vextr e) ∧ (16 ≤ (seen s).me.vq.length)) ∧
  (let i : Instr := (Instr.vcmplt (pred 4 (word .vcmplt 1 2 3)));
    let e : Enc := (pred 4 (word .vcmplt 1 2 3));
    let s : Machine.State := (vec 0 0 15);
    (encOf i = some e) ∧ (clear i s = true) ∧ (formOk i = true) ∧ (isVcmp i = true) ∧ ((seen s).me.vq.length < 16) ∧ (laneBits e.ty = 8) ∧
      (BitVec.toNat ((seen s).me.pred e) = 0)) ∧
  (let i : Instr := (Instr.vcmplt (fn 2 (word .vcmplt 1 2 3)));
    let e : Enc := (fn 2 (word .vcmplt 1 2 3));
    let s : Machine.State := (vec 0 0 15);
    (encOf i = some e) ∧ (clear i s = true) ∧ (formOk i = true) ∧ (isVcmp i = true) ∧ ((seen s).me.vq.length < 16) ∧ (8 < laneBits e.ty ∨
      BitVec.toNat ((seen s).me.pred e) ≠ 0) ∧ ((∀ (j : Nat), j < 512 / laneBits e.ty → BitVec.getLsbD ((seen s).me.pred e) j = true) ∨ (seen
      s).me.mustWait RFile.p e.a = false ∧ (seen s).me.poisonOf RFile.p e.a = none)) ∧
  (let i : Instr := (Instr.vextr (fn 2 (word .vextr 1 2 3)));
    let e : Enc := (fn 2 (word .vextr 1 2 3));
    let s : State := (vec 0 15 15);
    ((encOf i = some e) ∧ (clear i s = true) ∧ (formOk i = true) ∧ (i = Instr.vextr e) ∧ ((seen s).me.vq.length < 16)) ∧
    (∀ (j : Nat), j = BitVec.toNat ((seen s).me.g e.c) → j < 512 / laneBits e.ty → BitVec.getLsbD ((seen s).me.pred e) j = true)) ∧
  (let i : Instr := (Instr.vextr (pred 2 (fn 2 (word .vextr 1 2 3))));
    let e : Enc := (pred 2 (fn 2 (word .vextr 1 2 3)));
    let s : State := (vec 0 15 15);
    (encOf i = some e) ∧ (clear i s = true) ∧ (formOk i = true) ∧ (i = Instr.vextr e) ∧ ((seen s).me.vq.length < 16) ∧ (BitVec.toNat ((seen
      s).me.g e.c) < 512 / laneBits e.ty) ∧ (BitVec.getLsbD ((seen s).me.pred e) (BitVec.toNat ((seen s).me.g e.c)) = false)) ∧
  (let i : Instr := (Instr.vsbind (imms [3] (a12 (word .vsbind 4 0 0))));
    let e : Enc := (imms [3] (a12 (word .vsbind 4 0 0)));
    let s : State := (streamed 15);
    let n : Nat := 3;
    (encOf i = some e) ∧ (clear i s = true) ∧ (formOk i = true) ∧ (i = Instr.vsbind e) ∧ (n = if e.imms.isEmpty = true then BitVec.toNat
      ((seen s).me.g e.b) else e.immHigh) ∧ (n < 64) ∧ ((seen s).me.vq.length < 16) ∧ (ringEn ((seen s).me.ring n) = true) ∧ ((seen
      s).me.portOf n = false) ∧ (∀ (j : Nat), j < 4 → j ≠ e.a - 12 → (seen s).me.streamsAfter.getD j none ≠ some n)) ∧
  (let i : Instr := (Instr.vsunbind (a12 (word .vsunbind 4 0 0)));
    let e : Enc := (a12 (word .vsunbind 4 0 0));
    let s : State := (streamed 15);
    (encOf i = some e) ∧ (clear i s = true) ∧ (formOk i = true) ∧ (i = Instr.vsunbind e) ∧ ((seen s).me.vq.length < 16)) :=
  ⟨by and_intros <;> decide +kernel,
    by and_intros <;> decide +kernel,
    by and_intros <;> decide +kernel,
    by and_intros <;> decide +kernel,
    by and_intros <;> decide +kernel,
    by and_intros <;> decide +kernel,
    ⟨by decide +kernel, fun _ hj => by subst hj; decide +kernel⟩,
    by and_intros <;> decide +kernel,
    by and_intros <;> decide +kernel,
    by and_intros <;> decide +kernel⟩

/-- States and operands that meet the hypotheses of `QueueExecutes`, clause by clause. -/
theorem meets_QueueExecutes :
  (let c : CoreId := shape;
    let s : State := (queue1 qMovS (bindV (some 3) (ring3 0 0)));
    let q : VEntry := qMovS;
    let rest : List VEntry := ([]:List VEntry);
    let n : Nat := 12;
    let l : List Nat := ([]:List Nat);
    let ch : Nat := 3;
    ((s.core c).vq = q :: rest) ∧ (queuedSources q.i = n :: l) ∧ (12 ≤ n) ∧ ((vget ((s.core c).settleV (some q.pos)).streams (n - 12)).chan
      = some ch) ∧ (ringEn ((s.core c).ring ch) = true) ∧ ((s.core c).headRec ch = none)) ∧
  (let c : CoreId := shape;
    let s0 : Machine.State := (queue1 qAdd);
    let q : VEntry := qAdd;
    let rest : List VEntry := ([]:List VEntry);
    let e : Enc := (fn 2 (word .vadd 1 2 3));
    let n : Nat := 32;
    let f : (Nat → Nat) → (Nat → Nat) → (Nat → Nat) → Nat → Nat := laneAdd;
    let j : Nat := 2;
    (((s0.core c).vq = q :: rest) ∧ (laneWinner s0 c.site = some c.kind) ∧ (encOf q.i = some e) ∧ ((∀ (n : Nat), n ∈ queuedSources q.i → n < 12 ∨
      (vget (((chargeLane s0 c).core c).settleV (some q.pos)).streams (n - 12)).chan = none) ∧ (∀ (r : RegPoison), r ∈ (((chargeLane s0 c).core
      c).settleV (some q.pos)).regPoison → r.file ≠ RFile.v) ∧ q.out = none)) ∧ (laneSpec q = some (n, f)) ∧ (j < 512 / n ∧ BitVec.getLsbD q.p j =
      true ∧ (q.i = Instr.vins e → j = BitVec.toNat q.y))) ∧
  (let c : CoreId := shape;
    let s0 : Machine.State := (queue1 { qAdd with p := 0xFFFF0000 });
    let q : VEntry := { qAdd with p := 0xFFFF0000 };
    let rest : List VEntry := ([]:List VEntry);
    let e : Enc := (fn 2 (word .vadd 1 2 3));
    let n : Nat := 32;
    let f : (Nat → Nat) → (Nat → Nat) → (Nat → Nat) → Nat → Nat := laneAdd;
    (((s0.core c).vq = q :: rest) ∧ (laneWinner s0 c.site = some c.kind) ∧ (encOf q.i = some e) ∧ ((∀ (n : Nat), n ∈ queuedSources q.i → n < 12 ∨
      (vget (((chargeLane s0 c).core c).settleV (some q.pos)).streams (n - 12)).chan = none) ∧ (∀ (r : RegPoison), r ∈ (((chargeLane s0 c).core
      c).settleV (some q.pos)).regPoison → r.file ≠ RFile.v) ∧ q.out = none)) ∧ (laneSpec q = some (n, f)) ∧ (∀ (j : Nat), ¬(fun n j => j < 512 / n
      ∧ BitVec.getLsbD q.p j = true ∧ (q.i = Instr.vins e → j = BitVec.toNat q.y)) n j)) ∧
  (let c : CoreId := shape;
    let s0 : State := (queue1 (entry (.vmul (fn 8 (word .vmul 1 2 3))) 0 0 0 0 none));
    let q : VEntry := (entry (.vmul (fn 8 (word .vmul 1 2 3))) 0 0 0 0 none);
    let rest : List VEntry := ([]:List VEntry);
    let e : Enc := (fn 8 (word .vmul 1 2 3));
    (((s0.core c).vq = q :: rest) ∧ (laneWinner s0 c.site = some c.kind) ∧ (encOf q.i = some e) ∧ ((∀ (n : Nat), n ∈ queuedSources q.i → n <
      12 ∨ (vget (((chargeLane s0 c).core c).settleV (some q.pos)).streams (n - 12)).chan = none) ∧ (∀ (r : RegPoison), r ∈ (((chargeLane s0
      c).core c).settleV (some q.pos)).regPoison → r.file ≠ RFile.v) ∧ q.out = none) ∧ (inF e.ty = true) ∧ ((floatSpec q e 0 0 0).isSome =
      true)) ∧
    (∀ (j : Nat), ¬(fun n j => j < 512 / n ∧ BitVec.getLsbD q.p j = true ∧ (q.i = Instr.vins e → j = BitVec.toNat q.y)) (laneBits e.ty) j)) ∧
  (let c : CoreId := shape;
    let s0 : State := (queue1 (entry (.vmul (fn 8 (word .vmul 1 2 3))) 0x5555 0 0 0 none));
    let q : VEntry := (entry (.vmul (fn 8 (word .vmul 1 2 3))) 0x5555 0 0 0 none);
    let rest : List VEntry := ([]:List VEntry);
    let e : Enc := (fn 8 (word .vmul 1 2 3));
    ((s0.core c).vq = q :: rest) ∧ (laneWinner s0 c.site = some c.kind) ∧ (encOf q.i = some e) ∧ ((∀ (n : Nat), n ∈ queuedSources q.i → n <
      12 ∨ (vget (((chargeLane s0 c).core c).settleV (some q.pos)).streams (n - 12)).chan = none) ∧ (∀ (r : RegPoison), r ∈ (((chargeLane s0
      c).core c).settleV (some q.pos)).regPoison → r.file ≠ RFile.v) ∧ q.out = none) ∧ (inF e.ty = true) ∧ (modeOf q e ≠ 5) ∧ ((floatSpec q
      e 0 0 0).isSome = true) ∧ (∃ j, (fun n j => j < 512 / n ∧ BitVec.getLsbD q.p j = true ∧ (q.i = Instr.vins e → j = BitVec.toNat q.y))
      (laneBits e.ty) j)) ∧
  (let c : CoreId := shape;
    let s0 : State := (queue1 (entry (.vredsum (fn 1 (word .vredsum 1 2 0))) 0xFFFF 0 0 0 none));
    let q : VEntry := (entry (.vredsum (fn 1 (word .vredsum 1 2 0))) 0xFFFF 0 0 0 none);
    let rest : List VEntry := ([]:List VEntry);
    let e : Enc := (fn 1 (word .vredsum 1 2 0));
    ((s0.core c).vq = q :: rest) ∧ (laneWinner s0 c.site = some c.kind) ∧ (encOf q.i = some e) ∧ ((∀ (n : Nat), n ∈ queuedSources q.i → n <
      12 ∨ (vget (((chargeLane s0 c).core c).settleV (some q.pos)).streams (n - 12)).chan = none) ∧ (∀ (r : RegPoison), r ∈ (((chargeLane s0
      c).core c).settleV (some q.pos)).regPoison → r.file ≠ RFile.v) ∧ q.out = none) ∧ (q.i = Instr.vredsum e) ∧ (inI e.ty = true)) ∧
  (let c : CoreId := shape;
    let s0 : State := (queue1 (entry (.vcmplt (fn 2 (word .vcmplt 1 2 3))) 0x5555 0 0xFFFF 0 (some 2)) outst1);
    let q : VEntry := (entry (.vcmplt (fn 2 (word .vcmplt 1 2 3))) 0x5555 0 0xFFFF 0 (some 2));
    let rest : List VEntry := ([]:List VEntry);
    let e : Enc := (fn 2 (word .vcmplt 1 2 3));
    let id : Nat := 2;
    ((s0.core c).vq = q :: rest) ∧ (laneWinner s0 c.site = some c.kind) ∧ (encOf q.i = some e) ∧ (q.out = some id) ∧ (isVcmp q.i = true) ∧
      (inI e.ty = true) ∧ (∀ (n : Nat), n ∈ queuedSources q.i → n < 12 ∨ (vget (((chargeLane s0 c).core c).settleV (some q.pos)).streams (n
      - 12)).chan = none) ∧ (∀ (r : RegPoison), r ∈ (((chargeLane s0 c).core c).settleV (some q.pos)).regPoison → r.file ≠ RFile.v)) ∧
  (let c : CoreId := shape;
    let s0 : State := (queue1 (entry (.vextr (fn 2 (word .vextr 1 2 3))) 0x5555 0 15 0 (some 3)) outst1);
    let q : VEntry := (entry (.vextr (fn 2 (word .vextr 1 2 3))) 0x5555 0 15 0 (some 3));
    let rest : List VEntry := ([]:List VEntry);
    let e : Enc := (fn 2 (word .vextr 1 2 3));
    let id : Nat := 3;
    ((s0.core c).vq = q :: rest) ∧ (laneWinner s0 c.site = some c.kind) ∧ (encOf q.i = some e) ∧ (q.out = some id) ∧ (q.i = Instr.vextr e) ∧
      (inI e.ty = true) ∧ (∀ (n : Nat), n ∈ queuedSources q.i → n < 12 ∨ (vget (((chargeLane s0 c).core c).settleV (some q.pos)).streams (n
      - 12)).chan = none) ∧ (∀ (r : RegPoison), r ∈ (((chargeLane s0 c).core c).settleV (some q.pos)).regPoison → r.file ≠ RFile.v)) ∧
  (let c : CoreId := shape;
    let s0 : State := (queue1 qAdd);
    let q : VEntry := qAdd;
    let rest : List VEntry := ([]:List VEntry);
    let e : Enc := (fn 2 (word .vadd 1 2 3));
    let srcs : List (V × List (Nat × W)) := (takenOf (queue1 qAdd)).1;
    let s2 : State := (takenOf (queue1 qAdd)).2;
    (((s0.core c).vq = q :: rest) ∧ (laneWinner s0 c.site = some c.kind) ∧ (encOf q.i = some e)) ∧
    (∀ (e' : Enc), q.i ≠ Instr.vsbind e' ∧ q.i ≠ Instr.vsunbind e') ∧
    ((takeAll ((chargeLane s0 c).modCore c fun k => k.settleV (some q.pos)) c (queuedSources q.i) = Taken.ok srcs s2) ∧ (∀ (x : V × List
      (Nat × W)), x ∈ srcs → x.snd = []) ∧ (∀ (r : RegPoison), r ∈ (s2.core c).regPoison → r.file ≠ RFile.v))) ∧
  (let c : CoreId := shape;
    let s0 : State := (queue1 qMovS (bindV (some 3) id));
    let q : VEntry := qMovS;
    let rest : List VEntry := ([]:List VEntry);
    let e : Enc := (regs 0x4 (word .vmov 1 4 0));
    let n : Nat := 12;
    let l : List Nat := ([]:List Nat);
    let ch : Nat := 3;
    ((s0.core c).vq = q :: rest) ∧ (laneWinner s0 c.site = some c.kind) ∧ (encOf q.i = some e) ∧ (queuedSources q.i = n :: l) ∧ (12 ≤ n) ∧
      ((vget (((chargeLane s0 c).core c).settleV (some q.pos)).streams (n - 12)).chan = some ch) ∧ (ringEn ((((chargeLane s0 c).core
      c).settleV (some q.pos)).ring ch) = false)) ∧
  (let c : CoreId := shape;
    let s0 : State := (queue1 qAdd fun k => { k with regPoison := [⟨.v, false, 2, 1, 0x100⟩] });
    let q : VEntry := qAdd;
    let rest : List VEntry := ([]:List VEntry);
    let e : Enc := (fn 2 (word .vadd 1 2 3));
    let j : Nat := 2;
    let d : W := (0x100:W);
    ((s0.core c).vq = q :: rest) ∧ (laneWinner s0 c.site = some c.kind) ∧ (encOf q.i = some e) ∧ (q.i = Instr.vadd e ∨ q.i = Instr.vand e ∨
      q.i = Instr.vcvt e) ∧ (∀ (n : Nat), n ∈ queuedSources q.i → n < 12 ∨ (vget (((chargeLane s0 c).core c).settleV (some q.pos)).streams
      (n - 12)).chan = none) ∧ (q.i = Instr.vcvt e → storeBits e.ty = storeBits (4 * e.fc + e.f) ∧ storeBits e.ty = laneBits e.ty) ∧ (j <
      512 / laneBits e.ty) ∧ (BitVec.getLsbD q.p j = true) ∧ ((j * laneBits e.ty / 64, d) ∈ (((chargeLane s0 c).core c).settleV (some
      q.pos)).vmarks e.b)) ∧
  (let c : CoreId := shape;
    let s0 : State := (queue1 (entry (.vsbind (a12 (word .vsbind 4 0 0))) 0 3 0 0 none));
    let q : VEntry := (entry (.vsbind (a12 (word .vsbind 4 0 0))) 0 3 0 0 none);
    let rest : List VEntry := ([]:List VEntry);
    let e : Enc := (a12 (word .vsbind 4 0 0));
    ((s0.core c).vq = q :: rest) ∧ (laneWinner s0 c.site = some c.kind) ∧ (encOf q.i = some e) ∧ (q.i = Instr.vsbind e)) ∧
  (let c : CoreId := shape;
    let s0 : State := (queue1 (entry (.vsunbind (a12 (word .vsunbind 4 0 0))) 0 0 0 0 none) (bindV (some 3) id));
    let q : VEntry := (entry (.vsunbind (a12 (word .vsunbind 4 0 0))) 0 0 0 0 none);
    let rest : List VEntry := ([]:List VEntry);
    let e : Enc := (a12 (word .vsunbind 4 0 0));
    ((s0.core c).vq = q :: rest) ∧ (laneWinner s0 c.site = some c.kind) ∧ (encOf q.i = some e) ∧ (q.i = Instr.vsunbind e)) :=
  ⟨by decide +kernel,
    ⟨by and_intros <;> decide +kernel, rfl, by decide +kernel⟩,
    ⟨by and_intros <;> decide +kernel, rfl, inactive_of (by decide +kernel)⟩,
    ⟨by decide +kernel, inactive_of (by decide +kernel)⟩,
    by and_intros <;> decide +kernel,
    by and_intros <;> decide +kernel,
    by and_intros <;> decide +kernel,
    by and_intros <;> decide +kernel,
    ⟨by decide +kernel, fun _ => ⟨nofun, nofun⟩, by decide +kernel⟩,
    by and_intros <;> decide +kernel,
    by and_intros <;> decide +kernel,
    by and_intros <;> decide +kernel,
    by and_intros <;> decide +kernel⟩

/-- States and operands that meet the hypotheses of `LanesArbitrated`, clause by clause. -/
theorem meets_LanesArbitrated :
  (let s : State := (queue1 qAdd);
    let t : Site := (⟨0, 0⟩ : Site);
    let k : CoreKind := CoreKind.shape;
    laneWinner s t = some k) ∧
  (let s : Machine.State := bothWait;
    let t : Site := (⟨0, 0⟩ : Site);
    let k : CoreKind := CoreKind.shape;
    let j : CoreKind := CoreKind.math;
    (laneWinner s t = some k) ∧ (headWaits s { site := t, kind := j } = true)) ∧
  (let s : Machine.State := bothWait;
    let t : Site := (⟨0, 0⟩ : Site);
    let k : CoreKind := CoreKind.shape;
    let j : CoreKind := CoreKind.math;
    (laneWinner s t = some k) ∧ (headWaits s { site := t, kind := j } = true) ∧ ((fun k => (s.core { site := t, kind := k }).deficit) j = (fun k =>
      (s.core { site := t, kind := k }).deficit) k)) ∧
  (let s : State := (world .flow);
    let t : Site := (⟨0, 0⟩ : Site);
    laneWinner s t = none) ∧
  (let s : State := (queue1 qAdd);
    let t : Site := (⟨0, 0⟩ : Site);
    let k : CoreKind := CoreKind.flow;
    laneWinner s t ≠ some k) ∧
  (let s : Machine.State := (queue1 qAdd);
    let t : Site := (⟨0, 0⟩ : Site);
    let k : CoreKind := CoreKind.shape;
    (headWaits s { site := t, kind := k } = true) ∧ (∀ (j : CoreKind), j ≠ k → ¬(fun k => headWaits s { site := t, kind := k } = true) j)) ∧
  (let s : Machine.State := bothWait;
    let t : Site := (⟨0, 0⟩ : Site);
    let k : CoreKind := CoreKind.shape;
    let j : CoreKind := CoreKind.math;
    ((k ≠ j) ∧ (headWaits s { site := t, kind := k } = true) ∧ (headWaits s { site := t, kind := j } = true)) ∧ (∀ (l : CoreKind), l ≠ k → l ≠ j →
      ¬(fun k => headWaits s { site := t, kind := k } = true) l)) ∧
  (let s : Machine.State := bothWait;
    let t : Site := (⟨0, 0⟩ : Site);
    let k : CoreKind := CoreKind.math;
    let j : CoreKind := CoreKind.shape;
    ((k ≠ j) ∧ (headWaits s { site := t, kind := k } = true) ∧ (headWaits s { site := t, kind := j } = true)) ∧ (∀ (l : CoreKind), l ≠ k → l ≠ j →
      ¬(fun k => headWaits s { site := t, kind := k } = true) l)) :=
  ⟨by and_intros <;> decide +kernel,
    by and_intros <;> decide +kernel,
    by and_intros <;> decide +kernel,
    by and_intros <;> decide +kernel,
    by and_intros <;> decide +kernel,
    ⟨by decide +kernel, kinds_of (by decide +kernel)⟩,
    ⟨by and_intros <;> decide +kernel, kinds_of (by decide +kernel)⟩,
    ⟨by and_intros <;> decide +kernel, kinds_of (by decide +kernel)⟩⟩

/-- States and operands that meet the hypotheses of `VectorMemoryForms`, clause by clause. -/
theorem meets_VectorMemoryForms :
  (let i : Instr := (Instr.vld (pred 2 (word .vld 1 2 0)));
    let e : Enc := (pred 2 (word .vld 1 2 0));
    let s : State := (vec 0x1000 0 0);
    let n : Nat := 8;
    let addr : Nat → W := (fun j => 0x1000 + BitVec.ofNat 64 j);
    ((encOf i = some e) ∧ (clear i s = true) ∧ (formOk i = true) ∧ ((seen s).me.vq = [])) ∧
    (vecAddr i ((seen s).modMe fun k => k.settleV (some k.pos)).me (vget ((seen s).modMe fun k => k.settleV (some k.pos)).me.v e.c) = some
      (n, addr)) ∧
    (∀ (m : Nat), 12 ≤ m → (vget ((seen s).modMe fun k => k.settleV (some k.pos)).me.streams (m - 12)).chan = none) ∧
    ((∀ (r : RegPoison), r ∈ ((seen s).modMe fun k => k.settleV (some k.pos)).me.regPoison → r.file ≠ RFile.v) ∧ (((seen s).modMe fun k =>
      k.settleV (some k.pos)).here.poison = []) ∧ (∃ j, j < 512 / n ∧ (fun j => BitVec.getLsbD (((seen s).modMe fun k => k.settleV (some
      k.pos)).me.pred e) j = true) j) ∧ (isAligned64 i = true → BitVec.toNat (addr 0) % 64 = 0) ∧ (∀ (j : Nat), j < 512 / n → (fun j =>
      BitVec.getLsbD (((seen s).modMe fun k => k.settleV (some k.pos)).me.pred e) j = true) j → addrFault ((seen s).modMe fun k => k.settleV
      (some k.pos)) (BitVec.toNat (addr j)) (n / 8) (!isVload i) false = none ∧ isRemote ((seen s).modMe fun k => k.settleV (some k.pos))
      (BitVec.toNat (addr j)) = false ∧ ramoPending ((seen s).modMe fun k => k.settleV (some k.pos)) (BitVec.toNat (addr j)) (n / 8) =
      false) ∧ (isAligned64 i = true → ∀ (j : Nat), j < 8 → (∃ l, l < 8 ∧ (fun j => BitVec.getLsbD (((seen s).modMe fun k => k.settleV (some
      k.pos)).me.pred e) j = true) (8 * j + l)) → addrFault ((seen s).modMe fun k => k.settleV (some k.pos)) (BitVec.toNat (addr 0 +
      BitVec.ofNat 64 (8 * j))) 8 (!isVload i) false = none ∧ isRemote ((seen s).modMe fun k => k.settleV (some k.pos)) (BitVec.toNat (addr
      0 + BitVec.ofNat 64 (8 * j))) = false ∧ ramoPending ((seen s).modMe fun k => k.settleV (some k.pos)) (BitVec.toNat (addr 0 +
      BitVec.ofNat 64 (8 * j))) 8 = false) ∧ (isVload i = true ∨ mayRelease e ((seen s).modMe fun k => k.settleV (some k.pos)) = true) ∧
      (isVload i = true))) ∧
  (let i : Instr := (Instr.vbred (pred 2 (fn 2 (word .vbred 0 2 3))));
    let e : Enc := (pred 2 (fn 2 (word .vbred 0 2 3)));
    let s : State := (vec 0x1000 0 0 fun k => k.modBank false fun b => { b with p := vset b.p 1 0 });
    let n : Nat := 32;
    let addr : Nat → W := (fun j => 0x1000 + BitVec.ofNat 64 (j * 4));
    ((encOf i = some e) ∧ (clear i s = true) ∧ (formOk i = true) ∧ ((seen s).me.vq = [])) ∧
    (vecAddr i ((seen s).modMe fun k => k.settleV (some k.pos)).me (vget ((seen s).modMe fun k => k.settleV (some k.pos)).me.v e.c) = some
      (n, addr)) ∧
    (∀ (m : Nat), 12 ≤ m → (vget ((seen s).modMe fun k => k.settleV (some k.pos)).me.streams (m - 12)).chan = none) ∧
    ((∀ (r : RegPoison), r ∈ ((seen s).modMe fun k => k.settleV (some k.pos)).me.regPoison → r.file ≠ RFile.v) ∧ (((seen s).modMe fun k =>
      k.settleV (some k.pos)).here.poison = []) ∧ (∀ (j : Nat), j < 512 / n → ¬(fun j => BitVec.getLsbD (((seen s).modMe fun k => k.settleV
      (some k.pos)).me.pred e) j = true) j) ∧ (isVload i = true ∨ mayRelease e ((seen s).modMe fun k => k.settleV (some k.pos)) = true))) ∧
  (let i : Instr := (Instr.vlds (pred 2 (fn 2 (word .vlds 1 2 3))));
    let e : Enc := (pred 2 (fn 2 (word .vlds 1 2 3)));
    let s : State := (vec 0x1000 8 0);
    let n : Nat := 32;
    let addr : Nat → W := (fun j => 0x1000 + BitVec.ofNat 64 j * 8);
    ((encOf i = some e) ∧ (clear i s = true) ∧ (formOk i = true) ∧ ((seen s).me.vq = [])) ∧
    (vecAddr i ((seen s).modMe fun k => k.settleV (some k.pos)).me (vget ((seen s).modMe fun k => k.settleV (some k.pos)).me.v e.c) = some
      (n, addr)) ∧
    (∀ (m : Nat), 12 ≤ m → (vget ((seen s).modMe fun k => k.settleV (some k.pos)).me.streams (m - 12)).chan = none) ∧
    ((∀ (r : RegPoison), r ∈ ((seen s).modMe fun k => k.settleV (some k.pos)).me.regPoison → r.file ≠ RFile.v) ∧ (((seen s).modMe fun k =>
      k.settleV (some k.pos)).here.poison = []) ∧ (∃ j, j < 512 / n ∧ (fun j => BitVec.getLsbD (((seen s).modMe fun k => k.settleV (some
      k.pos)).me.pred e) j = true) j) ∧ (isAligned64 i = true → BitVec.toNat (addr 0) % 64 = 0) ∧ (∀ (j : Nat), j < 512 / n → (fun j =>
      BitVec.getLsbD (((seen s).modMe fun k => k.settleV (some k.pos)).me.pred e) j = true) j → addrFault ((seen s).modMe fun k => k.settleV
      (some k.pos)) (BitVec.toNat (addr j)) (n / 8) (!isVload i) false = none ∧ isRemote ((seen s).modMe fun k => k.settleV (some k.pos))
      (BitVec.toNat (addr j)) = false ∧ ramoPending ((seen s).modMe fun k => k.settleV (some k.pos)) (BitVec.toNat (addr j)) (n / 8) =
      false) ∧ (isAligned64 i = true → ∀ (j : Nat), j < 8 → (∃ l, l < 8 ∧ (fun j => BitVec.getLsbD (((seen s).modMe fun k => k.settleV (some
      k.pos)).me.pred e) j = true) (8 * j + l)) → addrFault ((seen s).modMe fun k => k.settleV (some k.pos)) (BitVec.toNat (addr 0 +
      BitVec.ofNat 64 (8 * j))) 8 (!isVload i) false = none ∧ isRemote ((seen s).modMe fun k => k.settleV (some k.pos)) (BitVec.toNat (addr
      0 + BitVec.ofNat 64 (8 * j))) = false ∧ ramoPending ((seen s).modMe fun k => k.settleV (some k.pos)) (BitVec.toNat (addr 0 +
      BitVec.ofNat 64 (8 * j))) 8 = false) ∧ (isVload i = true ∨ mayRelease e ((seen s).modMe fun k => k.settleV (some k.pos)) = true) ∧
      (isVload i = true))) ∧
  (let i : Instr := (Instr.vst (pred 2 (word .vst 3 2 0)));
    let e : Enc := (pred 2 (word .vst 3 2 0));
    let s : State := (vec 0x2BFFC0 0 0);
    let n : Nat := 8;
    let addr : Nat → W := (fun j => 0x2BFFC0 + BitVec.ofNat 64 j);
    ((encOf i = some e) ∧ (clear i s = true) ∧ (formOk i = true) ∧ ((seen s).me.vq = [])) ∧
    (vecAddr i ((seen s).modMe fun k => k.settleV (some k.pos)).me (vget ((seen s).modMe fun k => k.settleV (some k.pos)).me.v e.c) = some
      (n, addr)) ∧
    (∀ (m : Nat), 12 ≤ m → (vget ((seen s).modMe fun k => k.settleV (some k.pos)).me.streams (m - 12)).chan = none) ∧
    ((∀ (r : RegPoison), r ∈ ((seen s).modMe fun k => k.settleV (some k.pos)).me.regPoison → r.file ≠ RFile.v) ∧ (((seen s).modMe fun k =>
      k.settleV (some k.pos)).here.poison = []) ∧ (∃ j, j < 512 / n ∧ (fun j => BitVec.getLsbD (((seen s).modMe fun k => k.settleV (some
      k.pos)).me.pred e) j = true) j) ∧ (isAligned64 i = true → BitVec.toNat (addr 0) % 64 = 0) ∧ (∀ (j : Nat), j < 512 / n → (fun j =>
      BitVec.getLsbD (((seen s).modMe fun k => k.settleV (some k.pos)).me.pred e) j = true) j → addrFault ((seen s).modMe fun k => k.settleV
      (some k.pos)) (BitVec.toNat (addr j)) (n / 8) (!isVload i) false = none ∧ isRemote ((seen s).modMe fun k => k.settleV (some k.pos))
      (BitVec.toNat (addr j)) = false ∧ ramoPending ((seen s).modMe fun k => k.settleV (some k.pos)) (BitVec.toNat (addr j)) (n / 8) =
      false) ∧ (isAligned64 i = true → ∀ (j : Nat), j < 8 → (∃ l, l < 8 ∧ (fun j => BitVec.getLsbD (((seen s).modMe fun k => k.settleV (some
      k.pos)).me.pred e) j = true) (8 * j + l)) → addrFault ((seen s).modMe fun k => k.settleV (some k.pos)) (BitVec.toNat (addr 0 +
      BitVec.ofNat 64 (8 * j))) 8 (!isVload i) false = none ∧ isRemote ((seen s).modMe fun k => k.settleV (some k.pos)) (BitVec.toNat (addr
      0 + BitVec.ofNat 64 (8 * j))) = false ∧ ramoPending ((seen s).modMe fun k => k.settleV (some k.pos)) (BitVec.toNat (addr 0 +
      BitVec.ofNat 64 (8 * j))) 8 = false) ∧ (isVload i = true ∨ mayRelease e ((seen s).modMe fun k => k.settleV (some k.pos)) = true) ∧
      (isVstore i = true))) ∧
  (let i : Instr := (Instr.vsts (pred 2 (fn 2 (word .vsts 3 2 3))));
    let e : Enc := (pred 2 (fn 2 (word .vsts 3 2 3)));
    let s : State := (vec 0x1000 4 0);
    let n : Nat := 32;
    let addr : Nat → W := (fun j => 0x1000 + BitVec.ofNat 64 j * 4);
    ((encOf i = some e) ∧ (clear i s = true) ∧ (formOk i = true) ∧ ((seen s).me.vq = [])) ∧
    (vecAddr i ((seen s).modMe fun k => k.settleV (some k.pos)).me (vget ((seen s).modMe fun k => k.settleV (some k.pos)).me.v e.c) = some
      (n, addr)) ∧
    (∀ (m : Nat), 12 ≤ m → (vget ((seen s).modMe fun k => k.settleV (some k.pos)).me.streams (m - 12)).chan = none) ∧
    ((∀ (r : RegPoison), r ∈ ((seen s).modMe fun k => k.settleV (some k.pos)).me.regPoison → r.file ≠ RFile.v) ∧ (((seen s).modMe fun k =>
      k.settleV (some k.pos)).here.poison = []) ∧ (∃ j, j < 512 / n ∧ (fun j => BitVec.getLsbD (((seen s).modMe fun k => k.settleV (some
      k.pos)).me.pred e) j = true) j) ∧ (isAligned64 i = true → BitVec.toNat (addr 0) % 64 = 0) ∧ (∀ (j : Nat), j < 512 / n → (fun j =>
      BitVec.getLsbD (((seen s).modMe fun k => k.settleV (some k.pos)).me.pred e) j = true) j → addrFault ((seen s).modMe fun k => k.settleV
      (some k.pos)) (BitVec.toNat (addr j)) (n / 8) (!isVload i) false = none ∧ isRemote ((seen s).modMe fun k => k.settleV (some k.pos))
      (BitVec.toNat (addr j)) = false ∧ ramoPending ((seen s).modMe fun k => k.settleV (some k.pos)) (BitVec.toNat (addr j)) (n / 8) =
      false) ∧ (isAligned64 i = true → ∀ (j : Nat), j < 8 → (∃ l, l < 8 ∧ (fun j => BitVec.getLsbD (((seen s).modMe fun k => k.settleV (some
      k.pos)).me.pred e) j = true) (8 * j + l)) → addrFault ((seen s).modMe fun k => k.settleV (some k.pos)) (BitVec.toNat (addr 0 +
      BitVec.ofNat 64 (8 * j))) 8 (!isVload i) false = none ∧ isRemote ((seen s).modMe fun k => k.settleV (some k.pos)) (BitVec.toNat (addr
      0 + BitVec.ofNat 64 (8 * j))) = false ∧ ramoPending ((seen s).modMe fun k => k.settleV (some k.pos)) (BitVec.toNat (addr 0 +
      BitVec.ofNat 64 (8 * j))) 8 = false) ∧ (isVload i = true ∨ mayRelease e ((seen s).modMe fun k => k.settleV (some k.pos)) = true) ∧
      (isVstore i = true))) ∧
  (let i : Instr := (Instr.vbred (pred 2 (fn 2 (word .vbred 0 2 3))));
    let e : Enc := (pred 2 (fn 2 (word .vbred 0 2 3)));
    let s : State := (vec 0x1000 0 0);
    let n : Nat := 32;
    let addr : Nat → W := (fun j => 0x1000 + BitVec.ofNat 64 (j * 4));
    ((encOf i = some e) ∧ (clear i s = true) ∧ (formOk i = true) ∧ ((seen s).me.vq = [])) ∧
    (vecAddr i ((seen s).modMe fun k => k.settleV (some k.pos)).me (vget ((seen s).modMe fun k => k.settleV (some k.pos)).me.v e.c) = some
      (n, addr)) ∧
    (∀ (m : Nat), 12 ≤ m → (vget ((seen s).modMe fun k => k.settleV (some k.pos)).me.streams (m - 12)).chan = none) ∧
    ((∀ (r : RegPoison), r ∈ ((seen s).modMe fun k => k.settleV (some k.pos)).me.regPoison → r.file ≠ RFile.v) ∧ (((seen s).modMe fun k =>
      k.settleV (some k.pos)).here.poison = []) ∧ (∃ j, j < 512 / n ∧ (fun j => BitVec.getLsbD (((seen s).modMe fun k => k.settleV (some
      k.pos)).me.pred e) j = true) j) ∧ (isAligned64 i = true → BitVec.toNat (addr 0) % 64 = 0) ∧ (∀ (j : Nat), j < 512 / n → (fun j =>
      BitVec.getLsbD (((seen s).modMe fun k => k.settleV (some k.pos)).me.pred e) j = true) j → addrFault ((seen s).modMe fun k => k.settleV
      (some k.pos)) (BitVec.toNat (addr j)) (n / 8) (!isVload i) false = none ∧ isRemote ((seen s).modMe fun k => k.settleV (some k.pos))
      (BitVec.toNat (addr j)) = false ∧ ramoPending ((seen s).modMe fun k => k.settleV (some k.pos)) (BitVec.toNat (addr j)) (n / 8) =
      false) ∧ (isAligned64 i = true → ∀ (j : Nat), j < 8 → (∃ l, l < 8 ∧ (fun j => BitVec.getLsbD (((seen s).modMe fun k => k.settleV (some
      k.pos)).me.pred e) j = true) (8 * j + l)) → addrFault ((seen s).modMe fun k => k.settleV (some k.pos)) (BitVec.toNat (addr 0 +
      BitVec.ofNat 64 (8 * j))) 8 (!isVload i) false = none ∧ isRemote ((seen s).modMe fun k => k.settleV (some k.pos)) (BitVec.toNat (addr
      0 + BitVec.ofNat 64 (8 * j))) = false ∧ ramoPending ((seen s).modMe fun k => k.settleV (some k.pos)) (BitVec.toNat (addr 0 +
      BitVec.ofNat 64 (8 * j))) 8 = false) ∧ (isVload i = true ∨ mayRelease e ((seen s).modMe fun k => k.settleV (some k.pos)) = true) ∧ (i
      = Instr.vbred e))) ∧
  (let i : Instr := (Instr.vst (word .vst 3 2 0));
    let e : Enc := (word .vst 3 2 0);
    let s : State := (vec 0x1008 0 0);
    let n : Nat := 8;
    let addr : Nat → W := (fun j => 0x1008 + BitVec.ofNat 64 j);
    ((encOf i = some e) ∧ (clear i s = true) ∧ (formOk i = true) ∧ ((seen s).me.vq = [])) ∧
    (vecAddr i ((seen s).modMe fun k => k.settleV (some k.pos)).me (vget ((seen s).modMe fun k => k.settleV (some k.pos)).me.v e.c) = some
      (n, addr)) ∧
    (∀ (m : Nat), 12 ≤ m → (vget ((seen s).modMe fun k => k.settleV (some k.pos)).me.streams (m - 12)).chan = none) ∧
    ((∀ (r : RegPoison), r ∈ ((seen s).modMe fun k => k.settleV (some k.pos)).me.regPoison → r.file ≠ RFile.v) ∧ (((seen s).modMe fun k =>
      k.settleV (some k.pos)).here.poison = []) ∧ (isAligned64 i = true) ∧ (∃ j, j < 512 / n ∧ (fun j => BitVec.getLsbD (((seen s).modMe fun
      k => k.settleV (some k.pos)).me.pred e) j = true) j) ∧ (BitVec.toNat (addr 0) % 64 ≠ 0))) :=
  ⟨⟨by decide +kernel, rfl, streams_of (by decide +kernel), by decide +kernel⟩,     ⟨by decide +kernel, rfl, streams_of (by decide +kernel),
      by decide +kernel⟩,     ⟨by decide +kernel, rfl, streams_of (by decide +kernel), by decide +kernel⟩,     ⟨by decide +kernel, rfl,
      streams_of (by decide +kernel), by decide +kernel⟩,     ⟨by decide +kernel, rfl, streams_of (by decide +kernel), by decide +kernel⟩,
      ⟨by decide +kernel, rfl, streams_of (by decide +kernel), by decide +kernel⟩,     ⟨by decide +kernel, rfl, streams_of
      (by decide +kernel), by decide +kernel⟩⟩

/-- States and operands that meet the hypotheses of `MatrixCommandsIssue`, clause by clause. -/
theorem meets_MatrixCommandsIssue :
  (let i : Instr := (Instr.mld (word .mld 1 2 3));
    let e : Enc := (word .mld 1 2 3);
    let s : State := (mat (mc 0 2 8 0) i8 0x1000 0x10 (full (.zclr (word .zclr 0 0 0)) 31));
    ((encOf i = some e) ∧ (clear i s = true) ∧ (formOk i = true) ∧ (isCommand i = true) ∧ (cfgOk i (seen s).here = true) ∧ (isMemCmd i =
      true → BitVec.toNat (mBase e (seen s).me) % 8 = 0 ∧ BitVec.toNat ((seen s).me.g e.c) % 8 = 0)) ∧
    (∀ (a : W), a ∈ footAddrs i e (seen s) → addrFault (seen s) (BitVec.toNat a) 8 (footWrites i) false = none) ∧
    (((isMemCmd i = true → accessesDone (seen s) s.cur = true) ∧ (zoutDrawn i (seen s).me = true → (seen s).me.vq = [])) ∧ ((seen
      s).here.mwin.length < 32))) ∧
  (let i : Instr := (Instr.zout (fn 9 (word .zout 0 2 3)));
    let e : Enc := (fn 9 (word .zout 0 2 3));
    let s : State := (mat i8 i8 0x1000 0x30);
    ((encOf i = some e) ∧ (clear i s = true) ∧ (formOk i = true) ∧ (isCommand i = true) ∧ (cfgOk i (seen s).here = true) ∧ (isMemCmd i =
      true → BitVec.toNat (mBase e (seen s).me) % 8 = 0 ∧ BitVec.toNat ((seen s).me.g e.c) % 8 = 0)) ∧
    (∀ (a : W), a ∈ footAddrs i e (seen s) → addrFault (seen s) (BitVec.toNat a) 8 (footWrites i) false = none) ∧
    (((isMemCmd i = true → accessesDone (seen s) s.cur = true) ∧ (zoutDrawn i (seen s).me = true → (seen s).me.vq = [])) ∧ ((seen
      s).here.mwin.length < 32))) ∧
  (let i : Instr := (Instr.mld (word .mld 1 2 3));
    let e : Enc := (word .mld 1 2 3);
    let s : State := (mat (mc 0 2 8 0) i8 0x1000 0x10 (full (.zclr (word .zclr 0 0 0)) 32));
    ((encOf i = some e) ∧ (clear i s = true) ∧ (formOk i = true) ∧ (isCommand i = true) ∧ (cfgOk i (seen s).here = true) ∧ (isMemCmd i =
      true → BitVec.toNat (mBase e (seen s).me) % 8 = 0 ∧ BitVec.toNat ((seen s).me.g e.c) % 8 = 0)) ∧
    (∀ (a : W), a ∈ footAddrs i e (seen s) → addrFault (seen s) (BitVec.toNat a) 8 (footWrites i) false = none) ∧
    (32 ≤ (seen s).here.mwin.length ∨ ¬((isMemCmd i = true → accessesDone (seen s) s.cur = true) ∧ (zoutDrawn i (seen s).me = true → (seen
      s).me.vq = [])))) ∧
  ((let i : Instr := (Instr.mma (word .mma 0 1 2));
    let e : Enc := (word .mma 0 1 2);
    let s : State := (mat (mc 0 2 8 0) (mc 9 2 8 0) 0 0);
    (encOf i = some e) ∧ (clear i s = true) ∧ (formOk i = true) ∧ (isCommand i = true) ∧ (cfgOk i (seen s).here = false)) ∧
  (let i : Instr := (Instr.mld (word .mld 1 2 3));
    let e : Enc := (word .mld 1 2 3);
    let s : State := (mat (mc 0 2 8 0) i8 0x1004 0x10);
    (encOf i = some e) ∧ (clear i s = true) ∧ (formOk i = true) ∧ (isCommand i = true) ∧ (cfgOk i (seen s).here = true) ∧ (isMemCmd i =
      true) ∧ (BitVec.toNat (mBase e (seen s).me) % 8 ≠ 0)) ∧
  (let i : Instr := (Instr.mld (word .mld 1 2 3));
    let e : Enc := (word .mld 1 2 3);
    let s : State := (mat (mc 0 2 8 0) i8 0x1008 0x14);
    (encOf i = some e) ∧ (clear i s = true) ∧ (formOk i = true) ∧ (isCommand i = true) ∧ (cfgOk i (seen s).here = true) ∧ (isMemCmd i =
      true) ∧ (BitVec.toNat (mBase e (seen s).me) % 8 = 0) ∧ (BitVec.toNat ((seen s).me.g e.c) % 8 ≠ 0))) ∧
  (let i : Instr := (Instr.mld (word .mld 1 2 3));
    let e : Enc := (word .mld 1 2 3);
    let s : State := (mat (mc 0 2 8 0) i8 0x2BFFF8 0x10);
    ((encOf i = some e) ∧ (clear i s = true) ∧ (formOk i = true) ∧ (isCommand i = true) ∧ (cfgOk i (seen s).here = true) ∧ (isMemCmd i =
      true → BitVec.toNat (mBase e (seen s).me) % 8 = 0 ∧ BitVec.toNat ((seen s).me.g e.c) % 8 = 0)) ∧
    (∃ a, a ∈ footAddrs i e (seen s) ∧ (addrFault (seen s) (BitVec.toNat a) 8 (footWrites i) false).isSome = true)) ∧
  ((let i : Instr := (Instr.mchmma (word .mchmma 0 1 2));
    let e : Enc := (word .mchmma 0 1 2);
    let s : State := (mat i8 i8 0 0);
    (encOf i = some e) ∧ (clear i s = true) ∧ (formOk i = true) ∧ (i = Instr.mchmma e) ∧ ((seen s).here.chain.state = 0)) ∧
  (let i : Instr := (Instr.mchmma (word .mchmma 0 1 2));
    let e : Enc := (word .mchmma 0 1 2);
    let s : State := (mat i8 i8 0 0 (chained 2 0 0 []));
    (encOf i = some e) ∧ (clear i s = true) ∧ (formOk i = true) ∧ (i = Instr.mchmma e) ∧ ((seen s).here.chain.state ≠ 0) ∧ ((seen
      s).here.mwin.length < 32) ∧ ((seen s).here.chain.cpos = 0 → mValid (vget (seen s).here.mcfg e.fb) = true ∧ mSparse (vget (seen
      s).here.mcfg e.fb) = 0 ∧ (mSet (mType (vget (seen s).here.mcfg e.fb))).isSome = true) ∧ ((seen s).here.chain.rpos = 0 → mValid (vget
      (seen s).here.mcfg e.fc) = true ∧ mSparse (vget (seen s).here.mcfg e.fc) = 0 ∧ (mSet (mType (vget (seen s).here.mcfg e.fc))).isSome =
      true ∧ mRows (vget (seen s).here.mcfg e.fc) ≤ 24))) :=
  ⟨⟨by decide +kernel, all_of (by decide +kernel), by decide +kernel⟩,     ⟨by decide +kernel, all_of (by decide +kernel),
      by decide +kernel⟩,     ⟨by decide +kernel, all_of (by decide +kernel), by decide +kernel⟩,     by and_intros <;> decide +kernel,
      ⟨by decide +kernel, any_of (by decide +kernel)⟩,     by and_intros <;> decide +kernel⟩

/-- States and operands that meet the hypotheses of `MatrixCommandStarts`, clause by clause. -/
theorem meets_MatrixCommandStarts :
  (let site : Site := site0;
    let s : Machine.State := { open1 zclr1 with duty := [0] };
    let q : MCmd := zclr1;
    (((s.tile site).mwin = [q]) ∧ (q.started = false)) ∧ (∀ (n len : Nat) (st : Bool), footOf q.i q.cfgA = some (n, len, st) → ∀ (l : Nat), l < n →
      BitVec.toNat (lineAt q.base q.stride l) + roundUp len 8 ≤ 3145728) ∧ ((∃ e, q.i = Instr.mchmma e) → (s.tile site).chain.state ≠ 1) ∧ (fieldNo
      site ∈ s.duty)) ∧
  (let site : Site := site0;
    let s : Machine.State := (open1 zclr1);
    let q : MCmd := zclr1;
    (((s.tile site).mwin = [q]) ∧ (q.started = false)) ∧ (∀ (n len : Nat) (st : Bool), footOf q.i q.cfgA = some (n, len, st) → ∀ (l : Nat), l < n →
      BitVec.toNat (lineAt q.base q.stride l) + roundUp len 8 ≤ 3145728) ∧ ((∃ e, q.i = Instr.mchmma e) → (s.tile site).chain.state ≠ 1) ∧ (¬fieldNo
      site ∈ s.duty)) ∧
  (let site : Site := site0;
    let s : Machine.State := (windowed memberQ);
    let q : MCmd := memberQ;
    (((s.tile site).mwin = [q]) ∧ (q.started = false) ∧ (¬fieldNo site ∈ s.duty) ∧ (q.sites = [])) ∧ (∃ name, (fun q P => ∃ n len st l j name,
      footOf q.i q.cfgA = some (n, len, st) ∧ l < n ∧ 8 * j < len ∧ mMember (s.tile site) (lineAt q.base q.stride l + BitVec.ofNat 64 (8 * j)) =
      some name ∧ P name) q fun x => x = name)) ∧
  (let s : Machine.State := (has (pkt 1 0 (.clusterCmd 1)));
    let n : Nat := 1;
    let p : Pkt := (pkt 1 0 (.clusterCmd 1));
    let id : Nat := 1;
    (isPkt s n p) ∧ ((admitted s p = true) ∧ (p.body = Body.clusterCmd id))) ∧
  (let s : Machine.State := (has (pkt 3 0 (.clusterCmdReply 1)));
    let n : Nat := 1;
    let p : Pkt := (pkt 3 0 (.clusterCmdReply 1));
    let id : Nat := 1;
    (isPkt s n p) ∧ ((admitted s p = true) ∧ (p.body = Body.clusterCmdReply id))) ∧
  (let site : Site := site0;
    let s : Machine.State := (two zclr1 dep2);
    let q : MCmd := dep2;
    let y : MCmd := zclr1;
    ((q ∈ (s.tile site).mwin) ∧ (y ∈ (s.tile site).mwin) ∧ (y.id ≠ q.id) ∧ (∀ (z : MCmd), z ∈ (s.tile site).mwin → z.id = q.id → z = q) ∧ (q.started
      = false)) ∧ ((y.id < q.id ∧ y.holds q.pos = false ∧ ∃ a, a ∈ destsOf y.i ∧ ∃ b, b ∈ readsOf q.i ++ destsOf q.i ∧ regOf a = regOf b) ∨ (y.id <
      q.id ∧ (∀ (a : Nat × Nat), a ∈ destsOf y.i → ∀ (b : Nat × Nat), b ∈ destsOf q.i → regOf a ≠ regOf b) ∧ ∃ a, a ∈ readsOf y.i ∧ ∃ b, b ∈ destsOf
      q.i ∧ regOf a = regOf b) ∨ y.id ∈ q.deps)) ∧
  (let site : Site := site0;
    let s : State := (mat i8 i8 0 0 fun t => chained 1 0 0 [] { t with mwin := [step1], lastId := 1 });
    let q : MCmd := step1;
    let e : Enc := (word .mchmma 0 1 2);
    (q ∈ (s.tile site).mwin) ∧ (∀ (z : MCmd), z ∈ (s.tile site).mwin → z.id = q.id → z = q) ∧ (q.started = false) ∧ (q.i = Instr.mchmma e) ∧
      ((s.tile site).chain.state = 1)) ∧
  (let site : Site := site0;
    let s : Machine.State := (windowed { memberQ with started := true, asks := [1] });
    let q : MCmd := { memberQ with started := true, asks := [1] };
    ((s.tile site).mwin = [q]) ∧ (q.started = true) ∧ (q.asks ≠ [])) ∧
  (let site : Site := site0;
    let s : Machine.State := (windowed movedQ);
    let q : MCmd := movedQ;
    (((s.tile site).mwin = [q]) ∧ (q.started = true) ∧ (q.asks = [])) ∧ (∃ n len st l j name, footOf q.i q.cfgA = some (n, len, st) ∧ l < n ∧ 8 * j
      < len ∧ mMember (s.tile site) (lineAt q.base q.stride l + BitVec.ofNat 64 (8 * j)) = some name ∧ (fun name => ∀ (y : Site), lookup q.sites
      name = some y → Machine.memberAt s (s.tile site).vni name y = false) name)) ∧
  (let site : Site := site0;
    let s : State := west;
    let q : MCmd := step1;
    let e : Enc := (word .mchmma 0 1 2);
    let z : Site := (⟨1,0⟩:Site);
    ((s.tile site).mwin = [q]) ∧ (q.started = false) ∧ (q.i = Instr.mchmma e) ∧ ((s.tile site).chain.state = 2) ∧ ((s.tile site).chain.gone
      = none) ∧ ((s.tile site).chain.cpos = 0) ∧ (¬fieldNo site ∈ s.duty) ∧ ((s.tile site).chain.rpos ≠ 0) ∧ (z ∈ chainMembers s (s.tile
      site).vni (s.tile site).chain.desc) ∧ ((s.tile z).chain.rpos = (s.tile site).chain.rpos)) ∧
  (let site : Site := site0;
    let s : Machine.State := (two { mma2 with id := 1, pos := [0] } load2);
    let q : MCmd := load2;
    let y : MCmd := { mma2 with id := 1, pos := [0] };
    ((q ∈ (s.tile site).mwin) ∧ (y ∈ (s.tile site).mwin) ∧ (y.id ≠ q.id) ∧ (∀ (z : MCmd), z ∈ (s.tile site).mwin → z.id = q.id → z = q) ∧ (q.started
      = false)) ∧ ((y.id < q.id ∧ y.holds q.pos = false ∧ ∃ a, a ∈ destsOf y.i ∧ ∃ b, b ∈ readsOf q.i ++ destsOf q.i ∧ regOf a = regOf b) ∨ (y.id <
      q.id ∧ (∀ (a : Nat × Nat), a ∈ destsOf y.i → ∀ (b : Nat × Nat), b ∈ destsOf q.i → regOf a ≠ regOf b) ∧ ∃ a, a ∈ readsOf y.i ∧ ∃ b, b ∈ destsOf
      q.i ∧ regOf a = regOf b) ∨ y.id ∈ q.deps)) :=
  ⟨⟨by and_intros <;> decide +kernel, foot_of (by decide +kernel), fun ⟨_, h⟩ => Instr.noConfusion h, by decide +kernel⟩,
    ⟨by and_intros <;> decide +kernel, foot_of (by decide +kernel), fun ⟨_, h⟩ => Instr.noConfusion h, by decide +kernel⟩,
    ⟨by and_intros <;> decide +kernel, ⟨2, 2, 4, false, 0, 0, 2, by decide +kernel, by decide +kernel, by decide +kernel, by decide +kernel, rfl⟩⟩,
    ⟨by delta isPkt; decide +kernel, by and_intros <;> decide +kernel⟩,
    ⟨by delta isPkt; decide +kernel, by and_intros <;> decide +kernel⟩,
    ⟨by and_intros <;> decide +kernel, .inr (.inr (by decide +kernel))⟩,
    by and_intros <;> decide +kernel,
    by and_intros <;> decide +kernel,
    ⟨by and_intros <;> decide +kernel, ⟨2, 4, false, 0, 0, 2, by decide +kernel, by decide +kernel, by decide +kernel, by decide +kernel, found_of (by decide +kernel)⟩⟩,
    by and_intros <;> decide +kernel,
    ⟨by and_intros <;> decide +kernel, .inr (.inl (by decide +kernel))⟩⟩

/-- States and operands that meet the hypotheses of `MatrixCommandRetires`, clause by clause. -/
theorem meets_MatrixCommandRetires :
  (let site : Site := site0;
    let s : Machine.State := (open1 { cmd (.zst (word .zst 0 2 3)) i8 i8 i8 with base := 0x10400000, sites := [(2, ⟨1, 0⟩)] });
    let q : MCmd := { cmd (.zst (word .zst 0 2 3)) i8 i8 i8 with base := 0x10400000, sites := [(2, ⟨1, 0⟩)] };
    let e : Enc := (word .zst 0 2 3);
    let name : Nat := 2;
    let y : Site := (⟨1, 0⟩ : Site);
    let win : Nat := 1;
    (((s.tile site).mwin = [q]) ∧ (q.started = true) ∧ (q.asks = []) ∧ (encOf q.i = some e) ∧ ((s.tile site).mpend = []) ∧ (q.dead = []) ∧ ((s.tile
      site).poison = []) ∧ (winOpen ((s.tile site).math.posOf false) q.pos.length q.expiry = false)) ∧ (TileWf (s.tile site)) ∧ ((q.i = Instr.zst e)
      ∧ ((s.tile site).mpoison = []) ∧ (lookup (s.tile site).cluster win = some name) ∧ (name ≠ (s.tile site).name) ∧ (win < 8) ∧ (lookup q.sites
      name = some y) ∧ (y ≠ site) ∧ (Machine.memberAt s (s.tile site).vni name y = true) ∧ (∀ (l : Nat), l < 32 → 268435456 + 4194304 * win ≤ (fun l
      => BitVec.toNat (lineAt q.base q.stride l)) l ∧ (fun l => BitVec.toNat (lineAt q.base q.stride l)) l + 96 ≤ 271581184 + 4194304 * win))) ∧
  (let site : Site := site0;
    let s : Machine.State := (open1 (cmd (.mld (word .mld 4 2 3)) (mc 0 2 8 0) i8 i8));
    let q : MCmd := (cmd (.mld (word .mld 4 2 3)) (mc 0 2 8 0) i8 i8);
    let e : Enc := (word .mld 4 2 3);
    (((s.tile site).mwin = [q]) ∧ (q.started = true) ∧ (q.asks = []) ∧ (encOf q.i = some e) ∧ ((s.tile site).mpend = []) ∧ (q.dead = []) ∧ ((s.tile
      site).poison = []) ∧ (winOpen ((s.tile site).math.posOf false) q.pos.length q.expiry = false)) ∧ (TileWf (s.tile site)) ∧ (∀ (n len : Nat) (st
      : Bool), footOf q.i q.cfgA = some (n, len, st) → ∀ (l : Nat), l < n → (fun l => BitVec.toNat (lineAt q.base q.stride l)) l + roundUp len 8 ≤
      3145728) ∧ (((s.tile site).mpoison = []) ∧ (mValid q.cfgA = true) ∧ (q.i = Instr.mld e))) ∧
  (let site : Site := site0;
    let s : Machine.State := (open1 (cmd (.mlds (word .mlds 4 2 3)) (mc 11 2 16 0) i8 i8));
    let q : MCmd := (cmd (.mlds (word .mlds 4 2 3)) (mc 11 2 16 0) i8 i8);
    let e : Enc := (word .mlds 4 2 3);
    (((s.tile site).mwin = [q]) ∧ (q.started = true) ∧ (q.asks = []) ∧ (encOf q.i = some e) ∧ ((s.tile site).mpend = []) ∧ (q.dead = []) ∧ ((s.tile
      site).poison = []) ∧ (winOpen ((s.tile site).math.posOf false) q.pos.length q.expiry = false)) ∧ (TileWf (s.tile site)) ∧ (∀ (n len : Nat) (st
      : Bool), footOf q.i q.cfgA = some (n, len, st) → ∀ (l : Nat), l < n → (fun l => BitVec.toNat (lineAt q.base q.stride l)) l + roundUp len 8 ≤
      3145728) ∧ (((s.tile site).mpoison = []) ∧ (mValid q.cfgA = true) ∧ (q.i = Instr.mlds e))) ∧
  (let site : Site := site0;
    let s : Machine.State := (open1 (cmd (.mldm (word .mldm 4 2 3)) (mc 0 2 12 2) i8 i8));
    let q : MCmd := (cmd (.mldm (word .mldm 4 2 3)) (mc 0 2 12 2) i8 i8);
    let e : Enc := (word .mldm 4 2 3);
    (((s.tile site).mwin = [q]) ∧ (q.started = true) ∧ (q.asks = []) ∧ (encOf q.i = some e) ∧ ((s.tile site).mpend = []) ∧ (q.dead = []) ∧ ((s.tile
      site).poison = []) ∧ (winOpen ((s.tile site).math.posOf false) q.pos.length q.expiry = false)) ∧ (TileWf (s.tile site)) ∧ (∀ (n len : Nat) (st
      : Bool), footOf q.i q.cfgA = some (n, len, st) → ∀ (l : Nat), l < n → (fun l => BitVec.toNat (lineAt q.base q.stride l)) l + roundUp len 8 ≤
      3145728) ∧ (((s.tile site).mpoison = []) ∧ (mValid q.cfgA = true) ∧ (q.i = Instr.mldm e))) ∧
  (let site : Site := site0;
    let s : Machine.State := (open1 (cmd (.mldc (word .mldc 4 2 3)) (mc 9 3 4 0) i8 i8));
    let q : MCmd := (cmd (.mldc (word .mldc 4 2 3)) (mc 9 3 4 0) i8 i8);
    let e : Enc := (word .mldc 4 2 3);
    (((s.tile site).mwin = [q]) ∧ (q.started = true) ∧ (q.asks = []) ∧ (encOf q.i = some e) ∧ ((s.tile site).mpend = []) ∧ (q.dead = []) ∧ ((s.tile
      site).poison = []) ∧ (winOpen ((s.tile site).math.posOf false) q.pos.length q.expiry = false)) ∧ (TileWf (s.tile site)) ∧ (∀ (n len : Nat) (st
      : Bool), footOf q.i q.cfgA = some (n, len, st) → ∀ (l : Nat), l < n → (fun l => BitVec.toNat (lineAt q.base q.stride l)) l + roundUp len 8 ≤
      3145728) ∧ (((s.tile site).mpoison = []) ∧ (mValid q.cfgA = true) ∧ (q.i = Instr.mldc e))) ∧
  (let site : Site := site0;
    let s : Machine.State := (open1 (cmd (.mst (word .mst 1 2 3)) (mc 13 2 8 0) i8 i8));
    let q : MCmd := (cmd (.mst (word .mst 1 2 3)) (mc 13 2 8 0) i8 i8);
    let e : Enc := (word .mst 1 2 3);
    (((s.tile site).mwin = [q]) ∧ (q.started = true) ∧ (q.asks = []) ∧ (encOf q.i = some e) ∧ ((s.tile site).mpend = []) ∧ (q.dead = []) ∧ ((s.tile
      site).poison = []) ∧ (winOpen ((s.tile site).math.posOf false) q.pos.length q.expiry = false)) ∧ (TileWf (s.tile site)) ∧ (∀ (n len : Nat) (st
      : Bool), footOf q.i q.cfgA = some (n, len, st) → ∀ (l : Nat), l < n → (fun l => BitVec.toNat (lineAt q.base q.stride l)) l + roundUp len 8 ≤
      3145728) ∧ (((s.tile site).mpoison = []) ∧ (mValid q.cfgA = true) ∧ (q.i = Instr.mst e))) ∧
  (let site : Site := site0;
    let s : Machine.State := (open1 (cmd (.mstc (word .mstc 1 2 3)) (mc 9 2 3 0) i8 i8));
    let q : MCmd := (cmd (.mstc (word .mstc 1 2 3)) (mc 9 2 3 0) i8 i8);
    let e : Enc := (word .mstc 1 2 3);
    (((s.tile site).mwin = [q]) ∧ (q.started = true) ∧ (q.asks = []) ∧ (encOf q.i = some e) ∧ ((s.tile site).mpend = []) ∧ (q.dead = []) ∧ ((s.tile
      site).poison = []) ∧ (winOpen ((s.tile site).math.posOf false) q.pos.length q.expiry = false)) ∧ (TileWf (s.tile site)) ∧ (∀ (n len : Nat) (st
      : Bool), footOf q.i q.cfgA = some (n, len, st) → ∀ (l : Nat), l < n → (fun l => BitVec.toNat (lineAt q.base q.stride l)) l + roundUp len 8 ≤
      3145728) ∧ (((s.tile site).mpoison = []) ∧ (mValid q.cfgA = true) ∧ (q.i = Instr.mstc e))) ∧
  (let site : Site := site0;
    let s : Machine.State := (open1 (cmd (.mtr (word .mtr 4 1 0)) (mc 9 2 3 0) (mc 9 3 2 0) i8));
    let q : MCmd := (cmd (.mtr (word .mtr 4 1 0)) (mc 9 2 3 0) (mc 9 3 2 0) i8);
    let e : Enc := (word .mtr 4 1 0);
    (((s.tile site).mwin = [q]) ∧ (q.started = true) ∧ (q.asks = []) ∧ (encOf q.i = some e) ∧ ((s.tile site).mpend = []) ∧ (q.dead = []) ∧ ((s.tile
      site).poison = []) ∧ (winOpen ((s.tile site).math.posOf false) q.pos.length q.expiry = false)) ∧ (TileWf (s.tile site)) ∧ (∀ (n len : Nat) (st
      : Bool), footOf q.i q.cfgA = some (n, len, st) → ∀ (l : Nat), l < n → (fun l => BitVec.toNat (lineAt q.base q.stride l)) l + roundUp len 8 ≤
      3145728) ∧ (((s.tile site).mpoison = []) ∧ (mValid q.cfgA = true) ∧ (q.i = Instr.mtr e) ∧ (mValid q.cfgB = true) ∧ (mWidth q.cfgA = mWidth
      q.cfgB) ∧ (mRows q.cfgA = mKlen q.cfgB) ∧ (mKlen q.cfgA = mRows q.cfgB))) ∧
  (let site : Site := site0;
    let s : Machine.State := (open1 (cmd (.zclr (word .zclr 0 0 0)) i8 i8 i8));
    let q : MCmd := (cmd (.zclr (word .zclr 0 0 0)) i8 i8 i8);
    let e : Enc := (word .zclr 0 0 0);
    (((s.tile site).mwin = [q]) ∧ (q.started = true) ∧ (q.asks = []) ∧ (encOf q.i = some e) ∧ ((s.tile site).mpend = []) ∧ (q.dead = []) ∧ ((s.tile
      site).poison = []) ∧ (winOpen ((s.tile site).math.posOf false) q.pos.length q.expiry = false)) ∧ (TileWf (s.tile site)) ∧ (∀ (n len : Nat) (st
      : Bool), footOf q.i q.cfgA = some (n, len, st) → ∀ (l : Nat), l < n → (fun l => BitVec.toNat (lineAt q.base q.stride l)) l + roundUp len 8 ≤
      3145728) ∧ (((s.tile site).mpoison = []) ∧ (q.i = Instr.zclr e))) ∧
  (let site : Site := site0;
    let s : Machine.State := (open1 (cmd (.zld (word .zld 5 2 3)) i8 i8 i8));
    let q : MCmd := (cmd (.zld (word .zld 5 2 3)) i8 i8 i8);
    let e : Enc := (word .zld 5 2 3);
    (((s.tile site).mwin = [q]) ∧ (q.started = true) ∧ (q.asks = []) ∧ (encOf q.i = some e) ∧ ((s.tile site).mpend = []) ∧ (q.dead = []) ∧ ((s.tile
      site).poison = []) ∧ (winOpen ((s.tile site).math.posOf false) q.pos.length q.expiry = false)) ∧ (TileWf (s.tile site)) ∧ (∀ (n len : Nat) (st
      : Bool), footOf q.i q.cfgA = some (n, len, st) → ∀ (l : Nat), l < n → (fun l => BitVec.toNat (lineAt q.base q.stride l)) l + roundUp len 8 ≤
      3145728) ∧ (((s.tile site).mpoison = []) ∧ (q.i = Instr.zld e))) ∧
  (let site : Site := site0;
    let s : Machine.State := (open1 (cmd (.zst (word .zst 0 2 3)) i8 i8 i8));
    let q : MCmd := (cmd (.zst (word .zst 0 2 3)) i8 i8 i8);
    let e : Enc := (word .zst 0 2 3);
    (((s.tile site).mwin = [q]) ∧ (q.started = true) ∧ (q.asks = []) ∧ (encOf q.i = some e) ∧ ((s.tile site).mpend = []) ∧ (q.dead = []) ∧ ((s.tile
      site).poison = []) ∧ (winOpen ((s.tile site).math.posOf false) q.pos.length q.expiry = false)) ∧ (TileWf (s.tile site)) ∧ (∀ (n len : Nat) (st
      : Bool), footOf q.i q.cfgA = some (n, len, st) → ∀ (l : Nat), l < n → (fun l => BitVec.toNat (lineAt q.base q.stride l)) l + roundUp len 8 ≤
      3145728) ∧ (((s.tile site).mpoison = []) ∧ (q.i = Instr.zst e))) ∧
  (let site : Site := site0;
    let s : Machine.State := (open1 (cmd (.zout (fn 9 (word .zout 0 2 3))) i8 i8 i8));
    let q : MCmd := (cmd (.zout (fn 9 (word .zout 0 2 3))) i8 i8 i8);
    let e : Enc := (fn 9 (word .zout 0 2 3));
    (((s.tile site).mwin = [q]) ∧ (q.started = true) ∧ (q.asks = []) ∧ (encOf q.i = some e) ∧ ((s.tile site).mpend = []) ∧ (q.dead = []) ∧ ((s.tile
      site).poison = []) ∧ (winOpen ((s.tile site).math.posOf false) q.pos.length q.expiry = false)) ∧ (TileWf (s.tile site)) ∧ (∀ (n len : Nat) (st
      : Bool), footOf q.i q.cfgA = some (n, len, st) → ∀ (l : Nat), l < n → (fun l => BitVec.toNat (lineAt q.base q.stride l)) l + roundUp len 8 ≤
      3145728) ∧ (((s.tile site).mpoison = []) ∧ (q.i = Instr.zout e) ∧ ((if e.mod = 0 then BitVec.toNat q.fpMode % 8 else if e.mod = 1 then 0 else
      e.mod) ≠ 5))) ∧
  (let site : Site := site0;
    let s : Machine.State := (open1 (cmd (.mma (word .mma 0 1 2)) i8 i8 i8));
    let q : MCmd := (cmd (.mma (word .mma 0 1 2)) i8 i8 i8);
    let e : Enc := (word .mma 0 1 2);
    (((s.tile site).mwin = [q]) ∧ (q.started = true) ∧ (q.asks = []) ∧ (encOf q.i = some e) ∧ ((s.tile site).mpend = []) ∧ (q.dead = []) ∧ ((s.tile
      site).poison = []) ∧ (winOpen ((s.tile site).math.posOf false) q.pos.length q.expiry = false)) ∧ (TileWf (s.tile site)) ∧ (∀ (n len : Nat) (st
      : Bool), footOf q.i q.cfgA = some (n, len, st) → ∀ (l : Nat), l < n → (fun l => BitVec.toNat (lineAt q.base q.stride l)) l + roundUp len 8 ≤
      3145728) ∧ (((s.tile site).mpoison = []) ∧ (mRows q.cfgC ≤ 24) ∧ (q.i = Instr.mma e))) ∧
  (let site : Site := site0;
    let s : Machine.State := (open1 (cmd (.mmax (word .mmax 0 1 2)) i8 (mc 11 2 8 0) (mc 12 2 8 0)));
    let q : MCmd := (cmd (.mmax (word .mmax 0 1 2)) i8 (mc 11 2 8 0) (mc 12 2 8 0));
    let e : Enc := (word .mmax 0 1 2);
    (((s.tile site).mwin = [q]) ∧ (q.started = true) ∧ (q.asks = []) ∧ (encOf q.i = some e) ∧ ((s.tile site).mpend = []) ∧ (q.dead = []) ∧ ((s.tile
      site).poison = []) ∧ (winOpen ((s.tile site).math.posOf false) q.pos.length q.expiry = false)) ∧ (TileWf (s.tile site)) ∧ (∀ (n len : Nat) (st
      : Bool), footOf q.i q.cfgA = some (n, len, st) → ∀ (l : Nat), l < n → (fun l => BitVec.toNat (lineAt q.base q.stride l)) l + roundUp len 8 ≤
      3145728) ∧ (((s.tile site).mpoison = []) ∧ (mRows q.cfgC ≤ 24) ∧ (q.i = Instr.mmax e))) ∧
  (let site : Site := site0;
    let s : Machine.State := (open1 (cmd (.mmas (word .mmas 0 1 2)) i8 (mc 0 2 12 0) (mc 0 1 4 6)));
    let q : MCmd := (cmd (.mmas (word .mmas 0 1 2)) i8 (mc 0 2 12 0) (mc 0 1 4 6));
    let e : Enc := (word .mmas 0 1 2);
    (((s.tile site).mwin = [q]) ∧ (q.started = true) ∧ (q.asks = []) ∧ (encOf q.i = some e) ∧ ((s.tile site).mpend = []) ∧ (q.dead = []) ∧ ((s.tile
      site).poison = []) ∧ (winOpen ((s.tile site).math.posOf false) q.pos.length q.expiry = false)) ∧ (TileWf (s.tile site)) ∧ (∀ (n len : Nat) (st
      : Bool), footOf q.i q.cfgA = some (n, len, st) → ∀ (l : Nat), l < n → (fun l => BitVec.toNat (lineAt q.base q.stride l)) l + roundUp len 8 ≤
      3145728) ∧ (((s.tile site).mpoison = []) ∧ (mRows q.cfgC ≤ 24) ∧ (q.i = Instr.mmas e) ∧ ((List.range (mRows q.cfgC)).all (Opnd.indicesOk
      ⟨(s.tile site).mdata, (s.tile site).mscale, (s.tile site).mmeta, e.fc, q.cfgC⟩) = true))) ∧
  (let site : Site := site0;
    let s : Machine.State := (open1 (cmd (.mmas (word .mmas 0 1 2)) i8 (mc 0 2 12 0) (mc 0 2 4 6)));
    let q : MCmd := (cmd (.mmas (word .mmas 0 1 2)) i8 (mc 0 2 12 0) (mc 0 2 4 6));
    let e : Enc := (word .mmas 0 1 2);
    (((s.tile site).mwin = [q]) ∧ (q.started = true) ∧ (q.asks = []) ∧ (encOf q.i = some e) ∧ ((s.tile site).mpend = []) ∧ (q.dead = []) ∧ ((s.tile
      site).poison = []) ∧ (winOpen ((s.tile site).math.posOf false) q.pos.length q.expiry = false)) ∧ (TileWf (s.tile site)) ∧ (∀ (n len : Nat) (st
      : Bool), footOf q.i q.cfgA = some (n, len, st) → ∀ (l : Nat), l < n → (fun l => BitVec.toNat (lineAt q.base q.stride l)) l + roundUp len 8 ≤
      3145728) ∧ (((s.tile site).mpoison = []) ∧ (q.i = Instr.mmas e) ∧ ((List.range (mRows q.cfgC)).all (Opnd.indicesOk ⟨(s.tile site).mdata,
      (s.tile site).mscale, (s.tile site).mmeta, e.fc, q.cfgC⟩) = false) ∧ ((s.tile site).math.ptrap = none))) ∧
  (let site : Site := site0;
    let s : Machine.State := (open1 (cmd (.mmac (word .mmac 0 1 2)) i8 (mc 18 2 3 0) (mc 18 2 3 0)));
    let q : MCmd := (cmd (.mmac (word .mmac 0 1 2)) i8 (mc 18 2 3 0) (mc 18 2 3 0));
    let e : Enc := (word .mmac 0 1 2);
    (((s.tile site).mwin = [q]) ∧ (q.started = true) ∧ (q.asks = []) ∧ (encOf q.i = some e) ∧ ((s.tile site).mpend = []) ∧ (q.dead = []) ∧ ((s.tile
      site).poison = []) ∧ (winOpen ((s.tile site).math.posOf false) q.pos.length q.expiry = false)) ∧ (TileWf (s.tile site)) ∧ (∀ (n len : Nat) (st
      : Bool), footOf q.i q.cfgA = some (n, len, st) → ∀ (l : Nat), l < n → (fun l => BitVec.toNat (lineAt q.base q.stride l)) l + roundUp len 8 ≤
      3145728) ∧ (((s.tile site).mpoison = []) ∧ (q.i = Instr.mmac e) ∧ (mRows q.cfgC ≤ 24))) ∧
  (let site : Site := site0;
    let s : Machine.State := (open1 (cmd (.mchmma (word .mchmma 0 1 2)) i8 i8 i8) (chained 2 0 0 [lat true i8, lat false i8]));
    let q : MCmd := (cmd (.mchmma (word .mchmma 0 1 2)) i8 i8 i8);
    let e : Enc := (word .mchmma 0 1 2);
    let l : Latched := (lat true i8);
    let r : Latched := (lat false i8);
    (((s.tile site).mwin = [q]) ∧ (q.started = true) ∧ (q.asks = []) ∧ (encOf q.i = some e) ∧ ((s.tile site).mpend = []) ∧ (q.dead = []) ∧ ((s.tile
      site).poison = []) ∧ (winOpen ((s.tile site).math.posOf false) q.pos.length q.expiry = false)) ∧ (TileWf (s.tile site)) ∧ (∀ (n len : Nat) (st
      : Bool), footOf q.i q.cfgA = some (n, len, st) → ∀ (l : Nat), l < n → (fun l => BitVec.toNat (lineAt q.base q.stride l)) l + roundUp len 8 ≤
      3145728) ∧ (((s.tile site).mpoison = []) ∧ (q.i = Instr.mchmma e) ∧ ((s.tile site).chain.arrived true q.step = some l) ∧ ((s.tile
      site).chain.arrived false q.step = some r) ∧ (l.poison = []) ∧ (r.poison = []) ∧ (mValid l.cfg = true) ∧ (mValid r.cfg = true) ∧ (denseA l.cfg
      = true) ∧ (denseB r.cfg = true) ∧ (densePair l.cfg r.cfg = true))) ∧
  (let site : Site := site0;
    let s : Machine.State := (open1 (cmd (.mchmma (word .mchmma 0 1 2)) i8 i8 i8) (chained 2 0 0 [lat true i8, lat false (mc 9 2 4 0)]));
    let q : MCmd := (cmd (.mchmma (word .mchmma 0 1 2)) i8 i8 i8);
    let e : Enc := (word .mchmma 0 1 2);
    let l : Latched := (lat true i8);
    let r : Latched := (lat false (mc 9 2 4 0));
    (((s.tile site).mwin = [q]) ∧ (q.started = true) ∧ (q.asks = []) ∧ (encOf q.i = some e) ∧ ((s.tile site).mpend = []) ∧ (q.dead = []) ∧ ((s.tile
      site).poison = []) ∧ (winOpen ((s.tile site).math.posOf false) q.pos.length q.expiry = false)) ∧ (TileWf (s.tile site)) ∧ (∀ (n len : Nat) (st
      : Bool), footOf q.i q.cfgA = some (n, len, st) → ∀ (l : Nat), l < n → (fun l => BitVec.toNat (lineAt q.base q.stride l)) l + roundUp len 8 ≤
      3145728) ∧ (((s.tile site).mpoison = []) ∧ (q.i = Instr.mchmma e) ∧ ((s.tile site).chain.arrived true q.step = some l) ∧ ((s.tile
      site).chain.arrived false q.step = some r) ∧ (densePair l.cfg r.cfg = false) ∧ ((s.tile site).math.ptrap = none))) ∧
  (let site : Site := site0;
    let s : Machine.State := (open1 (cmd (.mchmma (word .mchmma 0 1 2)) i8 i8 i8) fun t => { chained 3 0 0 [] t with chain := { (chained 3 0 0 [] t).chain with gone := some 0 } });
    let q : MCmd := (cmd (.mchmma (word .mchmma 0 1 2)) i8 i8 i8);
    let e : Enc := (word .mchmma 0 1 2);
    let n : Nat := 0;
    (((s.tile site).mwin = [q]) ∧ (q.started = true) ∧ (q.asks = []) ∧ (encOf q.i = some e) ∧ ((s.tile site).mpend = []) ∧ (q.dead = []) ∧ ((s.tile
      site).poison = []) ∧ (winOpen ((s.tile site).math.posOf false) q.pos.length q.expiry = false)) ∧ (TileWf (s.tile site)) ∧ (∀ (n len : Nat) (st
      : Bool), footOf q.i q.cfgA = some (n, len, st) → ∀ (l : Nat), l < n → (fun l => BitVec.toNat (lineAt q.base q.stride l)) l + roundUp len 8 ≤
      3145728) ∧ (((s.tile site).mpoison = []) ∧ (q.i = Instr.mchmma e) ∧ ((s.tile site).chain.arrived true q.step = none) ∧ ((s.tile
      site).chain.state = 3) ∧ ((s.tile site).chain.gone = some n) ∧ (n ≤ q.step))) ∧
  (let site : Site := site0;
    let s : Machine.State := (open1 (cmd (.mma (word .mma 0 1 2)) i8 i8 i8) fun t => { t with mpoison := [(0, 3170, 0x100)] });
    let q : MCmd := (cmd (.mma (word .mma 0 1 2)) i8 i8 i8);
    let e : Enc := (word .mma 0 1 2);
    let i : Nat := 1;
    let p : Nat := 3170;
    let d : W := (0x100 : W);
    (((s.tile site).mwin = [q]) ∧ (q.started = true) ∧ (q.asks = []) ∧ (encOf q.i = some e) ∧ ((s.tile site).mpend = []) ∧ (q.dead = []) ∧ ((s.tile
      site).poison = []) ∧ (winOpen ((s.tile site).math.posOf false) q.pos.length q.expiry = false)) ∧ (TileWf (s.tile site)) ∧ (∀ (n len : Nat) (st
      : Bool), footOf q.i q.cfgA = some (n, len, st) → ∀ (l : Nat), l < n → (fun l => BitVec.toNat (lineAt q.base q.stride l)) l + roundUp len 8 ≤
      3145728) ∧ ((q.i = Instr.mma e ∨ q.i = Instr.mtr e) ∧ (i < mRows q.cfgB) ∧ (Machine.rowAt 0 e.fb i ≤ p) ∧ (p < Machine.rowAt 0 e.fb i + mRb
      q.cfgB) ∧ ((0, p, d) ∈ (s.tile site).mpoison) ∧ ((s.tile site).math.ptrap = none))) :=
  ⟨⟨by and_intros <;> decide +kernel, by delta TileWf; decide +kernel, by and_intros <;> decide +kernel⟩,
    ⟨by and_intros <;> decide +kernel, by delta TileWf; decide +kernel, foot_of (by decide +kernel), by and_intros <;> decide +kernel⟩,
    ⟨by and_intros <;> decide +kernel, by delta TileWf; decide +kernel, foot_of (by decide +kernel), by and_intros <;> decide +kernel⟩,
    ⟨by and_intros <;> decide +kernel, by delta TileWf; decide +kernel, foot_of (by decide +kernel), by and_intros <;> decide +kernel⟩,
    ⟨by and_intros <;> decide +kernel, by delta TileWf; decide +kernel, foot_of (by decide +kernel), by and_intros <;> decide +kernel⟩,
    ⟨by and_intros <;> decide +kernel, by delta TileWf; decide +kernel, foot_of (by decide +kernel), by and_intros <;> decide +kernel⟩,
    ⟨by and_intros <;> decide +kernel, by delta TileWf; decide +kernel, foot_of (by decide +kernel), by and_intros <;> decide +kernel⟩,
    ⟨by and_intros <;> decide +kernel, by delta TileWf; decide +kernel, foot_of (by decide +kernel), by and_intros <;> decide +kernel⟩,
    ⟨by and_intros <;> decide +kernel, by delta TileWf; decide +kernel, foot_of (by decide +kernel), by and_intros <;> decide +kernel⟩,
    ⟨by and_intros <;> decide +kernel, by delta TileWf; decide +kernel, foot_of (by decide +kernel), by and_intros <;> decide +kernel⟩,
    ⟨by and_intros <;> decide +kernel, by delta TileWf; decide +kernel, foot_of (by decide +kernel), by and_intros <;> decide +kernel⟩,
    ⟨by and_intros <;> decide +kernel, by delta TileWf; decide +kernel, foot_of (by decide +kernel), by and_intros <;> decide +kernel⟩,
    ⟨by and_intros <;> decide +kernel, by delta TileWf; decide +kernel, foot_of (by decide +kernel), by and_intros <;> decide +kernel⟩,
    ⟨by and_intros <;> decide +kernel, by delta TileWf; decide +kernel, foot_of (by decide +kernel), by and_intros <;> decide +kernel⟩,
    ⟨by and_intros <;> decide +kernel, by delta TileWf; decide +kernel, foot_of (by decide +kernel), by and_intros <;> decide +kernel⟩,
    ⟨by and_intros <;> decide +kernel, by delta TileWf; decide +kernel, foot_of (by decide +kernel), by and_intros <;> decide +kernel⟩,
    ⟨by and_intros <;> decide +kernel, by delta TileWf; decide +kernel, foot_of (by decide +kernel), by and_intros <;> decide +kernel⟩,
    ⟨by and_intros <;> decide +kernel, by delta TileWf; decide +kernel, foot_of (by decide +kernel), by and_intros <;> decide +kernel⟩,
    ⟨by and_intros <;> decide +kernel, by delta TileWf; decide +kernel, foot_of (by decide +kernel), by and_intros <;> decide +kernel⟩,
    ⟨by and_intros <;> decide +kernel, by delta TileWf; decide +kernel, foot_of (by decide +kernel), by and_intros <;> decide +kernel⟩,
    ⟨by and_intros <;> decide +kernel, by delta TileWf; decide +kernel, foot_of (by decide +kernel), by and_intros <;> decide +kernel⟩⟩

/-- States and operands that meet the hypotheses of `ProductArithmetic`, clause by clause. -/
theorem meets_ProductArithmetic :
  (let a : Opnd := (⟨(open1 mma2).here.mdata, [], [], 1, i8⟩ : Opnd);
    let acc : Nat := 0xFFFFFFFF;
    (isFloat (mType a.cfg) = false) ∧ (acc < 2 ^ 32)) ∧
  (let a : Opnd := (⟨(open1 mma2).here.mdata, [], [], 1, mc 9 2 3 0⟩ : Opnd);
    (isFloat (mType a.cfg) = true) ∧ (mKlen a.cfg ≤ 8)) ∧
  (let l : List (FVal × FVal) := (List.replicate 9 (FVal.inf false, FVal.inf true));
    (8 < l.length)) ∧
  (let l : List (FVal × FVal) := [(FVal.nan, FVal.nan), (FVal.inf false, FVal.inf false), (FVal.inf false, FVal.inf true)];
    (∃ x, x ∈ l ∧ (fmul x.fst x.snd).fst = FVal.inf false) ∧ (∃ x, x ∈ l ∧ (fmul x.fst x.snd).fst = FVal.inf true)) ∧
  (let l : List (FVal × FVal) := [(FVal.nan, FVal.nan), (FVal.inf false, FVal.inf false), (FVal.inf false, FVal.inf true)];
    (∃ x, x ∈ l ∧ (fmul x.fst x.snd).fst = FVal.inf false) ∧ (∃ x, x ∈ l ∧ (fmul x.fst x.snd).fst = FVal.inf true)) ∧
  (let a : Opnd := (⟨(open1 mma2).here.mdata, [], [], 1, mc 11 2 8 0⟩ : Opnd);
    (mKlen a.cfg ≤ 8)) ∧
  (let a : Opnd := (⟨(open1 mma2).here.mdata, [], [], 1, mc 11 2 12 0⟩ : Opnd);
    let c : Opnd := (⟨[(3072, (0x38 : Byte)), (3073, (0x39 : Byte)), (3074, (0x3A : Byte)), (3075, (0x3B : Byte))], [], [(3072, (0x10 : Byte)), (3073, (0x32 : Byte))], 1, mc 11 1 4 6⟩ : Opnd);
    let j : Nat := 0;
    let b : Nat → FVal := (fun k => if k < 4 then Opnd.val ⟨[(3072, (0x38 : Byte)), (3073, (0x39 : Byte)), (3074, (0x3A : Byte)), (3075, (0x3B : Byte))], [], [(3072, (0x10 : Byte)), (3073, (0x32 : Byte))], 1, mc 11 1 4 6⟩ false 0 k else FVal.fin false 0 0 false);
    (mN c.cfg ≠ 0) ∧ (mKlen c.cfg % mN c.cfg = 0) ∧ (mKlen a.cfg = mKlen c.cfg * 12 / mN c.cfg) ∧ (c.indicesOk j = true) ∧ (isFloat (mType a.cfg) =
      true) ∧ (∀ (e : Nat), e < mKlen c.cfg → b ((fun e => 12 * (e / mN c.cfg) + c.index j e) e) = c.val false j e) ∧ (∀ (k : Nat), k < mKlen a.cfg
      → (∀ (e : Nat), e < mKlen c.cfg → (fun e => 12 * (e / mN c.cfg) + c.index j e) e ≠ k) → b k = FVal.fin false 0 0 false)) ∧
  (let a : Opnd := (⟨(open1 mma2).here.mdata, [], [], 1, mc 0 2 12 0⟩ : Opnd);
    let c : Opnd := (⟨[(3072, (0x38 : Byte)), (3073, (0x39 : Byte)), (3074, (0x3A : Byte)), (3075, (0x3B : Byte))], [], [(3072, (0x10 : Byte)), (3073, (0x32 : Byte))], 1, mc 0 1 4 6⟩ : Opnd);
    let j : Nat := 0;
    let acc : Nat := 0xFFFFFFFF;
    let b : Nat → Int := (fun k => if k < 4 then Opnd.int ⟨[(3072, (0x38 : Byte)), (3073, (0x39 : Byte)), (3074, (0x3A : Byte)), (3075, (0x3B : Byte))], [], [(3072, (0x10 : Byte)), (3073, (0x32 : Byte))], 1, mc 0 1 4 6⟩ 0 k else 0);
    (mN c.cfg ≠ 0) ∧ (mKlen c.cfg % mN c.cfg = 0) ∧ (mKlen a.cfg = mKlen c.cfg * 12 / mN c.cfg) ∧ (c.indicesOk j = true) ∧ (isFloat (mType a.cfg) =
      false) ∧ (acc < 2 ^ 32) ∧ (∀ (e : Nat), e < mKlen c.cfg → b ((fun e => 12 * (e / mN c.cfg) + c.index j e) e) = c.int j e) ∧ (∀ (k : Nat), k <
      mKlen a.cfg → (∀ (e : Nat), e < mKlen c.cfg → (fun e => 12 * (e / mN c.cfg) + c.index j e) e ≠ k) → b k = 0)) ∧
  (let ty : Nat := 0;
    (isInt ty = true)) ∧
  (let ty : Nat := 18;
    (isCplx ty = true)) ∧
  (let ty : Nat := 9;
    let fp : Fp := Fp.rne;
    (8 ≤ ty) ∧ (ty ≤ 12) ∧ (fp.mode ≠ 5)) ∧
  (let a : Opnd := (⟨(open1 mma2).here.mdata, [], [], 1, mc 18 2 3 0⟩ : Opnd);
    (isCplx (mType a.cfg) = true)) ∧
  (let a : Opnd := (⟨(open1 mma2).here.mdata, [], [], 1, mc 18 2 3 0⟩ : Opnd);
    (isCplx (mType a.cfg) = true)) :=
  by and_intros <;> decide +kernel

/-- States and operands that meet the hypotheses of `MatrixControls`, clause by clause. -/
theorem meets_MatrixControls :
  ((let e : Enc := (word .mcfg 1 2 0);
    let s : State := (mat i8 i8 0xFFFFFFFF 0);
    (clear (Instr.mcfg e) s = true) ∧ (formOk (Instr.mcfg e) = true) ∧ ((seen s).here.namesM e.fa = false)) ∧
  (let e : Enc := (word .mcfg 1 2 0);
    let s : State := (two zclr1 mma2);
    (clear (Instr.mcfg e) s = true) ∧ (formOk (Instr.mcfg e) = true) ∧ ((seen s).here.namesM e.fa = true)) ∧
  (let e : Enc := (imms [1] (word .mid 1 0 0));
    let s : State := (two zclr1 mma2);
    clear (Instr.mid e) s = true) ∧
  (let e : Enc := (word .mdep 0 2 3);
    let s : State := ((two zclr1 mma2).modMe (gs [(2, 2), (3, 0)]));
    (clear (Instr.mdep e) s = true) ∧ (idOf e (BitVec.toNat ((seen s).me.g e.b)) ≤ (seen s).here.lastId) ∧ (idOf e (BitVec.toNat ((seen
      s).me.g e.c)) ≤ (seen s).here.lastId)) ∧
  (let e : Enc := (word .mdep 0 2 3);
    let s : State := ((two zclr1 mma2).modMe (gs [(2, 3), (3, 0)]));
    (clear (Instr.mdep e) s = true) ∧ ((seen s).here.lastId < idOf e (BitVec.toNat ((seen s).me.g e.b)))) ∧
  (let e : Enc := (word .mdep 0 2 3);
    let s : State := ((two zclr1 mma2).modMe (gs [(2, 2), (3, 3)]));
    (clear (Instr.mdep e) s = true) ∧ (idOf e (BitVec.toNat ((seen s).me.g e.b)) ≤ (seen s).here.lastId) ∧ ((seen s).here.lastId < idOf e
      (BitVec.toNat ((seen s).me.g e.c)))) ∧
  (let e : Enc := (word .mwait 0 2 0);
    let s : State := ((two zclr1 mma2).modMe (gs [(2, 0)]));
    (clear (Instr.mwait e) s = true) ∧ (idOf e (BitVec.toNat ((seen s).me.g e.b)) ≤ (seen s).here.lastId) ∧ (∀ (q : MCmd), q ∈ (seen
      s).here.mwin → q.id ≠ idOf e (BitVec.toNat ((seen s).me.g e.b)))) ∧
  (let e : Enc := (word .mwait 0 2 0);
    let s : State := ((two zclr1 mma2).modMe (gs [(2, 2)]));
    (clear (Instr.mwait e) s = true) ∧ (idOf e (BitVec.toNat ((seen s).me.g e.b)) ≤ (seen s).here.lastId) ∧ (∃ q, q ∈ (seen s).here.mwin ∧
      q.id = idOf e (BitVec.toNat ((seen s).me.g e.b)))) ∧
  (let e : Enc := (word .mwait 0 2 0);
    let s : State := ((two zclr1 mma2).modMe (gs [(2, 3)]));
    (clear (Instr.mwait e) s = true) ∧ ((seen s).here.lastId < idOf e (BitVec.toNat ((seen s).me.g e.b)))) ∧
  (let e : Enc := (imms [2] (word .mfence 0 0 0));
    let s : State := (two zclr1 mma2);
    (clear (Instr.mfence e) s = true) ∧ (∀ (q : MCmd), q ∈ (seen s).here.mwin → idOf e (seen s).here.lastId < q.id)) ∧
  (let e : Enc := (imms [1] (word .mfence 0 0 0));
    let s : State := (two zclr1 mma2);
    (clear (Instr.mfence e) s = true) ∧ (∃ q, q ∈ (seen s).here.mwin ∧ q.id ≤ idOf e (seen s).here.lastId)) ∧
  (let e : Enc := (word .mclaim 0 2 0);
    let s : State := ((mat i8 i8 0x1000 0 fun t => { t with claimed := true }).modMe (runs fun a => { a with sup := true }));
    (clear (Instr.mclaim e) s = true) ∧ ((seen s).here.claimed = true))) ∧
  (let e : Enc := (word .mclaim 0 2 0);
    let s : State := ((area 0 id).modMe (runs fun a => { a with sup := true }));
    ((clear (Instr.mclaim e) s = true) ∧ ((seen s).here.claimed = false)) ∧
    (BitVec.toNat ((seen s).me.g e.b + BitVec.ofInt 64 (64 * e.immS Fmt.rr)) % 64 = 0 ∧ BitVec.toNat ((seen s).me.g e.b + BitVec.ofInt 64
      (64 * e.immS Fmt.rr)) < 3145728 ∧ (∀ (w : Bool) (j : Nat), j < 19232 → addrFault (seen s) (BitVec.toNat ((seen s).me.g e.b +
      BitVec.ofInt 64 (64 * e.immS Fmt.rr) + BitVec.ofNat 64 (8 * j))) 8 w false = none) ∧ ∀ (j : Nat), j < 19232 → ramoPending (seen s)
      (BitVec.toNat ((seen s).me.g e.b + BitVec.ofInt 64 (64 * e.immS Fmt.rr) + BitVec.ofNat 64 (8 * j))) 8 = false) ∧
    (((seen s).here.mwin = []) ∧ ((seen s).here.mpend = [])) ∧
    (TileWf (seen s).here)) ∧
  (let e : Enc := (word .mrelease 0 2 0);
    let s : State := ((area 0x4D42 fun t => { t with claimed := true }).modMe (runs fun a => { a with sup := true }));
    (clear (Instr.mrelease e) s = true) ∧
    (BitVec.toNat ((seen s).me.g e.b + BitVec.ofInt 64 (64 * e.immS Fmt.rr)) % 64 = 0 ∧ BitVec.toNat ((seen s).me.g e.b + BitVec.ofInt 64
      (64 * e.immS Fmt.rr)) < 3145728 ∧ (∀ (w : Bool) (j : Nat), j < 19232 → addrFault (seen s) (BitVec.toNat ((seen s).me.g e.b +
      BitVec.ofInt 64 (64 * e.immS Fmt.rr) + BitVec.ofNat 64 (8 * j))) 8 w false = none) ∧ ∀ (j : Nat), j < 19232 → ramoPending (seen s)
      (BitVec.toNat ((seen s).me.g e.b + BitVec.ofInt 64 (64 * e.immS Fmt.rr) + BitVec.ofNat 64 (8 * j))) 8 = false) ∧
    (((seen s).here.poison = []) ∧ (BitVec.toNat ((seen s).here.word (BitVec.toNat ((seen s).me.g e.b + BitVec.ofInt 64 (64 * e.immS
      Fmt.rr)))) % 2 ^ 16 ≠ 19777))) ∧
  (let e : Enc := (word .mrelease 0 2 0);
    let s : State := ((area 0x4D41 fun t => { t with claimed := true }).modMe (runs fun a => { a with sup := true }));
    (clear (Instr.mrelease e) s = true) ∧
    (BitVec.toNat ((seen s).me.g e.b + BitVec.ofInt 64 (64 * e.immS Fmt.rr)) % 64 = 0 ∧ BitVec.toNat ((seen s).me.g e.b + BitVec.ofInt 64
      (64 * e.immS Fmt.rr)) < 3145728 ∧ (∀ (w : Bool) (j : Nat), j < 19232 → addrFault (seen s) (BitVec.toNat ((seen s).me.g e.b +
      BitVec.ofInt 64 (64 * e.immS Fmt.rr) + BitVec.ofNat 64 (8 * j))) 8 w false = none) ∧ ∀ (j : Nat), j < 19232 → ramoPending (seen s)
      (BitVec.toNat ((seen s).me.g e.b + BitVec.ofInt 64 (64 * e.immS Fmt.rr) + BitVec.ofNat 64 (8 * j))) 8 = false) ∧
    (((seen s).here.poison = []) ∧ (BitVec.toNat ((seen s).here.word (BitVec.toNat ((seen s).me.g e.b + BitVec.ofInt 64 (64 * e.immS
      Fmt.rr)))) % 2 ^ 16 = 19777) ∧ ((seen s).here.mwin = [])) ∧
    (TileWf (seen s).here)) :=
  ⟨by and_intros <;> decide +kernel,     ⟨by decide +kernel, ⟨by decide +kernel, by decide +kernel, fun w j hj => plainWords_fault (n :=
      19232) (by decide +kernel) w j hj, ramo_none (by decide +kernel) _ _⟩, by decide +kernel, by delta TileWf; decide +kernel⟩,
      ⟨by decide +kernel, ⟨by decide +kernel, by decide +kernel, fun w j hj => plainWords_fault (n := 19232) (by decide +kernel) w j hj,
      ramo_none (by decide +kernel) _ _⟩, by decide +kernel⟩,     ⟨by decide +kernel, ⟨by decide +kernel, by decide +kernel, fun w j hj =>
      plainWords_fault (n := 19232) (by decide +kernel) w j hj, ramo_none (by decide +kernel) _ _⟩, by decide +kernel,
      by delta TileWf; decide +kernel⟩⟩

/-- States and operands that meet the hypotheses of `ChainForms`, clause by clause. -/
theorem meets_ChainForms :
  (let e : Enc := (word .mchjoin 1 2 0);
    let s : State := (mat i8 i8 0x701020000 0);
    clear (Instr.mchjoin e) s = true) ∧
  (let e : Enc := (word .mchdim 1 2 0);
    let s : State := (mat i8 i8 0x701020000 0);
    clear (Instr.mchdim e) s = true) ∧
  (let e : Enc := (word .mchleave 0 0 0);
    let s : State := (mat i8 i8 0 0 (chained 2 0 0 []));
    (clear (Instr.mchleave e) s = true) ∧
    (∀ (q : MCmd), q ∈ (seen s).here.mwin → ∀ (e' : Enc), q.i ≠ Instr.mchmma e')) ∧
  (let e : Enc := (word .mchleave 0 0 0);
    let s : State := west;
    (clear (Instr.mchleave e) s = true) ∧
    (∃ q, q ∈ (seen s).here.mwin ∧ ∃ e', q.i = Instr.mchmma e')) ∧
  (let site : Site := site0;
    let s : Machine.State := ((mat i8 i8 0 0 (chained 1 0 0 [])).modTile ⟨1, 0⟩ (chained 1 1 0 []));
    let g : Geom := (⟨⟨0, 0, 2, 1⟩, [0, 1], [0]⟩ : Geom);
    ((s.tile site).chain.state = 1) ∧ (chainGeom s (s.tile site).vni (s.tile site).chain.desc = some g) ∧ (∀ (a : Nat), a ∈ g.cols → ∀ (b : Nat), b
      ∈ g.rows → (fun a b => have y := s.tile (s.siteAt (s.tile site).vni a b); inChain y (s.tile site).vni (s.tile site).chain.desc = true ∧
      y.chain.state = 1) a b) ∧ (∀ (z : Site), z ∈ droppedTiles s (s.tile site).vni g → s.bypass z = none ∧ (s.tile z).chain.state = 0)) ∧
  (let site : Site := site0;
    let s : State := (mat i8 i8 0 0 (chained 1 0 0 []));
    let g : Geom := (⟨⟨0, 0, 2, 1⟩, [0, 1], [0]⟩ : Geom);
    ((s.tile site).chain.state = 1) ∧ (chainGeom s (s.tile site).vni (s.tile site).chain.desc = some g) ∧ (∃ a, a ∈ g.cols ∧ ∃ b, b ∈ g.rows
      ∧ ¬(fun a b => have y := s.tile (s.siteAt (s.tile site).vni a b); inChain y (s.tile site).vni (s.tile site).chain.desc = true ∧
      y.chain.state = 1) a b)) :=
  ⟨by and_intros <;> decide +kernel,
    by and_intros <;> decide +kernel,
    ⟨by decide +kernel, none_of (by decide +kernel)⟩,
    ⟨by decide +kernel, ⟨_, List.mem_cons_self, _, rfl⟩⟩,
    by and_intros <;> decide +kernel,
    by and_intros <;> decide +kernel⟩

/-- States and operands that meet the hypotheses of `GraphSlots`, clause by clause. -/
theorem meets_GraphSlots :
  (let e : Enc := (word .lload 1 2 0);
    let s : State := (lupin 0x1004 id);
    (clear (Instr.lload e) s = true) ∧ ((seen s).me.restore = none) ∧ (BitVec.toNat ((seen s).me.g e.b) % 8 ≠ 0)) ∧
  (let e : Enc := (word .lload 1 2 0);
    let s : State := (lupin 0x1000 (held0 0x1000 false) (named 3 0x1000));
    let n : Nat := 0;
    let r : Resid := (⟨0x1000, graph1, none, false⟩ : Resid);
    ((clear (Instr.lload e) s = true ∧ (seen s).me.restore = none ∧ BitVec.toNat ((seen s).me.g e.b) % 8 = 0 ∧ ramoHits (seen s) s.cur (seen
      s).here.name (BitVec.toNat ((seen s).me.g e.b)) 4096 = false) ∧ (n < 4) ∧ (vget ((seen s).modHere Tile.freeSlices).here.slices n =
      some r) ∧ (r.addr = BitVec.toNat ((seen s).me.g e.b)) ∧ (r.synced = false)) ∧
    (∀ (m : Nat) (r' : Resid), m < n → vget ((seen s).modHere Tile.freeSlices).here.slices m = some r' → r'.addr = BitVec.toNat ((seen
      s).me.g e.b) → r'.synced = true)) ∧
  ((let e : Enc := (word .lload 1 2 0);
    let s : State := (lupin 0x1000 (held0 0x2000 false) (named 3 0x2000));
    let l : List W := graph1;
    let n : Nat := 1;
    (clear (Instr.lload e) s = true ∧ (seen s).me.restore = none ∧ BitVec.toNat ((seen s).me.g e.b) % 8 = 0 ∧ ramoHits (seen s) s.cur (seen
      s).here.name (BitVec.toNat ((seen s).me.g e.b)) 4096 = false) ∧ (((seen s).modHere Tile.freeSlices).here.resident (BitVec.toNat ((seen
      s).me.g e.b)) = none) ∧ (checkImage (imageWord ((seen s).modHere Tile.freeSlices) ((seen s).me.g e.b)) = Scan.words l) ∧ (n < 4) ∧
      (vget ((seen s).modHere Tile.freeSlices).here.slices n = none) ∧ (∀ (m : Nat), m < n → (vget ((seen s).modHere
      Tile.freeSlices).here.slices m).isSome = true)) ∧
  (let e : Enc := (word .lload 1 2 0);
    let s : State := (lupin 0x2000 id);
    let x : Nat := 1;
    (clear (Instr.lload e) s = true ∧ (seen s).me.restore = none ∧ BitVec.toNat ((seen s).me.g e.b) % 8 = 0 ∧ ramoHits (seen s) s.cur (seen
      s).here.name (BitVec.toNat ((seen s).me.g e.b)) 4096 = false) ∧ (((seen s).modHere Tile.freeSlices).here.resident (BitVec.toNat ((seen
      s).me.g e.b)) = none) ∧ (checkImage (imageWord ((seen s).modHere Tile.freeSlices) ((seen s).me.g e.b)) = Scan.status x))) ∧
  (let e : Enc := (word .lload 1 2 0);
    let s : State := (lupin 0x2000 id);
    let h : W := (0:W);
    (imageWord ((seen s).modHere Tile.freeSlices) ((seen s).me.g e.b) 0 = Except.ok h) ∧
    (BitVec.toNat h % 2 ^ 16 ≠ 19527)) ∧
  ((let e : Enc := (word .lload 1 2 0);
    let s : State := (lupin 0x1000 fun t => { t with poison := [0x1010] });
    let cause : Nat := 0x19;
    let d : W := (0x1010 : W);
    (clear (Instr.lload e) s = true ∧ (seen s).me.restore = none ∧ BitVec.toNat ((seen s).me.g e.b) % 8 = 0 ∧ ramoHits (seen s) s.cur (seen
      s).here.name (BitVec.toNat ((seen s).me.g e.b)) 4096 = false) ∧ (((seen s).modHere Tile.freeSlices).here.resident (BitVec.toNat ((seen
      s).me.g e.b)) = none) ∧ (checkImage (imageWord ((seen s).modHere Tile.freeSlices) ((seen s).me.g e.b)) = Scan.fault cause d)) ∧
  (let e : Enc := (word .lload 1 2 0);
    let s : State := (lupin 0x1000 id);
    let l : List W := graph1;
    checkImage (imageWord ((seen s).modHere Tile.freeSlices) ((seen s).me.g e.b)) = Scan.words l) ∧
  (let e : Enc := (word .lquery 1 2 0);
    let s : State := (lupin 16 id);
    let i : Instr := (Instr.lquery (word .lquery 1 2 0));
    (i = Instr.lunload e ∨ i = Instr.lquery e) ∧ (clear i s = true) ∧ (15 < BitVec.toNat ((seen s).me.g e.b))) ∧
  (let e : Enc := (word .lunload 0 2 0);
    let s : State := (lupin 16 id);
    let i : Instr := (Instr.lunload (word .lunload 0 2 0));
    (i = Instr.lunload e ∨ i = Instr.lquery e) ∧ (clear i s = true) ∧ (15 < BitVec.toNat ((seen s).me.g e.b))) ∧
  (let e : Enc := (word .lunload 0 2 0);
    let s : State := (lupin 3 (held0 0x1000 false) (named 3 0x1000));
    (clear (Instr.lunload e) s = true) ∧ (BitVec.toNat ((seen s).me.g e.b) ≤ 15)) ∧
  (let e : Enc := (word .lquery 1 2 0);
    let s : State := (lupin 3 (held0 0x1000 false) (named 3 0x1000));
    (clear (Instr.lquery e) s = true) ∧ (BitVec.toNat ((seen s).me.g e.b) ≤ 15))) :=
  ⟨by decide +kernel,     ⟨by decide +kernel, fun m r' h => absurd h (Nat.not_lt_zero m)⟩,     by and_intros <;> decide +kernel,     ⟨ok_of
      (by decide +kernel), by decide +kernel⟩,     by and_intros <;> decide +kernel⟩

/-- States and operands that meet the hypotheses of `GraphCalls`, clause by clause. -/
theorem meets_GraphCalls :
  (let i : Instr := (Instr.cxOneSource (regs 0x10 cx1));
    let e : Enc := (regs 0x10 cx1);
    let s : Machine.State := (calling 1 fun k => { k with streams := vset k.streams 0 ⟨some 3, 0⟩ });
    let n : Nat := 1;
    (encOf i = some e) ∧ (cxSources i = some n) ∧ (clear i s = true) ∧ (2 ≤ e.op) ∧ (∃ j, j < (Option.map (fun r => if (graphOf r.image).wide = true
      then 32 else 16) (if (vget (seen s).me.slots (e.op - 2)).resident = true then vget (seen s).here.slices (vget (seen s).me.slots (e.op -
      2)).slice else none)).getD 32 ∧ BitVec.getLsbD ((seen s).me.pred e) j = true) ∧ ((seen s).me.streamBound e.a = true)) ∧
  (let i : Instr := (Instr.cxOneSource (pred 1 cx1));
    let e : Enc := (pred 1 cx1);
    let s : State := (calling 1 queueFull);
    let n : Nat := 1;
    (encOf i = some e) ∧ (cxSources i = some n) ∧ (clear i s = true) ∧ (2 ≤ e.op) ∧ (¬(fun m => ∃ j, j < m ∧ BitVec.getLsbD ((seen
      s).me.pred e) j = true) ((Option.map (fun r => if (graphOf r.image).wide = true then 32 else 16) (if (vget (seen s).me.slots (e.op -
      2)).resident = true then vget (seen s).here.slices (vget (seen s).me.slots (e.op - 2)).slice else none)).getD 32)) ∧ (16 ≤ (seen
      s).me.vq.length)) ∧
  (let i : Instr := (Instr.cxOneSource (pred 1 cx1));
    let e : Enc := (pred 1 cx1);
    let s : State := (calling 1);
    let n : Nat := 1;
    (encOf i = some e) ∧ (cxSources i = some n) ∧ (clear i s = true) ∧ (2 ≤ e.op) ∧ (¬(fun m => ∃ j, j < m ∧ BitVec.getLsbD ((seen
      s).me.pred e) j = true) ((Option.map (fun r => if (graphOf r.image).wide = true then 32 else 16) (if (vget (seen s).me.slots (e.op -
      2)).resident = true then vget (seen s).here.slices (vget (seen s).me.slots (e.op - 2)).slice else none)).getD 32)) ∧ ((seen
      s).me.vq.length < 16)) ∧
  (let i : Instr := (Instr.cxOneSource cx1);
    let e : Enc := cx1;
    let s : Machine.State := (calling 0);
    let n : Nat := 1;
    (encOf i = some e) ∧ (cxSources i = some n) ∧ (clear i s = true) ∧ (2 ≤ e.op) ∧ ((seen s).me.streamBound e.a = false) ∧ ((vget (seen s).me.slots
      (e.op - 2)).resident = false) ∧ (∃ j, j < 32 ∧ BitVec.getLsbD ((seen s).me.pred e) j = true)) ∧
  (let i : Instr := (Instr.cxTwoSources (word .cxTwoSources 4 2 0));
    let e : Enc := (word .cxTwoSources 4 2 0);
    let s : Machine.State := (calling 1);
    let n : Nat := 2;
    let r : Resid := (⟨0x2000, graph1, none, false⟩ : Resid);
    (encOf i = some e) ∧ (cxSources i = some n) ∧ (clear i s = true) ∧ (2 ≤ e.op) ∧ ((seen s).me.streamBound e.a = false) ∧ ((vget (seen s).me.slots
      (e.op - 2)).resident = true) ∧ (vget (seen s).here.slices (vget (seen s).me.slots (e.op - 2)).slice = some r) ∧ (∃ j, (j < if (graphOf
      r.image).wide = true then 32 else 16) ∧ BitVec.getLsbD ((seen s).me.pred e) j = true) ∧ (n ≠ (graphOf r.image).nsrc)) ∧
  (let i : Instr := (Instr.cxOneSource cx1);
    let e : Enc := cx1;
    let s : Machine.State := (calling 1);
    let n : Nat := 1;
    let r : Resid := (⟨0x2000, graph1, none, false⟩ : Resid);
    (encOf i = some e) ∧ (cxSources i = some n) ∧ (clear i s = true) ∧ (2 ≤ e.op) ∧ ((seen s).me.streamBound e.a = false) ∧ ((vget (seen s).me.slots
      (e.op - 2)).resident = true) ∧ (vget (seen s).here.slices (vget (seen s).me.slots (e.op - 2)).slice = some r) ∧ (∃ j, (j < if (graphOf
      r.image).wide = true then 32 else 16) ∧ BitVec.getLsbD ((seen s).me.pred e) j = true) ∧ (n = (graphOf r.image).nsrc) ∧ ((seen s).me.vq.length
      < 16)) ∧
  (let i : Instr := (Instr.cxOneSource cx1);
    let e : Enc := cx1;
    let s : Machine.State := (calling 1 queueFull);
    let n : Nat := 1;
    let r : Resid := (⟨0x2000, graph1, none, false⟩ : Resid);
    (encOf i = some e) ∧ (cxSources i = some n) ∧ (clear i s = true) ∧ (2 ≤ e.op) ∧ ((seen s).me.streamBound e.a = false) ∧ ((vget (seen s).me.slots
      (e.op - 2)).resident = true) ∧ (vget (seen s).here.slices (vget (seen s).me.slots (e.op - 2)).slice = some r) ∧ (∃ j, (j < if (graphOf
      r.image).wide = true then 32 else 16) ∧ BitVec.getLsbD ((seen s).me.pred e) j = true) ∧ (n = (graphOf r.image).nsrc) ∧ (16 ≤ (seen
      s).me.vq.length)) ∧
  (let i : Instr := (Instr.cxOneSource cx1);
    let e : Enc := cx1;
    let s : State := (calling 1 queueFull);
    let n : Nat := 1;
    let t : State := (calling 0 fun k => { k with ctl := { k.ctl with loaderVec := 0x9001 } });
    let c : CoreId := (⟨⟨0,0⟩, .shape⟩ : CoreId);
    let m : Nat := 0;
    let pc : W := (0x8000 : W);
    (encOf i = some e) ∧ (cxSources i = some n) ∧ (clear i s = true) ∧ (2 ≤ e.op) ∧ (m < 16) ∧ ((t.core c).sup = false) ∧ (BitVec.toNat
      (t.core c).ctl.loaderVec % 2 ^ 22 / 2 ≠ 0) ∧ ((t.core c).resumable = false) ∧ ((t.core c).act.isSome = true) ∧ ((vget (t.core c).slots
      m).addr < 2 ^ 64)) ∧
  (let i : Instr := (Instr.cxOneSource cx1);
    let e : Enc := cx1;
    let s : Machine.State := (calling 1);
    let n : Nat := 1;
    let t : Machine.State := (calling 1 fun k => { k with ctl := { k.ctl with loaderVec := 0x9000 } });
    let c : CoreId := shape;
    let m : Nat := 0;
    (encOf i = some e) ∧ (cxSources i = some n) ∧ (clear i s = true) ∧ (2 ≤ e.op) ∧ (m < 16) ∧ ((t.core c).sup = false) ∧ (BitVec.toNat (t.core
      c).ctl.loaderVec % 2 ^ 22 / 2 ≠ 0) ∧ ((t.core c).resumable = false) ∧ ((t.core c).act.isSome = true) ∧ ((vget (t.core c).slots m).addr < 2 ^
      64)) ∧
  (let i : Instr := (Instr.cxOneSource cx1);
    let e : Enc := cx1;
    let s : Machine.State := (calling 1);
    let n : Nat := 1;
    let t : Machine.State := (calling 1 fun k => { k with ctl := { k.ctl with loaderVec := 0x9000 } });
    let c : CoreId := shape;
    let m : Nat := 0;
    (encOf i = some e) ∧ (cxSources i = some n) ∧ (clear i s = true) ∧ (2 ≤ e.op) ∧ (m < 16) ∧ ((t.core c).sup = false) ∧ (BitVec.toNat (t.core
      c).ctl.loaderVec % 2 ^ 22 / 2 ≠ 0) ∧ ((t.core c).resumable = false) ∧ ((t.core c).act.isSome = true) ∧ ((vget (t.core c).slots m).addr < 2 ^
      64)) ∧
  (let i : Instr := (Instr.cxOneSource cx1);
    let e : Enc := cx1;
    let s : Machine.State := (calling 1);
    let n : Nat := 1;
    let t : Machine.State := (calling 1 fun k => { k with ctl := { k.ctl with loaderVec := 0x9000 } });
    let c : CoreId := shape;
    let m : Nat := 0;
    (encOf i = some e) ∧ (cxSources i = some n) ∧ (clear i s = true) ∧ (2 ≤ e.op) ∧ (m < 16) ∧ ((t.core c).sup = false) ∧ (BitVec.toNat (t.core
      c).ctl.loaderVec % 2 ^ 22 / 2 ≠ 0) ∧ ((t.core c).resumable = false) ∧ ((t.core c).act.isSome = true) ∧ ((vget (t.core c).slots m).addr < 2 ^
      64)) ∧
  (let i : Instr := (Instr.cxOneSource cx1);
    let e : Enc := cx1;
    let s : Machine.State := (calling 1);
    let n : Nat := 1;
    let t : Machine.State := (calling 1 fun k => { k with ctl := { k.ctl with loaderVec := 0x9000 } });
    let c : CoreId := shape;
    let m : Nat := 0;
    (encOf i = some e) ∧ (cxSources i = some n) ∧ (clear i s = true) ∧ (2 ≤ e.op) ∧ (m < 16) ∧ ((t.core c).sup = false) ∧ (BitVec.toNat (t.core
      c).ctl.loaderVec % 2 ^ 22 / 2 ≠ 0) ∧ ((t.core c).resumable = false) ∧ ((t.core c).act.isSome = true) ∧ ((vget (t.core c).slots m).addr < 2 ^
      64)) ∧
  (let i : Instr := (Instr.cxOneSource cx1);
    let e : Enc := cx1;
    let s : Machine.State := (calling 1);
    let n : Nat := 1;
    let t : Machine.State := (calling 1 fun k => { k with ctl := { k.ctl with loaderVec := 0x9000 } });
    let c : CoreId := shape;
    let m : Nat := 0;
    (encOf i = some e) ∧ (cxSources i = some n) ∧ (clear i s = true) ∧ (2 ≤ e.op) ∧ (m < 16) ∧ ((t.core c).sup = false) ∧ (BitVec.toNat (t.core
      c).ctl.loaderVec % 2 ^ 22 / 2 ≠ 0) ∧ ((t.core c).resumable = false) ∧ ((t.core c).act.isSome = true) ∧ ((vget (t.core c).slots m).addr < 2 ^
      64)) ∧
  (let i : Instr := (Instr.cxOneSource cx1);
    let e : Enc := cx1;
    let s : Machine.State := (calling 1);
    let n : Nat := 1;
    let t : Machine.State := (calling 1 fun k => { k with ctl := { k.ctl with loaderVec := 0x9000 } });
    let c : CoreId := shape;
    let m : Nat := 0;
    (encOf i = some e) ∧ (cxSources i = some n) ∧ (clear i s = true) ∧ (2 ≤ e.op) ∧ (m < 16) ∧ ((t.core c).sup = false) ∧ (BitVec.toNat (t.core
      c).ctl.loaderVec % 2 ^ 22 / 2 ≠ 0) ∧ ((t.core c).resumable = false) ∧ ((t.core c).act.isSome = true) ∧ ((vget (t.core c).slots m).addr < 2 ^
      64)) ∧
  (let i : Instr := (Instr.cxOneSource cx1);
    let e' : Enc := cx1;
    let s : State := (calling 1);
    let n : Nat := 1;
    let t : State := (calling 1 popsA);
    let c : CoreId := shape;
    let q : VEntry := idle3;
    let rest : List VEntry := [];
    let e : Enc := (a12 (word .cxThreeSources 4 2 3));
    let ch : Nat := 3;
    let r : Rec := (⟨3, 0, 4, false, 200, 0, false⟩ : Rec);
    (encOf i = some e') ∧ (cxSources i = some n) ∧ (clear i s = true) ∧ (2 ≤ e'.op) ∧ ((t.core c).vq = q :: rest) ∧ (q.i = Instr.cxThreeSources e) ∧
      (q.slice = 4) ∧ (e.b < 12) ∧ (e.c < 12) ∧ (12 ≤ e.a) ∧ (laneWinner t c.site = some c.kind) ∧ ((vget (t.core c).streams (e.a - 12)).chan = some
      ch) ∧ (ringEn ((t.core c).ring ch) = true) ∧ ((t.core c).headRec ch = some r) ∧ (64 * (vget (t.core c).streams (e.a - 12)).popped + 64 <
      r.len)) :=
  by and_intros <;> decide +kernel

/-- States and operands that meet the hypotheses of `ResidencyAreas`, clause by clause. -/
theorem meets_ResidencyAreas :
  ((let e : Enc := (word .lsave 1 2 0);
    let s : State := (lupin 0x1020 id (runs fun a => { a with sup := true }));
    let i : Instr := (Instr.lsave (word .lsave 1 2 0));
    (i = Instr.lsave e ∨ i = Instr.lrest e) ∧ (clear i s = true) ∧ ((seen s).me.restore = none) ∧ (BitVec.toNat ((seen s).me.g e.b) % 64 ≠
      0)) ∧
  (let e : Enc := (word .lrest 1 2 0);
    let s : State := (lupin 0x1020 id (runs fun a => { a with sup := true }));
    let i : Instr := (Instr.lrest (word .lrest 1 2 0));
    (i = Instr.lsave e ∨ i = Instr.lrest e) ∧ (clear i s = true) ∧ ((seen s).me.restore = none) ∧ (BitVec.toNat ((seen s).me.g e.b) % 64 ≠
      0))) ∧
  (let e : Enc := (word .lsave 1 2 0);
    let s : State := (area1 0 (held0 0x2000 false) (named 3 0x2000));
    ((clear (Instr.lsave e) s = true) ∧ (BitVec.toNat ((seen s).me.g e.b) % 64 = 0)) ∧
    (localWords (seen s) ((seen s).me.g e.b) 2080 true) ∧
    ((ramoHits (seen s) s.cur (seen s).here.name (BitVec.toNat ((seen s).me.g e.b)) 16640 = false) ∧ ((seen s).here.mem.wf = true)) ∧
    (∀ (n : Nat) (r : Resid), n < 4 → vget (seen s).here.slices n = some r → r.image.length ≤ 512) ∧
    (∀ (n : Nat), n < 16 → (vget (seen s).me.slots n).slice < 4)) ∧
  (let e : Enc := (word .lrest 1 2 0);
    let s : State := (area1 0x4C54);
    ((clear (Instr.lrest e) s = true) ∧ ((seen s).me.restore = none) ∧ (BitVec.toNat ((seen s).me.g e.b) % 64 = 0)) ∧
    (localWords (seen s) ((seen s).me.g e.b) 2080 false) ∧
    ((ramoHits (seen s) s.cur (seen s).here.name (BitVec.toNat ((seen s).me.g e.b)) 16640 = false) ∧ ((seen s).here.poison = []) ∧
      (BitVec.toNat ((seen s).here.word (BitVec.toNat ((seen s).me.g e.b))) % 2 ^ 16 ≠ 19539))) ∧
  (let e : Enc := (word .lrest 1 2 0);
    let s : State := (area1 0x500004C53);
    ((clear (Instr.lrest e) s = true) ∧ ((seen s).me.restore = none) ∧ (BitVec.toNat ((seen s).me.g e.b) % 64 = 0)) ∧
    (localWords (seen s) ((seen s).me.g e.b) 2080 false) ∧
    ((ramoHits (seen s) s.cur (seen s).here.name (BitVec.toNat ((seen s).me.g e.b)) 16640 = false) ∧ ((seen s).here.poison = []) ∧
      (BitVec.toNat ((seen s).here.word (BitVec.toNat ((seen s).me.g e.b))) % 2 ^ 16 = 19539) ∧ (4 < BitVec.toNat ((seen s).here.word
      (BitVec.toNat ((seen s).me.g e.b))) / 2 ^ 32 % 8))) ∧
  (let e : Enc := (word .lrest 1 2 0);
    let s : State := (area1 0x4C53);
    ((clear (Instr.lrest e) s = true) ∧ ((seen s).me.restore = none) ∧ (BitVec.toNat ((seen s).me.g e.b) % 64 = 0)) ∧
    (localWords (seen s) ((seen s).me.g e.b) 2080 false) ∧
    ((ramoHits (seen s) s.cur (seen s).here.name (BitVec.toNat ((seen s).me.g e.b)) 16640 = false) ∧ ((seen s).here.poison = []) ∧ (readArea
      (seen s).here (BitVec.toNat ((seen s).me.g e.b)) = Area.ok []))) ∧
  (let e : Enc := (word .lrest 1 2 0);
    let s : State := (area1 0x100004C53);
    let addr : Nat := 2;
    let img : List W := graph1;
    let slot : Nat := 2;
    let n : Nat := 0;
    ((clear (Instr.lrest e) s = true) ∧ ((seen s).me.restore = none) ∧ (BitVec.toNat ((seen s).me.g e.b) % 64 = 0)) ∧
    (localWords (seen s) ((seen s).me.g e.b) 2080 false) ∧
    ((ramoHits (seen s) s.cur (seen s).here.name (BitVec.toNat ((seen s).me.g e.b)) 16640 = false) ∧ ((seen s).here.poison = []) ∧ (readArea
      (seen s).here (BitVec.toNat ((seen s).me.g e.b)) = Area.ok [(addr, img, [slot])]) ∧ (((seen s).modHere Tile.freeSlices).here.resident
      addr = none) ∧ (n < 4) ∧ (vget ((seen s).modHere Tile.freeSlices).here.slices n = none) ∧ (∀ (m : Nat), m < n → (vget ((seen
      s).modHere Tile.freeSlices).here.slices m).isSome = true))) ∧
  (let e : Enc := (word .lrest 1 2 0);
    let s : State := (area1 0x100004C53 (held0 2 false) (named 3 2));
    let addr : Nat := 2;
    let img : List W := graph1;
    let slot : Nat := 2;
    let n : Nat := 0;
    ((clear (Instr.lrest e) s = true) ∧ ((seen s).me.restore = none) ∧ (BitVec.toNat ((seen s).me.g e.b) % 64 = 0)) ∧
    (localWords (seen s) ((seen s).me.g e.b) 2080 false) ∧
    ((ramoHits (seen s) s.cur (seen s).here.name (BitVec.toNat ((seen s).me.g e.b)) 16640 = false) ∧ ((seen s).here.poison = []) ∧ (readArea
      (seen s).here (BitVec.toNat ((seen s).me.g e.b)) = Area.ok [(addr, img, [slot])]) ∧ (((seen s).modHere Tile.freeSlices).here.resident
      addr = some n))) :=
  ⟨by and_intros <;> decide +kernel,     ⟨by decide +kernel, localWords_of (by decide +kernel), by decide +kernel, slot_of
      (by decide +kernel), by decide +kernel⟩,     ⟨by decide +kernel, localWords_of (by decide +kernel), by decide +kernel⟩,
      ⟨by decide +kernel, localWords_of (by decide +kernel), by decide +kernel⟩,     ⟨by decide +kernel, localWords_of (by decide +kernel),
      by decide +kernel⟩,     ⟨by decide +kernel, localWords_of (by decide +kernel), by decide +kernel⟩,     ⟨by decide +kernel,
      localWords_of (by decide +kernel), by decide +kernel⟩⟩

/-- States and operands that meet the hypotheses of `TimelineForms`, clause by clause. -/
theorem meets_TimelineForms :
  (let e : Enc := (word .tlrd 1 1 0);
    let s : State := (world .flow);
    (clear (Instr.tlrd e) s = true) ∧ ((seen s).here.slotValid e.fb = false)) ∧
  (let e : Enc := (word .tlrd 1 1 0);
    let s : State := (copying (engine []) 0);
    let x : Engine := (engine []);
    (clear (Instr.tlrd e) s = true) ∧ ((seen s).engineAt s.cur.site e.fb = some x)) ∧
  (let e : Enc := (word .tlwait 0 1 3);
    let s : State := (copying (engine []) 0);
    let x : Engine := (engine []);
    (clear (Instr.tlwait e) s = true) ∧ ((seen s).engineAt s.cur.site e.fb = some x) ∧ (BitVec.toNat ((seen s).me.g e.c) ≤ x.counter)) ∧
  (let e : Enc := (word .tlwait 0 1 3);
    let s : State := (copying (engine []) 1);
    let x : Engine := (engine []);
    (clear (Instr.tlwait e) s = true) ∧ ((seen s).engineAt s.cur.site e.fb = some x) ∧ (x.counter < BitVec.toNat ((seen s).me.g e.c))) ∧
  (let e : Enc := (word .tlwait 0 1 3);
    let s : State := ((world .flow).modMe (gs [(3, 1)]));
    (clear (Instr.tlwait e) s = true) ∧ ((seen s).here.slotValid e.fb = false) ∧ (BitVec.toNat ((seen s).me.g e.c) ≠ 0)) ∧
  (let e : Enc := cpys;
    let s : State := (world .flow);
    let i : Instr := (Instr.cpy cpys);
    let count : Nat := 3;
    (i = Instr.cpy e ∧ count = 3 ∨ i = Instr.cpy2d e ∧ count = 5) ∧ (clear i s = true) ∧ ((seen s).engineAt s.cur.site e.fb = none)) ∧
  (let e : Enc := cpys;
    let s : State := (copying (engine []) 0x1004);
    let i : Instr := (Instr.cpy cpys);
    let count : Nat := 3;
    let x : Engine := (engine []);
    (i = Instr.cpy e ∧ count = 3 ∨ i = Instr.cpy2d e ∧ count = 5) ∧ (clear i s = true) ∧ ((seen s).engineAt s.cur.site e.fb = some x) ∧
      (BitVec.toNat ((seen s).me.g e.c) % 8 ≠ 0)) ∧
  (let e : Enc := cpys;
    let s : Machine.State := (copying (engine []) 0x1000);
    let i : Instr := (Instr.cpy cpys);
    let count : Nat := 3;
    let x : Engine := (engine []);
    ((i = Instr.cpy e ∧ count = 3 ∨ i = Instr.cpy2d e ∧ count = 5) ∧ (clear i s = true) ∧ ((seen s).engineAt s.cur.site e.fb = some x)) ∧
      (BitVec.toNat ((seen s).me.g e.c) % 8 = 0 ∧ localWords (seen s) ((seen s).me.g e.c) count false ∧ (seen s).here.poison = [] ∧ ∀ (j : Nat), j <
      count → ramoPending (seen s) (BitVec.toNat ((seen s).me.g e.c + BitVec.ofNat 64 (8 * j))) 8 = false) ∧ ((x.ops.length < 32) ∧ (footBusy (seen
      s) (latchedOp (seen s) e count (x.issued + 1)) = false))) ∧
  (let e : Enc := cpys;
    let s : Machine.State := (copying (engine []) 0x1000 overlapping);
    let i : Instr := (Instr.cpy cpys);
    let count : Nat := 3;
    let x : Engine := (engine []);
    ((i = Instr.cpy e ∧ count = 3 ∨ i = Instr.cpy2d e ∧ count = 5) ∧ (clear i s = true) ∧ ((seen s).engineAt s.cur.site e.fb = some x)) ∧
      (BitVec.toNat ((seen s).me.g e.c) % 8 = 0 ∧ localWords (seen s) ((seen s).me.g e.c) count false ∧ (seen s).here.poison = [] ∧ ∀ (j : Nat), j <
      count → ramoPending (seen s) (BitVec.toNat ((seen s).me.g e.c + BitVec.ofNat 64 (8 * j))) 8 = false) ∧ ((x.ops.length < 32) ∧ (footBusy (seen
      s) (latchedOp (seen s) e count (x.issued + 1)) = true))) ∧
  (let e : Enc := cpys;
    let s : State := (copying (engine []) 0x1000);
    let i : Instr := (Instr.cpy cpys);
    let count : Nat := 3;
    let o : EOp := (op2 0x80 0);
    (i = Instr.cpy e ∧ count = 3 ∨ i = Instr.cpy2d e ∧ count = 5) ∧ (clear i s = true) ∧ ((seen s).here.bankq = []) ∧ ((seen s).me.vq = [])
      ∧ ((seen s).pkts = [])) ∧
  (let e : Enc := cpys;
    let s : Machine.State := (copying (engine []) 0x1000 ringBusy);
    let i : Instr := (Instr.cpy cpys);
    let count : Nat := 3;
    let o : EOp := { opAt 0 0x300000000 with cap := cap1 };
    let y : BankOp := (⟨⟨⟨0, 0⟩, .flow⟩, 0x20, 8, 0, 5, 0x8000, false⟩ : BankOp);
    (i = Instr.cpy e ∧ count = 3 ∨ i = Instr.cpy2d e ∧ count = 5) ∧ (clear i s = true) ∧ (y ∈ (seen s).here.bankq) ∧ (y.src = (seen s).cur) ∧
      (o.kind = 3) ∧ (cname o.cap = (seen s).here.name) ∧ (ringBase (((seen s).here.core (capKind o.cap)).ring o.chan) < y.addr + y.width) ∧ (y.addr
      < ringBase (((seen s).here.core (capKind o.cap)).ring o.chan) + 64 * ringGran (((seen s).here.core (capKind o.cap)).ring o.chan))) ∧
  (let e : Enc := cpys;
    let s : State := (copying (engine (List.replicate 32 (op2 0x80 0))) 0x1000);
    let i : Instr := (Instr.cpy cpys);
    let count : Nat := 3;
    let x : Engine := (engine (List.replicate 32 (op2 0x80 0)));
    ((i = Instr.cpy e ∧ count = 3 ∨ i = Instr.cpy2d e ∧ count = 5) ∧ (clear i s = true) ∧ ((seen s).engineAt s.cur.site e.fb = some x) ∧
      (BitVec.toNat ((seen s).me.g e.c) % 8 = 0)) ∧
    (localWords (seen s) ((seen s).me.g e.c) count false) ∧
    (32 ≤ x.ops.length)) ∧
  (let e : Enc := (word .cpycan 1 1 0);
    let s : State := (copying (engine [op2 0x80 0]) 0);
    let x : Engine := (engine [op2 0x80 0]);
    (clear (Instr.cpycan e) s = true) ∧ ((seen s).engineAt s.cur.site e.fb = some x)) ∧
  (let e : Enc := (word .cpycan 1 1 0);
    let s : State := (world .flow);
    (clear (Instr.cpycan e) s = true) ∧ ((seen s).engineAt s.cur.site e.fb = none)) ∧
  (let e : Enc := cpy2ds;
    let s : Machine.State := (copying (engine []) 0x1000);
    let i : Instr := (Instr.cpy2d cpy2ds);
    let count : Nat := 5;
    let x : Engine := (engine []);
    ((i = Instr.cpy e ∧ count = 3 ∨ i = Instr.cpy2d e ∧ count = 5) ∧ (clear i s = true) ∧ ((seen s).engineAt s.cur.site e.fb = some x)) ∧
      (BitVec.toNat ((seen s).me.g e.c) % 8 = 0 ∧ localWords (seen s) ((seen s).me.g e.c) count false ∧ (seen s).here.poison = [] ∧ ∀ (j : Nat), j <
      count → ramoPending (seen s) (BitVec.toNat ((seen s).me.g e.c + BitVec.ofNat 64 (8 * j))) 8 = false) ∧ ((x.ops.length < 32) ∧ (footBusy (seen
      s) (latchedOp (seen s) e count (x.issued + 1)) = false))) ∧
  (let e : Enc := cpy2ds;
    let s : State := (world .flow);
    let i : Instr := (Instr.cpy2d cpy2ds);
    let count : Nat := 5;
    (i = Instr.cpy e ∧ count = 3 ∨ i = Instr.cpy2d e ∧ count = 5) ∧ (clear i s = true) ∧ ((seen s).engineAt s.cur.site e.fb = none)) :=
  ⟨by and_intros <;> decide +kernel,
    by and_intros <;> decide +kernel,
    by and_intros <;> decide +kernel,
    by and_intros <;> decide +kernel,
    by and_intros <;> decide +kernel,
    by and_intros <;> decide +kernel,
    by and_intros <;> decide +kernel,
    ⟨by and_intros <;> decide +kernel, ⟨by decide +kernel, localWords_of (by decide +kernel), by decide +kernel, ramo_none (by decide +kernel) _ _⟩, by and_intros <;> decide +kernel⟩,
    ⟨by and_intros <;> decide +kernel, ⟨by decide +kernel, localWords_of (by decide +kernel), by decide +kernel, ramo_none (by decide +kernel) _ _⟩, by and_intros <;> decide +kernel⟩,
    by decide +kernel,
    by and_intros <;> decide +kernel,
    ⟨by decide +kernel, localWords_of (by decide +kernel), by decide +kernel⟩,
    by and_intros <;> decide +kernel,
    by and_intros <;> decide +kernel,
    ⟨by and_intros <;> decide +kernel, ⟨by decide +kernel, localWords_of (by decide +kernel), by decide +kernel, ramo_none (by decide +kernel) _ _⟩, by and_intros <;> decide +kernel⟩,
    by and_intros <;> decide +kernel⟩

/-- States and operands that meet the hypotheses of `EngineSteps`, clause by clause. -/
theorem meets_EngineSteps :
  (let n : Nat := 6;
    let s : State := (oneOp (op2 0x800000000080 0));
    let x : Engine := (engine [op2 0x800000000080 0]);
    let o : EOp := (op2 0x800000000080 0);
    let r : List EOp := none0;
    ((s.engine n = some x) ∧ (x.ops = o :: r) ∧ (o.badDesc = true) ∧ (o.phase = 0)) ∧
    (x.away = none → ownBound s x.site)) ∧
  (let n : Nat := 6;
    let s : State := (oneOp (op2 0 0));
    let x : Engine := (engine [op2 0 0]);
    let o : EOp := (op2 0 0);
    let r : List EOp := none0;
    ((s.engine n = some x) ∧ (x.ops = o :: r) ∧ (o.badDesc = false) ∧ (o.len = 0 ∨ o.rows = 0) ∧ (o.phase = 0)) ∧
    (x.away = none → ownBound s x.site)) ∧
  (let n : Nat := 6;
    let s : State := (oneOp (op2 0x41 0));
    let x : Engine := (engine [op2 0x41 0]);
    let o : EOp := (op2 0x41 0);
    let r : List EOp := none0;
    ((s.engine n = some x) ∧ (x.ops = o :: r) ∧ (o.badDesc = false) ∧ (o.len ≠ 0) ∧ (o.rows ≠ 0) ∧ (o.len % 64 ≠ 0 ∨ o.edge % 64 ≠ 0 ∨
      o.local' % 64 ≠ 0) ∧ (o.phase = 0)) ∧
    (x.away = none → ownBound s x.site)) ∧
  (let n : Nat := 6;
    let s : State := (oneOp (opAt 0x2BFFC0 0x80));
    let x : Engine := (engine [opAt 0x2BFFC0 0x80]);
    let o : EOp := (opAt 0x2BFFC0 0x80);
    let r : List EOp := none0;
    ((s.engine n = some x) ∧ (x.ops = o :: r) ∧ (o.badDesc = false ∧ o.len ≠ 0 ∧ o.rows ≠ 0 ∧ o.len % 64 = 0 ∧ o.edge % 64 = 0 ∧ o.local' %
      64 = 0 ∧ o.estride % 64 = 0 ∧ o.lstride % 64 = 0) ∧ (¬(o.kind < 3 → ∀ (j : Nat), j < o.rows → 0 ≤ o.rowLocal j ∧ o.rowLocal j + ↑o.len
      ≤ 2883584)) ∧ (o.phase = 0)) ∧
    (x.away = none → ownBound s x.site)) ∧
  (let n : Nat := 6;
    let s : Machine.State := (oneOp (op2 0x200000080 0));
    let x : Engine := (engine [op2 0x200000080 0]);
    let o : EOp := (op2 0x200000080 0);
    let r : List EOp := none0;
    ((s.engine n = some x) ∧ (x.ops = o :: r) ∧ (o.badDesc = false ∧ o.len ≠ 0 ∧ o.rows ≠ 0 ∧ o.len % 64 = 0 ∧ o.edge % 64 = 0 ∧ o.local' % 64 = 0 ∧
      o.estride % 64 = 0 ∧ o.lstride % 64 = 0) ∧ (o.kind < 3 → ∀ (j : Nat), j < o.rows → 0 ≤ o.rowLocal j ∧ o.rowLocal j + ↑o.len ≤ 2883584) ∧ (2 ≤
      o.kind) ∧ (capCheckIn s (s.getTgt (engineTile s x)).vni o.cap 0 (if o.kind = 3 then some o.chan else none) (engineTile s x).site ≠ none) ∧
      (o.phase = 0)) ∧ (x.away = none → ownBound s x.site)) ∧
  (let n : Nat := 6;
    let s : Machine.State := (oneOp (op2 0x80 0));
    let x : Engine := (engine [op2 0x80 0]);
    let o : EOp := (op2 0x80 0);
    let r : List EOp := none0;
    ((s.engine n = some x) ∧ (x.ops = o :: r) ∧ (o.badDesc = false ∧ o.len ≠ 0 ∧ o.rows ≠ 0 ∧ o.len % 64 = 0 ∧ o.edge % 64 = 0 ∧ o.local' % 64 = 0 ∧
      o.estride % 64 = 0 ∧ o.lstride % 64 = 0) ∧ (o.kind < 3 → ∀ (j : Nat), j < o.rows → 0 ≤ o.rowLocal j ∧ o.rowLocal j + ↑o.len ≤ 2883584) ∧ (2 ≤
      o.kind → capCheckIn s (s.getTgt (engineTile s x)).vni o.cap 0 (if o.kind = 3 then some o.chan else none) (engineTile s x).site = none) ∧
      (o.phase = 0)) ∧ (x.away = none → ownBound s x.site)) ∧
  (let n : Nat := 6;
    let s : State := (mapMoves (oneOp (op2 0x80 0)));
    let x : Engine := (engine [op2 0x80 0]);
    let o : EOp := (op2 0x80 0);
    let r : List EOp := none0;
    let d : Site := (⟨0, 0⟩ : Site);
    (s.engine n = some x) ∧ (x.ops = o :: r) ∧ (o.phase = 0) ∧ (x.away = none) ∧ (resolve (s.tile x.site) (s.tile x.site).name =
      Entry.moving d)) ∧
  (let n : Nat := 6;
    let s : State := (oneOp (op2 0x80 2));
    let x : Engine := (engine [op2 0x80 2]);
    let o : EOp := (op2 0x80 2);
    let r : List EOp := none0;
    (s.engine n = some x) ∧ (x.ops = o :: r) ∧ (¬nextContext s (n / 16) = some n)) ∧
  (let n : Nat := 6;
    let s : State := (oneOp (op2 0x80 1));
    let x : Engine := (engine [op2 0x80 1]);
    let o : EOp := (op2 0x80 1);
    let r : List EOp := none0;
    let pa : Nat := 0x204000;
    ((s.engine n = some x) ∧ (x.ops = o :: r)) ∧
    (x.away = none ∧ ownBound s x.site ∧ (s.tile x.site).vni ∈ (s.tile x.site).router.transit) ∧
    ((nextContext s (n / 16) = some n) ∧ (o.phase = 1) ∧ (x.fault = none) ∧ (o.moved = 0) ∧ (o.poisoned = false) ∧ (o.rows = 1) ∧ (o.len %
      64 = 0) ∧ (0 < o.len) ∧ (o.edge % 64 = 0) ∧ (o.edge % 4096 + o.len ≤ 4096) ∧ (o.kind < 2) ∧ (s.edgePoison = []) ∧ ((s.tile
      x.site).poison = [])) ∧
    (MemsWf s) ∧
    (∀ (j : Nat), j < o.len / 64 → translate s x.pasid (o.edge + 64 * j) (o.kind == 1) = some (pa + 64 * j, false)) ∧
    (∀ (g : Nat), regionOf pa ≤ g → g ≤ regionOf (pa + o.len - 1) → (s.own g).owner = Owner.fabric ∧ (s.own g).waiting = [])) ∧
  (let n : Nat := 6;
    let s : State := (unmapped (oneOp (op2 0x80 1)));
    let x : Engine := (engine [op2 0x80 1]);
    let o : EOp := (op2 0x80 1);
    let r : List EOp := none0;
    ((s.engine n = some x) ∧ (x.ops = o :: r)) ∧
    (x.away = none ∧ ownBound s x.site ∧ (s.tile x.site).vni ∈ (s.tile x.site).router.transit) ∧
    ((nextContext s (n / 16) = some n) ∧ (o.phase = 1) ∧ (x.fault = none) ∧ (o.moved = 0) ∧ (o.rows = 1) ∧ (0 < o.len) ∧ (o.edge % 64 = 0) ∧
      (o.kind < 2) ∧ (translate s x.pasid o.edge (o.kind == 1) = none))) ∧
  (let n : Nat := 6;
    let s : Machine.State := (leafless (copying (faulted (op2 0x80 1)) 0));
    let x : Engine := (faulted (op2 0x80 1));
    let o : EOp := (op2 0x80 1);
    let r : List EOp := none0;
    let a : Nat := 0x4000;
    let pasid : Nat := x.pasid;
    let va : Nat := 0x4000;
    let page : Nat := 0x204000;
    let len : Nat := 4096;
    let rd : Bool := true;
    let wr : Bool := true;
    let pa : Nat := 0x204000;
    ((s.engine n = some x) ∧ (x.ops = o :: r) ∧ (x.fault = some a)) ∧ (x.away = none → ownBound s x.site) ∧ ((apart (mapPage s pasid va page len rd
      wr) = true) ∧ (translate (mapPage s pasid va page len rd wr) x.pasid a (o.kind == 1) = some (pa, false)))) ∧
  (let n : Nat := 6;
    let s : Machine.State := (unmapped (copying (faulted (op2 0x80 1)) 0));
    let x : Engine := (faulted (op2 0x80 1));
    let o : EOp := (op2 0x80 1);
    let r : List EOp := none0;
    let a : Nat := 0x4000;
    let pasid : Nat := x.pasid;
    let va : Nat := 0;
    let page : Nat := 0;
    let len : Nat := 0;
    let rd : Bool := false;
    let wr : Bool := false;
    ((s.engine n = some x) ∧ (x.ops = o :: r) ∧ (x.fault = some a) ∧ (translate (keepApart s (mapPage s pasid va page len rd wr)) x.pasid a (o.kind
      == 1) = none) ∧ (x.away = none)) ∧ (ownBound s x.site) ∧ (∀ (y : AsyncEv), y ∈ (s.tile x.site).flow.async → y.cause ≠ 29)) ∧
  (let n : Nat := 6;
    let s : State := (oneOp (op2 0x80 2));
    let x : Engine := (engine [op2 0x80 2]);
    let o : EOp := (op2 0x80 2);
    let r : List EOp := none0;
    ((s.engine n = some x) ∧ (x.ops = o :: r) ∧ (x.away = none)) ∧
    (ownBound s x.site) ∧
    ((o.phase = 2) ∧ (o.recen = false) ∧ (o.semen = false))) ∧
  (let n : Nat := 6;
    let s : State := (oneOp (op2 0x630000000080 2));
    let x : Engine := (engine [op2 0x630000000080 2]);
    let o : EOp := (op2 0x630000000080 2);
    let r : List EOp := none0;
    ((s.engine n = some x) ∧ (x.ops = o :: r) ∧ (x.away = none)) ∧
    (ownBound s x.site) ∧
    ((o.phase = 2) ∧ (o.recen = true) ∧ (o.semen = true) ∧ ((s.tile x.site).semq = []) ∧ ((s.tile x.site).mem.wf = true) ∧ (BitVec.toNat
      ((s.tile x.site).engctx x.slot) / 2 ^ 6 % 2 ^ 16 * 64 + 16 * (o.ticket % 2 ^ (BitVec.toNat ((s.tile x.site).engctx x.slot) % 16)) + 16
      ≤ 2883584))) ∧
  (let n : Nat := 7;
    let pasid : Nat := 8;
    let site : Site := (⟨0, 0⟩ : Site);
    let slot : Nat := 1;
    let s : Machine.State := (world .flow);
    ((s.tile site).bound = true) ∧ (n < 4096) ∧ (n / 64 = homeNum site) ∧ (slot < 4) ∧ (s.engine n = none) ∧ ((s.tile site).slotValid slot = false)
      ∧ ((s.vdevOf (s.tile site).vni = none ∧ ∀ (d : VDev), d ∈ s.vdevs → ¬n ∈ d.engines ∧ ¬pasid ∈ d.pasids) ∨ ∃ d, s.vdevOf (s.tile site).vni =
      some d ∧ n ∈ d.engines ∧ pasid ∈ d.pasids)) ∧
  (let r : Nat := 1;
    let s : State := (world .flow);
    ((s.own r).owner = Owner.island) ∧ ((s.own r).waiting = [])) ∧
  (let r : Nat := 1;
    let s : State := (oneOp (op2 0 0));
    ((s.own r).owner = Owner.fabric) ∧ ((s.own r).waiting = [])) ∧
  (let r : Nat := 1;
    let s : State := (oneOp (op2 0 0));
    ((s.own r).owner = Owner.fabric) ∧ ((s.own r).waiting = [])) ∧
  (let r : Nat := 1;
    let s : State := { world .flow with owners := [⟨1, .transit true, []⟩] };
    let f : Bool := true;
    ((s.own r).owner = Owner.transit f) ∧
    ((∃ k, k ≠ Accessor.other ∧ (f, k) ∈ (s.own r).waiting) ∨ ∀ (x : Bool × Accessor), x ∈ (s.own r).waiting → x.fst = f)) ∧
  (let r : Nat := 1;
    let s : State := { world .flow with owners := [⟨1, .transit false, [(true, .engine 6)]⟩] };
    let f : Bool := false;
    ((s.own r).owner = Owner.transit f) ∧
    (∀ (k : Accessor), (f, k) ∈ (s.own r).waiting → k = Accessor.other) ∧
    (∃ x, x ∈ (s.own r).waiting ∧ x.fst = !f)) ∧
  (let r : Nat := 2;
    let s : State := (oneOp (op2 0 0));
    let r' : Nat := 1;
    let b : Bool := true;
    let t : State := (after (.ownerTransferStart 2 true) (oneOp (op2 0 0)));
    (r' ≠ r) ∧
    (exec (Instr.ownerTransferStart r b) s = Host.Outcome.next t)) ∧
  (let n : Nat := 6;
    let s : State := (oneOp (op2 0x100000080 1));
    let x : Engine := (engine [op2 0x100000080 1]);
    let o : EOp := (op2 0x100000080 1);
    let r : List EOp := none0;
    let pa : Nat := 0x204000;
    ((s.engine n = some x) ∧ (x.ops = o :: r)) ∧
    (x.away = none ∧ ownBound s x.site ∧ (s.tile x.site).vni ∈ (s.tile x.site).router.transit) ∧
    ((nextContext s (n / 16) = some n) ∧ (o.phase = 1) ∧ (x.fault = none) ∧ (o.moved = 0) ∧ (o.poisoned = false) ∧ (o.rows = 1) ∧ (o.len %
      64 = 0) ∧ (0 < o.len) ∧ (o.edge % 64 = 0) ∧ (o.edge % 4096 + o.len ≤ 4096) ∧ (o.kind < 2) ∧ (s.edgePoison = []) ∧ ((s.tile
      x.site).poison = [])) ∧
    (MemsWf s) ∧
    (∀ (j : Nat), j < o.len / 64 → translate s x.pasid (o.edge + 64 * j) (o.kind == 1) = some (pa + 64 * j, false)) ∧
    (∀ (g : Nat), regionOf pa ≤ g → g ≤ regionOf (pa + o.len - 1) → (s.own g).owner = Owner.fabric ∧ (s.own g).waiting = [])) ∧
  (let r : Nat := 1;
    let s : State := { world .flow with owners := [⟨1, .transit true, [(true, .engine 6), (false, .island 2 0)]⟩] };
    let f : Bool := true;
    ((s.own r).owner = Owner.transit f) ∧
    ((∃ k, k ≠ Accessor.other ∧ (f, k) ∈ (s.own r).waiting) ∨ ∀ (x : Bool × Accessor), x ∈ (s.own r).waiting → x.fst = f)) :=
  ⟨⟨by decide +kernel, fun _ => ownBound_of (by decide +kernel)⟩,
    ⟨by decide +kernel, fun _ => ownBound_of (by decide +kernel)⟩,
    ⟨by decide +kernel, fun _ => ownBound_of (by decide +kernel)⟩,
    ⟨by decide +kernel, fun _ => ownBound_of (by decide +kernel)⟩,
    ⟨by and_intros <;> decide +kernel, fun _ => ownBound_of (by decide +kernel)⟩,
    ⟨by and_intros <;> decide +kernel, fun _ => ownBound_of (by decide +kernel)⟩,
    by and_intros <;> decide +kernel,
    by and_intros <;> decide +kernel,
    ⟨by decide +kernel, ⟨by decide +kernel, ownBound_of (by decide +kernel), by decide +kernel⟩, by decide +kernel, by delta MemsWf TileWf; decide +kernel, by decide +kernel, between_of (by decide +kernel)⟩,
    ⟨by decide +kernel, ⟨by decide +kernel, ownBound_of (by decide +kernel), by decide +kernel⟩, by decide +kernel⟩,
    ⟨by and_intros <;> decide +kernel, fun _ => ownBound_of (by decide +kernel), by and_intros <;> decide +kernel⟩,
    ⟨by and_intros <;> decide +kernel, ownBound_of (by decide +kernel), by decide +kernel⟩,
    ⟨by decide +kernel, ownBound_of (by decide +kernel), by decide +kernel⟩,
    ⟨by decide +kernel, ownBound_of (by decide +kernel), by decide +kernel⟩,
    by and_intros <;> decide +kernel,
    by and_intros <;> decide +kernel,
    by and_intros <;> decide +kernel,
    by and_intros <;> decide +kernel,
    ⟨by decide +kernel, .inr (by decide +kernel)⟩,
    ⟨by decide +kernel, accessor_of (by decide +kernel), by decide +kernel⟩,
    ⟨by decide +kernel, next_of (by decide +kernel)⟩,
    ⟨by decide +kernel, ⟨by decide +kernel, ownBound_of (by decide +kernel), by decide +kernel⟩, by decide +kernel, by delta MemsWf TileWf; decide +kernel, by decide +kernel, between_of (by decide +kernel)⟩,
    ⟨by decide +kernel, .inl ⟨.engine 6, by decide +kernel, by decide +kernel⟩⟩⟩

/-- States and operands that meet the hypotheses of `PagesTranslate`, clause by clause. -/
theorem meets_PagesTranslate :
  (let s : Machine.State := (oneOp (op2 0x80 1));
    let r : PageRoot := (⟨8, false, 1⟩ : PageRoot);
    let va : Nat := 0x4010;
    let page : Nat → Nat := (fun l => 4 - l);
    let pte : Nat → W := (fun l => [0x810C7, 0x1001, 0xC01, 0x801].getD l 0);
    let k : Nat := 0;
    ((List.find? (fun x => x.pasid == r.pasid) s.pasids = some r) ∧ (r.sv57 = false) ∧ (va < 2 ^ 47) ∧ (k ≤ 2) ∧ (page 3 = r.root)) ∧ (∀ (l : Nat),
      k ≤ l → l ≤ 3 → lookup s.tables (4096 * page l + 8 * (va / 2 ^ (12 + 9 * l) % 512)) = some (pte l)) ∧ (∀ (l : Nat), k < l → l ≤ 3 →
      BitVec.toNat (pte l) % 32 = 1 ∧ BitVec.toNat (pte l) / 2 ^ 6 % 4 = 0 ∧ BitVec.toNat (pte l) / 2 ^ 10 = page (l - 1) ∧ page (l - 1) < 2 ^ 44) ∧
      ((BitVec.getLsbD (pte k) 0 = true) ∧ (BitVec.getLsbD (pte k) 1 = true) ∧ (BitVec.toNat (pte k) / 2 ^ 54 = 0) ∧ (BitVec.toNat (pte k) / 2 ^ 10
      % 2 ^ 44 % 2 ^ (9 * k) = 0) ∧ (4096 * (BitVec.toNat (pte k) / 2 ^ 10 % 2 ^ 44) + va % 2 ^ (12 + 9 * k) < 3298534883328))) ∧
  (let s : Machine.State := reservedPage;
    let r : PageRoot := (⟨8, false, 1⟩ : PageRoot);
    let va : Nat := 0x4010;
    let page : Nat → Nat := (fun l => 4 - l);
    let pte : Nat → W := (fun l => [0x400000000810C7, 0x1001, 0xC01, 0x801].getD l 0);
    let k : Nat := 0;
    ((List.find? (fun x => x.pasid == r.pasid) s.pasids = some r) ∧ (r.sv57 = false) ∧ (va < 2 ^ 47) ∧ (k ≤ 2) ∧ (page 3 = r.root)) ∧ (∀ (l : Nat),
      k ≤ l → l ≤ 3 → lookup s.tables (4096 * page l + 8 * (va / 2 ^ (12 + 9 * l) % 512)) = some (pte l)) ∧ (∀ (l : Nat), k < l → l ≤ 3 →
      BitVec.toNat (pte l) % 32 = 1 ∧ BitVec.toNat (pte l) / 2 ^ 6 % 4 = 0 ∧ BitVec.toNat (pte l) / 2 ^ 10 = page (l - 1) ∧ page (l - 1) < 2 ^ 44) ∧
      (BitVec.toNat (pte k) / 2 ^ 54 ≠ 0)) ∧
  (let s : Machine.State := bigPage;
    let r : PageRoot := (⟨8, false, 1⟩ : PageRoot);
    let va : Nat := 0x204010;
    let page : Nat → Nat := (fun l => 4 - l);
    let pte : Nat → W := (fun l => [0, 0x1000C3, 0xC01, 0x801].getD l 0);
    let k : Nat := 1;
    ((List.find? (fun x => x.pasid == r.pasid) s.pasids = some r) ∧ (r.sv57 = false) ∧ (va < 2 ^ 47) ∧ (k ≤ 2) ∧ (page 3 = r.root)) ∧ (∀ (l : Nat),
      k ≤ l → l ≤ 3 → lookup s.tables (4096 * page l + 8 * (va / 2 ^ (12 + 9 * l) % 512)) = some (pte l)) ∧ (∀ (l : Nat), k < l → l ≤ 3 →
      BitVec.toNat (pte l) % 32 = 1 ∧ BitVec.toNat (pte l) / 2 ^ 6 % 4 = 0 ∧ BitVec.toNat (pte l) / 2 ^ 10 = page (l - 1) ∧ page (l - 1) < 2 ^ 44) ∧
      ((BitVec.getLsbD (pte k) 0 = true) ∧ (BitVec.getLsbD (pte k) 1 = true) ∧ (BitVec.toNat (pte k) / 2 ^ 54 = 0) ∧ (BitVec.toNat (pte k) / 2 ^ 10
      % 2 ^ 44 % 2 ^ (9 * k) = 0) ∧ (4096 * (BitVec.toNat (pte k) / 2 ^ 10 % 2 ^ 44) + va % 2 ^ (12 + 9 * k) < 3298534883328))) :=
  ⟨⟨by and_intros <;> decide +kernel, between_of (by decide +kernel), between_of (lo := 0 + 1) (by decide +kernel), by and_intros <;> decide +kernel⟩,
    ⟨by and_intros <;> decide +kernel, between_of (by decide +kernel), between_of (lo := 0 + 1) (by decide +kernel), by decide +kernel⟩,
    ⟨by and_intros <;> decide +kernel, between_of (by decide +kernel), between_of (lo := 1 + 1) (by decide +kernel), by and_intros <;> decide +kernel⟩⟩

/-- States and operands that meet the hypotheses of `CollectiveForms`, clause by clause. -/
theorem meets_CollectiveForms :
  (let e : Enc := (word .cbegin 1 2 0);
    let s : State := (meet sum2 0x1000 (has1 (part 2 true 0)));
    (clear (Instr.cbegin e) s = true) ∧
    (inProgress (seen s).me)) ∧
  (let e : Enc := (word .cbegin 1 2 0);
    let s : State := (meet sumBad 0x1000);
    let d : List W := sumBad;
    let l : List (BitVec 32) := noList;
    (clear (Instr.cbegin e) s = true) ∧
    (¬inProgress (seen s).me) ∧
    (cached (seen s).here (BitVec.toNat ((seen s).me.g e.b)) = none) ∧
    (descReads (seen s) ((seen s).me.g e.b) false d l) ∧
    (localCheck (seen s) d l false ≠ 0)) ∧
  (let e : Enc := (word .cbegin 1 2 0);
    let s : State := (meet sumOther 0x1000);
    let d : List W := sumOther;
    let l : List (BitVec 32) := noList;
    (clear (Instr.cbegin e) s = true) ∧
    (¬inProgress (seen s).me) ∧
    (cached (seen s).here (BitVec.toNat ((seen s).me.g e.b)) = none) ∧
    (descReads (seen s) ((seen s).me.g e.b) false d l) ∧
    (localCheck (seen s) d l false ≠ 0)) ∧
  (let e : Enc := (word .cbegin 1 2 0);
    let s : State := (meet sum2 0x1000);
    let d : List W := sum2;
    let l : List (BitVec 32) := noList;
    (clear (Instr.cbegin e) s = true) ∧
    (¬inProgress (seen s).me) ∧
    (cached (seen s).here (BitVec.toNat ((seen s).me.g e.b)) = none) ∧
    (descReads (seen s) ((seen s).me.g e.b) false d l) ∧
    (localCheck (seen s) d l false = 0)) ∧
  (let e : Enc := (word .cbegin 1 2 0);
    let s : State := (caching (meet sum2 0x1000 (has1 (part 4 true 0))));
    let x : CbCache := (⟨0x1000, sum2, []⟩ : CbCache);
    (clear (Instr.cbegin e) s = true) ∧
    (¬inProgress (seen s).me) ∧
    ((cached (seen s).here (BitVec.toNat ((seen s).me.g e.b)) = some x) ∧ (localCheck (seen s) x.words x.members false = 0))) ∧
  (let e : Enc := (word .cbegin 1 2 0);
    let s : State := (cachingOther (meet sum2 0x1000 (has1 (part 4 true 0))));
    let x : CbCache := (⟨0x1000, sumOther, []⟩ : CbCache);
    (clear (Instr.cbegin e) s = true) ∧
    (¬inProgress (seen s).me) ∧
    ((cached (seen s).here (BitVec.toNat ((seen s).me.g e.b)) = some x) ∧ (localCheck (seen s) x.words x.members false ≠ 0))) ∧
  ((let e : Enc := (word .cwait 1 2 0);
    let s : State := (meet sum2 2 (has1 (part 4 true 0)));
    let i : Instr := (Instr.cwait (word .cwait 1 2 0));
    (i = Instr.cwait e ∨ i = Instr.cabort e) ∧ (clear i s = true) ∧ (∀ (y : Coll), (seen s).me.coll = some y → y.seq ≠ BitVec.toNat ((seen
      s).me.g e.b) % 2 ^ 16)) ∧
  (let e : Enc := (word .cabort 1 2 0);
    let s : State := (meet sum2 2 (has1 (part 4 true 0)));
    let i : Instr := (Instr.cabort (word .cabort 1 2 0));
    (i = Instr.cwait e ∨ i = Instr.cabort e) ∧ (clear i s = true) ∧ (∀ (y : Coll), (seen s).me.coll = some y → y.seq ≠ BitVec.toNat ((seen
      s).me.g e.b) % 2 ^ 16)) ∧
  (let e : Enc := (word .cstat 1 2 0);
    let s : State := (meet sum2 2 (has1 (part 4 true 0)));
    (clear (Instr.cstat e) s = true) ∧ (∀ (y : Coll), (seen s).me.coll = some y → y.seq ≠ BitVec.toNat ((seen s).me.g e.b) % 2 ^ 16)) ∧
  (let e : Enc := (word .cwait 1 2 1);
    let s : State := (meet sum2 1 (has1 (part 3 true 1)));
    let y : Coll := (part 3 true 1);
    ((seen s).me.coll = some y) ∧ (y.seq = BitVec.toNat ((seen s).me.g e.b) % 2 ^ 16) ∧ (clear (Instr.cwait e) s = true) ∧ (if e.fc = 0 then
      y.consumed = y.inWords else if e.fc = 1 then y.delivered = y.outWords else y.state = 4 ∨ y.norerun = true ∧ y.delivered = y.outWords)) ∧
  (let e : Enc := (word .cwait 1 2 1);
    let s : State := (meet sum2 1 (has1 (part 5 true 0)));
    let y : Coll := (part 5 true 0);
    ((seen s).me.coll = some y) ∧ (y.seq = BitVec.toNat ((seen s).me.g e.b) % 2 ^ 16) ∧ (clear (Instr.cwait e) s = true) ∧ (¬if e.fc = 0
      then y.consumed = y.inWords else if e.fc = 1 then y.delivered = y.outWords else y.state = 4 ∨ y.norerun = true ∧ y.delivered =
      y.outWords) ∧ (y.state = 5)) ∧
  (let e : Enc := (word .cwait 1 2 0);
    let s : State := (meet sum2 1 (has1 (part 2 true 0)));
    let y : Coll := (part 2 true 0);
    ((seen s).me.coll = some y) ∧ (y.seq = BitVec.toNat ((seen s).me.g e.b) % 2 ^ 16) ∧ (clear (Instr.cwait e) s = true) ∧ (¬if e.fc = 0
      then y.consumed = y.inWords else if e.fc = 1 then y.delivered = y.outWords else y.state = 4 ∨ y.norerun = true ∧ y.delivered =
      y.outWords) ∧ (y.state ≠ 5)) ∧
  (let e : Enc := (word .cabort 1 2 0);
    let s : State := (meet sum2 1 (has1 (part 5 true 0)));
    let y : Coll := (part 5 true 0);
    ((seen s).me.coll = some y) ∧ (y.seq = BitVec.toNat ((seen s).me.g e.b) % 2 ^ 16) ∧ (clear (Instr.cabort e) s = true) ∧ (y.state = 5)) ∧
  (let e : Enc := (word .cabort 1 2 0);
    let s : State := (meet sum2 1 (has1 (part 4 true 0)));
    let y : Coll := (part 4 true 0);
    ((seen s).me.coll = some y) ∧ (y.seq = BitVec.toNat ((seen s).me.g e.b) % 2 ^ 16) ∧ (clear (Instr.cabort e) s = true) ∧ (y.state = 4 ∨
      y.state = 6 ∨ y.state = 3 ∧ y.norerun = true)) ∧
  (let e : Enc := (word .cabort 1 2 0);
    let s : State := (meet sum2 1 (has1 (part 2 true 0)));
    let y : Coll := (part 2 true 0);
    ((seen s).me.coll = some y) ∧ (y.seq = BitVec.toNat ((seen s).me.g e.b) % 2 ^ 16) ∧ (clear (Instr.cabort e) s = true) ∧ (y.state ≠ 4) ∧
      (y.state ≠ 5) ∧ (y.state ≠ 6) ∧ (¬(y.state = 3 ∧ y.norerun = true))) ∧
  (let e : Enc := (word .cstat 1 2 0);
    let s : State := (meet sum2 1 (has1 (part 5 true 0)));
    let y : Coll := (part 5 true 0);
    ((seen s).me.coll = some y) ∧ (y.seq = BitVec.toNat ((seen s).me.g e.b) % 2 ^ 16) ∧ (clear (Instr.cstat e) s = true) ∧ (y.state < 8) ∧
      (y.cause < 16))) :=
  ⟨⟨by decide +kernel, inProgress_of (by decide +kernel)⟩,     ⟨by decide +kernel, idle_of (by decide +kernel), by decide +kernel,
      descReads_none (blockReads_of (by decide +kernel) (by decide +kernel)) (by decide +kernel), by decide +kernel⟩,
      ⟨by decide +kernel, idle_of (by decide +kernel), by decide +kernel, descReads_none (blockReads_of (by decide +kernel)
      (by decide +kernel)) (by decide +kernel), by decide +kernel⟩,     ⟨by decide +kernel, idle_of (by decide +kernel), by decide +kernel,
      descReads_none (blockReads_of (by decide +kernel) (by decide +kernel)) (by decide +kernel), by decide +kernel⟩,
      ⟨by decide +kernel, idle_of (by decide +kernel), by decide +kernel⟩,     ⟨by decide +kernel, idle_of (by decide +kernel),
      by decide +kernel⟩,     by and_intros <;> decide +kernel⟩

/-- States and operands that meet the hypotheses of `CollectiveJoins`, clause by clause. -/
theorem meets_CollectiveJoins :
  (let c : CoreId := c00;
    let s : State := (asks sumNone [] none);
    let d : List W := sumNone;
    let l : List (BitVec 32) := noList;
    let addr : Nat := 0x1000;
    let keep : Bool := true;
    ((s.core c).req = some (Req.join d l addr keep)) ∧
    (∀ (x : Inst), x ∈ s.insts → ¬openFor s c (s.tile c.site).vni (dGroup d) x) ∧
    ((membersOf s (s.tile c.site).vni d l = none) ∧ ((s.core c).ans = none))) ∧
  (let c : CoreId := c00;
    let s : State := (asks sum2 lostOnes none);
    let d : List W := sum2;
    let l : List (BitVec 32) := noList;
    let addr : Nat := 0x1000;
    let keep : Bool := true;
    let ms : List CoreId := mem2;
    ((s.core c).req = some (Req.join d l addr keep)) ∧
    (∀ (x : Inst), x ∈ s.insts → ¬openFor s c (s.tile c.site).vni (dGroup d) x) ∧
    ((membersOf s (s.tile c.site).vni d l = some ms) ∧ (256 ≤ List.countP (fun x => (x.state == 5 || x.state == 6) && !retired s x) s.insts)
      ∧ ((s.core c).ans = none))) ∧
  (let c : CoreId := c00;
    let s : State := (asks sum2 [] none);
    let d : List W := sum2;
    let l : List (BitVec 32) := noList;
    let addr : Nat := 0x1000;
    let keep : Bool := true;
    let ms : List CoreId := mem2;
    ((s.core c).req = some (Req.join d l addr keep)) ∧
    (∀ (x : Inst), x ∈ s.insts → ¬openFor s c (s.tile c.site).vni (dGroup d) x) ∧
    ((membersOf s (s.tile c.site).vni d l = some ms) ∧ (c ∈ ms) ∧ (2 ≤ ms.length) ∧ (List.countP (fun x => (x.state == 5 || x.state == 6) &&
      !retired s x) s.insts < 256) ∧ ((s.core c).ans = none))) ∧
  (let c : CoreId := c00;
    let s : State := (asks sumBad [inst 1 [1] [1] []] none);
    let d : List W := sumBad;
    let l : List (BitVec 32) := noList;
    let addr : Nat := 0x1000;
    let keep : Bool := true;
    let x : Inst := (inst 1 [1] [1] []);
    let l1 : List Inst := noInsts;
    let l2 : List Inst := noInsts;
    (((s.core c).req = some (Req.join d l addr keep)) ∧ (s.insts = l1 ++ x :: l2)) ∧
    (∀ (y : Inst), y ∈ l1 → ¬openFor s c (s.tile c.site).vni (dGroup d) y) ∧
    (openFor s c (s.tile c.site).vni (dGroup d) x) ∧
    ((x.desc ≠ d ∨ x.list ≠ l) ∧ ((s.core c).ans = none))) ∧
  (let c : CoreId := c00;
    let s : State := (asks sum2 [inst 5 [1] [1] []] none);
    let d : List W := sum2;
    let l : List (BitVec 32) := noList;
    let addr : Nat := 0x1000;
    let keep : Bool := true;
    let x : Inst := (inst 5 [1] [1] []);
    let l1 : List Inst := noInsts;
    let l2 : List Inst := noInsts;
    (((s.core c).req = some (Req.join d l addr keep)) ∧ (s.insts = l1 ++ x :: l2)) ∧
    (∀ (y : Inst), y ∈ l1 → ¬openFor s c (s.tile c.site).vni (dGroup d) y) ∧
    (openFor s c (s.tile c.site).vni (dGroup d) x) ∧
    ((x.desc = d) ∧ (x.list = l) ∧ (x.state = 5) ∧ ((s.core c).ans = none))) ∧
  (let c : CoreId := c00;
    let s : State := (asks sum2 [inst 6 [1] [1] []] none);
    let d : List W := sum2;
    let l : List (BitVec 32) := noList;
    let addr : Nat := 0x1000;
    let keep : Bool := true;
    let x : Inst := (inst 6 [1] [1] []);
    let l1 : List Inst := noInsts;
    let l2 : List Inst := noInsts;
    (((s.core c).req = some (Req.join d l addr keep)) ∧ (s.insts = l1 ++ x :: l2)) ∧
    (∀ (y : Inst), y ∈ l1 → ¬openFor s c (s.tile c.site).vni (dGroup d) y) ∧
    (openFor s c (s.tile c.site).vni (dGroup d) x) ∧
    ((x.desc = d) ∧ (x.list = l) ∧ (x.state = 6) ∧ ((s.core c).ans = none))) ∧
  (let c : CoreId := c00;
    let s : State := (asks sum2 [inst 1 [1] [1] []] none);
    let d : List W := sum2;
    let l : List (BitVec 32) := noList;
    let addr : Nat := 0x1000;
    let keep : Bool := true;
    let x : Inst := (inst 1 [1] [1] []);
    let l1 : List Inst := noInsts;
    let l2 : List Inst := noInsts;
    (((s.core c).req = some (Req.join d l addr keep)) ∧ (s.insts = l1 ++ x :: l2)) ∧
    (∀ (y : Inst), y ∈ l1 → ¬openFor s c (s.tile c.site).vni (dGroup d) y) ∧
    (openFor s c (s.tile c.site).vni (dGroup d) x) ∧
    ((x.desc = d) ∧ (x.list = l) ∧ (x.state = 1) ∧ ((s.core c).ans = none))) ∧
  (let c : CoreId := c00;
    let s : Machine.State := (asks sum2 [inst 2 [1, 0] [1, 0] [[], []]] (some 0x800000000000FFFF));
    let d : List W := sum2;
    let l : List (BitVec 32) := noList;
    let addr : Nat := 0x1000;
    let keep : Bool := true;
    let x : W := (0x800000000000FFFF : W);
    let e : Enc := (word .cbegin 1 2 0);
    let sites : List (Nat × Site) := ([] : List (Nat × Site));
    let more : List Nat := noNat;
    ((s.core c).req = some (Req.join d l addr keep)) ∧ ((s.core c).ans = some x) ∧ ((s.core c).wait = some
      { i := Instr.cbegin e, tag := 0, done := true, sites := sites, more := more })) ∧
  (let s : State := twoAsk;
    let t : State := (after (.collectiveJoinRequest [c00]) twoAsk);
    let c : CoreId := c00;
    let c' : CoreId := c10;
    let d : List W := sum2;
    let d' : List W := sum2b;
    let l : List (BitVec 32) := noList;
    let l' : List (BitVec 32) := noList;
    let a : Nat := 0x1000;
    let a' : Nat := 0x1000;
    let k : Bool := true;
    let k' : Bool := true;
    (((s.core c).req = some (Req.join d l a k)) ∧ ((s.core c').req = some (Req.join d' l' a' k')) ∧ ((s.tile c.site).vni < 4096) ∧ ((s.tile
      c'.site).vni < 4096) ∧ ((s.nextSeq (s.tile c.site).vni (dGroup d)).toNat < (s.nextSeq (s.tile c'.site).vni (dGroup d')).toNat ∨
      (s.nextSeq (s.tile c.site).vni (dGroup d)).toNat = (s.nextSeq (s.tile c'.site).vni (dGroup d')).toNat ∧ (s.tile c.site).vni < (s.tile
      c'.site).vni)) ∧
    (exec (Instr.collectiveJoinRequest [c]) s = Host.Outcome.next t)) ∧
  (let s : Machine.State := twoAsk;
    let t : Machine.State := (after (.collectiveJoinRequest [c00]) twoAsk);
    let c : CoreId := c00;
    let c' : CoreId := c10;
    let d : List W := sum2;
    let d' : List W := sum2b;
    let l : List (BitVec 32) := noList;
    let l' : List (BitVec 32) := noList;
    let a : Nat := 0x1000;
    let a' : Nat := 0x1000;
    let k : Bool := true;
    let k' : Bool := true;
    (((s.core c).req = some (Req.join d l a k)) ∧ ((s.core c').req = some (Req.join d' l' a' k')) ∧ ((s.tile c.site).vni < 4096) ∧ ((s.tile
      c'.site).vni < 4096) ∧ ((s.nextSeq (s.tile c.site).vni (dGroup d)).toNat < (s.nextSeq (s.tile c'.site).vni (dGroup d')).toNat ∨ (s.nextSeq
      (s.tile c.site).vni (dGroup d)).toNat = (s.nextSeq (s.tile c'.site).vni (dGroup d')).toNat ∧ (s.tile c.site).vni < (s.tile c'.site).vni)) ∧
      (exec (Instr.collectiveJoinRequest [c]) s = Host.Outcome.next t)) :=
  ⟨⟨by decide +kernel, by delta openFor; decide +kernel, by decide +kernel⟩,
    ⟨by decide +kernel, by delta openFor; decide +kernel, by decide +kernel⟩,
    ⟨by decide +kernel, by delta openFor; decide +kernel, by decide +kernel⟩,
    ⟨by decide +kernel, by delta openFor; decide +kernel, by delta openFor; decide +kernel, by decide +kernel⟩,
    ⟨by decide +kernel, by delta openFor; decide +kernel, by delta openFor; decide +kernel, by decide +kernel⟩,
    ⟨by decide +kernel, by delta openFor; decide +kernel, by delta openFor; decide +kernel, by decide +kernel⟩,
    ⟨by decide +kernel, by delta openFor; decide +kernel, by delta openFor; decide +kernel, by decide +kernel⟩,
    by and_intros <;> decide +kernel,
    ⟨by decide +kernel, next_of (by decide +kernel)⟩,
    ⟨by and_intros <;> decide +kernel, next_of (by decide +kernel)⟩⟩

/-- States and operands that meet the hypotheses of `CollectiveSteps`, clause by clause. -/
theorem meets_CollectiveSteps :
  (let d : List W := sum2;
    let ws : List W := [(5 : W), (0xFFFFFFFFFFFFFFFE : W)];
    (dType d = 3) ∧ (dOp d = 0) ∧ (ws ≠ [])) ∧
  (let s : State := (runsAt (inst 2 [0,1] [0,1] [[], []]) (y2 2) id);
    let x : Inst := (inst 2 [0,1] [0,1] [[], []]);
    let c : CoreId := c00;
    let rank : Nat := 0;
    let y : Coll := (y2 2);
    let v : W := (7 : W);
    let rest : List W := noRest;
    (x ∈ s.insts) ∧ (∀ (z : Inst), z ∈ s.insts → z.vni = x.vni → z.group = x.group → z.seq = x.seq → z = x) ∧ (x.members[rank]? = some c) ∧
      (x.members.Nodup) ∧ ((s.liveCore c).coll = some y) ∧ (y.vni = x.vni) ∧ (y.group = x.group) ∧ (y.seq = x.seq.toNat) ∧ (y.usable = true)
      ∧ (x.state = 2) ∧ (y.state = 2) ∧ ((s.liveCore c).inj = v :: rest) ∧ ((s.liveCore c).ext = []) ∧ (x.contrib.length = x.members.length)
      ∧ (x.contrib[rank]? = some []) ∧ (x.results = []) ∧ (x.given = []) ∧ (0 < dElems x.desc)) ∧
  (let s : State := (runsAt done5 (y2 2) id);
    let x : Inst := done5;
    let c : CoreId := c00;
    let rank : Nat := 0;
    let y : Coll := (y2 2);
    (x ∈ s.insts) ∧ (∀ (z : Inst), z ∈ s.insts → z.vni = x.vni → z.group = x.group → z.seq = x.seq → z = x) ∧ (x.members[rank]? = some c) ∧
      (x.members.Nodup) ∧ ((s.liveCore c).coll = some y) ∧ (y.vni = x.vni) ∧ (y.group = x.group) ∧ (y.seq = x.seq.toNat) ∧ (y.usable = true)
      ∧ (x.state = 5) ∧ ((s.core c).ans = none) ∧ (y.state ≠ 5) ∧ (y.state ≠ 6)) ∧
  (let s : State := (runsAt done5 (y2 2) (aborts none));
    let x : Inst := done5;
    let c : CoreId := c00;
    let rank : Nat := 0;
    let y : Coll := (y2 2);
    let n : Nat := 0xFFFF;
    (x ∈ s.insts) ∧ (∀ (z : Inst), z ∈ s.insts → z.vni = x.vni → z.group = x.group → z.seq = x.seq → z = x) ∧ (x.members[rank]? = some c) ∧
      (x.members.Nodup) ∧ ((s.liveCore c).coll = some y) ∧ (y.vni = x.vni) ∧ (y.group = x.group) ∧ (y.seq = x.seq.toNat) ∧ (y.usable = true)
      ∧ (s.live c.site = Tgt.tile c.site) ∧ ((s.core c).req = some (Req.abort n)) ∧ ((s.core c).ans = none) ∧ (x.state = 5)) ∧
  (let s : State := (runsAt (inst 4 [0,1] [0,1] []) (y2 3) (aborts none));
    let x : Inst := (inst 4 [0,1] [0,1] []);
    let c : CoreId := c00;
    let rank : Nat := 0;
    let y : Coll := (y2 3);
    let n : Nat := 0xFFFF;
    (x ∈ s.insts) ∧ (∀ (z : Inst), z ∈ s.insts → z.vni = x.vni → z.group = x.group → z.seq = x.seq → z = x) ∧ (x.members[rank]? = some c) ∧
      (x.members.Nodup) ∧ ((s.liveCore c).coll = some y) ∧ (y.vni = x.vni) ∧ (y.group = x.group) ∧ (y.seq = x.seq.toNat) ∧ (y.usable = true)
      ∧ (s.live c.site = Tgt.tile c.site) ∧ ((s.core c).req = some (Req.abort n)) ∧ ((s.core c).ans = none) ∧ (x.state = 4 ∨ x.state = 3 ∧
      dNorerun x.desc = true ∨ x.state = 6)) ∧
  (let s : State := (runsAt (inst 1 [0] [0] []) (y2 1) (aborts none));
    let x : Inst := (inst 1 [0] [0] []);
    let c : CoreId := c00;
    let rank : Nat := 0;
    let y : Coll := (y2 1);
    let n : Nat := 0xFFFF;
    (x ∈ s.insts) ∧ (∀ (z : Inst), z ∈ s.insts → z.vni = x.vni → z.group = x.group → z.seq = x.seq → z = x) ∧ (x.members[rank]? = some c) ∧
      (x.members.Nodup) ∧ ((s.liveCore c).coll = some y) ∧ (y.vni = x.vni) ∧ (y.group = x.group) ∧ (y.seq = x.seq.toNat) ∧ (y.usable = true)
      ∧ (s.live c.site = Tgt.tile c.site) ∧ ((s.core c).req = some (Req.abort n)) ∧ ((s.core c).ans = none) ∧ (x.state = 1 ∨ x.state = 2 ∨
      x.state = 3 ∧ dNorerun x.desc = false)) ∧
  (let s : Machine.State := (runsAt done5 (y2 2) (aborts (some 0)));
    let x : Inst := done5;
    let c : CoreId := c00;
    let rank : Nat := 0;
    let y : Coll := (y2 2);
    let n : Nat := 0xFFFF;
    let e : Enc := (word .cabort 1 2 0);
    let v : W := (0 : W);
    let sites : List (Nat × Site) := ([] : List (Nat × Site));
    let more : List Nat := noNat;
    (x ∈ s.insts) ∧ (∀ (z : Inst), z ∈ s.insts → z.vni = x.vni → z.group = x.group → z.seq = x.seq → z = x) ∧ (x.members[rank]? = some c) ∧
      (x.members.Nodup) ∧ ((s.liveCore c).coll = some y) ∧ (y.vni = x.vni) ∧ (y.group = x.group) ∧ (y.seq = x.seq.toNat) ∧ (y.usable = true) ∧
      (s.live c.site = Tgt.tile c.site) ∧ ((s.core c).req = some (Req.abort n)) ∧ ((s.core c).ans = some v) ∧ ((s.core c).wait = some
      { i := Instr.cabort e, tag := 0, done := true, sites := sites, more := more })) ∧
  (let s : State := (runsAt (inst 1 [1] [1] []) (y2 1) id);
    let x : Inst := (inst 1 [1] [1] []);
    let c : CoreId := c00;
    let rank : Nat := 0;
    let y : Coll := (y2 1);
    let waited : Nat := 1025;
    (x ∈ s.insts) ∧ (∀ (z : Inst), z ∈ s.insts → z.vni = x.vni → z.group = x.group → z.seq = x.seq → z = x) ∧ (x.members[rank]? = some c) ∧
      (x.members.Nodup) ∧ ((s.liveCore c).coll = some y) ∧ (y.vni = x.vni) ∧ (y.group = x.group) ∧ (y.seq = x.seq.toNat) ∧ (y.usable = true)
      ∧ (x.state = 1) ∧ (x.group < 65536) ∧ (dTimeout x.desc ≠ 0) ∧ (256 * dTimeout x.desc < waited) ∧ (∃ j, j < x.members.length ∧ ¬j ∈
      x.joined)) ∧
  (let s : State := (runsAt (inst 1 [1] [1] []) (y2 1) id);
    let x : Inst := (inst 1 [1] [1] []);
    let c : CoreId := c00;
    let rank : Nat := 0;
    let y : Coll := (y2 1);
    let waited : Nat := 1024;
    (x ∈ s.insts) ∧ (∀ (z : Inst), z ∈ s.insts → z.vni = x.vni → z.group = x.group → z.seq = x.seq → z = x) ∧ (x.members[rank]? = some c) ∧
      (x.members.Nodup) ∧ ((s.liveCore c).coll = some y) ∧ (y.vni = x.vni) ∧ (y.group = x.group) ∧ (y.seq = x.seq.toNat) ∧ (y.usable = true)
      ∧ (x.state = 1) ∧ (x.group < 65536) ∧ (dTimeout x.desc ≠ 0) ∧ (waited ≤ 256 * dTimeout x.desc)) ∧
  (let s : Machine.State := (runsAt (inst 2 [0,1] [0,1] [[5],[]]) (y2 2) id);
    let x : Inst := (inst 2 [0,1] [0,1] [[5],[]]);
    let c : CoreId := c00;
    let rank : Nat := 0;
    let y : Coll := (y2 2);
    let waited : Nat := 1025;
    (x ∈ s.insts) ∧ (∀ (z : Inst), z ∈ s.insts → z.vni = x.vni → z.group = x.group → z.seq = x.seq → z = x) ∧ (x.members[rank]? = some c) ∧
      (x.members.Nodup) ∧ ((s.liveCore c).coll = some y) ∧ (y.vni = x.vni) ∧ (y.group = x.group) ∧ (y.seq = x.seq.toNat) ∧ (y.usable = true) ∧
      (x.state = 2) ∧ (dTimeout x.desc ≠ 0) ∧ (256 * dTimeout x.desc < waited) ∧ (∃ z, z ∈ x.contrib ∧ z ≠ []) ∧ (∃ j, j < x.members.length ∧ ¬(fun
      j => x.contrib.getD j [] ≠ [] ∨ ∃ m, Inst.member s x j = some m ∧ (s.liveCore m).inj ≠ []) j)) ∧
  (let s : Machine.State := (runsAt (inst 2 [0, 1] [0, 1] [[5], [6]]) (y2 2) id);
    let x : Inst := (inst 2 [0, 1] [0, 1] [[5], [6]]);
    let c : CoreId := c00;
    let rank : Nat := 0;
    let y : Coll := (y2 2);
    let waited : Nat := 1025;
    ((x ∈ s.insts) ∧ (∀ (z : Inst), z ∈ s.insts → z.vni = x.vni → z.group = x.group → z.seq = x.seq → z = x) ∧ (x.members[rank]? = some c) ∧
      (x.members.Nodup) ∧ ((s.liveCore c).coll = some y) ∧ (y.vni = x.vni) ∧ (y.group = x.group) ∧ (y.seq = x.seq.toNat) ∧ (y.usable = true) ∧
      (x.state = 2) ∧ (dTimeout x.desc ≠ 0) ∧ (256 * dTimeout x.desc < waited) ∧ (∃ z, z ∈ x.contrib ∧ z ≠ [])) ∧ (∀ (j : Nat), j < x.members.length
      → (fun j => x.contrib.getD j [] ≠ [] ∨ ∃ m, Inst.member s x j = some m ∧ (s.liveCore m).inj ≠ []) j)) :=
  ⟨by and_intros <;> decide +kernel,
    by and_intros <;> decide +kernel,
    by and_intros <;> decide +kernel,
    by and_intros <;> decide +kernel,
    by and_intros <;> decide +kernel,
    by and_intros <;> decide +kernel,
    by and_intros <;> decide +kernel,
    by and_intros <;> decide +kernel,
    by and_intros <;> decide +kernel,
    by and_intros <;> decide +kernel,
    ⟨by and_intros <;> decide +kernel, by decide +kernel⟩⟩

/-- States and operands that meet the hypotheses of `BarrierForms`, clause by clause. -/
theorem meets_BarrierForms :
  (let e : Enc := barArrs;
    let s : State := (meet sum2 0x1000);
    let i : Instr := (Instr.bararr barArrs);
    let d : List W := sum2;
    let l : List (BitVec 32) := noList;
    ((i = Instr.bararr e ∨ i = Instr.barsync e ∧ (seen s).me.arrival e.immHigh = none) ∧ (clear i s = true) ∧ (e.immHigh < 64)) ∧
    (descReads (seen s) ((seen s).me.g e.b) true d l) ∧
    (localCheck (seen s) d l true ≠ 0)) ∧
  (let e : Enc := barArrs;
    let s : Machine.State := (meet bar2 0x1000 (gen arrived4));
    let i : Instr := (Instr.bararr barArrs);
    let d : List W := bar2;
    let l : List (BitVec 32) := noList;
    ((i = Instr.bararr e ∨ i = Instr.barsync e ∧ (seen s).me.arrival e.immHigh = none) ∧ (clear i s = true) ∧ (e.immHigh < 64)) ∧ (descReads (seen
      s) ((seen s).me.g e.b) true d l) ∧ ((localCheck (seen s) d l true = 0) ∧ (4 ≤ ((seen s).me.bar e.immHigh).gens.length))) ∧
  (let e : Enc := barArrs;
    let s : Machine.State := (meet bar2 0x1000 (gen arrivals) bankPends);
    let i : Instr := (Instr.bararr barArrs);
    let d : List W := bar2;
    let l : List (BitVec 32) := noList;
    ((i = Instr.bararr e ∨ i = Instr.barsync e ∧ (seen s).me.arrival e.immHigh = none) ∧ (clear i s = true) ∧ (e.immHigh < 64)) ∧ (descReads (seen
      s) ((seen s).me.g e.b) true d l) ∧ ((localCheck (seen s) d l true = 0) ∧ (((seen s).me.bar e.immHigh).gens.length < 4) ∧ (earlierDone (seen s)
      s.cur 3 = false))) ∧
  (let e : Enc := barArrs;
    let s : State := (meet bar2 0x1000 (gen arrivals));
    let i : Instr := (Instr.bararr barArrs);
    let d : List W := bar2;
    let l : List (BitVec 32) := noList;
    ((i = Instr.bararr e ∨ i = Instr.barsync e ∧ (seen s).me.arrival e.immHigh = none) ∧ (clear i s = true) ∧ (e.immHigh < 64)) ∧
    (descReads (seen s) ((seen s).me.g e.b) true d l) ∧
    ((localCheck (seen s) d l true = 0) ∧ (((seen s).me.bar e.immHigh).gens.length < 4) ∧ (earlierDone (seen s) s.cur 3 = true) ∧ (i =
      Instr.bararr e))) ∧
  (let e : Enc := barSyncs;
    let s : State := (meet bar2 0x1000 (gen arrivals));
    let i : Instr := (Instr.barsync barSyncs);
    let d : List W := bar2;
    let l : List (BitVec 32) := noList;
    ((i = Instr.bararr e ∨ i = Instr.barsync e ∧ (seen s).me.arrival e.immHigh = none) ∧ (clear i s = true) ∧ (e.immHigh < 64)) ∧
    (descReads (seen s) ((seen s).me.g e.b) true d l) ∧
    ((localCheck (seen s) d l true = 0) ∧ (((seen s).me.bar e.immHigh).gens.length < 4) ∧ (earlierDone (seen s) s.cur 3 = true) ∧ (i =
      Instr.barsync e))) ∧
  (let e : Enc := (bid (word .barwait 1 2 0));
    let s : State := (meet bar2 3 (gen arrivals));
    let i : Instr := (Instr.barwait (bid (word .barwait 1 2 0)));
    (i = Instr.barwait e ∨ i = Instr.bartry e) ∧ (clear i s = true) ∧ (e.immHigh < 64) ∧ ((BitVec.setWidth 16 ((seen s).me.g e.b) - ((seen
      s).me.bar e.immHigh).ag).toNat < 2 ^ 15)) ∧
  (let e : Enc := (bid (word .barwait 1 2 0));
    let s : State := (meet bar2 2 (gen arrivals));
    (clear (Instr.barwait e) s = true) ∧ (e.immHigh < 64) ∧ (2 ^ 15 ≤ (BitVec.setWidth 16 ((seen s).me.g e.b) - ((seen s).me.bar
      e.immHigh).ag).toNat) ∧ (BitVec.setWidth 16 ((seen s).me.g e.b) ∈ ((seen s).me.bar e.immHigh).gens)) ∧
  (let e : Enc := (bid (word .barwait 1 2 0));
    let s : State := (meet bar2 1 (gen arrivals));
    (clear (Instr.barwait e) s = true) ∧ (e.immHigh < 64) ∧ (2 ^ 15 ≤ (BitVec.setWidth 16 ((seen s).me.g e.b) - ((seen s).me.bar
      e.immHigh).ag).toNat) ∧ (¬BitVec.setWidth 16 ((seen s).me.g e.b) ∈ ((seen s).me.bar e.immHigh).gens)) ∧
  (let e : Enc := barSyncs;
    let s : State := (meet bar2 0x1000 (heldAt 2));
    let h : BitVec 16 := (2 : BitVec 16);
    (clear (Instr.barsync e) s = true) ∧ (e.immHigh < 64) ∧ ((seen s).me.arrival e.immHigh = some h) ∧ (h ∈ ((seen s).me.bar
      e.immHigh).gens)) ∧
  (let e : Enc := barSyncs;
    let s : State := (meet bar2 0x1000 (heldAt 1));
    let h : BitVec 16 := (1 : BitVec 16);
    (clear (Instr.barsync e) s = true) ∧ (e.immHigh < 64) ∧ ((seen s).me.arrival e.immHigh = some h) ∧ (¬h ∈ ((seen s).me.bar
      e.immHigh).gens)) ∧
  (let e : Enc := (bid (word .bartry 1 2 0));
    let s : State := (meet bar2 2 (gen arrivals));
    (clear (Instr.bartry e) s = true) ∧ (e.immHigh < 64) ∧ (2 ^ 15 ≤ (BitVec.setWidth 16 ((seen s).me.g e.b) - ((seen s).me.bar
      e.immHigh).ag).toNat)) ∧
  (let c : CoreId := c00;
    let s : Machine.State := (arriving []);
    let a : BarArr := arr;
    let r : List BarArr := noArr;
    let ms : List CoreId := mem2;
    ((s.liveCore c).barOut = a :: r) ∧ (membersOf s (s.liveTile c.site).vni a.desc a.members = some ms)) ∧
  (let c : CoreId := c00;
    let s : Machine.State := (arriving []);
    let a : BarArr := arr;
    let r : List BarArr := noArr;
    ((s.liveCore c).barOut = a :: r) ∧ (s.barGen (s.liveTile c.site).vni a.id a.gen = none) ∧ (∃ m, m ∈ barMembers s (s.liveTile c.site).vni a.desc
      a.members ∧ m ≠ c) ∧ (∀ (b : BarGen), b ∈ s.barGens → b.vni = (s.liveTile c.site).vni → b.id = a.id → barReady s b = false)) ∧
  (let c : CoreId := c00;
    let s : Machine.State := (arriving [{ bg [c10] none with desc := sum2 }]);
    let a : BarArr := arr;
    let r : List BarArr := noArr;
    let b : BarGen := { bg [c10] none with desc := sum2 };
    ((s.liveCore c).barOut = a :: r) ∧ (s.barGen (s.liveTile c.site).vni a.id a.gen = some b) ∧ (b.status = none) ∧ (b.desc ≠ a.desc ∨ b.list ≠
      a.members)) ∧
  (let c : CoreId := c00;
    let s : State := (arriving [bg [c10] (some 1)]);
    let a : BarArr := arr;
    let r : List BarArr := noArr;
    let b : BarGen := (bg [c10] (some 1));
    let st : Nat := 1;
    ((s.liveCore c).barOut = a :: r) ∧ (s.barGen (s.liveTile c.site).vni a.id a.gen = some b) ∧ (b.status = some st) ∧ (a.gen ∈ ((s.liveCore
      c).bar a.id).gens)) ∧
  (let c : CoreId := c00;
    let s : Machine.State := (arriving [bg [c10] none]);
    let a : BarArr := arr;
    let r : List BarArr := noArr;
    let b : BarGen := (bg [c10] none);
    ((s.liveCore c).barOut = a :: r) ∧ (s.live c.site = Tgt.tile c.site) ∧ (∀ (z : BarGen), z ∈ s.barGens → z.vni = (s.liveTile c.site).vni → z.id =
      a.id → z.status = none → z = b) ∧ (s.barGen (s.liveTile c.site).vni a.id a.gen = some b) ∧ (b.status = none) ∧ (b.desc = a.desc) ∧ (b.list =
      a.members) ∧ (b.members ≠ []) ∧ (∀ (m : CoreId), m ∈ b.members → m = c ∨ m ∈ b.arrived) ∧ ((s.tile c.site).bound = true) ∧ (a.gen ∈ ((s.core
      c).bar a.id).gens) ∧ (∀ (y : BarArr), y ∈ r → ¬(y.id = a.id ∧ y.gen = a.gen))) ∧
  (let e : Enc := barSyncs;
    let s : State := (meet sum2 0x1000);
    let i : Instr := (Instr.barsync barSyncs);
    let d : List W := sum2;
    let l : List (BitVec 32) := noList;
    ((i = Instr.bararr e ∨ i = Instr.barsync e ∧ (seen s).me.arrival e.immHigh = none) ∧ (clear i s = true) ∧ (e.immHigh < 64)) ∧
    (descReads (seen s) ((seen s).me.g e.b) true d l) ∧
    (localCheck (seen s) d l true ≠ 0)) ∧
  (let e : Enc := (bid (word .bartry 1 2 0));
    let s : State := (meet bar2 3 (gen arrivals));
    let i : Instr := (Instr.bartry (bid (word .bartry 1 2 0)));
    (i = Instr.barwait e ∨ i = Instr.bartry e) ∧ (clear i s = true) ∧ (e.immHigh < 64) ∧ ((BitVec.setWidth 16 ((seen s).me.g e.b) - ((seen
      s).me.bar e.immHigh).ag).toNat < 2 ^ 15)) :=
  ⟨⟨by decide +kernel, descReads_none (blockReads_of (by decide +kernel) (by decide +kernel)) (by decide +kernel), by decide +kernel⟩,
    ⟨by and_intros <;> decide +kernel, descReads_none (blockReads_of (by decide +kernel) (by decide +kernel)) (by decide +kernel), by and_intros <;> decide +kernel⟩,
    ⟨by and_intros <;> decide +kernel, descReads_none (blockReads_of (by decide +kernel) (by decide +kernel)) (by decide +kernel), by and_intros <;> decide +kernel⟩,
    ⟨by decide +kernel, descReads_none (blockReads_of (by decide +kernel) (by decide +kernel)) (by decide +kernel), by decide +kernel⟩,
    ⟨by decide +kernel, descReads_none (blockReads_of (by decide +kernel) (by decide +kernel)) (by decide +kernel), by decide +kernel⟩,
    by and_intros <;> decide +kernel,
    by and_intros <;> decide +kernel,
    by and_intros <;> decide +kernel,
    by and_intros <;> decide +kernel,
    by and_intros <;> decide +kernel,
    by and_intros <;> decide +kernel,
    by and_intros <;> decide +kernel,
    by and_intros <;> decide +kernel,
    by and_intros <;> decide +kernel,
    by and_intros <;> decide +kernel,
    by and_intros <;> decide +kernel,
    ⟨by decide +kernel, descReads_none (blockReads_of (by decide +kernel) (by decide +kernel)) (by decide +kernel), by decide +kernel⟩,
    by and_intros <;> decide +kernel⟩

/-- States and operands that meet the hypotheses of `ControlBlocks`, clause by clause. -/
theorem meets_ControlBlocks :
  (let i : Instr := (Instr.cbegin cb1);
    let e : Enc := cb1;
    let s : State := (meet sum2 0x1004);
    let j : Nat := 0;
    let c : Nat := 0x09;
    (clear i s = true) ∧
    (i = Instr.cbegin e ∧ ¬inProgress (seen s).me ∧ cached (seen s).here (BitVec.toNat ((seen s).me.g e.b)) = none ∨ i = Instr.bararr e ∧
      e.immHigh < 64 ∨ i = Instr.barsync e ∧ e.immHigh < 64 ∧ (seen s).me.arrival e.immHigh = none ∨ i = Instr.dpost e) ∧
    ((j < if i = Instr.dpost e then 4 else 3) ∧ (∀ (k : Nat), k < j → addrFault (seen s) (BitVec.toNat ((fun j => (seen s).me.g e.b +
      BitVec.ofNat 64 (8 * j)) k)) 8 false false = none) ∧ (addrFault (seen s) (BitVec.toNat ((fun j => (seen s).me.g e.b + BitVec.ofNat 64
      (8 * j)) j)) 8 false false = some c))) ∧
  (let i : Instr := (Instr.cbegin cb1);
    let e : Enc := cb1;
    let s : State := ramoOn;
    let j : Nat := 1;
    (clear i s = true) ∧
    (i = Instr.cbegin e ∧ ¬inProgress (seen s).me ∧ cached (seen s).here (BitVec.toNat ((seen s).me.g e.b)) = none ∨ i = Instr.bararr e ∧
      e.immHigh < 64 ∨ i = Instr.barsync e ∧ e.immHigh < 64 ∧ (seen s).me.arrival e.immHigh = none ∨ i = Instr.dpost e) ∧
    ((∀ (j : Nat), (j < if i = Instr.dpost e then 4 else 3) → addrFault (seen s) (BitVec.toNat ((fun j => (seen s).me.g e.b + BitVec.ofNat
      64 (8 * j)) j)) 8 false false = none) ∧ (j < if i = Instr.dpost e then 4 else 3) ∧ (∀ (k : Nat), k < j → ramoPending (seen s)
      (BitVec.toNat ((fun j => (seen s).me.g e.b + BitVec.ofNat 64 (8 * j)) k)) 8 = false) ∧ (ramoPending (seen s) (BitVec.toNat ((fun j =>
      (seen s).me.g e.b + BitVec.ofNat 64 (8 * j)) j)) 8 = true))) ∧
  (let i : Instr := (Instr.cbegin cb1);
    let e : Enc := cb1;
    let s : State := (meet sum2 0x10801000);
    let j : Nat := 0;
    let m : Nat := 2;
    let name : Nat := 3;
    (clear i s = true) ∧
    (i = Instr.cbegin e ∧ ¬inProgress (seen s).me ∧ cached (seen s).here (BitVec.toNat ((seen s).me.g e.b)) = none ∨ i = Instr.bararr e ∧
      e.immHigh < 64 ∨ i = Instr.barsync e ∧ e.immHigh < 64 ∧ (seen s).me.arrival e.immHigh = none ∨ i = Instr.dpost e) ∧
    ((∀ (j : Nat), (j < if i = Instr.dpost e then 4 else 3) → addrFault (seen s) (BitVec.toNat ((fun j => (seen s).me.g e.b + BitVec.ofNat
      64 (8 * j)) j)) 8 false false = none) ∧ (∀ (j : Nat), (j < if i = Instr.dpost e then 4 else 3) → ramoPending (seen s) (BitVec.toNat
      ((fun j => (seen s).me.g e.b + BitVec.ofNat 64 (8 * j)) j)) 8 = false) ∧ (j < if i = Instr.dpost e then 4 else 3) ∧ ((seen s).me.wait
      = none) ∧ (∀ (k : Nat), k < j → isRemote (seen s) (BitVec.toNat ((fun j => (seen s).me.g e.b + BitVec.ofNat 64 (8 * j)) k)) = false) ∧
      (isRemote (seen s) (BitVec.toNat ((fun j => (seen s).me.g e.b + BitVec.ofNat 64 (8 * j)) j)) = true) ∧ (memberAt (seen s).here
      (BitVec.toNat ((fun j => (seen s).me.g e.b + BitVec.ofNat 64 (8 * j)) j)) = some (m, name)) ∧ (inject (seen s) s.cur 1 name s.cur.kind
      0 Body.cluster = none))) ∧
  (let i : Instr := (Instr.dpost (word .dpost 1 2 0));
    let e : Enc := (word .dpost 1 2 0);
    let s : Machine.State := (meet sum2 0x10401000);
    let j : Nat := 0;
    let m : Nat := 1;
    let name : Nat := 2;
    let v : Machine.State := (u12 (meet sum2 0x10401000) 2);
    (clear i s = true) ∧ (i = Instr.cbegin e ∧ ¬inProgress (seen s).me ∧ cached (seen s).here (BitVec.toNat ((seen s).me.g e.b)) = none ∨ i =
      Instr.bararr e ∧ e.immHigh < 64 ∨ i = Instr.barsync e ∧ e.immHigh < 64 ∧ (seen s).me.arrival e.immHigh = none ∨ i = Instr.dpost e) ∧ ((∀ (j :
      Nat), (j < if i = Instr.dpost e then 4 else 3) → addrFault (seen s) (BitVec.toNat ((fun j => (seen s).me.g e.b + BitVec.ofNat 64 (8 * j)) j))
      8 false false = none) ∧ (∀ (j : Nat), (j < if i = Instr.dpost e then 4 else 3) → ramoPending (seen s) (BitVec.toNat ((fun j => (seen s).me.g
      e.b + BitVec.ofNat 64 (8 * j)) j)) 8 = false) ∧ (j < if i = Instr.dpost e then 4 else 3) ∧ ((seen s).me.wait = none) ∧ (∀ (k : Nat), k < j →
      isRemote (seen s) (BitVec.toNat ((fun j => (seen s).me.g e.b + BitVec.ofNat 64 (8 * j)) k)) = false) ∧ (isRemote (seen s) (BitVec.toNat ((fun
      j => (seen s).me.g e.b + BitVec.ofNat 64 (8 * j)) j)) = true) ∧ (memberAt (seen s).here (BitVec.toNat ((fun j => (seen s).me.g e.b +
      BitVec.ofNat 64 (8 * j)) j)) = some (m, name)) ∧ (inject (seen s) s.cur 1 name s.cur.kind 0 Body.cluster = some v)) ∧ (∀ (k m' other : Nat),
      (k < if i = Instr.dpost e then 4 else 3) → isRemote (seen s) (BitVec.toNat ((fun j => (seen s).me.g e.b + BitVec.ofNat 64 (8 * j)) k)) = true
      → memberAt (seen s).here (BitVec.toNat ((fun j => (seen s).me.g e.b + BitVec.ofNat 64 (8 * j)) k)) = some (m', other) → other = name)) ∧
  (let i : Instr := (Instr.bararr barArrs);
    let e : Enc := barArrs;
    let s : State := ((meet sum2 0x1000).modHere fun t => { t with poison := [0x1008] });
    let j : Nat := 1;
    let site : Site := (⟨0, 0⟩ : Site);
    let o : Nat := 0x1008;
    (clear i s = true) ∧
    (i = Instr.cbegin e ∧ ¬inProgress (seen s).me ∧ cached (seen s).here (BitVec.toNat ((seen s).me.g e.b)) = none ∨ i = Instr.bararr e ∧
      e.immHigh < 64 ∨ i = Instr.barsync e ∧ e.immHigh < 64 ∧ (seen s).me.arrival e.immHigh = none ∨ i = Instr.dpost e) ∧
    ((∀ (j : Nat), (j < if i = Instr.dpost e then 4 else 3) → addrFault (seen s) (BitVec.toNat ((fun j => (seen s).me.g e.b + BitVec.ofNat
      64 (8 * j)) j)) 8 false false = none) ∧ (∀ (j : Nat), (j < if i = Instr.dpost e then 4 else 3) → ramoPending (seen s) (BitVec.toNat
      ((fun j => (seen s).me.g e.b + BitVec.ofNat 64 (8 * j)) j)) 8 = false) ∧ (j < if i = Instr.dpost e then 4 else 3) ∧ (∀ (k : Nat), (k <
      if i = Instr.dpost e then 4 else 3) → isRemote (seen s) (BitVec.toNat ((fun j => (seen s).me.g e.b + BitVec.ofNat 64 (8 * j)) k)) =
      true → Option.any (fun x => x.done) (seen s).me.wait = true ∧ (target (seen s) (BitVec.toNat ((fun j => (seen s).me.g e.b +
      BitVec.ofNat 64 (8 * j)) k))).isSome = true) ∧ (target (seen s) (BitVec.toNat ((fun j => (seen s).me.g e.b + BitVec.ofNat 64 (8 * j))
      j)) = some (site, o)) ∧ (((seen s).tile site).badWords o 8 ≠ [])) ∧
    (∀ (k : Nat) (site' : Site) (o' : Nat), k < j → target (seen s) (BitVec.toNat ((fun j => (seen s).me.g e.b + BitVec.ofNat 64 (8 * j))
      k)) = some (site', o') → ((seen s).tile site').badWords o' 8 = [])) ∧
  (let i : Instr := (Instr.barsync barSyncs);
    let e : Enc := barSyncs;
    let s : State := (meet sum2 0x1004);
    let j : Nat := 0;
    let c : Nat := 0x09;
    (clear i s = true) ∧
    (i = Instr.cbegin e ∧ ¬inProgress (seen s).me ∧ cached (seen s).here (BitVec.toNat ((seen s).me.g e.b)) = none ∨ i = Instr.bararr e ∧
      e.immHigh < 64 ∨ i = Instr.barsync e ∧ e.immHigh < 64 ∧ (seen s).me.arrival e.immHigh = none ∨ i = Instr.dpost e) ∧
    ((j < if i = Instr.dpost e then 4 else 3) ∧ (∀ (k : Nat), k < j → addrFault (seen s) (BitVec.toNat ((fun j => (seen s).me.g e.b +
      BitVec.ofNat 64 (8 * j)) k)) 8 false false = none) ∧ (addrFault (seen s) (BitVec.toNat ((fun j => (seen s).me.g e.b + BitVec.ofNat 64
      (8 * j)) j)) 8 false false = some c))) :=
  ⟨⟨by decide +kernel, .inl ⟨rfl, idle_of (by decide +kernel), by decide +kernel⟩, by decide +kernel⟩,
    ⟨by decide +kernel, .inl ⟨rfl, idle_of (by decide +kernel), by decide +kernel⟩, by decide +kernel⟩,
    ⟨by decide +kernel, .inl ⟨rfl, idle_of (by decide +kernel), by decide +kernel⟩, by decide +kernel⟩,
    ⟨by decide +kernel, .inr (.inr (.inr rfl)), by and_intros <;> decide +kernel, oneMember (by decide +kernel)⟩,
    ⟨by decide +kernel, .inr (.inl ⟨rfl, by decide +kernel⟩), by decide +kernel, before_of (by decide +kernel)⟩,
    ⟨by decide +kernel, .inr (.inr (.inl ⟨rfl, by decide +kernel, by decide +kernel⟩)), by decide +kernel⟩⟩

/-- States and operands that meet the hypotheses of `ExchangeForms`, clause by clause. -/
theorem meets_ExchangeForms :
  (let e : Enc := (word .dpost 1 2 0);
    let s : State := (exchanging (demand 2 false 64) none 0x1000 0);
    let h : List W := (demandHead 2);
    let ps : List W := (demandPair 2);
    (clear (Instr.dpost e) s = true) ∧
    (blockReads (seen s) ((seen s).me.g e.b) 4 h) ∧
    (blockReads (seen s) ((seen s).me.g e.b + 32) (2 * vNpair h) ps) ∧
    (vectorBad (h ++ ps) = true)) ∧
  (let e : Enc := (word .dpost 1 2 0);
    let s : State := (exchanging (demand 0 false 64) none 0x1000 0);
    let h : List W := (demandHead 0);
    let ps : List W := (demandPair 0);
    (clear (Instr.dpost e) s = true) ∧
    (blockReads (seen s) ((seen s).me.g e.b) 4 h) ∧
    (blockReads (seen s) ((seen s).me.g e.b + 32) (2 * vNpair h) ps) ∧
    (vectorBad (h ++ ps) = false)) ∧
  (let e : Enc := xnexts;
    let s : State := (world .flow);
    (clear (Instr.xnext e) s = true) ∧ (Option.filter (fun x => x.isOpen) (seen s).here.xif = none)) ∧
  (let e : Enc := xnexts;
    let s : State := (exchanging [] (some xif0) 0 0);
    let i : XIf := xif0;
    ((clear (Instr.xnext e) s = true) ∧ (Option.filter (fun x => x.isOpen) (seen s).here.xif = some i)) ∧
    (i.ring = [] ∨ 2 ≤ i.queue.length ∨ earlierDone (seen s) s.cur 1 = false ∨ ∃ x r, i.ring = x :: r ∧ x.kind = 1 ∧ x.sends = true ∧
      accessesDone (seen s) s.cur = false)) ∧
  (let e : Enc := xnexts;
    let s : State := (exchanging [] (some (holding [calPhase 0x30 64] [])) 0 0);
    let i : XIf := (holding [calPhase 0x30 64] []);
    let x : CalEntry := (calPhase 0x30 64);
    let r : List CalEntry := noCal;
    (clear (Instr.xnext e) s = true) ∧ (Option.filter (fun x => x.isOpen) (seen s).here.xif = some i) ∧ (i.ring = x :: r) ∧ (i.queue.length
      < 2) ∧ (earlierDone (seen s) s.cur 1 = true) ∧ (x.kind = 1 → x.sends = true → accessesDone (seen s) s.cur = true) ∧ (x.kind = 1)) ∧
  (let e : Enc := xnexts;
    let s : State := (exchanging [] (some (holding [calPlain 2] [])) 0 0);
    let i : XIf := (holding [calPlain 2] []);
    let x : CalEntry := (calPlain 2);
    let r : List CalEntry := noCal;
    (clear (Instr.xnext e) s = true) ∧ (Option.filter (fun x => x.isOpen) (seen s).here.xif = some i) ∧ (i.ring = x :: r) ∧ (i.queue.length
      < 2) ∧ (earlierDone (seen s) s.cur 1 = true) ∧ (x.kind = 1 → x.sends = true → accessesDone (seen s) s.cur = true) ∧ (x.kind = 2) ∧
      ({ i with paused := false }.queue = [])) ∧
  (let e : Enc := xnexts;
    let s : State := (exchanging [] (some (holding [calPlain 3] [])) 0 0);
    let i : XIf := (holding [calPlain 3] []);
    let x : CalEntry := (calPlain 3);
    let r : List CalEntry := noCal;
    (clear (Instr.xnext e) s = true) ∧ (Option.filter (fun x => x.isOpen) (seen s).here.xif = some i) ∧ (i.ring = x :: r) ∧ (i.queue.length
      < 2) ∧ (earlierDone (seen s) s.cur 1 = true) ∧ (x.kind = 1 → x.sends = true → accessesDone (seen s) s.cur = true) ∧ (x.kind = 3) ∧
      ({ i with paused := false }.queue = [])) ∧
  (let e : Enc := xnexts;
    let s : State := (exchanging [] (some (holding [calPlain 4] [])) 0 0);
    let i : XIf := (holding [calPlain 4] []);
    let x : CalEntry := (calPlain 4);
    let r : List CalEntry := noCal;
    (clear (Instr.xnext e) s = true) ∧ (Option.filter (fun x => x.isOpen) (seen s).here.xif = some i) ∧ (i.ring = x :: r) ∧ (i.queue.length
      < 2) ∧ (earlierDone (seen s) s.cur 1 = true) ∧ (x.kind = 1 → x.sends = true → accessesDone (seen s) s.cur = true) ∧ (x.kind = 4)) ∧
  (let e : Enc := xnexts;
    let s : State := (exchanging [] (some (holding [calPlain 2] [calPhase 0x30 64])) 0 0);
    let i : XIf := (holding [calPlain 2] [calPhase 0x30 64]);
    let x : CalEntry := (calPlain 2);
    let r : List CalEntry := noCal;
    (clear (Instr.xnext e) s = true) ∧ (Option.filter (fun x => x.isOpen) (seen s).here.xif = some i) ∧ (i.ring = x :: r) ∧ (i.queue.length
      < 2) ∧ (earlierDone (seen s) s.cur 1 = true) ∧ (x.kind = 1 → x.sends = true → accessesDone (seen s) s.cur = true) ∧ (x.kind = 2 ∨
      x.kind = 3) ∧ ({ i with paused := false }.queue ≠ [])) ∧
  (let e : Enc := xends;
    let s : State := (exchanging [] none 0 0);
    (clear (Instr.xend e) s = true) ∧ (Option.filter (fun x => x.isOpen) (seen s).here.xif = none)) ∧
  (let e : Enc := xends;
    let s : State := (exchanging [] (some xif0) 2 0);
    let i : XIf := xif0;
    (clear (Instr.xend e) s = true) ∧ (Option.filter (fun x => x.isOpen) (seen s).here.xif = some i) ∧ (i.stream (BitVec.toNat ((seen
      s).me.g e.b) % 1024) (BitVec.getLsbD ((seen s).me.g e.b) 16) = none)) ∧
  (let e : Enc := xends;
    let s : State := (exchanging [] (some xif0) 1 0x80);
    let i : XIf := xif0;
    let x : XStream := (stream0 false);
    (clear (Instr.xend e) s = true) ∧ (Option.filter (fun x => x.isOpen) (seen s).here.xif = some i) ∧ (i.stream (BitVec.toNat ((seen
      s).me.g e.b) % 1024) (BitVec.getLsbD ((seen s).me.g e.b) 16) = some x) ∧ (BitVec.toNat ((seen s).me.g e.b) / 2 ^ 10 % 2 ^ 6 ≠ 0 ∨ 2 ^
      17 ≤ BitVec.toNat ((seen s).me.g e.b) ∨ BitVec.toNat ((seen s).me.g e.c) % 64 ≠ 0 ∨ x.bytes < BitVec.toNat ((seen s).me.g e.c))) ∧
  (let e : Enc := xends;
    let s : State := (exchanging [] (some (xif0.setStream (stream0 true))) 1 0x40);
    let i : XIf := (xif0.setStream (stream0 true));
    let x : XStream := (stream0 true);
    (clear (Instr.xend e) s = true) ∧ (Option.filter (fun x => x.isOpen) (seen s).here.xif = some i) ∧ (i.stream (BitVec.toNat ((seen
      s).me.g e.b) % 1024) (BitVec.getLsbD ((seen s).me.g e.b) 16) = some x) ∧ (¬(BitVec.toNat ((seen s).me.g e.b) / 2 ^ 10 % 2 ^ 6 ≠ 0 ∨ 2
      ^ 17 ≤ BitVec.toNat ((seen s).me.g e.b) ∨ BitVec.toNat ((seen s).me.g e.c) % 64 ≠ 0 ∨ x.bytes < BitVec.toNat ((seen s).me.g e.c))) ∧
      (x.last = true ∨ BitVec.toNat ((seen s).me.g e.c) < x.sent)) ∧
  (let e : Enc := xends;
    let s : State := (exchanging [] (some xif0) 1 0);
    let i : XIf := xif0;
    let x : XStream := (stream0 false);
    (clear (Instr.xend e) s = true) ∧ (Option.filter (fun x => x.isOpen) (seen s).here.xif = some i) ∧ (i.stream (BitVec.toNat ((seen
      s).me.g e.b) % 1024) (BitVec.getLsbD ((seen s).me.g e.b) 16) = some x) ∧ (¬(BitVec.toNat ((seen s).me.g e.b) / 2 ^ 10 % 2 ^ 6 ≠ 0 ∨ 2
      ^ 17 ≤ BitVec.toNat ((seen s).me.g e.b) ∨ BitVec.toNat ((seen s).me.g e.c) % 64 ≠ 0 ∨ x.bytes < BitVec.toNat ((seen s).me.g e.c))) ∧
      (x.last = false) ∧ (x.sent ≤ BitVec.toNat ((seen s).me.g e.c))) ∧
  (let e : Enc := xstats;
    let s : State := (exchanging [] none 4 0);
    (clear (Instr.xstat e) s = true) ∧ (3 < BitVec.toNat ((seen s).me.g e.b))) ∧
  (let e : Enc := xstats;
    let s : State := (exchanging [] none 3 0);
    (clear (Instr.xstat e) s = true) ∧ (BitVec.toNat ((seen s).me.g e.b) ≤ 3) ∧ ((seen s).here.xif = none)) ∧
  (let e : Enc := xstats;
    let s : State := (exchanging [] (some xif0) 2 0);
    let i : XIf := xif0;
    (clear (Instr.xstat e) s = true) ∧ ((seen s).here.xif = some i) ∧ (BitVec.toNat ((seen s).me.g e.b) ≤ 3)) :=
  ⟨⟨by decide +kernel, blockReads_of (by decide +kernel) (by decide +kernel), blockReads_of (by decide +kernel) (by decide +kernel), by decide +kernel⟩,
    ⟨by decide +kernel, blockReads_of (by decide +kernel) (by decide +kernel), blockReads_of (by decide +kernel) (by decide +kernel), by decide +kernel⟩,
    by decide +kernel,
    ⟨by decide +kernel, .inl (by decide +kernel)⟩,
    by and_intros <;> decide +kernel,
    by and_intros <;> decide +kernel,
    by and_intros <;> decide +kernel,
    by and_intros <;> decide +kernel,
    by and_intros <;> decide +kernel,
    by and_intros <;> decide +kernel,
    by and_intros <;> decide +kernel,
    by and_intros <;> decide +kernel,
    by and_intros <;> decide +kernel,
    by and_intros <;> decide +kernel,
    by and_intros <;> decide +kernel,
    by and_intros <;> decide +kernel,
    by and_intros <;> decide +kernel⟩

/-- States and operands that meet the hypotheses of `ArbiterSteps`, clause by clause. -/
theorem meets_ArbiterSteps :
  (let c : CoreId := at00;
    let s : Machine.State := (deaf (posting d0 [] none none));
    let l : List W := d0;
    ((s.core c).req = some (Req.dpost l)) ∧ (placed s c.site) ∧ ((∃ i, xifAt s c.site = some i ∧ i.isOpen = false ∧ (i.ends ≠ [] ∨ i.phaseDone ≠
      [])) ∨ noArbiter s c l = true)) ∧
  (let c : CoreId := at00;
    let s : Machine.State := (posting d0 [exch0 [post0 1]] (some otherX) none);
    let l : List W := d0;
    let i : XIf := otherX;
    ((s.core c).req = some (Req.dpost l)) ∧ (placed s c.site) ∧ ((vResid l = false) ∧ (Option.filter (fun x => x.isOpen) (xifAt s c.site) = some i)
      ∧ (¬(i.xid = vXid l ∧ i.xseq = vXseq l)) ∧ ((s.core c).ans = none) ∧ (¬((∃ i, xifAt s c.site = some i ∧ i.isOpen = false ∧ (i.ends ≠ [] ∨
      i.phaseDone ≠ [])) ∨ noArbiter s c l = true)))) ∧
  (let c : CoreId := at00;
    let s : Machine.State := (posting d0 [exch0 [post0 0]] (some xif0) none);
    let l : List W := d0;
    let i : XIf := xif0;
    let x : Exch := (exch0 [post0 0]);
    ((s.core c).req = some (Req.dpost l)) ∧ (placed s c.site) ∧ ((vResid l = false) ∧ (Option.filter (fun x => x.isOpen) (xifAt s c.site) = some i)
      ∧ (i.xid = vXid l) ∧ (i.xseq = vXseq l) ∧ (s.exch (vXid l) (vdevNum s (s.tile c.site).vni) = some x) ∧ ((s.core c).ans = none) ∧ (¬((∃ i,
      xifAt s c.site = some i ∧ i.isOpen = false ∧ (i.ends ≠ [] ∨ i.phaseDone ≠ [])) ∨ noArbiter s c l = true)))) ∧
  (let c : CoreId := at00;
    let s : Machine.State := (posting d0 full4 none none);
    let l : List W := d0;
    ((s.core c).req = some (Req.dpost l)) ∧ (placed s c.site) ∧ ((vResid l = false) ∧ (Option.filter (fun x => x.isOpen) (xifAt s c.site) = none) ∧
      (s.exch (vXid l) (vdevNum s (s.tile c.site).vni) = none) ∧ (4 ≤ s.exchs.length ∨ xQuota s (s.tile c.site).vni ≤ List.countP (fun x => x.vdev
      == vdevNum s (s.tile c.site).vni) s.exchs) ∧ ((s.core c).ans = none) ∧ (¬((∃ i, xifAt s c.site = some i ∧ i.isOpen = false ∧ (i.ends ≠ [] ∨
      i.phaseDone ≠ [])) ∨ noArbiter s c l = true)))) ∧
  (let c : CoreId := at00;
    let s : Machine.State := (posting d0 [] none none);
    let l : List W := d0;
    ((s.core c).req = some (Req.dpost l)) ∧ (placed s c.site) ∧ ((vResid l = false) ∧ (Option.filter (fun x => x.isOpen) (xifAt s c.site) = none) ∧
      (s.exch (vXid l) (vdevNum s (s.tile c.site).vni) = none) ∧ (¬(4 ≤ s.exchs.length ∨ xQuota s (s.tile c.site).vni ≤ List.countP (fun x => x.vdev
      == vdevNum s (s.tile c.site).vni) s.exchs)) ∧ (2 ≤ vNrank l) ∧ ((s.core c).ans = none) ∧ (¬((∃ i, xifAt s c.site = some i ∧ i.isOpen = false ∧
      (i.ends ≠ [] ∨ i.phaseDone ≠ [])) ∨ noArbiter s c l = true)))) ∧
  (let c : CoreId := at00;
    let s : Machine.State := (posting d0 [{ exch0 [] with xseq := 2 }] none none);
    let l : List W := d0;
    let x : Exch := { exch0 [] with xseq := 2 };
    ((s.core c).req = some (Req.dpost l)) ∧ (placed s c.site) ∧ ((vResid l = false) ∧ (Option.filter (fun x => x.isOpen) (xifAt s c.site) = none) ∧
      (s.exch (vXid l) (vdevNum s (s.tile c.site).vni) = some x) ∧ (sameExch x l = false) ∧ ((s.core c).ans = none) ∧ (¬((∃ i, xifAt s c.site = some
      i ∧ i.isOpen = false ∧ (i.ends ≠ [] ∨ i.phaseDone ≠ [])) ∨ noArbiter s c l = true)))) ∧
  (let c : CoreId := at00;
    let s : Machine.State := (posting d0 [exch0 [post0 0]] none none);
    let l : List W := d0;
    let x : Exch := (exch0 [post0 0]);
    ((s.core c).req = some (Req.dpost l)) ∧ (placed s c.site) ∧ ((vResid l = false) ∧ (Option.filter (fun x => x.isOpen) (xifAt s c.site) = none) ∧
      (s.exch (vXid l) (vdevNum s (s.tile c.site).vni) = some x) ∧ (sameExch x l = true) ∧ (∃ p, p ∈ x.posts ∧ p.rank = vRank l) ∧ ((s.core c).ans =
      none) ∧ (¬((∃ i, xifAt s c.site = some i ∧ i.isOpen = false ∧ (i.ends ≠ [] ∨ i.phaseDone ≠ [])) ∨ noArbiter s c l = true)))) ∧
  (let c : CoreId := at00;
    let s : Machine.State := (posting d0 [exch0 [post0 1]] none none);
    let l : List W := d0;
    let x : Exch := (exch0 [post0 1]);
    ((s.core c).req = some (Req.dpost l)) ∧ (placed s c.site) ∧ ((vResid l = false) ∧ (Option.filter (fun x => x.isOpen) (xifAt s c.site) = none) ∧
      (s.exch (vXid l) (vdevNum s (s.tile c.site).vni) = some x) ∧ (sameExch x l = true) ∧ (∀ (p : Post), p ∈ x.posts → p.rank ≠ vRank l) ∧
      (x.planned = false) ∧ ((s.core c).ans = none) ∧ (¬((∃ i, xifAt s c.site = some i ∧ i.isOpen = false ∧ (i.ends ≠ [] ∨ i.phaseDone ≠ [])) ∨
      noArbiter s c l = true)))) ∧
  (let c : CoreId := at00;
    let s : Machine.State := (posting d0r [] none none);
    let l : List W := d0r;
    ((s.core c).req = some (Req.dpost l)) ∧ (placed s c.site) ∧ ((vResid l = true) ∧ (∀ (i : XIf), xifAt s c.site = some i → sameHead i.head l =
      false) ∧ ((s.core c).ans = none) ∧ (¬((∃ i, xifAt s c.site = some i ∧ i.isOpen = false ∧ (i.ends ≠ [] ∨ i.phaseDone ≠ [])) ∨ noArbiter s c l =
      true)))) ∧
  (let c : CoreId := at00;
    let s : Machine.State := (posting d0r [] (some over0) none);
    let l : List W := d0r;
    let i : XIf := over0;
    ((s.core c).req = some (Req.dpost l)) ∧ (placed s c.site) ∧ ((vResid l = true) ∧ (xifAt s c.site = some i) ∧ (sameHead i.head l = true) ∧
      (i.mainOver = true) ∧ ((s.core c).ans = none) ∧ (¬((∃ i, xifAt s c.site = some i ∧ i.isOpen = false ∧ (i.ends ≠ [] ∨ i.phaseDone ≠ [])) ∨
      noArbiter s c l = true)))) ∧
  (let c : CoreId := at00;
    let s : Machine.State := (posting d0r [] (some xif0) none);
    let l : List W := d0r;
    let i : XIf := xif0;
    ((s.core c).req = some (Req.dpost l)) ∧ (placed s c.site) ∧ ((vResid l = true) ∧ (xifAt s c.site = some i) ∧ (sameHead i.head l = true) ∧
      (i.mainOver = false) ∧ (i.isOpen = false ∨ exchOf s c.site i = none) ∧ ((s.core c).ans = none) ∧ (¬((∃ i, xifAt s c.site = some i ∧ i.isOpen =
      false ∧ (i.ends ≠ [] ∨ i.phaseDone ≠ [])) ∨ noArbiter s c l = true)))) ∧
  (let c : CoreId := at00;
    let s : Machine.State := (posting d0r [exch0 [twice0]] (some xif0) none);
    let l : List W := d0r;
    let i : XIf := xif0;
    let x : Exch := (exch0 [twice0]);
    ((s.core c).req = some (Req.dpost l)) ∧ (placed s c.site) ∧ ((vResid l = true) ∧ (xifAt s c.site = some i) ∧ (sameHead i.head l = true) ∧
      (i.mainOver = false) ∧ (i.isOpen = true) ∧ (exchOf s c.site i = some x)) ∧ (∃ p q, List.find? (fun x => x.rank == i.rank) x.posts = some p ∧ q
      ∈ p.residual ∧ ∃ y, y ∈ vPairs l ∧ y.fst = q.fst) ∧ (((s.core c).ans = none) ∧ (¬((∃ i, xifAt s c.site = some i ∧ i.isOpen = false ∧ (i.ends ≠
      [] ∨ i.phaseDone ≠ [])) ∨ noArbiter s c l = true)))) ∧
  (let c : CoreId := at00;
    let s : Machine.State := (posting d0r [exch0 [post0 0]] (some xif0) none);
    let l : List W := d0r;
    let i : XIf := xif0;
    let x : Exch := (exch0 [post0 0]);
    ((s.core c).req = some (Req.dpost l)) ∧ (placed s c.site) ∧ ((vResid l = true) ∧ (xifAt s c.site = some i) ∧ (sameHead i.head l = true) ∧
      (i.mainOver = false) ∧ (i.isOpen = true) ∧ (exchOf s c.site i = some x)) ∧ (¬∃ p q, List.find? (fun x => x.rank == i.rank) x.posts = some p ∧
      q ∈ p.residual ∧ ∃ y, y ∈ vPairs l ∧ y.fst = q.fst) ∧ (((s.core c).ans = none) ∧ (¬((∃ i, xifAt s c.site = some i ∧ i.isOpen = false ∧ (i.ends
      ≠ [] ∨ i.phaseDone ≠ [])) ∨ noArbiter s c l = true)))) ∧
  (let c : CoreId := at00;
    let s : Machine.State := (posting d0 [] none (some 0));
    let l : List W := d0;
    let x : W := (0 : W);
    let e : Enc := (word .dpost 1 2 0);
    let sites : List (Nat × Site) := ([] : List (Nat × Site));
    let more : List Nat := noNat;
    ((s.core c).req = some (Req.dpost l)) ∧ (placed s c.site) ∧ (((s.core c).ans = some x) ∧ ((s.core c).wait = some
      { i := Instr.dpost e, tag := 0, done := true, sites := sites, more := more }))) ∧
  (let xid : Nat := 9;
    let vd : Nat := 1024;
    let s : Machine.State := (arbited (planned0 none []) xif0);
    let x : Exch := (planned0 none []);
    let g : Grant := (grant0 none);
    let a : Site := s00;
    let b : Site := s10;
    (s.exch xid vd = some x) ∧ (¬x.serving ∈ s.arbitersDown) ∧ (List.find? (fun y => y.label.isNone && !y.done) x.grants = some g) ∧ (x.siteOf g.s =
      some a) ∧ (x.siteOf g.d = some b) ∧ (circuitUp s (List.map (fun l => Site.num l.fst) (circuit s a b (s.liveTile a).vni) ++ [Site.num b]) =
      true) ∧ (∃ n, n < 256 ∧ ∀ (r : Nat), r ∈ List.map (fun l => Site.num l.fst) (circuit s a b (s.liveTile a).vni) ++ [Site.num b] → ¬n ∈ labelsAt
      s r)) ∧
  (let xid : Nat := 9;
    let vd : Nat := 1024;
    let s : State := (arbited (planned0 (some 3) [(0, phase0)]) xif0);
    let x : Exch := (planned0 (some 3) [(0, phase0)]);
    let rank : Nat := 0;
    let r : Nat := 0;
    let y : CalEntry := phase0;
    let site : Site := (⟨0, 0⟩ : Site);
    let i : XIf := xif0;
    ((s.exch xid vd = some x) ∧ (¬x.serving ∈ s.arbitersDown) ∧ (List.find? (fun x => x.fst == rank) x.queue = some (r, y)) ∧ (x.siteOf rank
      = some site) ∧ (xifAt s site = some i)) ∧
    (placed s site) ∧
    ((x.lost = false) ∧ (x.taking = false) ∧ (i.serving = x.serving) ∧ (y.kind = 3 → ∀ (g : Grant), g ∈ x.grants → g.done = true) ∧
      (i.written - i.popped < 2 ^ i.calLog) ∧ ((s.tile site).mem.wf = true) ∧ (∀ (g : Grant), g ∈ x.grants → y.kind = 1 → g.phase = y.phase
      → g.s = rank ∨ g.d = rank → g.done = false → g.label.isSome = true))) :=
  ⟨⟨by decide +kernel, by delta placed; decide +kernel, by decide +kernel⟩,
    ⟨by decide +kernel, by delta placed; decide +kernel, by and_intros <;> decide +kernel⟩,
    ⟨by decide +kernel, by delta placed; decide +kernel, by and_intros <;> decide +kernel⟩,
    ⟨by decide +kernel, by delta placed; decide +kernel, by and_intros <;> decide +kernel⟩,
    ⟨by decide +kernel, by delta placed; decide +kernel, by and_intros <;> decide +kernel⟩,
    ⟨by decide +kernel, by delta placed; decide +kernel, by and_intros <;> decide +kernel⟩,
    ⟨by decide +kernel, by delta placed; decide +kernel, by and_intros <;> decide +kernel⟩,
    ⟨by decide +kernel, by delta placed; decide +kernel, by and_intros <;> decide +kernel⟩,
    ⟨by decide +kernel, by delta placed; decide +kernel, by and_intros <;> decide +kernel⟩,
    ⟨by decide +kernel, by delta placed; decide +kernel, by and_intros <;> decide +kernel⟩,
    ⟨by decide +kernel, by delta placed; decide +kernel, by and_intros <;> decide +kernel⟩,
    ⟨by decide +kernel, by delta placed; decide +kernel, by and_intros <;> decide +kernel, ⟨twice0, (1, 64, 0x6000), by decide +kernel, by decide +kernel, (1, 64, 0x6000), by decide +kernel⟩, by and_intros <;> decide +kernel⟩,
    ⟨by decide +kernel, by delta placed; decide +kernel, by and_intros <;> decide +kernel, residual_none (by decide +kernel), by and_intros <;> decide +kernel⟩,
    ⟨by decide +kernel, by delta placed; decide +kernel, by and_intros <;> decide +kernel⟩,
    by and_intros <;> decide +kernel,
    ⟨by decide +kernel, by delta placed; decide +kernel, by decide +kernel⟩⟩

/-- States and operands that meet the hypotheses of `PhaseSteps`, clause by clause. -/
theorem meets_PhaseSteps :
  (let site : Site := s00;
    let s : State := (phasing paused0);
    let i : XIf := paused0;
    let y : CalEntry := both;
    let r : List CalEntry := noCal;
    (headEntry s site i y r) ∧
    (i.paused = true)) ∧
  (let site : Site := s00;
    let s : State := (phasing (headed false false []));
    let i : XIf := (headed false false []);
    let y : CalEntry := both;
    let r : List CalEntry := noCal;
    (headEntry s site i y r) ∧
    ((i.paused = false) ∧ (i.started = false) ∧ (i.sendDone = false) ∧ (i.recvDone = false) ∧ (y.sends = true ∨ y.recvs = true))) ∧
  (let site : Site := s00;
    let s : State := (phasing (headed true true []));
    let i : XIf := (headed true true []);
    let y : CalEntry := both;
    let r : List CalEntry := noCal;
    let x : XStream := (stream0 false);
    let p : Site := s10;
    let k : XIf := other;
    (headEntry s site i y r) ∧
    ((i.started = true) ∧ (i.sendDone = false) ∧ (y.sends = true) ∧ ((y.phase, y.speer) ∈ i.readies) ∧ (i.stream y.speer (residPhase s site
      i y.phase i.rank) = some x) ∧ (peerOf s site i y.speer = some p) ∧ (xifAt s p = some k))) ∧
  (let site : Site := s00;
    let s : State := (phasing (headed true false [marker0 false]));
    let i : XIf := (headed true false [marker0 false]);
    let y : CalEntry := both;
    let r : List CalEntry := noCal;
    let m : Marker := (marker0 false);
    let words : List Nat := oneWord;
    (headEntry s site i y r) ∧
    ((i.started = true) ∧ (i.recvDone = false) ∧ (y.recvs = true) ∧ (List.find? (fun m => m.phase == y.phase && m.src == y.rpeer) i.markers
      = some m)) ∧
    (placed s site) ∧
    (((s.tile site).mem.wf = true) ∧ (m.data.length % 8 = 0))) ∧
  (let site : Site := s00;
    let s : State := (phasing (headed true false [marker0 false]));
    let i : XIf := (headed true false [marker0 false]);
    let y : CalEntry := both;
    let r : List CalEntry := noCal;
    let m : Marker := (marker0 false);
    (headEntry s site i y r) ∧
    ((i.started = true) ∧ (i.recvDone = false) ∧ (y.recvs = true) ∧ (List.find? (fun m => m.phase == y.phase && m.src == y.rpeer) i.markers
      = some m)) ∧
    (placed s site) ∧
    (((s.tile site).mem.wf = true) ∧ (m.data.length % 8 = 0))) ∧
  ((let site : Site := s00;
    let s : State := (phasing (reporting [0] []));
    let i : XIf := (reporting [0] []);
    let x : Exch := (planned0 (some 0) []);
    let p : Nat := 0;
    let r : List Nat := noNat;
    (xifAt s site = some i) ∧ (exchOf s site i = some x) ∧ (i.phaseDone = p :: r)) ∧
  (let site : Site := s00;
    let s : State := (phasing (reporting [] [2]));
    let i : XIf := (reporting [] [2]);
    let x : Exch := (planned0 (some 0) []);
    let r : List Nat := noNat;
    (xifAt s site = some i) ∧ (exchOf s site i = some x) ∧ (i.ends = 2 :: r)) ∧
  (let site : Site := s00;
    let s : State := (phasing (reporting [] [3]));
    let i : XIf := (reporting [] [3]);
    let x : Exch := (planned0 (some 0) []);
    let k : Nat := 3;
    let r : List Nat := noNat;
    (xifAt s site = some i) ∧ (exchOf s site i = some x) ∧ (i.ends = k :: r) ∧ (k ≠ 2))) :=
  ⟨⟨by delta headEntry; decide +kernel, by decide +kernel⟩,     ⟨by delta headEntry; decide +kernel, by decide +kernel⟩,
      ⟨by delta headEntry; decide +kernel, by decide +kernel⟩,     ⟨by delta headEntry; decide +kernel, by decide +kernel,
      by delta placed; decide +kernel, by decide +kernel⟩,     ⟨by delta headEntry; decide +kernel, by decide +kernel,
      by delta placed; decide +kernel, by decide +kernel⟩,     by and_intros <;> decide +kernel⟩

/-- States and operands that meet the hypotheses of `FailoverSteps`, clause by clause. -/
theorem meets_FailoverSteps :
  (let xid : Nat := 9;
    let vd : Nat := 1024;
    let s : State := (arbited (planned0 none []) xif0);
    let x : Exch := (planned0 none []);
    (s.exch xid vd = some x) ∧ (¬x.serving ∈ s.arbitersDown)) ∧
  (let xid : Nat := 9;
    let vd : Nat := 1024;
    let s : State := (failed [1] (planned0 none []) xif0);
    let x : Exch := (planned0 none []);
    (s.exch xid vd = some x) ∧ (x.serving ∈ s.arbitersDown)) ∧
  (let xid : Nat := 9;
    let vd : Nat := 1024;
    let s : State := (failed [1] (planned0 none []) xif0);
    let x : Exch := (planned0 none []);
    let waited : Nat := 48000;
    (s.exch xid vd = some x) ∧ (48000 ≤ waited) ∧ (x.hasStandby = true) ∧ (¬x.standby ∈ s.arbitersDown)) ∧
  (let xid : Nat := 9;
    let vd : Nat := 1024;
    let s : State := (arbited (planned0 none []) xif0);
    let x : Exch := (planned0 none []);
    let waited : Nat := 47999;
    (s.exch xid vd = some x) ∧ (waited < 48000 ∨ x.hasStandby = false ∨ x.standby ∈ s.arbitersDown)) ∧
  (let xid : Nat := 9;
    let vd : Nat := 1024;
    let s : Machine.State := (arbited (taken []) { holding [both] [phase0] with xid := 10 });
    let x : Exch := (taken []);
    let rank : Nat := 0;
    let site : Site := s00;
    let i : XIf := { holding [both] [phase0] with xid := 10 };
    (s.exch xid vd = some x) ∧ (x.siteOf rank = some site) ∧ (xifAt s site = some i) ∧ (x.has i = false) ∧ (x.taking = true) ∧ (¬rank ∈ x.reports) ∧
      (∃ n, n < x.nrank ∧ ¬n ∈ x.reports ++ [rank])) ∧
  (let xid : Nat := 9;
    let vd : Nat := 1024;
    let s : Machine.State := (arbited (taken []) (holding [both] [phase0]));
    let x : Exch := (taken []);
    let rank : Nat := 0;
    let site : Site := s00;
    let i : XIf := (holding [both] [phase0]);
    (s.exch xid vd = some x) ∧ (x.siteOf rank = some site) ∧ (xifAt s site = some i) ∧ (i.closing = none) ∧ (x.has i = true) ∧ (x.taking = true) ∧
      (¬rank ∈ x.reports) ∧ (i.failover = false)) ∧
  (let xid : Nat := 9;
    let vd : Nat := 1024;
    let s : Machine.State := (arbited (taken []) after1);
    let x : Exch := (taken []);
    let rank : Nat := 0;
    let site : Site := s00;
    let i : XIf := after1;
    (s.exch xid vd = some x) ∧ (x.siteOf rank = some site) ∧ (xifAt s site = some i) ∧ (i.closing = none) ∧ (x.has i = true) ∧ (x.taking = true) ∧
      (¬rank ∈ x.reports) ∧ (i.serving = x.serving) ∧ (i.failover = true) ∧ (i.ring = []) ∧ (i.queue = [])) ∧
  (let xid : Nat := 9;
    let vd : Nat := 1024;
    let s : State := (failed [1, 2] (planned0 none []) xif0);
    let x : Exch := (planned0 none []);
    let site : Site := s00;
    let i : XIf := xif0;
    ((s.exch xid vd = some x) ∧ (xifAt s site = some i) ∧ (i.isOpen = true) ∧ (exchOf s site i = some x)) ∧
    (placed s site) ∧
    ((x.serving ∈ s.arbitersDown) ∧ (x.hasStandby = false ∨ x.standby ∈ s.arbitersDown) ∧ (∀ (z : CalEntry), z ∈ i.ring → z.kind ≠ 4))) :=
  ⟨by and_intros <;> decide +kernel,
    by and_intros <;> decide +kernel,
    by and_intros <;> decide +kernel,
    by and_intros <;> decide +kernel,
    by and_intros <;> decide +kernel,
    by and_intros <;> decide +kernel,
    by and_intros <;> decide +kernel,
    ⟨by decide +kernel, by delta placed; decide +kernel, by decide +kernel⟩⟩

/-- States and operands that meet the hypotheses of `CapabilityForms`, clause by clause. -/
theorem meets_CapabilityForms :
  (let e : Enc := (word .capmov 1 2 0);
    let s : State := (capped cap2 0 0);
    clear (Instr.capmov e) s = true) ∧
  (let e : Enc := (word .caprest 1 2 3);
    let s : State := (capped cap2 0 5);
    (clear (Instr.caprest e) s = true) ∧ (BitVec.toNat ((seen s).me.g e.c) < 16)) ∧
  (let e : Enc := (word .caprest 1 2 3);
    let s : State := (capped cap2 0 16);
    (clear (Instr.caprest e) s = true) ∧ (16 ≤ BitVec.toNat ((seen s).me.g e.c))) ∧
  (let e : Enc := caplds;
    let s : State := (capped cap2 0x1000 0);
    let site : Site := m00;
    let o : Nat := 0x1000;
    ((clear (Instr.capld e) s = true) ∧ (BitVec.toNat ((seen s).me.g e.b + BitVec.ofInt 64 (e.immS Fmt.rr * 16)) % 16 = 0)) ∧
    (blockAt (seen s) ((seen s).me.g e.b + BitVec.ofInt 64 (e.immS Fmt.rr * 16)) 2 false (run site o 2)) ∧
    ((¬(fun j => ((seen s).tile site).badWords (o + 8 * j) 8 ≠ []) 0) ∧ (¬(fun j => ((seen s).tile site).badWords (o + 8 * j) 8 ≠ []) 1))) ∧
  (let e : Enc := caplds;
    let s : State := badCap;
    let site : Site := m00;
    let o : Nat := 0x1000;
    ((clear (Instr.capld e) s = true) ∧ (BitVec.toNat ((seen s).me.g e.b + BitVec.ofInt 64 (e.immS Fmt.rr * 16)) % 16 = 0)) ∧
    (blockAt (seen s) ((seen s).me.g e.b + BitVec.ofInt 64 (e.immS Fmt.rr * 16)) 2 false (run site o 2)) ∧
    ((fun j => ((seen s).tile site).badWords (o + 8 * j) 8 ≠ []) 0 ∨ (fun j => ((seen s).tile site).badWords (o + 8 * j) 8 ≠ []) 1)) ∧
  (let e : Enc := capsts;
    let s : State := (capped cap2 0x1008 0 (gs [(2, 0x1010)]));
    let site : Site := m00;
    let o : Nat := 0x1010;
    ((clear (Instr.capst e) s = true) ∧ (BitVec.toNat ((seen s).me.g e.b + BitVec.ofInt 64 (e.immS Fmt.rr * 16)) % 16 = 0)) ∧
    (blockAt (seen s) ((seen s).me.g e.b + BitVec.ofInt 64 (e.immS Fmt.rr * 16)) 2 true (run site o 2)) ∧
    (((seen s).tile site).mem.wf = true)) ∧
  (let e : Enc := caplds;
    let s : State := (capped cap2 0x1008 0);
    let i : Instr := (Instr.capld caplds);
    let w : Bool := false;
    (i = Instr.capld e ∧ w = false ∨ i = Instr.capst e ∧ w = true) ∧ (clear i s = true) ∧ (BitVec.toNat ((seen s).me.g e.b + BitVec.ofInt 64
      (e.immS Fmt.rr * 16)) % 16 ≠ 0)) ∧
  (let e : Enc := caplds;
    let s : State := (capped cap2 0x300000 0);
    let i : Instr := (Instr.capld caplds);
    let w : Bool := false;
    let c : Nat := 0x0A;
    (i = Instr.capld e ∧ w = false ∨ i = Instr.capst e ∧ w = true) ∧ (clear i s = true) ∧ (BitVec.toNat ((seen s).me.g e.b + BitVec.ofInt 64
      (e.immS Fmt.rr * 16)) % 16 = 0) ∧ (addrFault (seen s) (BitVec.toNat ((seen s).me.g e.b + BitVec.ofInt 64 (e.immS Fmt.rr * 16))) 8 w
      false = some c)) ∧
  (let e : Enc := mints;
    let s : State := (capped cap2 0x200FC00 16);
    let x : Nat := 0x005000000200FC00;
    (x = BitVec.toNat ((seen s).me.g e.b) % 2 ^ 52 + (seen s).here.vni % 4096 * 2 ^ 52) ∧ (clear (Instr.capmint e) s = true) ∧ (16 ≤
      BitVec.toNat ((seen s).me.g e.c))) ∧
  (let e : Enc := mints;
    let s : State := (capped cap2 0x200FC01 15);
    let x : Nat := 0x005000000200FC01;
    (x = BitVec.toNat ((seen s).me.g e.b) % 2 ^ 52 + (seen s).here.vni % 4096 * 2 ^ 52) ∧ (clear (Instr.capmint e) s = true) ∧ (BitVec.toNat
      ((seen s).me.g e.c) < 16) ∧ (¬(x / 2 ^ 40 % 2 ^ 12 = 0 ∧ x % 2 ^ 10 = 0 ∧ x / 2 ^ 22 % 4 ≠ 3 ∧ x / 2 ^ 16 % 64 ≤ x / 2 ^ 10 % 64 ∧ x /
      2 ^ 24 % 2 ^ 16 < 16384))) ∧
  (let e : Enc := mints;
    let s : State := (capped cap2 0x200FC00 15);
    let x : Nat := 0x005000000200FC00;
    (x = BitVec.toNat ((seen s).me.g e.b) % 2 ^ 52 + (seen s).here.vni % 4096 * 2 ^ 52) ∧ (clear (Instr.capmint e) s = true) ∧ (BitVec.toNat
      ((seen s).me.g e.c) < 16) ∧ (x / 2 ^ 40 % 2 ^ 12 = 0 ∧ x % 2 ^ 10 = 0 ∧ x / 2 ^ 22 % 4 ≠ 3 ∧ x / 2 ^ 16 % 64 ≤ x / 2 ^ 10 % 64 ∧ x / 2
      ^ 24 % 2 ^ 16 < 16384)) ∧
  (let e : Enc := (word .capinfo 1 2 0);
    let s : State := (capped cap3 0 0);
    clear (Instr.capinfo e) s = true) ∧
  (let e : Enc := revokes;
    let s : State := (capped cap2 2 0);
    (clear (Instr.caprevoke e) s = true) ∧ (1 < BitVec.toNat ((seen s).me.g e.b))) ∧
  (let e : Enc := revokes;
    let s : State := (capped cap2 1 0);
    (clear (Instr.caprevoke e) s = true) ∧ (BitVec.toNat ((seen s).me.g e.b) ≤ 1)) ∧
  (let e : Enc := wakes;
    let s : State := (capped cap2 0 0);
    let i : Instr := (Instr.wake wakes);
    let right : Nat := 1;
    let body : Body := Body.wake;
    ((i = Instr.wake e ∧ right = 1 ∧ body = Body.wake ∨ i = Instr.haltc e ∧ right = 2 ∧ body = Body.haltc (BitVec.ofNat 32 (BitVec.toNat
      ((seen s).me.g e.c) % 2 ^ 31 + 2 ^ 31)) ∨ i = Instr.inspect e ∧ right = 3 ∧ body = Body.inspect (BitVec.toNat ((seen s).me.g e.c)) ∧
      BitVec.toNat ((seen s).me.g e.c) ≤ 3) ∧ (clear i s = true)) ∧
    (capOk (seen s) ((seen s).me.capReg e.b) right none = true) ∧
    (canInject (seen s) 4 (cname ((seen s).me.capReg e.b)) (capKind ((seen s).me.capReg e.b)) 0 body)) ∧
  (let e : Enc := wakes;
    let s : State := (stalledRegion (capped cap2 0 0));
    let i : Instr := (Instr.wake wakes);
    let right : Nat := 1;
    let body : Body := Body.wake;
    ((i = Instr.wake e ∧ right = 1 ∧ body = Body.wake ∨ i = Instr.haltc e ∧ right = 2 ∧ body = Body.haltc (BitVec.ofNat 32 (BitVec.toNat
      ((seen s).me.g e.c) % 2 ^ 31 + 2 ^ 31)) ∨ i = Instr.inspect e ∧ right = 3 ∧ body = Body.inspect (BitVec.toNat ((seen s).me.g e.c)) ∧
      BitVec.toNat ((seen s).me.g e.c) ≤ 3) ∧ (clear i s = true)) ∧
    (capOk (seen s) ((seen s).me.capReg e.b) right none = true) ∧
    (inject (seen s) s.cur 4 (cname ((seen s).me.capReg e.b)) (capKind ((seen s).me.capReg e.b)) 0 body = none)) ∧
  (let e : Enc := inspects;
    let s : State := (capped cap2 0 4);
    (clear (Instr.inspect e) s = true) ∧
    (capOk (seen s) ((seen s).me.capReg e.b) 3 none = true) ∧
    (3 < BitVec.toNat ((seen s).me.g e.c))) ∧
  (let e : Enc := wakes;
    let s : Machine.State := (capped 0 0 0);
    let i : Instr := (Instr.wake wakes);
    let right : Nat := 1;
    let cause : Nat := 0x0D;
    (i = Instr.wake e ∧ right = 1 ∨ i = Instr.haltc e ∧ right = 2 ∨ i = Instr.inspect e ∧ right = 3) ∧ (clear i s = true) ∧ (hasPassed (seen s).me =
      false) ∧ (capCheck (seen s) s.cur.site ((seen s).me.capReg e.b) right none = some cause)) ∧
  (let e : Enc := haltcs;
    let s : Machine.State := (capped 0 0 0);
    let i : Instr := (Instr.haltc haltcs);
    let right : Nat := 2;
    let cause : Nat := 0x0D;
    (i = Instr.wake e ∧ right = 1 ∨ i = Instr.haltc e ∧ right = 2 ∨ i = Instr.inspect e ∧ right = 3) ∧ (clear i s = true) ∧ (hasPassed (seen s).me =
      false) ∧ (capCheck (seen s) s.cur.site ((seen s).me.capReg e.b) right none = some cause)) ∧
  (let e : Enc := inspects;
    let s : Machine.State := (capped 0 0 0);
    let i : Instr := (Instr.inspect inspects);
    let right : Nat := 3;
    let cause : Nat := 0x0D;
    (i = Instr.wake e ∧ right = 1 ∨ i = Instr.haltc e ∧ right = 2 ∨ i = Instr.inspect e ∧ right = 3) ∧ (clear i s = true) ∧ (hasPassed (seen s).me =
      false) ∧ (capCheck (seen s) s.cur.site ((seen s).me.capReg e.b) right none = some cause)) ∧
  (let e : Enc := capsts;
    let s : State := (capped cap2 0x1008 0);
    let i : Instr := (Instr.capst capsts);
    let w : Bool := true;
    (i = Instr.capld e ∧ w = false ∨ i = Instr.capst e ∧ w = true) ∧ (clear i s = true) ∧ (BitVec.toNat ((seen s).me.g e.b + BitVec.ofInt 64
      (e.immS Fmt.rr * 16)) % 16 ≠ 0)) ∧
  (let e : Enc := capsts;
    let s : State := (capped cap2 0x300000 0);
    let i : Instr := (Instr.capst capsts);
    let w : Bool := true;
    let c : Nat := 0x0A;
    (i = Instr.capld e ∧ w = false ∨ i = Instr.capst e ∧ w = true) ∧ (clear i s = true) ∧ (BitVec.toNat ((seen s).me.g e.b + BitVec.ofInt 64
      (e.immS Fmt.rr * 16)) % 16 = 0) ∧ (addrFault (seen s) (BitVec.toNat ((seen s).me.g e.b + BitVec.ofInt 64 (e.immS Fmt.rr * 16))) 8 w
      false = some c)) ∧
  (let e : Enc := haltcs;
    let s : State := (capped cap2 0 5);
    let i : Instr := (Instr.haltc haltcs);
    let right : Nat := 2;
    let body : Body := status5;
    ((i = Instr.wake e ∧ right = 1 ∧ body = Body.wake ∨ i = Instr.haltc e ∧ right = 2 ∧ body = Body.haltc (BitVec.ofNat 32 (BitVec.toNat
      ((seen s).me.g e.c) % 2 ^ 31 + 2 ^ 31)) ∨ i = Instr.inspect e ∧ right = 3 ∧ body = Body.inspect (BitVec.toNat ((seen s).me.g e.c)) ∧
      BitVec.toNat ((seen s).me.g e.c) ≤ 3) ∧ (clear i s = true)) ∧
    (capOk (seen s) ((seen s).me.capReg e.b) right none = true) ∧
    (canInject (seen s) 4 (cname ((seen s).me.capReg e.b)) (capKind ((seen s).me.capReg e.b)) 0 body)) ∧
  (let e : Enc := inspects;
    let s : State := (capped cap2 0 2);
    let i : Instr := (Instr.inspect inspects);
    let right : Nat := 3;
    let body : Body := (Body.inspect 2);
    ((i = Instr.wake e ∧ right = 1 ∧ body = Body.wake ∨ i = Instr.haltc e ∧ right = 2 ∧ body = Body.haltc (BitVec.ofNat 32 (BitVec.toNat
      ((seen s).me.g e.c) % 2 ^ 31 + 2 ^ 31)) ∨ i = Instr.inspect e ∧ right = 3 ∧ body = Body.inspect (BitVec.toNat ((seen s).me.g e.c)) ∧
      BitVec.toNat ((seen s).me.g e.c) ≤ 3) ∧ (clear i s = true)) ∧
    (capOk (seen s) ((seen s).me.capReg e.b) right none = true) ∧
    (canInject (seen s) 4 (cname ((seen s).me.capReg e.b)) (capKind ((seen s).me.capReg e.b)) 0 body)) ∧
  (let e : Enc := haltcs;
    let s : State := (stalledRegion (capped cap2 0 5));
    let i : Instr := (Instr.haltc haltcs);
    let right : Nat := 2;
    let body : Body := status5;
    ((i = Instr.wake e ∧ right = 1 ∧ body = Body.wake ∨ i = Instr.haltc e ∧ right = 2 ∧ body = Body.haltc (BitVec.ofNat 32 (BitVec.toNat
      ((seen s).me.g e.c) % 2 ^ 31 + 2 ^ 31)) ∨ i = Instr.inspect e ∧ right = 3 ∧ body = Body.inspect (BitVec.toNat ((seen s).me.g e.c)) ∧
      BitVec.toNat ((seen s).me.g e.c) ≤ 3) ∧ (clear i s = true)) ∧
    (capOk (seen s) ((seen s).me.capReg e.b) right none = true) ∧
    (inject (seen s) s.cur 4 (cname ((seen s).me.capReg e.b)) (capKind ((seen s).me.capReg e.b)) 0 body = none)) ∧
  (let e : Enc := inspects;
    let s : State := (stalledRegion (capped cap2 0 2));
    let i : Instr := (Instr.inspect inspects);
    let right : Nat := 3;
    let body : Body := (Body.inspect 2);
    ((i = Instr.wake e ∧ right = 1 ∧ body = Body.wake ∨ i = Instr.haltc e ∧ right = 2 ∧ body = Body.haltc (BitVec.ofNat 32 (BitVec.toNat
      ((seen s).me.g e.c) % 2 ^ 31 + 2 ^ 31)) ∨ i = Instr.inspect e ∧ right = 3 ∧ body = Body.inspect (BitVec.toNat ((seen s).me.g e.c)) ∧
      BitVec.toNat ((seen s).me.g e.c) ≤ 3) ∧ (clear i s = true)) ∧
    (capOk (seen s) ((seen s).me.capReg e.b) right none = true) ∧
    (inject (seen s) s.cur 4 (cname ((seen s).me.capReg e.b)) (capKind ((seen s).me.capReg e.b)) 0 body = none)) :=
  ⟨by and_intros <;> decide +kernel,
    by and_intros <;> decide +kernel,
    by and_intros <;> decide +kernel,
    ⟨by decide +kernel, blockAt_of (by decide +kernel), by decide +kernel⟩,
    ⟨by decide +kernel, blockAt_of (by decide +kernel), by decide +kernel⟩,
    ⟨by decide +kernel, blockAt_of (by decide +kernel), by decide +kernel⟩,
    by and_intros <;> decide +kernel,
    by and_intros <;> decide +kernel,
    by and_intros <;> decide +kernel,
    by and_intros <;> decide +kernel,
    by and_intros <;> decide +kernel,
    by and_intros <;> decide +kernel,
    by and_intros <;> decide +kernel,
    by and_intros <;> decide +kernel,
    ⟨by decide +kernel, capOk_cap2 (by decide +kernel), canInject_of (by decide +kernel)⟩,
    ⟨by decide +kernel, capOk_cap2 (by decide +kernel), by decide +kernel⟩,
    ⟨by decide +kernel, capOk_cap2 (by decide +kernel), by decide +kernel⟩,
    by and_intros <;> decide +kernel,
    by and_intros <;> decide +kernel,
    by and_intros <;> decide +kernel,
    by and_intros <;> decide +kernel,
    by and_intros <;> decide +kernel,
    ⟨by decide +kernel, capOk_cap2 (by decide +kernel), canInject_of (by decide +kernel)⟩,
    ⟨by decide +kernel, capOk_cap2 (by decide +kernel), canInject_of (by decide +kernel)⟩,
    ⟨by decide +kernel, capOk_cap2 (by decide +kernel), by decide +kernel⟩,
    ⟨by decide +kernel, capOk_cap2 (by decide +kernel), by decide +kernel⟩⟩

/-- States and operands that meet the hypotheses of `KeySteps`, clause by clause. -/
theorem meets_KeySteps :
  (let vni : Nat := 5;
    let k1 : BitVec 256 := (3 : BitVec 256);
    let k2 : BitVec 256 := (4 : BitVec 256);
    let s : Machine.State := (revoking none);
    let r : Region := (region5 none);
    let c : CoreId := g00;
    let m : Nat := 0;
    (s.region vni = some r) ∧ (r.revoking = none) ∧ (r.late = []) ∧ (firstRevoker s vni = some (c, m)) ∧ (m = 1 → k1 ≠ k2)) ∧
  (let vni : Nat := 5;
    let s : Machine.State := (revoking none);
    let r : Region := (region5 none);
    (s.region vni = some r) ∧ (vni ≠ 0)) ∧
  (let vni : Nat := 5;
    let s : Machine.State := (revoking (some g00));
    let r : Region := (region5 (some g00));
    let c : CoreId := g00;
    (s.region vni = some r) ∧ (r.revoking = some c)) ∧
  (let c : CoreId := g00;
    let d : CoreId := g00;
    let e : Enc := (word .caprevoke 1 2 0);
    let s : Machine.State := { revoking (some g00) with regions := [{ region5 (some g00) with late := [⟨1, 0⟩] }] };
    let r : Region := { region5 (some g00) with late := [⟨1, 0⟩] };
    let m : Nat := 0;
    let sites : List (Nat × Site) := ([] : List (Nat × Site));
    let more : List Nat := noNat;
    (s.region (s.tile c.site).vni = some r) ∧ (r.revoking = some d) ∧ ((s.core c).req = some (Req.caprevoke m)) ∧ ((s.core c).ans = none) ∧ ((s.core
      c).wait = some { i := Instr.caprevoke e, tag := 0, done := true, sites := sites, more := more }) ∧ (c = d) ∧ (r.late ≠ [])) ∧
  (let c : CoreId := g00;
    let d : CoreId := g00;
    let e : Enc := (word .caprevoke 1 2 0);
    let s : Machine.State := (revoking (some g00));
    let r : Region := (region5 (some g00));
    let m : Nat := 0;
    let sites : List (Nat × Site) := ([] : List (Nat × Site));
    let more : List Nat := noNat;
    (s.region (s.tile c.site).vni = some r) ∧ (r.revoking = some d) ∧ ((s.core c).req = some (Req.caprevoke m)) ∧ ((s.core c).ans = none) ∧ ((s.core
      c).wait = some { i := Instr.caprevoke e, tag := 0, done := true, sites := sites, more := more }) ∧ (c = d → r.late = [])) :=
  by and_intros <;> decide +kernel

/-- States and operands that meet the hypotheses of `ContextForms`, clause by clause. -/
theorem meets_ContextForms :
  (let e : Enc := saves;
    let s : State := (imaged 0 0x10020 0);
    let i : Instr := (Instr.ctxsave saves);
    (i = Instr.ctxsave e ∨ i = Instr.ctxload e) ∧ (clear i s = true) ∧ (BitVec.toNat ((seen s).me.g e.b) % 64 ≠ 0)) ∧
  (let e : Enc := saves;
    let s : State := (imaged 0 0x300000 0);
    let i : Instr := (Instr.ctxsave saves);
    let w : Bool := true;
    let j : Nat := 0;
    let c : Nat := 0x0A;
    (i = Instr.ctxsave e ∧ w = true ∨ i = Instr.ctxload e ∧ w = false) ∧ (clear i s = true) ∧ (BitVec.toNat ((seen s).me.g e.b) % 64 = 0) ∧
      (j < 704) ∧ (∀ (k : Nat), k < j → addrFault (seen s) (BitVec.toNat ((seen s).me.g e.b + BitVec.ofNat 64 (8 * k))) 8 w false = none) ∧
      (addrFault (seen s) (BitVec.toNat ((seen s).me.g e.b + BitVec.ofNat 64 (8 * j))) 8 w false = some c)) ∧
  (let e : Enc := saves;
    let s : State := suspended0;
    let site : Site := m00;
    let o : Nat := 0x10000;
    ((clear (Instr.ctxsave e) s = true) ∧ (BitVec.toNat ((seen s).me.g e.b) % 64 = 0)) ∧
    (blockAt (seen s) ((seen s).me.g e.b) 704 true (run site o 704)) ∧
    ((seen s).me.lowSusp = true)) ∧
  (let e : Enc := saves;
    let s : State := awaiting;
    let site : Site := m00;
    let o : Nat := 0x10000;
    ((clear (Instr.ctxsave e) s = true) ∧ (BitVec.toNat ((seen s).me.g e.b) % 64 = 0)) ∧
    (blockAt (seen s) ((seen s).me.g e.b) 704 true (run site o 704)) ∧
    (((seen s).me.lowSusp = false) ∧ ((seen s).me.vq ≠ [] ∨ (seen s).me.outst ≠ []))) ∧
  (let e : Enc := saves;
    let s : State := (imaged 0 0x10000 0);
    let site : Site := m00;
    let o : Nat := 0x10000;
    ((clear (Instr.ctxsave e) s = true) ∧ (BitVec.toNat ((seen s).me.g e.b) % 64 = 0)) ∧
    (blockAt (seen s) ((seen s).me.g e.b) 704 true (run site o 704)) ∧
    (((seen s).me.lowSusp = false) ∧ ((seen s).me.vq = []) ∧ ((seen s).me.outst = []) ∧ (((seen s).tile site).mem.wf = true))) ∧
  (let e : Enc := ctx;
    let s : Machine.State := badImage;
    let l : List (Site × Nat) := image704;
    ((clear (Instr.ctxload e) s = true) ∧ (BitVec.toNat ((seen s).me.g e.b) % 64 = 0)) ∧ (blockAt (seen s) ((seen s).me.g e.b) 704 false l) ∧
      (((seen s).tile (l.headD (s.cur.site, 0)).fst).badWords (l.headD (s.cur.site, 0)).snd 8 ≠ [])) ∧
  (let e : Enc := ctx;
    let s : State := (imaged 0x114358 0x10000 0);
    let l : List (Site × Nat) := image704;
    ((clear (Instr.ctxload e) s = true) ∧ (BitVec.toNat ((seen s).me.g e.b) % 64 = 0)) ∧
    (blockAt (seen s) ((seen s).me.g e.b) 704 false l) ∧
    ((¬(fun p => ((seen s).tile p.fst).badWords p.snd 8 ≠ []) (l.headD (s.cur.site, 0))) ∧ (¬BitVec.toNat ((List.map (wordOf (seen s))
      l).getD 0 0) % 2 ^ 24 = 1065816 + s.cur.kind.code * 2 ^ 16))) ∧
  (let e : Enc := ctx;
    let s : State := (imaged 0x104358 0x10000 0);
    let l : List (Site × Nat) := image704;
    ((clear (Instr.ctxload e) s = true) ∧ (BitVec.toNat ((seen s).me.g e.b) % 64 = 0)) ∧
    (blockAt (seen s) ((seen s).me.g e.b) 704 false l) ∧
    ((¬(fun p => ((seen s).tile p.fst).badWords p.snd 8 ≠ []) (l.headD (s.cur.site, 0))) ∧ (BitVec.toNat ((List.map (wordOf (seen s))
      l).getD 0 0) % 2 ^ 24 = 1065816 + s.cur.kind.code * 2 ^ 16) ∧ (committed (closeOut (seen s)) = true) ∧ (mayFree (closeOut (seen s)) =
      true) ∧ (quietCore (freeRecord (closeOut (seen s)) s.cur (seen s).me.lev) s.cur = true) ∧ (resultsDone (freeRecord (closeOut (seen s))
      s.cur (seen s).me.lev).me = true))) ∧
  (let e : Enc := (word .xbound 0 2 3);
    let s : State := (imaged 0 0x8000 0x9000);
    let lo : W := (0x8000 : W);
    let hi : W := (0x9000 : W);
    (lo = (seen s).me.g e.b) ∧ (hi = (seen s).me.g e.c) ∧ (clear (Instr.xbound e) s = true) ∧ (BitVec.toNat lo % 64 = 0 ∧ BitVec.toNat hi %
      64 = 0 ∧ BitVec.toNat lo ≤ 2883584 ∧ BitVec.toNat hi ≤ 2883584 ∧ ringsOverlap (seen s).here (BitVec.toNat lo) (BitVec.toNat hi) =
      false)) ∧
  (let e : Enc := (word .xbound 0 2 3);
    let s : State := (imaged 0 0x8020 0x9000);
    let lo : W := (0x8020 : W);
    let hi : W := (0x9000 : W);
    (lo = (seen s).me.g e.b) ∧ (hi = (seen s).me.g e.c) ∧ (clear (Instr.xbound e) s = true) ∧ (¬(BitVec.toNat lo % 64 = 0 ∧ BitVec.toNat hi
      % 64 = 0 ∧ BitVec.toNat lo ≤ 2883584 ∧ BitVec.toNat hi ≤ 2883584 ∧ ringsOverlap (seen s).here (BitVec.toNat lo) (BitVec.toNat hi) =
      false))) ∧
  (let e : Enc := (word .migr 1 0 0);
    let s : State := (imaged 0 0 0);
    clear (Instr.migr e) s = true) ∧
  (let c : CoreId := g00;
    let s : State := (inDevice 1 (migrating none));
    let p : Bool := false;
    ((s.core c).req = some Req.migr) ∧
    (¬∃ n, n < 126 * 126 ∧ siteOf n ≠ c.site ∧ freeTile s (s.tile c.site).vni (siteOf n) = true) ∧
    ((s.core c).ans = none)) ∧
  (let c : CoreId := g00;
    let s : State := (inDevice 2 (migrating none fun t => { t with moving := true }));
    let p : Bool := false;
    ((s.core c).req = some Req.migr) ∧
    (∃ n, n < 126 * 126 ∧ siteOf n ≠ c.site ∧ freeTile s (s.tile c.site).vni (siteOf n) = true) ∧
    ((((s.tile c.site).stopped || (s.tile c.site).moving || (s.tile c.site).hold || (s.tile c.site).fwd.isSome || (s.tile
      c.site).viaOnly.isSome || Option.any (fun x => x.stalled) (s.region (s.tile c.site).vni)) = true) ∧ ((s.core c).ans = none))) ∧
  (let c : CoreId := g00;
    let s : State := (inDevice 2 (migrating none));
    ((s.core c).req = some Req.migr) ∧
    (∃ n, n < 126 * 126 ∧ siteOf n ≠ c.site ∧ freeTile s (s.tile c.site).vni (siteOf n) = true) ∧
    ((¬((s.tile c.site).stopped || (s.tile c.site).moving || (s.tile c.site).hold || (s.tile c.site).fwd.isSome || (s.tile
      c.site).viaOnly.isSome || Option.any (fun x => x.stalled) (s.region (s.tile c.site).vni)) = true) ∧ ((s.core c).ans = none))) ∧
  (let c : CoreId := g00;
    let s : State := (inDevice 2 (migrating none));
    ((s.core c).req = some Req.migr) ∧
    (∃ n, n < 126 * 126 ∧ siteOf n ≠ c.site ∧ freeTile s (s.tile c.site).vni (siteOf n) = true) ∧
    ((¬((s.tile c.site).stopped || (s.tile c.site).moving || (s.tile c.site).hold || (s.tile c.site).fwd.isSome || (s.tile
      c.site).viaOnly.isSome || Option.any (fun x => x.stalled) (s.region (s.tile c.site).vni)) = true) ∧ ((s.core c).ans = none))) ∧
  (let c : CoreId := g00;
    let s : Machine.State := (migrating (some 3));
    let x : W := (3 : W);
    let e : Enc := (word .migr 1 0 0);
    let sites : List (Nat × Site) := ([] : List (Nat × Site));
    let more : List Nat := noNat;
    ((s.core c).req = some Req.migr) ∧ ((s.core c).ans = some x) ∧ ((s.core c).wait = some
      { i := Instr.migr e, tag := 0, done := true, sites := sites, more := more })) ∧
  (let e : Enc := ctx;
    let s : State := (imaged 0 0x10020 0);
    let i : Instr := (Instr.ctxload ctx);
    (i = Instr.ctxsave e ∨ i = Instr.ctxload e) ∧ (clear i s = true) ∧ (BitVec.toNat ((seen s).me.g e.b) % 64 ≠ 0)) ∧
  (let e : Enc := ctx;
    let s : State := (imaged 0 0x300000 0);
    let i : Instr := (Instr.ctxload ctx);
    let w : Bool := false;
    let j : Nat := 0;
    let c : Nat := 0x0A;
    (i = Instr.ctxsave e ∧ w = true ∨ i = Instr.ctxload e ∧ w = false) ∧ (clear i s = true) ∧ (BitVec.toNat ((seen s).me.g e.b) % 64 = 0) ∧
      (j < 704) ∧ (∀ (k : Nat), k < j → addrFault (seen s) (BitVec.toNat ((seen s).me.g e.b + BitVec.ofNat 64 (8 * k))) 8 w false = none) ∧
      (addrFault (seen s) (BitVec.toNat ((seen s).me.g e.b + BitVec.ofNat 64 (8 * j))) 8 w false = some c)) :=
  ⟨by and_intros <;> decide +kernel,
    by and_intros <;> decide +kernel,
    ⟨by decide +kernel, blockAt_of (by decide +kernel), by decide +kernel⟩,
    ⟨by decide +kernel, blockAt_of (by decide +kernel), by decide +kernel⟩,
    ⟨by decide +kernel, blockAt_of (by decide +kernel), by decide +kernel⟩,
    ⟨by and_intros <;> decide +kernel, blockAt_of (by decide +kernel), by decide +kernel⟩,
    ⟨by decide +kernel, blockAt_of (by decide +kernel), by decide +kernel⟩,
    ⟨by decide +kernel, blockAt_of (by decide +kernel), by decide +kernel⟩,
    by and_intros <;> decide +kernel,
    by and_intros <;> decide +kernel,
    by and_intros <;> decide +kernel,
    ⟨by decide +kernel, isEmpty_alone (by decide +kernel) (by decide +kernel), by decide +kernel⟩,
    ⟨by decide +kernel, ⟨1, by decide +kernel⟩, by decide +kernel⟩,
    ⟨by decide +kernel, ⟨1, by decide +kernel⟩, by decide +kernel⟩,
    ⟨by decide +kernel, ⟨1, by decide +kernel⟩, by decide +kernel⟩,
    by and_intros <;> decide +kernel,
    by and_intros <;> decide +kernel,
    by and_intros <;> decide +kernel⟩

/-- States and operands that meet the hypotheses of `LaunchPackets`, clause by clause. -/
theorem meets_LaunchPackets :
  ((let ctx : Nat := 4;
    let s : State := (queued4 0 [] none []);
    let q : QCtx := (qctx4 0);
    let v : W := (5 : W);
    (s.qctx ctx = some q) ∧ (2 ^ q.k < (BitVec.ofNat 16 (BitVec.toNat v % 2 ^ 16) - q.head).toNat)) ∧
  (let ctx : Nat := 4;
    let s : State := (queued4 0 [] none []);
    let q : QCtx := (qctx4 0);
    let v : W := (4 : W);
    (s.qctx ctx = some q) ∧ ((BitVec.ofNat 16 (BitVec.toNat v % 2 ^ 16) - q.head).toNat ≤ 2 ^ q.k)) ∧
  (let ctx : Nat := 4;
    let s : State := (queued4 0 [] none []);
    let q : QCtx := (qctx4 0);
    let ven : Bool := false;
    s.qctx ctx = some q)) ∧
  (let ctx : Nat := 4;
    let s : State := (queued4 1 (packet 0x830002 0x4101) none []);
    let q : QCtx := (qctx4 1);
    let p : Nat × Bool := slot0;
    ((s.qctx ctx = some q) ∧ (q.head ≠ q.tail) ∧ (s.launch ctx = none) ∧ (translate s q.pasid (q.base + 64 * (q.head.toNat % 2 ^ q.k)) false
      = some p)) ∧
    (islandOwns s (regionsOf p 64)) ∧
    ((s.ebad p 64 = []) ∧ (doneBad ((packetAt s p).getD 4 0) = true))) ∧
  (let ctx : Nat := 4;
    let s : State := (queued4 1 good none []);
    let q : QCtx := (qctx4 1);
    let p : Nat × Bool := slot0;
    ((s.qctx ctx = some q) ∧ (q.head ≠ q.tail) ∧ (s.launch ctx = none) ∧ (translate s q.pasid (q.base + 64 * (q.head.toNat % 2 ^ q.k)) false
      = some p)) ∧
    (islandOwns s (regionsOf p 64)) ∧
    ((s.ebad p 64 = []) ∧ (doneBad ((packetAt s p).getD 4 0) = false) ∧ (packetBad (packetAt s p) = false ∧ launchCores ((packetAt s p).getD
      0 0) ≠ [] ∧ (s.findPlace q.vdev (BitVec.toNat ((packetAt s p).getD 0 0) % 2 ^ 16)).isSome = true))) ∧
  (let ctx : Nat := 4;
    let s : State := (queued4 1 (packet 0x830003 0x4100) none []);
    let q : QCtx := (qctx4 1);
    let p : Nat × Bool := slot0;
    let d : Nat × Bool := done0;
    ((s.qctx ctx = some q) ∧ (q.head ≠ q.tail) ∧ (s.launch ctx = none) ∧ (translate s q.pasid (q.base + 64 * (q.head.toNat % 2 ^ q.k)) false
      = some p)) ∧
    (islandOwns s (regionsOf p 64)) ∧
    ((s.ebad p 64 = []) ∧ (doneBad ((packetAt s p).getD 4 0) = false) ∧ (¬(packetBad (packetAt s p) = false ∧ launchCores ((packetAt s
      p).getD 0 0) ≠ [] ∧ (s.findPlace q.vdev (BitVec.toNat ((packetAt s p).getD 0 0) % 2 ^ 16)).isSome = true))) ∧
    (canComplete s q ((packetAt s p).getD 4 0) d)) :=
  ⟨by and_intros <;> decide +kernel,     ⟨by decide +kernel, by delta islandOwns; decide +kernel, by decide +kernel⟩,
      ⟨by decide +kernel, by delta islandOwns; decide +kernel, by decide +kernel⟩,     ⟨by decide +kernel,
      by delta islandOwns; decide +kernel, by decide +kernel, by delta canComplete islandOwns; decide +kernel⟩⟩

/-- States and operands that meet the hypotheses of `LaunchSteps`, clause by clause. -/
theorem meets_LaunchSteps :
  (let ctx : Nat := 4;
    let s : State := (live (launch4 false [] [] []) misplaced);
    let q : QCtx := (qctx4 0);
    let l : Launch := (launch4 false [] [] []);
    let p : Place := (place2 none);
    let d : Nat × Bool := done0;
    (launching s ctx q l p) ∧
    ((l.admitted = false) ∧ (placeFree s p = true) ∧ (overtakes s l p = false)) ∧
    (canComplete s q l.doneaddr d) ∧
    (∃ x, x ∈ s.placeTiles p ∧ ringsClear ((loadPlace s p).tile x) = false)) ∧
  (let ctx : Nat := 4;
    let s : State := (live (launch4 false [] [] []));
    let q : QCtx := (qctx4 0);
    let l : Launch := (launch4 false [] [] []);
    let p : Place := (place2 none);
    (launching s ctx q l p) ∧
    ((l.admitted = false) ∧ (placeFree s p = true) ∧ (overtakes s l p = false) ∧ (∀ (x : Site), x ∈ s.placeTiles p → ringsClear ((loadPlace
      s p).tile x) = true) ∧ ((List.map (fun x => x.fst) (List.flatMap id p.clusters)).Nodup)) ∧
    (∀ (n m : Nat) (x y : Site), s.siteOfName p.vni n = some x → s.siteOfName p.vni m = some y → Site.num x = Site.num y → n = m)) ∧
  (let ctx : Nat := 4;
    let s : State := (live (launch4 true [] [] []));
    let q : QCtx := (qctx4 0);
    let l : Launch := (launch4 true [] [] []);
    let p : Place := (place2 (some 4));
    let site : Site := l00;
    let y : Site := l10;
    (launching s ctx q l p) ∧
    ((l.admitted = true) ∧ (parentIn s q p site = some y) ∧ (¬y ∈ l.sent))) ∧
  (let ctx : Nat := 4;
    let s : State := (live (launch4 true [l10] [] []) handles);
    let q : QCtx := (qctx4 0);
    let l : Launch := (launch4 true [l10] [] []);
    let p : Place := (place2 (some 4));
    let site : Site := l00;
    (launching s ctx q l p) ∧
    ((l.admitted = true) ∧ (¬site ∈ l.sent) ∧ (site ∈ s.placeTiles p) ∧ (∀ (y : Site), parentIn s q p site = some y → y ∈ l.sent) ∧ (∀ (x :
      CoreKind × Nat), x ∈ l.ch → ((s.tile site).core x.fst).heldLaunch = []) ∧ ((List.map (fun x => x.fst) l.ch).Nodup))) :=
  ⟨⟨by delta launching; decide +kernel, by decide +kernel, by delta canComplete islandOwns; decide +kernel, by decide +kernel⟩,
      ⟨by delta launching; decide +kernel, by decide +kernel, names_inj rfl⟩,     ⟨by delta launching; decide +kernel, by decide +kernel⟩,
      ⟨by delta launching; decide +kernel, by decide +kernel⟩⟩

/-- States and operands that meet the hypotheses of `LaunchMessages`, clause by clause. -/
theorem meets_LaunchMessages :
  (let c : CoreId := f00;
    let s : State := (messaged 1 true);
    let chan : Nat := 3;
    let d : W := (0x400C00000077F010 : W);
    let pl : List Byte := msg16;
    let rest : List (Nat × W × List Byte) := noHeld;
    ((s.core c).heldLaunch = (chan, d, pl) :: rest) ∧ (ringEn ((s.core c).ring chan) = true) ∧ (ceilDiv (16 + pl.length) 64 ≤ ringGran
      ((s.core c).ring chan)) ∧ ((if ringProd ((s.core c).ring chan) % ringGran ((s.core c).ring chan) + ceilDiv (16 + pl.length) 64 >
      ringGran ((s.core c).ring chan) then ringGran ((s.core c).ring chan) - ringProd ((s.core c).ring chan) % ringGran ((s.core c).ring
      chan) else 0) + ceilDiv (16 + pl.length) 64 ≤ ringFree ((s.core c).ring chan)) ∧ ((s.tile c.site).mem.wf = true)) ∧
  (let c : CoreId := f00;
    let s : State := (messaged 8 true);
    let chan : Nat := 3;
    let d : W := (0x400C00000077F010 : W);
    let pl : List Byte := msg16;
    let rest : List (Nat × W × List Byte) := noHeld;
    ((s.core c).heldLaunch = (chan, d, pl) :: rest) ∧ (ringEn ((s.core c).ring chan) = true) ∧ (ceilDiv (16 + pl.length) 64 ≤ ringGran
      ((s.core c).ring chan)) ∧ (ringFree ((s.core c).ring chan) < (if ringProd ((s.core c).ring chan) % ringGran ((s.core c).ring chan) +
      ceilDiv (16 + pl.length) 64 > ringGran ((s.core c).ring chan) then ringGran ((s.core c).ring chan) - ringProd ((s.core c).ring chan) %
      ringGran ((s.core c).ring chan) else 0) + ceilDiv (16 + pl.length) 64)) ∧
  (let c : CoreId := f00;
    let s : State := (messaged 0 false);
    let chan : Nat := 3;
    let d : W := (0x400C00000077F010 : W);
    let pl : List Byte := msg16;
    let rest : List (Nat × W × List Byte) := noHeld;
    ((s.core c).heldLaunch = (chan, d, pl) :: rest) ∧ (ringEn ((s.core c).ring chan) = false)) :=
  by and_intros <;> decide +kernel

/-- States and operands that meet the hypotheses of `LaunchEnds`, clause by clause. -/
theorem meets_LaunchEnds :
  (let ctx : Nat := 4;
    let s : State := (live done2);
    let q : QCtx := (qctx4 0);
    let l : Launch := done2;
    let p : Place := (place2 (some 4));
    let d : Nat × Bool := done0;
    let place : Nat := 2;
    let n : Nat := 0;
    let cl : List (Nat × Nat) := cluster2;
    (launching s ctx q l p) ∧
    (canComplete s q l.doneaddr d) ∧
    ((s.placeNo place = some p) ∧ (p.admitted = some ctx) ∧ (p.clusters[n]? = some cl) ∧ (∀ (x : Site), x ∈ clusterTiles s p cl → arrived l
      x = true))) ∧
  (let ctx : Nat := 4;
    let s : State := (live (launch4 true [] [] []));
    let q : QCtx := (qctx4 0);
    let l : Launch := (launch4 true [] [] []);
    let p : Place := (place2 (some 4));
    let d : Nat × Bool := done0;
    let place : Nat := 2;
    let n : Nat := 0;
    let cl : List (Nat × Nat) := cluster2;
    (launching s ctx q l p) ∧
    (canComplete s q l.doneaddr d) ∧
    ((s.placeNo place = some p) ∧ (p.admitted = some ctx) ∧ (p.clusters[n]? = some cl) ∧ (∃ x, x ∈ clusterTiles s p cl ∧ arrived l x =
      false))) ∧
  (let ctx : Nat := 4;
    let s : State := (closing done2);
    let q : QCtx := (qctx4 0);
    let l : Launch := done2;
    let p : Place := (place2 (some 4));
    let d : Nat × Bool := done0;
    let site : Site := l10;
    let y : Site := l00;
    (launching s ctx q l p) ∧
    (canComplete s q l.doneaddr d) ∧
    ((y ∈ s.placeTiles p) ∧ (parentIn s q p y = some site) ∧ (¬y ∈ l.tiles))) ∧
  (let ctx : Nat := 4;
    let s : Machine.State := (closing { moreTiles with doomed := true });
    let q : QCtx := (qctx4 0);
    let l : Launch := { moreTiles with doomed := true };
    let p : Place := (place2 (some 4));
    let d : Nat × Bool := done0;
    (launching s ctx q l p) ∧ (canComplete s q l.doneaddr d) ∧ (l.doomed = true)) ∧
  (let ctx : Nat := 4;
    let s : Machine.State := (closing moreTiles);
    let q : QCtx := (qctx4 0);
    let l : Launch := moreTiles;
    let p : Place := (place2 (some 4));
    let d : Nat × Bool := done0;
    let site : Site := l10;
    (launching s ctx q l p) ∧ (canComplete s q l.doneaddr d) ∧ ((l.doomed = false) ∧ (¬site ∈ l.tiles) ∧ (site ∈ s.placeTiles p) ∧ (partOver s l
      site = true) ∧ (∀ (y : Site), y ∈ s.placeTiles p → parentIn s q p y = some site → y ∈ l.tiles) ∧ (∀ (x : Site), x ∈ s.placeTiles p → x = site
      ∨ x ∈ l.tiles))) ∧
  (let ctx : Nat := 4;
    let s : Machine.State := (closing done2);
    let q : QCtx := (qctx4 0);
    let l : Launch := done2;
    let p : Place := (place2 (some 4));
    let d : Nat × Bool := done0;
    let site : Site := l00;
    (launching s ctx q l p) ∧ (canComplete s q l.doneaddr d) ∧ ((l.doomed = false) ∧ (¬site ∈ l.tiles) ∧ (site ∈ s.placeTiles p) ∧ (partOver s l
      site = true) ∧ (∀ (y : Site), y ∈ s.placeTiles p → parentIn s q p y = some site → y ∈ l.tiles) ∧ (∃ x, x ∈ s.placeTiles p ∧ x ≠ site ∧ ¬x ∈
      l.tiles))) ∧
  (let ctx : Nat := 4;
    let s : State := { live done2 with pkts := [flying4] };
    let q : QCtx := (qctx4 0);
    let l : Launch := done2;
    let p : Place := (place2 (some 4));
    let d : Nat × Bool := done0;
    let place : Nat := 2;
    (launching s ctx q l p) ∧
    (canComplete s q l.doneaddr d) ∧
    ((s.placeNo place = some p) ∧ (p.admitted = some ctx) ∧ (∃ x, x ∈ s.pkts ∧ x.src.site ∈ s.placeTiles p ∧ owned x = true))) ∧
  (let ctx : Nat := 4;
    let s : State := quiet4;
    let q : QCtx := (qctx4 0);
    let l : Launch := done2;
    let p : Place := (place2 (some 4));
    let d : Nat × Bool := done0;
    let place : Nat := 2;
    (launching s ctx q l p) ∧
    (canComplete s q l.doneaddr d) ∧
    ((s.placeNo place = some p) ∧ (p.admitted = some ctx)) ∧
    (∀ (x : Site), x ∈ s.placeTiles p → ∀ (k : CoreKind), ((s.tile x).core k).lo.act = none ∧ ((s.tile x).core k).hi.act = none ∧ quietCore
      s { site := x, kind := k } = true) ∧
    (∀ (x : Engine), x ∈ s.engines → ¬x.site ∈ s.placeTiles p)) :=
  ⟨⟨by delta launching; decide +kernel, by delta canComplete islandOwns; decide +kernel, by decide +kernel⟩,
    ⟨by delta launching; decide +kernel, by delta canComplete islandOwns; decide +kernel, by decide +kernel⟩,
    ⟨by delta launching; decide +kernel, by delta canComplete islandOwns; decide +kernel, by decide +kernel⟩,
    ⟨by delta launching; decide +kernel, by delta canComplete islandOwns; decide +kernel, by decide +kernel⟩,
    ⟨by delta launching; decide +kernel, by delta canComplete islandOwns; decide +kernel, by and_intros <;> decide +kernel⟩,
    ⟨by delta launching; decide +kernel, by delta canComplete islandOwns; decide +kernel, by and_intros <;> decide +kernel⟩,
    ⟨by delta launching; decide +kernel, by delta canComplete islandOwns; decide +kernel, by decide +kernel⟩,
    ⟨by delta launching; decide +kernel, by delta canComplete islandOwns; decide +kernel, by decide +kernel, kinds_all (by decide +kernel), by decide +kernel⟩⟩

/-- States and operands that meet the hypotheses of `RegionSteps`, clause by clause. -/
theorem meets_RegionSteps :
  (let site : Site := t20;
    let vni : Nat := 5;
    let name : Nat := 7;
    let key : BitVec 256 := (3 : BitVec 256);
    let prev : BitVec 256 := (4 : BitVec 256);
    let s : State := (world .flow);
    (site.x < 126) ∧ (site.y < 126) ∧ (s.booted = false ∨ vni = 0 ∨ (s.tile site).bound = true ∨ s.gone site = true ∨ inVdev s vni site =
      false)) ∧
  (let site : Site := t20;
    let vni : Nat := 5;
    let name : Nat := 7;
    let key : BitVec 256 := (3 : BitVec 256);
    let prev : BitVec 256 := (4 : BitVec 256);
    let s : State := booted;
    (site.x < 126) ∧ (site.y < 126) ∧ (s.booted = true) ∧ (0 < vni) ∧ (vni < 4096) ∧ (name < 16384) ∧ ((s.tile site).bound = false) ∧
      (s.gone site = false) ∧ (inVdev s vni site = true) ∧ (s.siteOfName vni name = none) ∧ (s.image vni name = none)) ∧
  (let site : Site := t10;
    let vni : Nat := 5;
    let name : Nat := 7;
    let key : BitVec 256 := (3 : BitVec 256);
    let prev : BitVec 256 := (4 : BitVec 256);
    let s : State := booted;
    (site.x < 126) ∧ (site.y < 126) ∧ ((s.tile site).bound = true) ∧ (inUse s site = false) ∧ (s.siteOfName (s.tile site).vni (s.tile
      site).name = some site) ∧ (s.image (s.tile site).vni (s.tile site).name = none)) ∧
  (let site : Site := t20;
    let vni : Nat := 5;
    let name : Nat := 7;
    let key : BitVec 256 := (3 : BitVec 256);
    let prev : BitVec 256 := (4 : BitVec 256);
    let s : State := booted;
    (site.x < 126) ∧ (site.y < 126) ∧ ((s.tile site).bound = false ∨ inUse s site = true)) ∧
  (let site : Site := t20;
    let vni : Nat := 9;
    let name : Nat := 7;
    let key : BitVec 256 := (3 : BitVec 256);
    let prev : BitVec 256 := (4 : BitVec 256);
    let s : State := booted;
    (site.x < 126) ∧ (site.y < 126) ∧ (0 < vni) ∧ (vni < 4096)) ∧
  (let site : Site := t20;
    let vni : Nat := 9;
    let name : Nat := 7;
    let key : BitVec 256 := (3 : BitVec 256);
    let prev : BitVec 256 := (4 : BitVec 256);
    let s : State := booted;
    (site.x < 126) ∧ (site.y < 126) ∧ (0 < vni) ∧ (vni < 4096) ∧ (s.region vni = none) ∧ (∀ (p : Pkt), p ∈ s.pkts → p.vni ≠ vni)) ∧
  (let site : Site := t20;
    let vni : Nat := 5;
    let name : Nat := 7;
    let key : BitVec 256 := (3 : BitVec 256);
    let prev : BitVec 256 := (4 : BitVec 256);
    let s : State := booted;
    (site.x < 126) ∧ (site.y < 126) ∧ (0 < vni) ∧ (vni < 4096) ∧ ((s.region vni).isSome = true)) ∧
  (let site : Site := t00;
    let vni : Nat := 5;
    let name : Nat := 7;
    let key : BitVec 256 := (3 : BitVec 256);
    let prev : BitVec 256 := (4 : BitVec 256);
    let s : State := { booted with holes := [t10] };
    let entry : BitVec 16 := (0x0001 : BitVec 16);
    let d : Site := t10;
    (site.x < 126) ∧ (site.y < 126) ∧ (Machine.entryOf entry.toNat = Entry.bound d) ∧ (noTile s d = true)) ∧
  (let site : Site := t00;
    let vni : Nat := 5;
    let name : Nat := 7;
    let key : BitVec 256 := (3 : BitVec 256);
    let prev : BitVec 256 := (4 : BitVec 256);
    let s : State := booted;
    let entry : BitVec 16 := (0x0102 : BitVec 16);
    ((site.x < 126) ∧ (site.y < 126) ∧ ((s.tile site).bound = true) ∧ (name < 16384) ∧ ((s.tile site).mem.wf = true)) ∧
    (∀ (d : Site), Machine.entryOf entry.toNat = Entry.bound d → noTile s d = false)) ∧
  (let d : VDev := dev0;
    let s : Machine.State := { booted with vdevs := [{ dev0 with num := 4 }] };
    ((∃ x, x ∈ s.vdevs ∧ (x.num = d.num ∨ (∃ v, v ∈ x.vnis ∧ v ∈ d.vnis) ∨ (∃ v, v ∈ x.ctxs ∧ v ∈ d.ctxs) ∨ (∃ v, v ∈ x.pasids ∧ v ∈ d.pasids) ∨ (∃
      v, v ∈ x.engines ∧ v ∈ d.engines) ∨ ¬(fun x => x.x0 + x.cols ≤ d.x0 ∨ d.x0 + d.cols ≤ x.x0 ∨ x.y0 + x.rows ≤ d.y0 ∨ d.y0 + d.rows ≤ x.y0) x))
      ∨ (∃ v, v ∈ d.vnis ∧ ∃ u, u ∈ s.tilesOf v ∧ ∀ (x y : Nat), logOf s.dead u = some (x, y) → x < d.x0 ∨ d.x0 + d.cols ≤ x ∨ y < d.y0 ∨ d.y0 +
      d.rows ≤ y) ∨ ((∃ q, q ∈ s.qctxs ∧ q.num ∈ d.ctxs ∧ ¬q.pasid ∈ d.pasids) ∨ ∃ e, e ∈ s.engines ∧ (¬(e.num ∈ d.engines ↔ Engine.vni s e ∈
      d.vnis) ∨ e.num ∈ d.engines ∧ ¬e.pasid ∈ d.pasids)) ∨ 8192 < (List.map (fun x => x.ctxs.length) s.vdevs).sum + d.ctxs.length ∨ apart
      { s with vdevs := s.vdevs ++ [d] } = false)) ∧
  (let d : VDev := { dev0 with vnis := [6] };
    let s : Machine.State := booted;
    (¬∃ x, x ∈ s.vdevs ∧ (x.num = d.num ∨ (∃ v, v ∈ x.vnis ∧ v ∈ d.vnis) ∨ (∃ v, v ∈ x.ctxs ∧ v ∈ d.ctxs) ∨ (∃ v, v ∈ x.pasids ∧ v ∈ d.pasids) ∨ (∃
      v, v ∈ x.engines ∧ v ∈ d.engines) ∨ ¬(fun x => x.x0 + x.cols ≤ d.x0 ∨ d.x0 + d.cols ≤ x.x0 ∨ x.y0 + x.rows ≤ d.y0 ∨ d.y0 + d.rows ≤ x.y0) x))
      ∧ (¬∃ v, v ∈ d.vnis ∧ ∃ u, u ∈ s.tilesOf v ∧ ∀ (x y : Nat), logOf s.dead u = some (x, y) → x < d.x0 ∨ d.x0 + d.cols ≤ x ∨ y < d.y0 ∨ d.y0 +
      d.rows ≤ y) ∧ ((¬((∃ q, q ∈ s.qctxs ∧ q.num ∈ d.ctxs ∧ ¬q.pasid ∈ d.pasids) ∨ ∃ e, e ∈ s.engines ∧ (¬(e.num ∈ d.engines ↔ Engine.vni s e ∈
      d.vnis) ∨ e.num ∈ d.engines ∧ ¬e.pasid ∈ d.pasids))) ∧ (¬8192 < (List.map (fun x => x.ctxs.length) s.vdevs).sum + d.ctxs.length) ∧ (apart
      { s with vdevs := s.vdevs ++ [d] } = true) ∧ (d.num < 1024) ∧ (d.xquota ≤ 4) ∧ (d.quotas.length = d.vnis.length) ∧ (d.vnis ≠ []) ∧ (∀ (q :
      Nat), q ∈ d.quotas → q ≤ 16) ∧ (0 < d.cols) ∧ (0 < d.rows) ∧ (d.x0 + d.cols ≤ Config.logicalCols) ∧ (d.y0 + d.rows ≤ Config.logicalRows) ∧ (∀
      (v : Nat), v ∈ d.vnis → 0 < v ∧ v < 4096) ∧ (∀ (n : Nat), n ∈ d.engines → n < 4096) ∧ (d.vnis.Nodup) ∧ (d.ctxs.Nodup) ∧ (d.pasids.Nodup) ∧
      (d.engines.Nodup))) ∧
  (let vni : Nat := 5;
    let threshold : Nat := 0;
    let s : State := booted;
    let r : Region := region0;
    s.region vni = some r) :=
  ⟨by and_intros <;> decide +kernel,
    by and_intros <;> decide +kernel,
    by and_intros <;> decide +kernel,
    by and_intros <;> decide +kernel,
    by and_intros <;> decide +kernel,
    by and_intros <;> decide +kernel,
    by and_intros <;> decide +kernel,
    by and_intros <;> decide +kernel,
    ⟨by decide +kernel, bound_of (by decide +kernel)⟩,
    .inl (by decide +kernel),
    ⟨by decide +kernel, noneIn_of (by decide +kernel), by and_intros <;> decide +kernel⟩,
    by and_intros <;> decide +kernel⟩

/-- States and operands that meet the hypotheses of `MoveSteps`, clause by clause. -/
theorem meets_MoveSteps :
  (let place : Nat := 2;
    let island : Nat := 3;
    let s : State := (placing false []);
    let p : Place := (place1 false);
    (s.placeNo place = some p) ∧ (p.swapped = false) ∧ (island < 64) ∧ (∀ (x : Site), x ∈ s.placeTiles p → (s.tile x).moving = false ∧
      (s.tile x).hold = false ∧ (s.tile x).fwd = none ∧ (s.tile x).viaOnly = none) ∧ ((∃ x, x ∈ s.placeTiles p ∧ (tileQuiet s x = false ∨
      xQuiet s x = false)) ∨ ∃ r, r ∈ List.flatMap (areaOf p) (List.range (s.placeTiles p).length) ∧ (s.own r).side ≠ some true)) ∧
  (let place : Nat := 2;
    let island : Nat := 3;
    let s : State := (placing false [] noAct);
    let p : Place := (place1 false);
    (s.placeNo place = some p) ∧ (p.swapped = false) ∧ (island < 64) ∧ (∀ (x : Site), x ∈ s.placeTiles p → (s.tile x).moving = false ∧
      (s.tile x).hold = false ∧ (s.tile x).fwd = none ∧ (s.tile x).viaOnly = none) ∧ (∀ (x : Site), x ∈ s.placeTiles p → tileQuiet s x =
      true ∧ xQuiet s x = true) ∧ (∀ (r : Nat), r ∈ List.flatMap (areaOf p) (List.range (s.placeTiles p).length) → (s.own r).owner =
      Owner.fabric) ∧ ((List.map (fun x => (s.tile x).name) (s.placeTiles p)).Nodup) ∧ (∀ (x : Site), x ∈ s.placeTiles p → s.image p.vni
      (s.tile x).name = none)) ∧
  (let place : Nat := 2;
    let sites : List Site := [t20];
    let s : Machine.State := { placing true [saved1] with engines := [{ engine [opAt 0 0x300000000] with num := 70, away := some (5, 1) }] };
    let p : Place := (place1 true);
    (s.placeNo place = some p) ∧ (p.swapped = true) ∧ (sites.length = (placeNames s p).length) ∧ (sites.Nodup) ∧ (∀ (x : (Nat × Site) × Site), x ∈
      (placeNames s p).zip sites → takes s p.vni x.fst.fst x.fst.snd x.snd = true) ∧ (ctxRoom s p.vni (fun n e => e.away == some (p.vni, n))
      (List.map (fun x => (x.fst.fst, x.snd)) ((placeNames s p).zip sites)) = false)) ∧
  (let place : Nat := 2;
    let sites : List Site := [t20];
    let s : Machine.State := (placing true [saved1]);
    let p : Place := (place1 true);
    (s.placeNo place = some p) ∧ (p.swapped = true) ∧ (sites.length = (placeNames s p).length) ∧ (sites.Nodup) ∧ (∀ (x : (Nat × Site) × Site), x ∈
      (placeNames s p).zip sites → takes s p.vni x.fst.fst x.fst.snd x.snd = true) ∧ (ctxRoom s p.vni (fun n e => e.away == some (p.vni, n))
      (List.map (fun x => (x.fst.fst, x.snd)) ((placeNames s p).zip sites)) = true) ∧ (∀ (x : Nat × Site), x ∈ placeNames s p → ∀ (y : Saved),
      s.image p.vni x.fst = some y → ∀ (r : Nat), r ∈ y.regs → (s.own r).owner = Owner.fabric)) ∧
  (let place : Nat := 2;
    let sites : List Site := [t20];
    let s : Machine.State := (placing true [saved1]);
    let p : Place := (place1 true);
    let name : Nat := 1;
    let old : Site := t00;
    let d : Site := t20;
    let y : Saved := saved1;
    (s.placeNo place = some p) ∧ (p.swapped = true) ∧ (sites.length = (placeNames s p).length) ∧ (sites.Nodup) ∧ (∀ (x : (Nat × Site) × Site), x ∈
      (placeNames s p).zip sites → takes s p.vni x.fst.fst x.fst.snd x.snd = true) ∧ (ctxRoom s p.vni (fun n e => e.away == some (p.vni, n))
      (List.map (fun x => (x.fst.fst, x.snd)) ((placeNames s p).zip sites)) = true) ∧ (∀ (x : Nat × Site), x ∈ placeNames s p → ∀ (y : Saved),
      s.image p.vni x.fst = some y → ∀ (r : Nat), r ∈ y.regs → (s.own r).owner = Owner.fabric) ∧ (placeNames s p = [(name, old)]) ∧ (sites = [d]) ∧
      (Site.num old = Site.num d → old = d) ∧ (s.image p.vni name = some y)) ∧
  (let a : Site := t00;
    let b : Site := t20;
    let s : State := (moving false false);
    ((s.tile a).bound = true) ∧ ((s.tile a).fwd = none) ∧ ((s.tile a).viaOnly = none) ∧ (s.image (s.tile a).vni (s.tile a).name = none) ∧
      (s.gone a = false) ∧ (Site.num a ≠ Site.num b) ∧ (b.x < 126) ∧ (b.y < 126) ∧ ((s.tile a).name < 16384) ∧ (freeTile s (s.tile a).vni b
      = true) ∧ (∃ r, s.region (s.tile a).vni = some r ∧ r.stalled = false) ∧ ((s.tile a).moving = false)) ∧
  (let a : Site := t00;
    let b : Site := t20;
    let s : State := (moving true false noAct);
    ((s.tile a).bound = true) ∧ ((s.tile a).fwd = none) ∧ ((s.tile a).viaOnly = none) ∧ (s.image (s.tile a).vni (s.tile a).name = none) ∧
      (s.gone a = false) ∧ (Site.num a ≠ Site.num b) ∧ (b.x < 126) ∧ (b.y < 126) ∧ ((s.tile a).name < 16384) ∧ (freeTile s (s.tile a).vni b
      = true) ∧ (∃ r, s.region (s.tile a).vni = some r ∧ r.stalled = false) ∧ ((s.tile a).moving = true) ∧ ((s.tile a).hold = false) ∧
      (tileQuiet s a = true) ∧ (xQuiet s a = true)) ∧
  (let a : Site := t00;
    let b : Site := t20;
    let s : State := (moving true false);
    ((s.tile a).bound = true) ∧ ((s.tile a).fwd = none) ∧ ((s.tile a).viaOnly = none) ∧ (s.image (s.tile a).vni (s.tile a).name = none) ∧
      (s.gone a = false) ∧ (Site.num a ≠ Site.num b) ∧ (b.x < 126) ∧ (b.y < 126) ∧ ((s.tile a).name < 16384) ∧ (freeTile s (s.tile a).vni b
      = true) ∧ (∃ r, s.region (s.tile a).vni = some r ∧ r.stalled = false) ∧ ((s.tile a).moving = true) ∧ ((s.tile a).hold = false) ∧
      (tileQuiet s a = false ∨ xQuiet s a = false)) ∧
  (let a : Site := t00;
    let b : Site := t20;
    let s : Machine.State := { moving true true noAct with engines := [{ engine [opAt 0 0x300000000] with num := 70 }] };
    ((s.tile a).bound = true) ∧ ((s.tile a).fwd = none) ∧ ((s.tile a).viaOnly = none) ∧ (s.image (s.tile a).vni (s.tile a).name = none) ∧ (s.gone a
      = false) ∧ (Site.num a ≠ Site.num b) ∧ (b.x < 126) ∧ (b.y < 126) ∧ ((s.tile a).name < 16384) ∧ (freeTile s (s.tile a).vni b = true) ∧ (∃ r,
      s.region (s.tile a).vni = some r ∧ r.stalled = false) ∧ ((s.tile a).moving = true) ∧ ((s.tile a).hold = true) ∧ (ctxRoom s (s.tile a).vni (fun
      x e => e.site == a && e.away.isNone) [((s.tile a).name, b)] = false)) ∧
  (let a : Site := t00;
    let b : Site := t20;
    let s : Machine.State := (moving true true noAct);
    ((s.tile a).bound = true) ∧ ((s.tile a).fwd = none) ∧ ((s.tile a).viaOnly = none) ∧ (s.image (s.tile a).vni (s.tile a).name = none) ∧ (s.gone a
      = false) ∧ (Site.num a ≠ Site.num b) ∧ (b.x < 126) ∧ (b.y < 126) ∧ ((s.tile a).name < 16384) ∧ (freeTile s (s.tile a).vni b = true) ∧ (∃ r,
      s.region (s.tile a).vni = some r ∧ r.stalled = false) ∧ ((s.tile a).moving = true) ∧ ((s.tile a).hold = true) ∧ (ctxRoom s (s.tile a).vni (fun
      x e => e.site == a && e.away.isNone) [((s.tile a).name, b)] = true)) ∧
  (let a : Site := t00;
    let b : Site := t20;
    let s : Machine.State := (forwards [⟨1, 5, 0, ⟨t10, .flow⟩, 1, .tile, t00, t10, 0, .flow, 0, 0, 0, 0, 64, false, 0, 0, false, 0, [], .put 0x100 [1] []⟩]);
    ((s.tile a).fwd = some b) ∧ (Site.num a ≠ Site.num b) ∧ (∃ p, p ∈ s.pkts ∧ p.vni = (s.tile a).vni ∧ isReply p.body = false ∧ p.name = (s.tile
      a).name ∧ p.state ≠ 1 ∧ (p.dst = a ∨ p.fwd = true))) ∧
  (let a : Site := t00;
    let b : Site := t20;
    let s : Machine.State := (forwards []);
    ((s.tile a).fwd = some b) ∧ (Site.num a ≠ Site.num b) ∧ (¬∃ p, p ∈ s.pkts ∧ p.vni = (s.tile a).vni ∧ isReply p.body = false ∧ p.name = (s.tile
      a).name ∧ p.state ≠ 1 ∧ (p.dst = a ∨ p.fwd = true))) :=
  by and_intros <;> decide +kernel

/-- States and operands that meet the hypotheses of `FramesReceived`, clause by clause. -/
theorem meets_FramesReceived :
  (let n : Nat := 3;
    let f : List Byte := (frame 8);
    let s : State := (porting rule1 true);
    let p : EthPort := (port3 rule1);
    let fcs : BitVec 32 := (0 : BitVec 32);
    (s.port n = some p) ∧ (fcs ≠ fcsOf f)) ∧
  (let n : Nat := 3;
    let f : List Byte := (frame 8);
    let s : State := (porting { rule1 with w0 := 0 } true);
    let p : EthPort := (port3 { rule1 with w0 := 0 });
    (s.port n = some p) ∧ (takenBy p f = none)) ∧
  (let n : Nat := 3;
    let f : List Byte := f8;
    let s : State := { porting rule1 true with ports := [later rule1] };
    let p : EthPort := (later rule1);
    let r : Rule := rule1;
    let pl : List Byte := (pl 8);
    (s.port n = some p) ∧ (takenBy p f = some (r, pl)) ∧ (r.edge = false) ∧ (¬∀ (y : List Byte × Nat × Nat), List.find? (fun x => x.snd.fst
      == r.idx) p.tickets = some y → y.fst = f) ∧ (s.image (cvni r.cap) (cname r.cap) = none)) ∧
  (let n : Nat := 3;
    let f : List Byte := (frame 2041);
    let s : State := (porting rule1 true);
    let p : EthPort := (port3 rule1);
    let r : Rule := rule1;
    let pl : List Byte := (pl 2041);
    (s.port n = some p) ∧ (takenBy p f = some (r, pl)) ∧ (r.edge = false) ∧ (∀ (y : List Byte × Nat × Nat), List.find? (fun x => x.snd.fst
      == r.idx) p.tickets = some y → y.fst = f) ∧ (2040 < pl.length) ∧ (s.image (cvni r.cap) (cname r.cap) = none)) ∧
  (let n : Nat := 3;
    let f : List Byte := f8;
    let s : Machine.State := ((porting rule1 true).modTile t00 fun t => { t with router := { t.router with transit := [0] } });
    let p : EthPort := (port3 rule1);
    let r : Rule := rule1;
    let pl : List Byte := (pl 8);
    let site : Site := t00;
    (s.port n = some p) ∧ (takenBy p f = some (r, pl)) ∧ (r.edge = false) ∧ (∀ (y : List Byte × Nat × Nat), List.find? (fun x => x.snd.fst == r.idx)
      p.tickets = some y → y.fst = f) ∧ (pl.length ≤ 2040) ∧ (s.image (cvni r.cap) (cname r.cap) = none) ∧ (s.siteOfName (cvni r.cap) (cname r.cap)
      = some site) ∧ (s.gone site = false) ∧ (¬cvni r.cap ∈ (s.tile site).router.transit ∨ (s.tile site).vni ≠ cvni r.cap)) ∧
  (let n : Nat := 3;
    let f : List Byte := f8;
    let s : Machine.State := (porting rule1 true);
    let p : EthPort := (port3 rule1);
    let r : Rule := rule1;
    let pl : List Byte := (pl 8);
    let site : Site := t00;
    (s.port n = some p) ∧ (takenBy p f = some (r, pl)) ∧ (r.edge = false) ∧ (∀ (y : List Byte × Nat × Nat), List.find? (fun x => x.snd.fst == r.idx)
      p.tickets = some y → y.fst = f) ∧ (pl.length ≤ 2040) ∧ (s.image (cvni r.cap) (cname r.cap) = none) ∧ (s.siteOfName (cvni r.cap) (cname r.cap)
      = some site) ∧ (s.gone site = false) ∧ (cvni r.cap ∈ (s.tile site).router.transit) ∧ ((s.tile site).vni = cvni r.cap) ∧ (ringEn (((s.tile
      site).core (capKind r.cap)).ring r.chan) = true) ∧ (ceilDiv (24 + pl.length) 64 ≤ ringGran (((s.tile site).core (capKind r.cap)).ring r.chan))
      ∧ ((if ringProd (((s.tile site).core (capKind r.cap)).ring r.chan) % ringGran (((s.tile site).core (capKind r.cap)).ring r.chan) + ceilDiv (24
      + pl.length) 64 > ringGran (((s.tile site).core (capKind r.cap)).ring r.chan) then ringGran (((s.tile site).core (capKind r.cap)).ring r.chan)
      - ringProd (((s.tile site).core (capKind r.cap)).ring r.chan) % ringGran (((s.tile site).core (capKind r.cap)).ring r.chan) else 0) + ceilDiv
      (24 + pl.length) 64 ≤ ringFree (((s.tile site).core (capKind r.cap)).ring r.chan)) ∧ ((s.tile site).mem.wf = true)) ∧
  (let n : Nat := 3;
    let f : List Byte := f8;
    let s : Machine.State := (porting rule1 false);
    let p : EthPort := (port3 rule1);
    let r : Rule := rule1;
    let pl : List Byte := (pl 8);
    let site : Site := t00;
    (s.port n = some p) ∧ (takenBy p f = some (r, pl)) ∧ (r.edge = false) ∧ (∀ (y : List Byte × Nat × Nat), List.find? (fun x => x.snd.fst == r.idx)
      p.tickets = some y → y.fst = f) ∧ (pl.length ≤ 2040) ∧ (s.image (cvni r.cap) (cname r.cap) = none) ∧ (s.siteOfName (cvni r.cap) (cname r.cap)
      = some site) ∧ (s.gone site = false) ∧ (cvni r.cap ∈ (s.tile site).router.transit) ∧ ((s.tile site).vni = cvni r.cap) ∧ (ringEn (((s.tile
      site).core (capKind r.cap)).ring r.chan) = false ∨ ringGran (((s.tile site).core (capKind r.cap)).ring r.chan) < ceilDiv (24 + pl.length) 64 ∨
      ringFree (((s.tile site).core (capKind r.cap)).ring r.chan) < (if ringProd (((s.tile site).core (capKind r.cap)).ring r.chan) % ringGran
      (((s.tile site).core (capKind r.cap)).ring r.chan) + ceilDiv (24 + pl.length) 64 > ringGran (((s.tile site).core (capKind r.cap)).ring r.chan)
      then ringGran (((s.tile site).core (capKind r.cap)).ring r.chan) - ringProd (((s.tile site).core (capKind r.cap)).ring r.chan) % ringGran
      (((s.tile site).core (capKind r.cap)).ring r.chan) else 0) + ceilDiv (24 + pl.length) 64)) :=
  by and_intros <;> decide +kernel

/-- States and operands that meet the hypotheses of `PortSteps`, clause by clause. -/
theorem meets_PortSteps :
  (let n : Nat := 3;
    let s : Machine.State := (porting rule1 true);
    let p : EthPort := (port3 rule1);
    let idx : Nat := 7;
    let w0 : W := takes0;
    let cap : Cap := (cap1 + 0x10000000000000);
    (s.port n = some p) ∧ (idx < 256) ∧ (BitVec.getLsbD w0 60 = false) ∧ (BitVec.getLsbD w0 0 = true) ∧ (¬((∀ (x : Region), x ∈ s.regions → x.vni =
      cvni cap ∨ ¬BitVec.toNat w0 / 2 ^ 54 % 64 ∈ x.seqctrs) ∧ ∀ (q : EthPort), q ∈ s.ports → ∀ (x : Rule), x ∈ q.rules → x.en = true → cvni x.cap =
      cvni cap ∨ x.seqctr ≠ BitVec.toNat w0 / 2 ^ 54 % 64))) ∧
  (let n : Nat := 3;
    let s : Machine.State := (porting rule1 true);
    let p : EthPort := (port3 rule1);
    let idx : Nat := 7;
    let w0 : W := (takes0 + 0x20);
    let cap : Cap := cap1;
    (s.port n = some p) ∧ (idx < 256) ∧ (BitVec.getLsbD w0 60 = false) ∧ (BitVec.getLsbD w0 0 = true → (∀ (x : Region), x ∈ s.regions → x.vni = cvni
      cap ∨ ¬BitVec.toNat w0 / 2 ^ 54 % 64 ∈ x.seqctrs) ∧ ∀ (q : EthPort), q ∈ s.ports → ∀ (x : Rule), x ∈ q.rules → x.en = true → cvni x.cap = cvni
      cap ∨ x.seqctr ≠ BitVec.toNat w0 / 2 ^ 54 % 64)) ∧
  (let n : Nat := 3;
    let s : State := (porting (ruleX true) true);
    let p : EthPort := (port3 (ruleX true));
    let idx : Nat := 2;
    let r : Rule := (ruleX true);
    let waited : Nat := 20;
    (s.port n = some p) ∧ (p.rule idx = some r) ∧ (r.paused = true) ∧ (20 ≤ waited) ∧ (r.lowat < ruleOcc s r)) ∧
  (let n : Nat := 3;
    let s : State := (porting (ruleX true) true);
    let p : EthPort := (port3 (ruleX true));
    let idx : Nat := 2;
    let r : Rule := (ruleX true);
    let waited : Nat := 19;
    (s.port n = some p) ∧ (p.rule idx = some r) ∧ (r.paused = false ∨ waited < 20 ∨ ruleOcc s r ≤ r.lowat)) ∧
  (let n : Nat := 3;
    let s : State := (porting (ruleE 0x5000) true);
    let p : EthPort := (port3 (ruleE 0x5000));
    let idx : Nat := 2;
    let r : Rule := (ruleE 0x5000);
    let at_ : Nat × Bool := (0x205000, false);
    (s.port n = some p) ∧ (p.rule idx = some r) ∧ (r.en = true) ∧ (r.edge = true) ∧ (etranslate s r.pasid r.cword false = some at_) ∧ (∀ (x
      : Nat), x ∈ regionsOf at_ 8 → (s.own x).owner = Owner.fabric ∧ (s.own x).waiting = [])) ∧
  (let n : Nat := 3;
    let s : Machine.State := (porting rule1 true);
    let p : EthPort := (port3 rule1);
    (s.port n = some p)) ∧
  (let n : Nat := 3;
    let s : State := (porting rule1 true);
    let p : EthPort := (port3 rule1);
    let prio : Nat := 0;
    let f : List Byte := ([6, 7] : List Byte);
    let pre : List (Nat × List Byte) := ([(1, [5])] : List (Nat × List Byte));
    let post : List (Nat × List Byte) := ([(0, [8])] : List (Nat × List Byte));
    (s.port n = some p) ∧ (¬prio ∈ p.pausedPrio) ∧ (p.egress = pre ++ (prio, f) :: post) ∧ (∀ (x : Nat × List Byte), x ∈ pre → x.fst ≠ prio)) ∧
  (let n : Nat := 3;
    let s : State := (porting rule1 true);
    let p : EthPort := (port3 rule1);
    let prio : Nat := 2;
    (s.port n = some p) ∧ (prio ∈ p.pausedPrio)) :=
  by and_intros <;> decide +kernel

/-- States and operands that meet the hypotheses of `IslandServices`, clause by clause. -/
theorem meets_IslandServices :
  (let c : CoreId := h00;
    let s : Machine.State := (asksFor 0x000 0 (some 9) []);
    let a : W := (0 : W);
    let svc : Nat := 0;
    let e : Enc := (word .ecall 1 2 0);
    let v : W := (9 : W);
    let sites : List (Nat × Site) := ([] : List (Nat × Site));
    let more : List Nat := noNat;
    ((s.tile c.site).mem.wf = true) ∧ ((s.core c).req = some (Req.ecall svc a)) ∧ ((s.core c).ans = some v) ∧ ((s.core c).wait = some
      { i := Instr.ecall e, tag := 0, done := true, sites := sites, more := more })) ∧
  (let c : CoreId := h00;
    let s : Machine.State := (asksFor 0x003 0 none []);
    let a : W := (0 : W);
    let svc : Nat := 3;
    let e : Enc := (word .ecall 1 2 0);
    let sites : List (Nat × Site) := ([] : List (Nat × Site));
    let more : List Nat := noNat;
    ((s.tile c.site).mem.wf = true) ∧ (asksIsland s c svc a) ∧ ((¬svc ∈ [0, 1, 2, 16, 32, 64]) ∧ ((s.core c).wait = some
      { i := Instr.ecall e, tag := 0, done := true, sites := sites, more := more }))) ∧
  (let c : CoreId := h00;
    let s : State := (asksFor 0x000 0 none []);
    let a : W := (0 : W);
    ((s.tile c.site).mem.wf = true) ∧
    (asksIsland s c 0 a)) ∧
  (let c : CoreId := h00;
    let s : State := (asksFor 0x001 8 none []);
    let a : W := (8 : W);
    let i : Instr := (Instr.ecallClockSet h00);
    let svc : Nat := 1;
    let len : Nat := 768;
    (((s.tile c.site).mem.wf = true) ∧ (i = Instr.ecallClockSet c ∧ svc = 1 ∧ len = 768 ∨ i = Instr.ecallClockGet c ∧ svc = 2 ∧ len = 768 ∨
      i = Instr.ecallGateway c ∧ svc = 16 ∧ len = 32 ∨ i = Instr.ecallStorage c ∧ svc = 32 ∧ len = 64)) ∧
    (asksIsland s c svc a) ∧
    (blockOk s c a len = false)) ∧
  (let c : CoreId := h00;
    let s : State := (asksFor 0x001 block none [(0x10000, 65)]);
    let a : W := block;
    ((s.tile c.site).mem.wf = true) ∧
    (asksIsland s c 1 a) ∧
    ((blockOk s c a 768 = true) ∧ (64 < BitVec.toNat ((s.tile c.site).word (BitVec.toNat a)) ∨ (∃ b, b ∈ readBands (s.tile c.site)
      (BitVec.toNat a) (BitVec.toNat ((s.tile c.site).word (BitVec.toNat a))) ∧ b.snd < b.fst) ∨ ∃ f, f ∈ readTargets (s.tile c.site)
      (BitVec.toNat a) ∧ (f < 1600 ∨ 1800 < f)))) ∧
  (let c : CoreId := h00;
    let s : State := (asksFor 0x001 block none ((0x10000, 1) :: freq 1700 21 ++ [(0x10100, 100000 * 0x100000001)]));
    let a : W := block;
    ((s.tile c.site).mem.wf = true) ∧
    (asksIsland s c 1 a) ∧
    ((blockOk s c a 768 = true) ∧ (¬(64 < BitVec.toNat ((s.tile c.site).word (BitVec.toNat a)) ∨ (∃ b, b ∈ readBands (s.tile c.site)
      (BitVec.toNat a) (BitVec.toNat ((s.tile c.site).word (BitVec.toNat a))) ∧ b.snd < b.fst) ∨ ∃ f, f ∈ readTargets (s.tile c.site)
      (BitVec.toNat a) ∧ (f < 1600 ∨ 1800 < f))) ∧ (forbidden (readBands (s.tile c.site) (BitVec.toNat a) (BitVec.toNat ((s.tile
      c.site).word (BitVec.toNat a)))) 100 = true ∨ forbidden (readBands (s.tile c.site) (BitVec.toNat a) (BitVec.toNat ((s.tile
      c.site).word (BitVec.toNat a)))) 2400 = true))) ∧
  (let c : CoreId := h00;
    let s : Machine.State := (asksFor 0x001 block none ((0x10000, 1) :: freq 1600 21 ++ [(0x10100, 1600000 + 1800000 * 0x100000000)]));
    let a : W := block;
    let i : Nat := 0;
    ((s.tile c.site).mem.wf = true) ∧ (asksIsland s c 1 a) ∧ ((blockOk s c a 768 = true) ∧ (¬(64 < BitVec.toNat ((s.tile c.site).word (BitVec.toNat
      a)) ∨ (∃ b, b ∈ readBands (s.tile c.site) (BitVec.toNat a) (BitVec.toNat ((s.tile c.site).word (BitVec.toNat a))) ∧ b.snd < b.fst) ∨ ∃ f, f ∈
      readTargets (s.tile c.site) (BitVec.toNat a) ∧ (f < 1600 ∨ 1800 < f))) ∧ (forbidden (readBands (s.tile c.site) (BitVec.toNat a) (BitVec.toNat
      ((s.tile c.site).word (BitVec.toNat a)))) 100 = false) ∧ (forbidden (readBands (s.tile c.site) (BitVec.toNat a) (BitVec.toNat ((s.tile
      c.site).word (BitVec.toNat a)))) 2400 = false) ∧ (i < 83)) ∧ (∀ (g : Nat), 1600 ≤ g → g ≤ (readTargets (s.tile c.site) (BitVec.toNat a)).getD
      i 0 → forbidden (readBands (s.tile c.site) (BitVec.toNat a) (BitVec.toNat ((s.tile c.site).word (BitVec.toNat a)))) g = true) ∧ (∀ (j : Nat),
      j < i → ¬(fun f => ∀ (g : Nat), 1600 ≤ g → g ≤ f → forbidden (readBands (s.tile c.site) (BitVec.toNat a) (BitVec.toNat ((s.tile c.site).word
      (BitVec.toNat a)))) g = true) ((readTargets (s.tile c.site) (BitVec.toNat a)).getD j 0))) ∧
  (let c : CoreId := h00;
    let s : State := (asksFor 0x001 block none ((0x10000, 1) :: freq 1700 21 ++ [(0x10100, 1650000 + 1800000 * 0x100000000)]));
    let a : W := block;
    ((s.tile c.site).mem.wf = true) ∧
    (asksIsland s c 1 a) ∧
    ((blockOk s c a 768 = true) ∧ (¬(64 < BitVec.toNat ((s.tile c.site).word (BitVec.toNat a)) ∨ (∃ b, b ∈ readBands (s.tile c.site)
      (BitVec.toNat a) (BitVec.toNat ((s.tile c.site).word (BitVec.toNat a))) ∧ b.snd < b.fst) ∨ ∃ f, f ∈ readTargets (s.tile c.site)
      (BitVec.toNat a) ∧ (f < 1600 ∨ 1800 < f))) ∧ (forbidden (readBands (s.tile c.site) (BitVec.toNat a) (BitVec.toNat ((s.tile
      c.site).word (BitVec.toNat a)))) 100 = false) ∧ (forbidden (readBands (s.tile c.site) (BitVec.toNat a) (BitVec.toNat ((s.tile
      c.site).word (BitVec.toNat a)))) 2400 = false)) ∧
    (∀ (i : Nat), i < 83 → ¬(fun f => ∀ (g : Nat), 1600 ≤ g → g ≤ f → forbidden (readBands (s.tile c.site) (BitVec.toNat a) (BitVec.toNat
      ((s.tile c.site).word (BitVec.toNat a)))) g = true) ((readTargets (s.tile c.site) (BitVec.toNat a)).getD i 0))) ∧
  (let c : CoreId := h00;
    let s : State := (asksFor 0x002 block none []);
    let a : W := block;
    ((s.tile c.site).mem.wf = true) ∧
    (asksIsland s c 2 a) ∧
    ((blockOk s c a 768 = true) ∧ (s.plan.length = 83) ∧ (s.bands.length ≤ 64) ∧ (∀ (f : Nat), f ∈ s.plan → f < 2 ^ 16) ∧ (∀ (b : Nat ×
      Nat), b ∈ s.bands → b.fst < 2 ^ 32 ∧ b.snd < 2 ^ 32))) ∧
  (let c : CoreId := h00;
    let s : Machine.State := (asksFor 0x010 block none [(0x10000, 4)] inDev);
    let a : W := block;
    ((s.tile c.site).mem.wf = true) ∧ (asksIsland s c 16 a) ∧ ((blockOk s c a 32 = true) ∧ (¬∃ p, s.port (BitVec.toNat ((s.tile c.site).mem.byteAt
      (BitVec.toNat a))) = some p ∧ p.vdev = vdevNo s c))) ∧
  (let c : CoreId := h00;
    let s : Machine.State := (asksFor 0x010 block none [(0x10000, 3)] inDev);
    let a : W := block;
    ((s.tile c.site).mem.wf = true) ∧ (asksIsland s c 16 a) ∧ ((blockOk s c a 32 = true) ∧ (∃ p, s.port (BitVec.toNat ((s.tile c.site).mem.byteAt
      (BitVec.toNat a))) = some p ∧ p.vdev = vdevNo s c))) ∧
  (let c : CoreId := h00;
    let s : State := (asksFor 0x020 block none (storing 0));
    let a : W := block;
    ((s.tile c.site).mem.wf = true) ∧
    (asksIsland s c 32 a) ∧
    ((blockOk s c a 64 = true) ∧ (List.find? (fun x => x.num == BitVec.toNat ((s.tile c.site).word (BitVec.toNat a)) / 2 ^ 16 % 2 ^ 16)
      s.storage = none))) ∧
  (let c : CoreId := h00;
    let s : State := (asksFor 0x020 block none ([(0x10008, 0x10)] ++ storing 0) withObject);
    let a : W := block;
    let o : Storage := obj9;
    ((s.tile c.site).mem.wf = true) ∧
    (asksIsland s c 32 a) ∧
    ((blockOk s c a 64 = true) ∧ (List.find? (fun x => x.num == BitVec.toNat ((s.tile c.site).word (BitVec.toNat a)) / 2 ^ 16 % 2 ^ 16)
      s.storage = some o) ∧ (¬(BitVec.toNat ((s.tile c.site).word (BitVec.toNat a + 8)) % 4096 = 0 ∧ BitVec.toNat ((s.tile c.site).word
      (BitVec.toNat a + 24)) % 4096 = 0 ∧ BitVec.toNat ((s.tile c.site).word (BitVec.toNat a + 8)) + BitVec.toNat ((s.tile c.site).word
      (BitVec.toNat a + 24)) ≤ o.size)))) ∧
  (let c : CoreId := h00;
    let s : Machine.State := (asksFor 0x020 block none ([(0x10018, 0x1000), (0x10010, 0x9000)] ++ storing 0) withObject);
    let a : W := block;
    let o : Storage := obj9;
    ((s.tile c.site).mem.wf = true) ∧ (asksIsland s c 32 a) ∧ ((blockOk s c a 64 = true) ∧ (List.find? (fun x => x.num == BitVec.toNat ((s.tile
      c.site).word (BitVec.toNat a)) / 2 ^ 16 % 2 ^ 16) s.storage = some o) ∧ (BitVec.toNat ((s.tile c.site).word (BitVec.toNat a + 8)) % 4096 = 0 ∧
      BitVec.toNat ((s.tile c.site).word (BitVec.toNat a + 24)) % 4096 = 0 ∧ BitVec.toNat ((s.tile c.site).word (BitVec.toNat a + 8)) + BitVec.toNat
      ((s.tile c.site).word (BitVec.toNat a + 24)) ≤ o.size) ∧ (((ctxOf s c).bind fun q => partPlaces s q.pasid (BitVec.toNat ((s.tile c.site).word
      (BitVec.toNat a + 16))) (BitVec.toNat ((s.tile c.site).word (BitVec.toNat a + 24))) !BitVec.getLsbD ((s.tile c.site).word (BitVec.toNat a)) 0)
      = none))) ∧
  (let c : CoreId := h00;
    let s : Machine.State := (asksFor 0x020 block none (storing 1) withBad);
    let a : W := block;
    let o : Storage := { obj9 with fails := true };
    let l : List (Nat × Nat × Nat × Bool) := noPl;
    ((s.tile c.site).mem.wf = true) ∧ (asksIsland s c 32 a) ∧ ((blockOk s c a 64 = true) ∧ (List.find? (fun x => x.num == BitVec.toNat ((s.tile
      c.site).word (BitVec.toNat a)) / 2 ^ 16 % 2 ^ 16) s.storage = some o) ∧ (BitVec.toNat ((s.tile c.site).word (BitVec.toNat a + 8)) % 4096 = 0 ∧
      BitVec.toNat ((s.tile c.site).word (BitVec.toNat a + 24)) % 4096 = 0 ∧ BitVec.toNat ((s.tile c.site).word (BitVec.toNat a + 8)) + BitVec.toNat
      ((s.tile c.site).word (BitVec.toNat a + 24)) ≤ o.size) ∧ (((ctxOf s c).bind fun q => partPlaces s q.pasid (BitVec.toNat ((s.tile c.site).word
      (BitVec.toNat a + 16))) (BitVec.toNat ((s.tile c.site).word (BitVec.toNat a + 24))) !BitVec.getLsbD ((s.tile c.site).word (BitVec.toNat a)) 0)
      = some l)) ∧ (∀ (y : Nat × Nat × Nat × Bool), y ∈ l → islandOwns s (regionsOf y.snd.snd y.snd.fst)) ∧ (o.fails = true)) ∧
  (let c : CoreId := h00;
    let s : Machine.State := (asksFor 0x020 block none ([(0x10018, 0x1000)] ++ storing 1) withObject);
    let a : W := block;
    let o : Storage := obj9;
    let l : List (Nat × Nat × Nat × Bool) := onePage;
    ((s.tile c.site).mem.wf = true) ∧ (asksIsland s c 32 a) ∧ ((blockOk s c a 64 = true) ∧ (List.find? (fun x => x.num == BitVec.toNat ((s.tile
      c.site).word (BitVec.toNat a)) / 2 ^ 16 % 2 ^ 16) s.storage = some o) ∧ (BitVec.toNat ((s.tile c.site).word (BitVec.toNat a + 8)) % 4096 = 0 ∧
      BitVec.toNat ((s.tile c.site).word (BitVec.toNat a + 24)) % 4096 = 0 ∧ BitVec.toNat ((s.tile c.site).word (BitVec.toNat a + 8)) + BitVec.toNat
      ((s.tile c.site).word (BitVec.toNat a + 24)) ≤ o.size) ∧ (((ctxOf s c).bind fun q => partPlaces s q.pasid (BitVec.toNat ((s.tile c.site).word
      (BitVec.toNat a + 16))) (BitVec.toNat ((s.tile c.site).word (BitVec.toNat a + 24))) !BitVec.getLsbD ((s.tile c.site).word (BitVec.toNat a)) 0)
      = some l)) ∧ (∀ (y : Nat × Nat × Nat × Bool), y ∈ l → islandOwns s (regionsOf y.snd.snd y.snd.fst)) ∧ ((o.fails = false) ∧ (BitVec.getLsbD
      ((s.tile c.site).word (BitVec.toNat a)) 0 = true) ∧ (o.bytes.wf = true))) ∧
  (let c : CoreId := h00;
    let s : Machine.State := (asksFor 0x020 block none ([(0x10018, 0x1000)] ++ storing 0) withObject);
    let a : W := block;
    let o : Storage := obj9;
    let l : List (Nat × Nat × Nat × Bool) := onePage;
    ((s.tile c.site).mem.wf = true) ∧ (asksIsland s c 32 a) ∧ ((blockOk s c a 64 = true) ∧ (List.find? (fun x => x.num == BitVec.toNat ((s.tile
      c.site).word (BitVec.toNat a)) / 2 ^ 16 % 2 ^ 16) s.storage = some o) ∧ (BitVec.toNat ((s.tile c.site).word (BitVec.toNat a + 8)) % 4096 = 0 ∧
      BitVec.toNat ((s.tile c.site).word (BitVec.toNat a + 24)) % 4096 = 0 ∧ BitVec.toNat ((s.tile c.site).word (BitVec.toNat a + 8)) + BitVec.toNat
      ((s.tile c.site).word (BitVec.toNat a + 24)) ≤ o.size) ∧ (((ctxOf s c).bind fun q => partPlaces s q.pasid (BitVec.toNat ((s.tile c.site).word
      (BitVec.toNat a + 16))) (BitVec.toNat ((s.tile c.site).word (BitVec.toNat a + 24))) !BitVec.getLsbD ((s.tile c.site).word (BitVec.toNat a)) 0)
      = some l)) ∧ (∀ (y : Nat × Nat × Nat × Bool), y ∈ l → islandOwns s (regionsOf y.snd.snd y.snd.fst)) ∧ ((o.fails = false) ∧ (BitVec.getLsbD
      ((s.tile c.site).word (BitVec.toNat a)) 0 = false) ∧ (List.Pairwise (fun x y => x.snd.snd.snd ≠ y.snd.snd.snd ∨ x.snd.snd.fst + x.snd.fst ≤
      y.snd.snd.fst ∨ y.snd.snd.fst + y.snd.fst ≤ x.snd.snd.fst) l) ∧ (s.edge.wf = true) ∧ (s.hostMem.wf = true))) ∧
  (let c : CoreId := h00;
    let s : State := (asksFor 0x040 8 none []);
    let a : W := (8 : W);
    ((s.tile c.site).mem.wf = true) ∧
    (asksIsland s c 64 a) ∧
    (BitVec.toNat a % 64 ≠ 0)) ∧
  (let c : CoreId := h00;
    let s : State := (asksFor 0x040 0x2C0000 none []);
    let a : W := (0x2C0000 : W);
    ((s.tile c.site).mem.wf = true) ∧
    (asksIsland s c 64 a) ∧
    ((BitVec.toNat a % 64 = 0) ∧ (blockOk s c a 8448 = false))) ∧
  (let c : CoreId := h00;
    let s : State := (asksFor 0x040 block none []);
    let a : W := block;
    ((s.tile c.site).mem.wf = true) ∧
    (asksIsland s c 64 a) ∧
    (blockOk s c a 8448 = true)) ∧
  (let c : CoreId := h00;
    let s : State := (asksFor 0x002 8 none []);
    let a : W := (8 : W);
    let i : Instr := (Instr.ecallClockGet h00);
    let svc : Nat := 2;
    let len : Nat := 768;
    (((s.tile c.site).mem.wf = true) ∧ (i = Instr.ecallClockSet c ∧ svc = 1 ∧ len = 768 ∨ i = Instr.ecallClockGet c ∧ svc = 2 ∧ len = 768 ∨
      i = Instr.ecallGateway c ∧ svc = 16 ∧ len = 32 ∨ i = Instr.ecallStorage c ∧ svc = 32 ∧ len = 64)) ∧
    (asksIsland s c svc a) ∧
    (blockOk s c a len = false)) ∧
  (let c : CoreId := h00;
    let s : State := (asksFor 0x010 8 none []);
    let a : W := (8 : W);
    let i : Instr := (Instr.ecallGateway h00);
    let svc : Nat := 16;
    let len : Nat := 32;
    (((s.tile c.site).mem.wf = true) ∧ (i = Instr.ecallClockSet c ∧ svc = 1 ∧ len = 768 ∨ i = Instr.ecallClockGet c ∧ svc = 2 ∧ len = 768 ∨
      i = Instr.ecallGateway c ∧ svc = 16 ∧ len = 32 ∨ i = Instr.ecallStorage c ∧ svc = 32 ∧ len = 64)) ∧
    (asksIsland s c svc a) ∧
    (blockOk s c a len = false)) ∧
  (let c : CoreId := h00;
    let s : State := (asksFor 0x020 8 none []);
    let a : W := (8 : W);
    let i : Instr := (Instr.ecallStorage h00);
    let svc : Nat := 32;
    let len : Nat := 64;
    (((s.tile c.site).mem.wf = true) ∧ (i = Instr.ecallClockSet c ∧ svc = 1 ∧ len = 768 ∨ i = Instr.ecallClockGet c ∧ svc = 2 ∧ len = 768 ∨
      i = Instr.ecallGateway c ∧ svc = 16 ∧ len = 32 ∨ i = Instr.ecallStorage c ∧ svc = 32 ∧ len = 64)) ∧
    (asksIsland s c svc a) ∧
    (blockOk s c a len = false)) :=
  ⟨by and_intros <;> decide +kernel,
    ⟨by decide +kernel, by delta asksIsland; decide +kernel, by and_intros <;> decide +kernel⟩,
    ⟨by decide +kernel, by delta asksIsland; decide +kernel⟩,
    ⟨by decide +kernel, by delta asksIsland; decide +kernel, by decide +kernel⟩,
    ⟨by decide +kernel, by delta asksIsland; decide +kernel, by decide +kernel⟩,
    ⟨by decide +kernel, by delta asksIsland; decide +kernel, by decide +kernel⟩,
    ⟨by decide +kernel, by delta asksIsland; decide +kernel, by and_intros <;> decide +kernel, between_of (by decide +kernel), fun j h => absurd h (Nat.not_lt_zero j)⟩,
    ⟨by decide +kernel, by delta asksIsland; decide +kernel, by decide +kernel, fun i hi h => absurd (h 1600 (by decide +kernel) (under_of (lo := 0) (P := fun i => 1600 ≤ (readTargets _ _).getD i 0) (by decide +kernel) i (Nat.zero_le i) hi)) (by decide +kernel)⟩,
    ⟨by decide +kernel, by delta asksIsland; decide +kernel, by decide +kernel⟩,
    ⟨by decide +kernel, by delta asksIsland; decide +kernel, by and_intros <;> decide +kernel⟩,
    ⟨by decide +kernel, by delta asksIsland; decide +kernel, by and_intros <;> decide +kernel⟩,
    ⟨by decide +kernel, by delta asksIsland; decide +kernel, by decide +kernel⟩,
    ⟨by decide +kernel, by delta asksIsland; decide +kernel, by decide +kernel⟩,
    ⟨by decide +kernel, by delta asksIsland; decide +kernel, by and_intros <;> decide +kernel⟩,
    ⟨by decide +kernel, by delta asksIsland; decide +kernel, by and_intros <;> decide +kernel, by delta islandOwns; decide +kernel, by decide +kernel⟩,
    ⟨by decide +kernel, by delta asksIsland; decide +kernel, by and_intros <;> decide +kernel, by delta islandOwns; decide +kernel, by and_intros <;> decide +kernel⟩,
    ⟨by decide +kernel, by delta asksIsland; decide +kernel, by and_intros <;> decide +kernel, by delta islandOwns; decide +kernel, by and_intros <;> decide +kernel⟩,
    ⟨by decide +kernel, by delta asksIsland; decide +kernel, by decide +kernel⟩,
    ⟨by decide +kernel, by delta asksIsland; decide +kernel, by decide +kernel⟩,
    ⟨by decide +kernel, by delta asksIsland; decide +kernel, by decide +kernel⟩,
    ⟨by decide +kernel, by delta asksIsland; decide +kernel, by decide +kernel⟩,
    ⟨by decide +kernel, by delta asksIsland; decide +kernel, by decide +kernel⟩,
    ⟨by decide +kernel, by delta asksIsland; decide +kernel, by decide +kernel⟩⟩

/-- States and operands that meet the hypotheses of `ThermalSteps`, clause by clause. -/
theorem meets_ThermalSteps :
  (let s : State := (world .flow);
    let field : Nat := 5;
    let temp : Nat := 96;
    let power : Nat := 0;
    let g : Nat := 1799;
    ((field < 81) ∧ (95 < temp ∨ s.powerCap < power)) ∧
    (nextBelow s field g)) ∧
  (let s : State := slow;
    let field : Nat := 5;
    let temp : Nat := 96;
    let power : Nat := 0;
    ((field < 81) ∧ (95 < temp ∨ s.powerCap < power)) ∧
    (noneBelow s field)) ∧
  ((let s : State := (world .flow);
    let field : Nat := 5;
    let temp : Nat := 95;
    let power : Nat := 24000;
    (temp ≤ 95) ∧ (power ≤ s.powerCap)) ∧
  (let s : State := { world .flow with throttled := [(5, 1700)], duty := [5, 6] };
    let field : Nat := 5;
    let temp : Nat := 89;
    let waited : Nat := 1000;
    (temp < 90) ∧ (1000 ≤ waited)) ∧
  (let s : State := (world .flow);
    let field : Nat := 5;
    let temp : Nat := 90;
    let waited : Nat := 1000;
    90 ≤ temp ∨ waited < 1000) ∧
  (let s : State := (world .flow);
    let field : Nat := 5;
    let temp : Nat := 110;
    110 ≤ temp) ∧
  (let s : State := (world .flow);
    let field : Nat := 5;
    let temp : Nat := 109;
    temp < 110) ∧
  (let s : State := (world .flow);
    let field : Nat := 5;
    let temp : Nat := 0;
    let inlet : Nat := 19;
    let flow : Nat := 50;
    inlet < 20 ∨ 35 < inlet ∨ flow < 40) ∧
  (let s : State := (world .flow);
    let field : Nat := 5;
    let temp : Nat := 0;
    let inlet : Nat := 20;
    let flow : Nat := 40;
    (20 ≤ inlet) ∧ (inlet ≤ 35) ∧ (40 ≤ flow)) ∧
  (let s : State := (world .flow);
    let field : Nat := 5;
    let temp : Nat := 0;
    let link : Nat := 3;
    let asks : Bool := true;
    link < 4)) :=
  ⟨⟨by decide +kernel, ⟨by decide +kernel, by decide +kernel, by decide +kernel, under_of (lo := 1800) (by decide +kernel)⟩⟩,
      ⟨by decide +kernel, under_of (by decide +kernel)⟩,     by and_intros <;> decide +kernel⟩

/-- States and operands that meet the hypotheses of `PowerAndFailure`, clause by clause. -/
theorem meets_PowerAndFailure :
  (let fused : List Site := fused0;
    let failed : List Site := failed0;
    let fw : List FwStage := [stage1];
    let key : BitVec 256 := (3 : BitVec 256);
    let s : State := (world .flow);
    fw ≠ []) ∧
  (let x : Site := p10;
    let s : State := { world .flow with holes := [p10] };
    (x.x < 126) ∧ (x.y < 126) ∧ (s.gone x = true)) ∧
  (let x : Site := p10;
    let s : State := { world .flow with pkts := [pktTo p10] };
    (x.x < 126) ∧ (x.y < 126) ∧ (s.gone x = false)) ∧
  (let x : Site := p10;
    let plane : Nat := 0;
    let addr : Nat := 0x1003;
    let double : Bool := true;
    let s : State := { world .flow with holes := [p10] };
    s.gone x = true ∨ logOf s.dead x = none) ∧
  (let x : Site := p00;
    let plane : Nat := 0;
    let addr : Nat := 0x1003;
    let s : State := (world .flow);
    (s.gone x = false) ∧ ((logOf s.dead x).isSome = true) ∧ (addr / 8 * 8 < scrubSize plane)) :=
  by and_intros <;> decide +kernel

/-- States and operands that meet the hypotheses of `RoutingBundles`, clause by clause. -/
theorem meets_RoutingBundles :
  (let x : Site := p00;
    let h : List Byte := noBytes;
    let b : List Byte := noBytes;
    let s : State := (world .flow);
    let bank : Bool := true;
    (idleBank s (s.tile x).router = some bank) ∧ ((s.tile x).router.dead = false) ∧ ((s.tile x).router.staged = false ∨ ∀ (v : Region), v ∈
      s.regions → v.stalled = false)) ∧
  (let vnis : List Nat := v5;
    let routers : List Site := r00;
    let s : Machine.State := (world .flow);
    (¬∃ x, x ∈ routers ∧ (s.tile x).router.vnis = vnis ∧ (s.tile x).router.routers = routers)) ∧
  (let epoch : Nat := 8;
    let vnis : List Nat := v5;
    let routers : List Site := r00;
    let s : Machine.State := (stagedAt 7 [] false);
    (∃ x, x ∈ routers ∧ (s.tile x).router.vnis = vnis ∧ (s.tile x).router.routers = routers) ∧ (¬∀ (x : Site), x ∈ routers → stagedWith s (s.tile
      x).router epoch vnis routers = true)) ∧
  (let epoch : Nat := 7;
    let vnis : List Nat := v5;
    let routers : List Site := r00;
    let s : Machine.State := (stagedAt 7 [] false);
    (∃ x, x ∈ routers ∧ (s.tile x).router.vnis = vnis ∧ (s.tile x).router.routers = routers) ∧ (∀ (x : Site), x ∈ routers → stagedWith s (s.tile
      x).router epoch vnis routers = true) ∧ (¬(fun t b => ∀ (r : Region), r ∈ t.regions → r.vni ∈ vnis → r.stalled = b) s true)) ∧
  (let epoch : Nat := 7;
    let vnis : List Nat := v5;
    let routers : List Site := r00;
    let s : Machine.State := (stagedAt 7 [pktTo p10] true);
    (∃ x, x ∈ routers ∧ (s.tile x).router.vnis = vnis ∧ (s.tile x).router.routers = routers) ∧ (∀ (x : Site), x ∈ routers → stagedWith s (s.tile
      x).router epoch vnis routers = true) ∧ (∀ (r : Region), r ∈ s.regions → r.vni ∈ vnis → r.stalled = true) ∧ (∃ p, p ∈ s.pkts ∧ p.vni ∈ vnis)) ∧
  (let epoch : Nat := 7;
    let vnis : List Nat := v5;
    let routers : List Site := r00;
    let s : Machine.State := (stagedAt 7 [] true);
    (∃ x, x ∈ routers ∧ (s.tile x).router.vnis = vnis ∧ (s.tile x).router.routers = routers) ∧ (∀ (x : Site), x ∈ routers → stagedWith s (s.tile
      x).router epoch vnis routers = true) ∧ (∀ (r : Region), r ∈ s.regions → r.vni ∈ vnis → r.stalled = true) ∧ (∀ (p : Pkt), p ∈ s.pkts → ¬p.vni ∈
      vnis) ∧ (∀ (x : Site), x ∈ routers → ∀ (y : Site), y ∈ routers → Site.num x = Site.num y → x = y)) :=
  by and_intros <;> decide +kernel

/-- States and operands that meet the hypotheses of `LinkSteps`, clause by clause. -/
theorem meets_LinkSteps :
  (let n : Nat := 0;
    let s : Machine.State := (linked 0 0 true false false);
    (n < 131072) ∧ ((linkEnds n).isSome = true ∨ (treeLinkOf n).isSome = true) ∧ ((s.link n).down = true)) ∧
  (let n : Nat := 0;
    let s : Machine.State := (linked 0 0 false false false);
    (n < 131072) ∧ ((linkEnds n).isSome = true ∨ (treeLinkOf n).isSome = true) ∧ ((s.link n).down = false)) ∧
  (let n : Nat := 0;
    let s : Machine.State := (linked 7 0 false false false);
    let back : Bool := false;
    let seq : Nat := 5;
    let bytes : List Byte := flit;
    let crc : BitVec 32 := (0 : BitVec 32);
    (n < 131072) ∧ ((linkEnds n).isSome = true ∨ (treeLinkOf n).isSome = true) ∧ ((s.link n).down = false) ∧ (crc ≠ crc32c bytes ∨ seq ≠ ((fun (l :
      LinkSt) => if back = true then l.back else l.fore) (s.link n)).next) ∧ (((fun (l : LinkSt) => if back = true then l.back else l.fore) (s.link
      n)).replays < 8)) ∧
  (let n : Nat := 0;
    let s : Machine.State := (linked 8 0 false true false);
    let back : Bool := false;
    let seq : Nat := 5;
    let bytes : List Byte := flit;
    let crc : BitVec 32 := (0 : BitVec 32);
    (n < 131072) ∧ ((linkEnds n).isSome = true ∨ (treeLinkOf n).isSome = true) ∧ ((s.link n).down = false) ∧ (crc ≠ crc32c bytes ∨ seq ≠ ((fun (l :
      LinkSt) => if back = true then l.back else l.fore) (s.link n)).next) ∧ (8 ≤ ((fun (l : LinkSt) => if back = true then l.back else l.fore)
      (s.link n)).replays)) ∧
  (let n : Nat := 0;
    let s : Machine.State := (linked 0 0 true false false);
    let waited : Nat := 99;
    (n < 131072) ∧ ((linkEnds n).isSome = true ∨ (treeLinkOf n).isSome = true) ∧ ((s.link n).down = true) ∧ ((s.link n).barred = true ∨ waited < if
      (s.link n).tries = 0 then 100 else 10000)) ∧
  (let n : Nat := 0;
    let s : Machine.State := (linked 0 1 true false false);
    let waited : Nat := 10000;
    ((n < 131072) ∧ ((linkEnds n).isSome = true ∨ (treeLinkOf n).isSome = true) ∧ ((s.link n).down = true) ∧ ((s.link n).barred = false)) ∧ (∀ (a b
      : Site), linkEnds n = some (a, b) → (s.tile a).router.dead = false ∧ (s.tile b).router.dead = false) ∧ ((if (s.link n).tries = 0 then 100 else
      10000) ≤ waited)) ∧
  (let n : Nat := 0;
    let s : Machine.State := (linked 0 0 true false false);
    let waited : Nat := 100;
    ((n < 131072) ∧ ((linkEnds n).isSome = true ∨ (treeLinkOf n).isSome = true) ∧ ((s.link n).down = true) ∧ ((s.link n).barred = false)) ∧ (∀ (a b
      : Site), linkEnds n = some (a, b) → (s.tile a).router.dead = false ∧ (s.tile b).router.dead = false) ∧ ((if (s.link n).tries = 0 then 100 else
      10000) ≤ waited)) ∧
  (let n : Nat := 0;
    let s : Machine.State := (linked 0 0 false true false);
    let waited : Nat := 1000;
    (n < 131072) ∧ ((linkEnds n).isSome = true ∨ (treeLinkOf n).isSome = true) ∧ ((s.link n).down = false) ∧ ((s.link n).returned = true) ∧ (1000 ≤
      waited)) :=
  ⟨by and_intros <;> decide +kernel,
    by and_intros <;> decide +kernel,
    by and_intros <;> decide +kernel,
    by and_intros <;> decide +kernel,
    by and_intros <;> decide +kernel,
    ⟨by and_intros <;> decide +kernel, ends_of (by decide +kernel), by decide +kernel⟩,
    ⟨by and_intros <;> decide +kernel, ends_of (by decide +kernel), by decide +kernel⟩,
    by and_intros <;> decide +kernel⟩

/-- States and operands that meet the hypotheses of `VectorValues`, clause by clause. -/
theorem meets_VectorValues :
  (let q : VEntry := (entry (.vmax (fn 8 (word .vmax 4 5 6))) 0xFF 0 0 0 none);
    let e : Enc := (fn 8 (word .vmax 4 5 6));
    let larger : Bool := true;
    (encOf q.i = some e) ∧ (formOk q.i = true) ∧ (q.i = if larger = true then Instr.vmax e else Instr.vmin e) ∧ (inF e.ty = true)) ∧
  (let q : VEntry := (entry (.vcmplt (pred 4 (fn 8 (word .vcmplt 1 5 6)))) 0xFF 0 0 0 none);
    let e : Enc := (pred 4 (fn 8 (word .vcmplt 1 5 6)));
    (encOf q.i = some e) ∧ (formOk q.i = true) ∧ (isVcmp q.i = true) ∧ (inF e.ty = true ∨ inC e.ty = true)) ∧
  (let q : VEntry := (entry (.vcvt (fn 9 (word .vcvt 4 5 2))) 0xFF 0 0 0 none);
    let e : Enc := (fn 9 (word .vcvt 4 5 2));
    (encOf q.i = some e) ∧ (formOk q.i = true) ∧ (q.i = Instr.vcvt e) ∧ (modeOf q e ≠ 5)) ∧
  (let q : VEntry := (entry (.vquant (fn 11 (word .vquant 4 5 6))) 0xFF 0 0 0 none);
    let e : Enc := (fn 11 (word .vquant 4 5 6));
    (encOf q.i = some e) ∧ (formOk q.i = true) ∧ (q.i = Instr.vquant e) ∧ (modeOf q e ≠ 5)) ∧
  (let q : VEntry := (entry (.vdeq (fn 11 (word .vdeq 4 5 6))) 0xFF 0 0 0 none);
    let e : Enc := (fn 11 (word .vdeq 4 5 6));
    (encOf q.i = some e) ∧ (formOk q.i = true) ∧ (q.i = Instr.vdeq e) ∧ (modeOf q e ≠ 5)) ∧
  (let q : VEntry := (entry (.vredmin (fn 0 (word .vredmin 4 5 6))) 0xFF 0 0 0 none);
    let e : Enc := (fn 0 (word .vredmin 4 5 6));
    let larger : Bool := false;
    (encOf q.i = some e) ∧ (formOk q.i = true) ∧ (q.i = if larger = true then Instr.vredmax e else Instr.vredmin e) ∧ (inI e.ty = true)) ∧
  (let q : VEntry := (entry (.vredmax (fn 8 (word .vredmax 4 5 6))) 0xFF 0 0 0 none);
    let e : Enc := (fn 8 (word .vredmax 4 5 6));
    let larger : Bool := true;
    (encOf q.i = some e) ∧ (formOk q.i = true) ∧ (q.i = if larger = true then Instr.vredmax e else Instr.vredmin e) ∧ (inF e.ty = true)) ∧
  (let q : VEntry := (entry (.vredsum (fn 8 (word .vredsum 4 5 6))) 0xFF 0 0 0 none);
    let e : Enc := (fn 8 (word .vredsum 4 5 6));
    (encOf q.i = some e) ∧ (formOk q.i = true) ∧ (q.i = Instr.vredsum e) ∧ (inF e.ty = true)) ∧
  (let q : VEntry := (entry (.vredsumw (fn 9 (word .vredsumw 4 5 6))) 0xFF 0 0 0 none);
    let e : Enc := (fn 9 (word .vredsumw 4 5 6));
    (encOf q.i = some e) ∧ (formOk q.i = true) ∧ (q.i = Instr.vredsumw e) ∧ (inF e.ty = true)) ∧
  (let q : VEntry := (entry (.vredsumw (fn 0 (word .vredsumw 4 5 6))) 0xFF 0 0 0 none);
    let e : Enc := (fn 0 (word .vredsumw 4 5 6));
    (encOf q.i = some e) ∧ (formOk q.i = true) ∧ (q.i = Instr.vredsumw e) ∧ (inI e.ty = true)) ∧
  (let q : VEntry := (entry (.vdot (fn 9 (word .vdot 4 5 6))) 0xFF 0 0 0 none);
    let e : Enc := (fn 9 (word .vdot 4 5 6));
    let conj : Bool := false;
    (encOf q.i = some e) ∧ (formOk q.i = true) ∧ (q.i = if conj = true then Instr.vdotc e else Instr.vdot e) ∧ (modeOf q e ≠ 5)) :=
  by and_intros <;> decide +kernel

/-- States and operands that meet the hypotheses of `EveryTurnCompletes`, clause by clause. -/
theorem meets_EveryTurnCompletes :
  let s : Machine.State := { world .flow with moves := [⟨.core ⟨⟨0, 0⟩, .flow⟩, 1⟩] };
    (∀ (m : Move) (r : List Move), s.moves = m :: r → ∀ (i : Instr), m.turn = Turn.agent i → encOf i = none) :=
  fun m r h i hi => by injection h with h; subst h; cases hi

/-- States and operands that meet the hypotheses of `BitCounts`, clause by clause. -/
theorem meets_BitCounts :
  (let x : W := (1 : W);
    let i : Nat := 1;
    (64 - clz x ≤ i)) ∧
  (let x : W := (1 : W);
    (clz x < 64)) ∧
  (let x : W := (8 : W);
    let i : Nat := 2;
    (i < ctz x)) ∧
  (let x : W := (8 : W);
    (ctz x < 64)) ∧
  (let x : W := (8 : W);
    let i : Nat := 63;
    (i < 64) ∧ (BitVec.getLsbD x i = false)) ∧
  (let i : Nat := 63;
    (i < 64)) :=
  by and_intros <;> decide +kernel

/-- States and operands that meet the hypotheses of `PlanOfAnExchange`, clause by clause. -/
theorem meets_PlanOfAnExchange :
  let s : Machine.State := (arbited (exch0 [post0 0, post0 1]) xif0);
    let x : Exch := (exch0 [post0 0, post0 1]);
    (s.exch x.xid x.vdev = some x) ∧ (x.mainFull = none) ∧ ((List.map (fun x => x.rank) x.posts).Nodup) ∧ (∀ (r : Nat), r < x.nrank → ∃ p, p ∈
      x.posts ∧ p.rank = r) ∧ (∀ (p : Post), p ∈ x.posts → p.rank < x.nrank ∧ destsDistinct p.pairs = true ∧ ∀ (y : Nat × Nat × Nat), y ∈ p.pairs →
      y.fst < x.nrank) :=
  by and_intros <;> decide +kernel

/-- States and operands that meet the hypotheses of `OutsideEvents`, clause by clause. -/
theorem meets_OutsideEvents :
  (let s : Machine.State := outer;
    let link : Nat := 0;
    let fn : Nat := 1;
    let addr : Nat := 0x400000;
    let len : Nat := 8;
    (¬∃ x, x ∈ (s.func link fn).windows ∧ x.fst ≤ addr ∧ addr + len ≤ x.fst + x.snd)) ∧
  (let s : Machine.State := outer;
    let link : Nat := 0;
    let fn : Nat := 1;
    let addr : Nat := 0x204000;
    let len : Nat := 8;
    (∃ x, x ∈ (s.func link fn).windows ∧ x.fst ≤ addr ∧ addr + len ≤ x.fst + x.snd) ∧ (islandOwns s (regionsOf (addr, false) len))) ∧
  (let s : Machine.State := outer;
    let link : Nat := 0;
    let fn : Nat := 1;
    let addr : Nat := 0x204000;
    let len : Nat := 8;
    (∃ x, x ∈ (s.func link fn).windows ∧ x.fst ≤ addr ∧ addr + len ≤ x.fst + x.snd) ∧ (islandOwns s (regionsOf (addr, false) len))) ∧
  (let s : Machine.State := outer;
    let link : Nat := 0;
    let fn : Nat := 1;
    let addr : Nat := 0x204000;
    let len : Nat := 8;
    (∃ x, x ∈ (s.func link fn).windows ∧ x.fst ≤ addr ∧ addr + len ≤ x.fst + x.snd) ∧ (islandOwns s (regionsOf (addr, false) len))) ∧
  (let s : Machine.State := outerF;
    let link : Nat := 0;
    let fn : Nat := 1;
    let addr : Nat := 0x204000;
    let len : Nat := 8;
    let r : Nat := 1;
    (∃ x, x ∈ (s.func link fn).windows ∧ x.fst ≤ addr ∧ addr + len ≤ x.fst + x.snd) ∧ (regionsOf (addr, false) len = [r]) ∧ ((s.own r).owner =
      Owner.fabric) ∧ ((s.own r).waiting = [])) ∧
  (let s : Machine.State := outerF;
    let link : Nat := 0;
    let fn : Nat := 1;
    let addr : Nat := 0x204000;
    let len : Nat := 8;
    let r : Nat := 1;
    (∃ x, x ∈ (s.func link fn).windows ∧ x.fst ≤ addr ∧ addr + len ≤ x.fst + x.snd) ∧ (regionsOf (addr, false) len = [r]) ∧ ((s.own r).owner =
      Owner.fabric) ∧ ((s.own r).waiting = [])) ∧
  (let s : Machine.State := outerF;
    let link : Nat := 0;
    let fn : Nat := 1;
    let addr : Nat := 0x204000;
    let len : Nat := 8;
    let r : Nat := 1;
    (∃ x, x ∈ (s.func link fn).windows ∧ x.fst ≤ addr ∧ addr + len ≤ x.fst + x.snd) ∧ (regionsOf (addr, false) len = [r]) ∧ ((s.own r).owner =
      Owner.fabric) ∧ ((s.own r).waiting = [])) ∧
  (let s : Machine.State := outer;
    let link : Nat := 0;
    let fn : Nat := 1;
    let addr : Nat := 0x3FFFFC;
    let bytes : List Byte := (List.replicate 8 (0 : Byte));
    (¬∃ x, x ∈ (s.func link fn).windows ∧ x.fst ≤ addr ∧ addr + bytes.length ≤ x.fst + x.snd)) ∧
  (let s : Machine.State := outer;
    let link : Nat := 0;
    let fn : Nat := 1;
    let addr : Nat := 0x3FFFF8;
    let bytes : List Byte := (List.replicate 8 (0 : Byte));
    (∃ x, x ∈ (s.func link fn).windows ∧ x.fst ≤ addr ∧ addr + bytes.length ≤ x.fst + x.snd) ∧ (islandOwns s (regionsOf (addr, false) bytes.length))
      ∧ (s.edge.wf = true)) ∧
  (let s : Machine.State := outer;
    let link : Nat := 0;
    let fn : Nat := 1;
    let addr : Nat := 0x204000;
    let bytes : List Byte := (List.replicate 8 (0 : Byte));
    let b : Nat := 0x204008;
    (∃ x, x ∈ (s.func link fn).windows ∧ x.fst ≤ addr ∧ addr + bytes.length ≤ x.fst + x.snd) ∧ (islandOwns s (regionsOf (addr, false) bytes.length))
      ∧ ((s.edge.wf = true) ∧ (b < addr ∨ addr + bytes.length ≤ b))) ∧
  (let s : Machine.State := outer;
    let link : Nat := 0;
    let fn : Nat := 1;
    let addr : Nat := 0x204000;
    let bytes : List Byte := (List.replicate 8 (0 : Byte));
    (∃ x, x ∈ (s.func link fn).windows ∧ x.fst ≤ addr ∧ addr + bytes.length ≤ x.fst + x.snd) ∧ (islandOwns s (regionsOf (addr, false) bytes.length))
      ∧ (s.edge.wf = true)) ∧
  (let off : Nat := 0x10000;
    (off % 8 = 0)) ∧
  (let off : Nat := 0x10004;
    let bytes : List Byte := (List.replicate 8 (0 : Byte));
    (bytes.length ≠ 4 ∧ bytes.length ≠ 8 ∨ off % bytes.length ≠ 0 ∨ off < 65536 ∨ 229376 ≤ off)) ∧
  (let s : Machine.State := outer;
    let link : Nat := 0;
    let fn : Nat := 1;
    let off : Nat := 0x10000;
    let bytes : List Byte := (List.replicate 4 (0 : Byte));
    let q : QCtx := (⟨4, 0, 0, 1, 0, 8, 4, 0x4000, 0, 0, false, 3, true⟩ : QCtx);
    (65536 ≤ off) ∧ (off < 131072) ∧ (off % 8 = 0) ∧ (bytes.length = 4 ∨ bytes.length = 8) ∧ ((List.filter (fun q => q.link == link && q.fn == fn)
      s.qctxs)[(off - 65536) / 8]? = some q) ∧ (∀ (x : QCtx), x ∈ s.qctxs → x.num = q.num → x = q)) ∧
  (let s : Machine.State := outer;
    let link : Nat := 0;
    let fn : Nat := 1;
    let off : Nat := 0x20000;
    let bytes : List Byte := (List.replicate 8 (0 : Byte));
    let q : QCtx := (⟨4, 0, 0, 1, 0, 8, 4, 0x4000, 0, 0, false, 3, true⟩ : QCtx);
    (131072 ≤ off) ∧ (off < 196608) ∧ (off % 8 = 0) ∧ (bytes.length = 8) ∧ ((List.filter (fun q => q.link == link && q.fn == fn) s.qctxs)[(off -
      131072) / 8]? = some q)) ∧
  (let s : Machine.State := outer;
    let link : Nat := 0;
    let fn : Nat := 1;
    let off : Nat := 0x30018;
    let bytes : List Byte := (List.replicate 4 (0 : Byte));
    let b : Nat := 63;
    (196608 ≤ off) ∧ (off < 229376) ∧ (bytes.length = 4 ∨ bytes.length = 8) ∧ (off % bytes.length = 0) ∧ ((off - 196608) / 16 < (s.func link
      fn).vectors) ∧ (b < 64)) ∧
  (let s : Machine.State := outer;
    let link : Nat := 0;
    let fn : Nat := 1;
    let off : Nat := 0x30018;
    let bytes : List Byte := (List.replicate 8 (0 : Byte));
    (196608 ≤ off) ∧ (off < 229376) ∧ (bytes.length = 4 ∨ bytes.length = 8) ∧ (off % bytes.length = 0) ∧ ((off - 196608) / 16 < (s.func link
      fn).vectors) ∧ ((s.func link fn).pending.contains ((off - 196608) / 16) = true) ∧ (BitVec.getLsbD (if off % 16 < 8 then (((outside
      (Outside.barWrite link fn off bytes) s).func link fn).entry ((off - 196608) / 16)).fst else (((outside (Outside.barWrite link fn off bytes)
      s).func link fn).entry ((off - 196608) / 16)).snd) 32 = false) ∧ (8 ≤ off % 16)) ∧
  (let s : Machine.State := outer;
    let link : Nat := 0;
    let fn : Nat := 1;
    let off : Nat := 0x30018;
    let bytes : List Byte := (List.replicate 8 (0 : Byte));
    (196608 ≤ off) ∧ (off < 229376) ∧ (bytes.length = 4 ∨ bytes.length = 8) ∧ (off % bytes.length = 0) ∧ ((off - 196608) / 16 < (s.func link
      fn).vectors) ∧ ((s.func link fn).pending.contains ((off - 196608) / 16) = true) ∧ (BitVec.getLsbD (if off % 16 < 8 then (((outside
      (Outside.barWrite link fn off bytes) s).func link fn).entry ((off - 196608) / 16)).fst else (((outside (Outside.barWrite link fn off bytes)
      s).func link fn).entry ((off - 196608) / 16)).snd) 32 = false) ∧ (8 ≤ off % 16)) ∧
  (let s : Machine.State := outer;
    let link : Nat := 0;
    let fn : Nat := 1;
    let off : Nat := 0x30000;
    let bytes : List Byte := (List.replicate 4 (0 : Byte));
    (196608 ≤ off) ∧ (off < 229376) ∧ (bytes.length = 4 ∨ bytes.length = 8) ∧ (off % bytes.length = 0) ∧ ((off - 196608) / 16 < (s.func link
      fn).vectors) ∧ ((s.func link fn).pending.contains ((off - 196608) / 16) = false ∨ BitVec.getLsbD (if off % 16 < 8 then (((outside
      (Outside.barWrite link fn off bytes) s).func link fn).entry ((off - 196608) / 16)).fst else (((outside (Outside.barWrite link fn off bytes)
      s).func link fn).entry ((off - 196608) / 16)).snd) 32 = true ∧ 8 ≤ off % 16)) ∧
  (let s : Machine.State := outer;
    let link : Nat := 0;
    let fn : Nat := 1;
    let off : Nat := 0x30000;
    let bytes : List Byte := (List.replicate 4 (0 : Byte));
    (196608 ≤ off) ∧ (off < 229376) ∧ (bytes.length = 4 ∨ bytes.length = 8) ∧ (off % bytes.length = 0) ∧ ((off - 196608) / 16 < (s.func link
      fn).vectors) ∧ ((s.func link fn).pending.contains ((off - 196608) / 16) = false ∨ BitVec.getLsbD (if off % 16 < 8 then (((outside
      (Outside.barWrite link fn off bytes) s).func link fn).entry ((off - 196608) / 16)).fst else (((outside (Outside.barWrite link fn off bytes)
      s).func link fn).entry ((off - 196608) / 16)).snd) 32 = true ∧ 8 ≤ off % 16)) ∧
  (let s : Machine.State := outer;
    let addr : Nat := 0x204000;
    (addr % 8 = 0) ∧ (islandOwns s (regionsOf (addr, false) 8))) ∧
  (let s : Machine.State := outer;
    let addr : Nat := 0x204000;
    let bytes : List Byte := (List.replicate 8 (0 : Byte));
    (islandOwns s (regionsOf (addr, false) bytes.length)) ∧ (s.edge.wf = true)) ∧
  (let s : Machine.State := outer;
    let addr : Nat := 0x204000;
    let bytes : List Byte := (List.replicate 8 (0 : Byte));
    let b : Nat := 0x204008;
    (islandOwns s (regionsOf (addr, false) bytes.length)) ∧ ((s.edge.wf = true) ∧ (b < addr ∨ addr + bytes.length ≤ b))) ∧
  (let s : Machine.State := outer;
    let pasid : Nat := 8;
    let va : Nat := 0x5000;
    (translate s pasid va true = none)) ∧
  (let s : Machine.State := outer;
    let pasid : Nat := 8;
    let va : Nat := 0x4000;
    let width : Nat := 8;
    let p : Nat × Bool := ((0x204000, false) : Nat × Bool);
    (translate s pasid va true = some p) ∧ (islandOwns s (regionsOf p width)) ∧ ((s.edge.wf = true) ∧ (s.hostMem.wf = true) ∧ (width = 4 ∨ width =
      8))) ∧
  (let s : Machine.State := outer;
    let pasid : Nat := 8;
    let va : Nat := 0x4000;
    let width : Nat := 8;
    let p : Nat × Bool := ((0x204000, false) : Nat × Bool);
    let z : W := (0x70605 : W);
    (translate s pasid va true = some p) ∧ (islandOwns s (regionsOf p width)) ∧ ((s.edge.wf = true) ∧ (s.hostMem.wf = true) ∧ (width = 4 ∨ width =
      8) ∧ (leNat (s.ebytes p width) = BitVec.toNat z % 256 ^ width))) ∧
  (let s : Machine.State := outer;
    let pasid : Nat := 8;
    let va : Nat := 0x4000;
    let width : Nat := 8;
    let p : Nat × Bool := ((0x204000, false) : Nat × Bool);
    let z : W := (0 : W);
    (translate s pasid va true = some p) ∧ (islandOwns s (regionsOf p width)) ∧ ((s.edge.wf = true) ∧ (s.hostMem.wf = true) ∧ (width = 4 ∨ width =
      8) ∧ (leNat (s.ebytes p width) ≠ BitVec.toNat z % 256 ^ width))) ∧
  (let s : Machine.State := outer;
    let pasid : Nat := 8;
    let va : Nat := 0x4000;
    let width : Nat := 8;
    let p : Nat × Bool := ((0x204000, false) : Nat × Bool);
    let z : W := (0 : W);
    (translate s pasid va true = some p) ∧ (islandOwns s (regionsOf p width)) ∧ ((s.edge.wf = true) ∧ (s.hostMem.wf = true) ∧ (width = 4 ∨ width =
      8) ∧ (leNat (s.ebytes p width) ≠ BitVec.toNat z % 256 ^ width))) ∧
  (let s : Machine.State := outer;
    let x : Outside := (.setPasid 8 false 1);
    ((∃ a b c, x = Outside.setPasid a b c) ∨ (∃ l, x = Outside.writeTables l) ∨ ∃ a b c d, x = Outside.bindFunction a b c d) ∧ (apart s = true)) ∧
  (let s : Machine.State := outer;
    let pasid : Nat := 8;
    let sv57 : Bool := true;
    let root : Nat := 1;
    (apart { s with pasids := List.filter (fun x => x.pasid != pasid) s.pasids ++ [{ pasid := pasid, sv57 := sv57, root := root }] } = true)) ∧
  (let s : Machine.State := outer;
    let ctx : Nat := 5;
    let vdev : Nat := 0;
    let link : Nat := 0;
    let fn : Nat := 1;
    let island : Nat := 0;
    let pasid : Nat := 8;
    let k : Nat := 12;
    let vec : Nat := 2047;
    let d : VDev := (⟨0, 0, 0, 2, 1, [5], [4, 5], [8], [], [16], 4⟩ : VDev);
    (List.find? (fun x => x.num == vdev) s.vdevs = some d) ∧ (link < 4 ∧ fn ≤ 256 ∧ island < 64 ∧ 4 ≤ k ∧ k ≤ 12 ∧ vec < 2048 ∧ s.qctx ctx = none ∧
      s.qctxs.length < 8192) ∧ (ctx ∈ d.ctxs) ∧ (pasid ∈ d.pasids) ∧ (d.isFn link fn = true)) ∧
  (let s : Machine.State := outer;
    let ctx : Nat := 6;
    let vdev : Nat := 0;
    let link : Nat := 0;
    let fn : Nat := 1;
    let pasid : Nat := 8;
    let d : VDev := (⟨0, 0, 0, 2, 1, [5], [4, 5], [8], [], [16], 4⟩ : VDev);
    (List.find? (fun x => x.num == vdev) s.vdevs = some d) ∧ (¬ctx ∈ d.ctxs ∨ ¬pasid ∈ d.pasids ∨ d.isFn link fn = false)) ∧
  (let s : Machine.State := outer;
    let ctx : Nat := 5;
    let link : Nat := 0;
    let fn : Nat := 1;
    let island : Nat := 64;
    let k : Nat := 4;
    let vec : Nat := 3;
    (¬(link < 4 ∧ fn ≤ 256 ∧ island < 64 ∧ 4 ≤ k ∧ k ≤ 12 ∧ vec < 2048 ∧ s.qctx ctx = none ∧ s.qctxs.length < 8192))) ∧
  (let port : Nat := 31;
    (port < 32)) ∧
  (let s : Machine.State := outer;
    let num : Nat := 9;
    let o : Storage := obj9;
    (List.find? (fun x => x.num == num) s.storage = some o)) ∧
  (let s : Machine.State := outer;
    let vni : Nat := 5;
    let r : Region := (outer.regions.headD (region5 none));
    (List.find? (fun x => x.vni == vni) s.regions = some r)) ∧
  (let s : Machine.State := outer;
    let t : Site := (⟨0, 0⟩ : Site);
    let addr : Nat := 0x2FFFFF;
    (s.gone t = false) ∧ ((logOf s.dead t).isSome = true) ∧ (addr < 3145728)) ∧
  (let s : Machine.State := outer;
    let t : Site := (⟨0, 0⟩ : Site);
    let addr : Nat := 0x2FFFFF;
    (s.gone t = false) ∧ ((logOf s.dead t).isSome = true) ∧ (addr < 3145728)) ∧
  (let s : Machine.State := outer;
    let t : Site := (⟨0, 0⟩ : Site);
    let addr : Nat := 0x2FFFFF;
    (s.gone t = false) ∧ ((logOf s.dead t).isSome = true) ∧ (addr < 3145728)) ∧
  (let s : Machine.State := outer;
    let c : CoreId := (⟨⟨0, 0⟩, .flow⟩ : CoreId);
    (s.gone c.site = false) ∧ ((logOf s.dead c.site).isSome = true)) ∧
  (let s : Machine.State := outer;
    let c : CoreId := (⟨⟨0, 0⟩, .flow⟩ : CoreId);
    let n : Nat := 31;
    (s.gone c.site = false) ∧ ((logOf s.dead c.site).isSome = true) ∧ (0 < n) ∧ (n < 32)) ∧
  (let s : Machine.State := outer;
    let c : CoreId := (⟨⟨0, 0⟩, .flow⟩ : CoreId);
    let n : Nat := 15;
    (s.gone c.site = false) ∧ ((logOf s.dead c.site).isSome = true) ∧ (n < 16)) ∧
  (let addr : Nat := (edgeEnd - 1);
    (addr < edgeEnd)) ∧
  (let addr : Nat := (edgeEnd - 1);
    (addr < edgeEnd)) ∧
  (let s : Machine.State := treeDown;
    let island : Nat := 0;
    ((s.link (treeLink island false)).down = true)) ∧
  (let s : Machine.State := (runsAt (inst 2 [0, 1] [0, 1] [[5], [6]]) (y2 2) id);
    let island : Nat := 0;
    (treeBusy s island = true)) ∧
  (let s : Machine.State := outer;
    let island : Nat := 0;
    ((s.link (treeLink island false)).down = false) ∧ (treeBusy s island = false)) ∧
  (let n : Nat := 15;
    (6 ≤ n) ∧ (n ≤ 15)) ∧
  (let n : Nat := 15;
    let m : Nat := 0;
    (m < 16) ∧ (m ≠ n)) ∧
  (let n : Nat := 16;
    (n < 6 ∨ 15 < n)) :=
  ⟨by and_intros <;> decide +kernel,
    ⟨by decide +kernel, by delta islandOwns; decide +kernel⟩,
    ⟨by decide +kernel, by delta islandOwns; decide +kernel⟩,
    ⟨by decide +kernel, by delta islandOwns; decide +kernel⟩,
    by and_intros <;> decide +kernel,
    by and_intros <;> decide +kernel,
    by and_intros <;> decide +kernel,
    by and_intros <;> decide +kernel,
    ⟨by decide +kernel, by delta islandOwns; decide +kernel, by decide +kernel⟩,
    ⟨by decide +kernel, by delta islandOwns; decide +kernel, by and_intros <;> decide +kernel⟩,
    ⟨by decide +kernel, by delta islandOwns; decide +kernel, by decide +kernel⟩,
    by and_intros <;> decide +kernel,
    by and_intros <;> decide +kernel,
    by and_intros <;> decide +kernel,
    by and_intros <;> decide +kernel,
    by and_intros <;> decide +kernel,
    by and_intros <;> decide +kernel,
    by and_intros <;> decide +kernel,
    by and_intros <;> decide +kernel,
    by and_intros <;> decide +kernel,
    ⟨by decide +kernel, by delta islandOwns; decide +kernel⟩,
    ⟨by delta islandOwns; decide +kernel, by decide +kernel⟩,
    ⟨by delta islandOwns; decide +kernel, by and_intros <;> decide +kernel⟩,
    by and_intros <;> decide +kernel,
    ⟨by decide +kernel, by delta islandOwns; decide +kernel, by and_intros <;> decide +kernel⟩,
    ⟨by decide +kernel, by delta islandOwns; decide +kernel, by and_intros <;> decide +kernel⟩,
    ⟨by decide +kernel, by delta islandOwns; decide +kernel, by and_intros <;> decide +kernel⟩,
    ⟨by decide +kernel, by delta islandOwns; decide +kernel, by and_intros <;> decide +kernel⟩,
    ⟨.inl ⟨_, _, _, rfl⟩, by decide +kernel⟩,
    by and_intros <;> decide +kernel,
    by and_intros <;> decide +kernel,
    by and_intros <;> decide +kernel,
    by and_intros <;> decide +kernel,
    by and_intros <;> decide +kernel,
    by and_intros <;> decide +kernel,
    by and_intros <;> decide +kernel,
    by and_intros <;> decide +kernel,
    by and_intros <;> decide +kernel,
    by and_intros <;> decide +kernel,
    by and_intros <;> decide +kernel,
    by and_intros <;> decide +kernel,
    by and_intros <;> decide +kernel,
    by and_intros <;> decide +kernel,
    by and_intros <;> decide +kernel,
    by and_intros <;> decide +kernel,
    by and_intros <;> decide +kernel,
    by and_intros <;> decide +kernel,
    by and_intros <;> decide +kernel,
    by and_intros <;> decide +kernel,
    by and_intros <;> decide +kernel⟩

/-- States and operands that meet the hypotheses of `SpecialFunctions`, clause by clause. -/
theorem meets_SpecialFunctions :
  (let f : FVal → FVal × Nat := fsqrt;
    (f ∈ [fsqrt, frsq, flog2])) ∧
  (let f : FVal → FVal × Nat := frsq;
    let m : Nat := 1;
    (f ∈ [fsqrt, frsq, flog2]) ∧ (m ≠ 0)) ∧
  (let f : FVal → FVal × Nat := fexp2;
    (f ∈ [fsqrt, frsq, frcp, fexp2, flog2, fsinpi, fcospi])) ∧
  (let m : Nat := 3;
    let k : Nat := 10;
    (0 < m) ∧ (m * 2 ^ k < 4096)) ∧
  (let m : Nat := 1;
    (0 < m)) ∧
  (let m : Nat := 1;
    (0 < m)) ∧
  (let m : Nat := 1;
    (m % 2 = 1)) ∧
  (let m : Nat := 1;
    (m % 2 = 1)) ∧
  (let m : Nat := 1;
    let n : Nat := 1;
    (m ≠ 0) ∧ (n ≠ 0)) ∧
  (let m : Nat := 1;
    (m ≠ 0)) ∧
  (let m : Nat := 1;
    (m ≠ 0)) :=
  ⟨List.mem_cons_self,
    ⟨.tail _ (.head _), by decide +kernel⟩,
    .tail _ (.tail _ (.tail _ (.head _))),
    by and_intros <;> decide +kernel,
    by and_intros <;> decide +kernel,
    by and_intros <;> decide +kernel,
    by and_intros <;> decide +kernel,
    by and_intros <;> decide +kernel,
    by and_intros <;> decide +kernel,
    by and_intros <;> decide +kernel,
    by and_intros <;> decide +kernel⟩

/-- States and operands that meet the hypotheses of `IdentityRegisters`, clause by clause. -/
theorem meets_IdentityRegisters :
  (let c : CoreId := (⟨⟨125, 125⟩, .math⟩ : CoreId);
    (c.site.x < 126) ∧ (c.site.y < 126)) ∧
  (let s : Machine.State := (mat i8 i8 0 0 (chained 3 0 0 []));
    let c : CoreId := (⟨⟨0, 0⟩, .math⟩ : CoreId);
    ((s.tile c.site).chain.state < 4)) ∧
  (let s : Machine.State := (on .flow fun k => { k with inj := List.replicate 64 0, ext := List.replicate 64 0 });
    let c : CoreId := (⟨⟨0, 0⟩, .flow⟩ : CoreId);
    ((s.core c).inj.length ≤ 64) ∧ ((s.core c).ext.length ≤ 64)) :=
  by and_intros <;> decide +kernel

end

end Sys2Proof.Tests
end

section
/-! PROOF. R89 to R91: the products, the division forms and the selections of the scalar page. Each such form writes a function of g[b] and g[c]
to g[a] (`ggg`); one lemma says what issuing it comes to, and lemmas about the functions give the values. -/

namespace Sys2Proof

open Machine

/-! ### Forms that write a function of two registers -/

/-- What a change of the current core may know: the core that it changes. -/
theorem modMe_congr {s : State} {f g : Core → Core} (h : f s.me = g s.me) : s.modMe f = s.modMe g :=
  congrArg (s.setCore s.cur) h

/-- A clear instruction whose body is `ggg f` completes with `f` of g[b] and g[c] in g[a]. -/
theorem completes_of_ggg {i : Instr} {r : Row} {e : Enc} {s : State} {f : W → W → W} (hr : rowOf i = some r) (he : encOf i = some e)
    (hx : exec i s = issue i {} (fun _ e s => ggg f e s) s) (hc : clear i s = true) :
    Completes i e s ((seen s).modMe fun k => k.writeW e.L .g e.a (f ((seen s).me.g e.b) ((seen s).me.g e.c))) := by
  rw [Completes, hx, issue_clear hr he hc rfl rfl rfl, ggg, finish_ok, past]
  exact congrArg (fun t => Host.Outcome.next (advance t _ _ _)) (modMe_congr rfl)

/-! ### Products (R89) -/

/-- Bits [127:64] of an integer held in 128 bits. -/
theorem upper_ofInt (p : Int) : (BitVec.ofInt 128 p).extractLsb' 64 64 = BitVec.ofInt 64 (p / 2 ^ 64) := by
  apply BitVec.eq_of_toNat_eq
  simp only [BitVec.extractLsb'_toNat, BitVec.toNat_ofInt, Nat.shiftRight_eq_div_pow]
  omega

/-- The low half of a product is the product of the low halves. -/
theorem low_product (x y : W) : (x.zeroExtend 128 * y.zeroExtend 128).extractLsb' 0 64 = x * y := by
  apply BitVec.eq_of_toNat_eq
  simp [BitVec.extractLsb'_toNat]

theorem mulhS_eq_upper (x y : W) : mulhS x y = (x.signExtend 128 * y.signExtend 128).extractLsb' 64 64 := by
  have hprod : x.signExtend 128 * y.signExtend 128 = BitVec.ofInt 128 (x.toInt * y.toInt) := (BitVec.ofInt_mul _ _).symm
  rw [hprod, upper_ofInt, mulhS]

theorem mulhU_eq_upper (x y : W) : mulhU x y = (x.zeroExtend 128 * y.zeroExtend 128).extractLsb' 64 64 := by
  have hprod : x.zeroExtend 128 * y.zeroExtend 128 = BitVec.ofInt 128 ((x.toNat * y.toNat : Nat) : Int) := by
    rw [BitVec.ofInt_natCast, BitVec.ofNat_mul, BitVec.ofNat_toNat, BitVec.ofNat_toNat]
  rw [hprod, upper_ofInt, mulhU, w, ← BitVec.ofInt_natCast]
  rfl

/-- Settles O10: the low half by truncation, the upper halves as quotients of the exact product. -/
theorem products : Obligations.Products := by
  intro e s
  refine ⟨fun hc => ?mul, fun hc => ?mulh, fun hc => ?mulhu⟩
  case mul => rw [low_product]; exact completes_of_ggg rfl rfl (exec_mul e s) hc
  case mulh => rw [← mulhS_eq_upper]; exact completes_of_ggg rfl rfl (exec_mulh e s) hc
  case mulhu => rw [← mulhU_eq_upper]; exact completes_of_ggg rfl rfl (exec_mulhu e s) hc

/-! ### Division (R90) -/

theorem divS_zero (x : W) : divS x 0 = BitVec.allOnes 64 := rfl
theorem remS_zero (x : W) : remS x 0 = x := rfl
theorem divU_zero (x : W) : divU x 0 = BitVec.allOnes 64 := rfl
theorem remU_zero (x : W) : remU x 0 = x := rfl

/-- The signed quotient is the truncated one but where −2^63 is divided by −1. -/
theorem toInt_divS {x y : W} (hy : y ≠ 0) (hc : ¬(x = BitVec.intMin 64 ∧ y = BitVec.allOnes 64)) :
    (divS x y).toInt = x.toInt.tdiv y.toInt := by
  rw [divS, if_neg hy]
  exact BitVec.toInt_sdiv_of_ne_or_ne x y (Decidable.not_and_iff_not_or_not.mp hc)

theorem toInt_remS (x y : W) : (remS x y).toInt = x.toInt.tmod y.toInt := by
  unfold remS
  split
  · next hy => rw [hy]; exact (Int.tmod_zero x.toInt).symm
  · exact BitVec.toInt_srem x y

/-- The truncated remainder takes the sign of the dividend. -/
theorem tmod_sign (a b : Int) : a.tmod b = 0 ∨ (a.tmod b < 0 ↔ a < 0) := by
  by_cases hb : b ∣ a
  · exact .inl (Int.tmod_eq_zero_of_dvd hb)
  · exact .inr (by rw [← Int.sign_neg_iff, Int.sign_tmod, if_neg hb, Int.sign_neg_iff])

/-- The truncated remainder is smaller than the divisor. -/
theorem natAbs_tmod_lt (a : Int) {b : Int} (hb : b ≠ 0) : (a.tmod b).natAbs < b.natAbs := by
  rw [Int.natAbs_tmod]
  exact Nat.mod_lt _ (Int.natAbs_pos.mpr hb)

theorem divS_mul_add_remS {x y : W} (hy : y ≠ 0) (hc : ¬(x = BitVec.intMin 64 ∧ y = BitVec.allOnes 64)) :
    (divS x y).toInt * y.toInt + (remS x y).toInt = x.toInt := by
  rw [toInt_divS hy hc, toInt_remS]
  exact Int.tdiv_mul_add_tmod _ _

theorem divU_mul_add_remU {x y : W} (hy : y ≠ 0) : (divU x y).toNat * y.toNat + (remU x y).toNat = x.toNat := by
  rw [divU, remU, if_neg hy, if_neg hy]
  exact Nat.div_add_mod' _ _

theorem remU_lt {x y : W} (hy : y ≠ 0) : (remU x y).toNat < y.toNat := by
  rw [remU, if_neg hy]
  exact Nat.mod_lt _ (Nat.pos_of_ne_zero fun h => hy (BitVec.eq_of_toNat_eq h))

/-- −2^63 divided by −1: the quotient 2^63 wraps around to −2^63. -/
theorem divS_remS_overflow :
    divS 0x8000000000000000 (BitVec.allOnes 64) = 0x8000000000000000 ∧ remS 0x8000000000000000 (BitVec.allOnes 64) = 0 := by
  decide

/-- Settles O11: the quotients and remainders are `divS`, `remS`, `divU` and `remU`; a zero divisor and the overflow stand apart. -/
theorem division : Obligations.Division := by
  intro e s x y gives least
  refine ⟨divS x y, remS x y, divU x y, remU x y, completes_of_ggg rfl rfl (exec_div e s), completes_of_ggg rfl rfl (exec_rem e s),
    completes_of_ggg rfl rfl (exec_divu e s), completes_of_ggg rfl rfl (exec_remu e s), ?signed, ?unsigned, ?zero, ?overflow⟩
  case signed =>
    intro hy hc
    have hy' : y.toInt ≠ 0 := fun h => hy (BitVec.eq_of_toInt_eq h)
    refine ⟨toInt_divS hy hc, divS_mul_add_remS hy hc, ?_⟩
    rw [toInt_remS]
    exact ⟨natAbs_tmod_lt _ hy', tmod_sign _ _⟩
  case unsigned => exact fun hy => ⟨divU_mul_add_remU hy, remU_lt hy⟩
  case zero =>
    intro hy
    rw [hy]
    exact ⟨divS_zero x, remS_zero x, divU_zero x, remU_zero x⟩
  case overflow =>
    intro hx hy
    rw [hx, hy]
    exact divS_remS_overflow

/-! ### Selections (R91) -/

theorem select_eq_or_eq (b : Bool) (x y : W) : (if b then x else y) = x ∨ (if b then x else y) = y := by
  split
  · exact .inl rfl
  · exact .inr rfl

/-- A test that tells in which order `R` two operands stand selects the one that stands before both. -/
theorem select_before {R : W → W → Prop} {x y : W} {b : Bool} (refl : ∀ z, R z z) (htrue : b = true → R x y) (hfalse : ¬b = true → R y x) :
    R (if b then x else y) x ∧ R (if b then x else y) y := by
  split
  · next h => exact ⟨refl x, htrue h⟩
  · next h => exact ⟨hfalse h, refl y⟩

theorem toInt_le_of_slt {x y : W} (h : x.slt y = true) : x.toInt ≤ y.toInt :=
  Int.le_of_lt (BitVec.slt_iff_toInt_lt.mp h)
theorem toInt_le_of_not_slt {x y : W} (h : ¬x.slt y = true) : y.toInt ≤ x.toInt :=
  Int.not_lt.mp (mt BitVec.slt_iff_toInt_lt.mpr h)
theorem toNat_le_of_ult {x y : W} (h : x.ult y = true) : x.toNat ≤ y.toNat :=
  Nat.le_of_lt (BitVec.ult_iff_toNat_lt.mp h)
theorem toNat_le_of_not_ult {x y : W} (h : ¬x.ult y = true) : y.toNat ≤ x.toNat :=
  Nat.not_lt.mp (mt BitVec.ult_iff_toNat_lt.mpr h)

/-! The four selections: for MAX and MAXU the operand taken stands before both in the reversed order. -/

theorem select_slt_le (x y : W) : (if x.slt y then x else y).toInt ≤ x.toInt ∧ (if x.slt y then x else y).toInt ≤ y.toInt :=
  select_before (R := fun a b => a.toInt ≤ b.toInt) (fun _ => Int.le_refl _) toInt_le_of_slt toInt_le_of_not_slt
theorem le_select_slt (x y : W) : x.toInt ≤ (if x.slt y then y else x).toInt ∧ y.toInt ≤ (if x.slt y then y else x).toInt :=
  (select_before (R := fun a b => b.toInt ≤ a.toInt) (fun _ => Int.le_refl _) toInt_le_of_slt toInt_le_of_not_slt).symm
theorem select_ult_le (x y : W) : (if x.ult y then x else y).toNat ≤ x.toNat ∧ (if x.ult y then x else y).toNat ≤ y.toNat :=
  select_before (R := fun a b => a.toNat ≤ b.toNat) (fun _ => Nat.le_refl _) toNat_le_of_ult toNat_le_of_not_ult
theorem le_select_ult (x y : W) : x.toNat ≤ (if x.ult y then y else x).toNat ∧ y.toNat ≤ (if x.ult y then y else x).toNat :=
  (select_before (R := fun a b => b.toNat ≤ a.toNat) (fun _ => Nat.le_refl _) toNat_le_of_ult toNat_le_of_not_ult).symm

/-- A clear instruction whose body is `ggg f`, with `f` a selection of which `P` holds, completes with a selected operand of which it holds. -/
theorem completes_of_selection {i : Instr} {r : Row} {e : Enc} {s : State} {f : W → W → W} {P : W → Prop} (hr : rowOf i = some r)
    (he : encOf i = some e) (hx : exec i s = issue i {} (fun _ e s => ggg f e s) s) (hf : ∀ x y, f x y = x ∨ f x y = y)
    (hP : P (f ((seen s).me.g e.b) ((seen s).me.g e.c))) (hc : clear i s = true) :
    ∃ z, (z = (seen s).me.g e.b ∨ z = (seen s).me.g e.c) ∧ P z ∧
      Completes i e s ((seen s).modMe fun k => k.writeW e.L .g e.a z) :=
  ⟨_, hf _ _, hP, completes_of_ggg hr he hx hc⟩

/-- Settles O12: each form selects by one comparison, of the signed or of the unsigned values. -/
theorem minAndMax : Obligations.MinAndMax := by
  intro e s
  refine ⟨?min, ?max, ?minu, ?maxu⟩
  case min =>
    exact completes_of_selection rfl rfl (exec_min e s) (fun x y => select_eq_or_eq _ x y) (select_slt_le _ _)
  case max =>
    exact completes_of_selection rfl rfl (exec_max e s) (fun x y => (select_eq_or_eq _ y x).symm) (le_select_slt _ _)
  case minu =>
    exact completes_of_selection rfl rfl (exec_minu e s) (fun x y => select_eq_or_eq _ x y) (select_ult_le _ _)
  case maxu =>
    exact completes_of_selection rfl rfl (exec_maxu e s) (fun x y => (select_eq_or_eq _ y x).symm) (le_select_ult _ _)

end Sys2Proof
end
